-- ==== Sys2Proof/Word.lean ====
section
/-!
DEFINITION. The word types of the machine and their plainest arithmetic (R2, R7).
-/
namespace Sys2Proof

/-- A byte (R2). -/
abbrev Byte := BitVec 8
/-- A 32-bit word: a V register, an instruction word, a PC (R40). -/
abbrev W32 := BitVec 32
/-- A 64-bit word: an S register, a signet, a GLB address. -/
abbrev W64 := BitVec 64

/-- Bits `[lo + n - 1 : lo]` of a word, as a number (R2, R6). -/
def bits (w : Nat) (lo n : Nat) : Nat := w / 2 ^ lo % 2 ^ n

/-- The signed value of the low `n` bits of `x` (R7, `SX`). -/
def sx (x n : Nat) : Int :=
  let y := x % 2 ^ n
  if y < 2 ^ (n - 1) then (y : Int) else (y : Int) - 2 ^ n

end Sys2Proof
end

