-- ==== Sys2Proof/Config.lean ====
section
/-!
DEFINITION. What an implementation fixes and the values the spec leaves free. A free value is an opaque constant: nothing
can be proved of which value it takes.
-/
namespace Sys2Proof.Config

/-- FREE VALUE (R100): where in its error bound a special function of operation `op` at operand `x` falls. -/
opaque sfuPick (op : Nat) (x : W32) : Nat

/-- FREE VALUE: the `n`-th free byte of the run (bytes read under a wrong key, R345, R363). -/
opaque freeByte (n : Nat) : Byte

/-- FREE VALUE: the `n`-th free string of bytes of the run (sections of a dump that the spec lays out nowhere, R442). -/
opaque freeBytes (n : Nat) : List Byte

/-- FREE VALUE: the `n`-th free 64-bit value of the run (nonces, signatures, measurements and encodings that the
implementation chooses: R378, R452, R458, R460). -/
opaque freeWord (n : Nat) : W64

/-- FREE VALUE (R359, R360): whether access `n` of the run uses the segment or the heap triple from before a SEGLD or HEAPLD whose status has not
been written. -/
opaque seesOld (n : Nat) : Bool

/-- FREE VALUE (R458): the digest of the Plearis key that is fused into the module. -/
opaque fusedKey : BitVec 512

/-- FREE VALUE (R452): the session key that the identity key, which the spec does not give, decrypts from the words of a KEYX frame. -/
opaque openedKey (words : List W64) : BitVec 512

end Sys2Proof.Config
end

