-- ==== Sys2Proof/Syntax.lean ====
section
/-!
DEFINITION. The instructions and events as data (R61, R70 to R78, and the table of operations).
-/
namespace Sys2Proof

/-- The control fields of an instruction's first word (R61). -/
structure Ctl where
  c : BitVec 1
  s : BitVec 1
  g : BitVec 2
  y : BitVec 1
deriving DecidableEq, Repr

/-- The memory attribute word (R73). -/
structure Attr where
  off : BitVec 12
  seg : BitVec 3
  str : BitVec 4
  scp : BitVec 3
  ru  : BitVec 5
  ord : BitVec 2
  cp  : BitVec 3
deriving DecidableEq, Repr

/-- The matrix word of MQ, its reserved bits `[3:0]` included (R77). -/
structure MatWord where
  afmt : BitVec 4
  kb   : BitVec 2
  sco  : BitVec 10
  ncol : BitVec 8
  bid  : BitVec 3
  acc  : BitVec 1
  rsv  : BitVec 4
deriving DecidableEq, Repr

/-- The instructions and events of the machine: one constructor for each row of the table of operations. The control
fields C, S, G and Y are no part of an instruction: they stand in `Ctl`. -/
inductive Instr where
  /-- FWCALL (R388). Posts an event carrying k and S1 to S4 to the die's firmware core; the group stops until CTXCTL FWRET answers. -/
  | fwcall (k : BitVec 18)
  /-- TRAP (R387). Raises the precise fault TRAP with TCODE k. -/
  | trap (k : BitVec 18)
  /-- BKPT (R437). Raises the precise fault BKPT with TCODE k; with a debug session attached it halts the group instead. -/
  | bkpt (k : BitVec 18)
  /-- UNDEF (R387). SYS minor 7 raises ILLEGAL in every mode, whatever its fields. -/
  | undef (x : BitVec 18)
  /-- UNDEF_MAJOR (R81). Every word with major 0x3F raises ILLEGAL at issue. -/
  | undefMajor (x : BitVec 21)
  /-- IADD (R125). Each active lane writes (a + b) mod 2^32. -/
  | iadd (d a b : BitVec 6)
  /-- ISUB (R125). Each active lane writes (a - b) mod 2^32. -/
  | isub (d a b : BitVec 6)
  /-- IMIN (R125). Each active lane writes the signed minimum of a and b. -/
  | imin (d a b : BitVec 6)
  /-- IMAX (R125). Each active lane writes the signed maximum of a and b. -/
  | imax (d a b : BitVec 6)
  /-- IMINU (R125). Each active lane writes the unsigned minimum of a and b. -/
  | iminu (d a b : BitVec 6)
  /-- IMAXU (R125). Each active lane writes the unsigned maximum of a and b. -/
  | imaxu (d a b : BitVec 6)
  /-- IABSD (R125). Each active lane writes the unsigned absolute difference of the signed values a and b. -/
  | iabsd (d a b : BitVec 6)
  /-- IADDC (R126). Each active lane adds a, b and the P6 carry, and writes the sum to D and the carry out to P6. -/
  | iaddc (d a b : BitVec 6)
  /-- IMUL (R127). Each active lane writes the low 32 bits of a × b. -/
  | imul (d a b : BitVec 6)
  /-- IMULH (R127). Each active lane writes the high 32 bits of the signed product. -/
  | imulh (d a b : BitVec 6)
  /-- IMULHU (R127). Each active lane writes the high 32 bits of the unsigned product. -/
  | imulhu (d a b : BitVec 6)
  /-- IMAD (R127). Each active lane writes the low 32 bits of a × b + d. -/
  | imad (d a b : BitVec 6)
  /-- IDIV (R127). Each active lane's signed truncating division is sent to the quadrant's divider; the result has variable latency. -/
  | idiv (d a b : BitVec 6)
  /-- IDIVU (R127). Each active lane's unsigned division is sent to the divider; the result has variable latency. -/
  | idivu (d a b : BitVec 6)
  /-- IREM (R127). Each active lane's signed remainder is sent to the divider; the result has variable latency. -/
  | irem (d a b : BitVec 6)
  /-- IREMU (R127). Each active lane's unsigned remainder is sent to the divider; the result has variable latency. -/
  | iremu (d a b : BitVec 6)
  /-- AND (R129). Each active lane writes a AND b. -/
  | andd (d a b : BitVec 6)
  /-- OR (R129). Each active lane writes a OR b. -/
  | orr (d a b : BitVec 6)
  /-- XOR (R129). Each active lane writes a XOR b. -/
  | xor (d a b : BitVec 6)
  /-- ANDN (R129). Each active lane writes a AND NOT b. -/
  | andn (d a b : BitVec 6)
  /-- ORN (R129). Each active lane writes a OR NOT b. -/
  | orn (d a b : BitVec 6)
  /-- XNOR (R129). Each active lane writes NOT (a XOR b). -/
  | xnor (d a b : BitVec 6)
  /-- NOTB (R129). Each active lane writes NOT a. -/
  | notb (d a : BitVec 6)
  /-- SHL (R130). Each active lane shifts a left by n, giving 0 for n of 32 or more. -/
  | shl (d a b : BitVec 6)
  /-- SHR (R130). Each active lane shifts a logically right by n. -/
  | shr (d a b : BitVec 6)
  /-- SAR (R130). Each active lane shifts a arithmetically right by n. -/
  | sar (d a b : BitVec 6)
  /-- ROL (R130). Each active lane rotates a left by n mod 32. -/
  | rol (d a b : BitVec 6)
  /-- ROR (R130). Each active lane rotates a right by n mod 32. -/
  | ror (d a b : BitVec 6)
  /-- FSHL (R130). Each active lane funnel-shifts d:a left by min(n, 32) and keeps the high word. -/
  | fshl (d a b : BitVec 6)
  /-- FSHR (R130). Each active lane funnel-shifts d:a right by min(n, 32) and keeps the low word. -/
  | fshr (d a b : BitVec 6)
  /-- CLZ (R132). Each active lane writes the count of leading zero bits of a. -/
  | clz (d a : BitVec 6)
  /-- CTZ (R132). Each active lane writes the count of trailing zero bits of a. -/
  | ctz (d a : BitVec 6)
  /-- POPC (R132). Each active lane writes the count of one bits of a. -/
  | popc (d a : BitVec 6)
  /-- BREV (R132). Each active lane writes a with its bit order reversed. -/
  | brev (d a : BitVec 6)
  /-- BITIL (R133). Each active lane spreads the bits of a apart with s zero bits between them. -/
  | bitil (d a sp : BitVec 6)
  /-- BITDL (R133). Each active lane gathers every (s + 1)-th bit of a. -/
  | bitdl (d a sp : BitVec 6)
  /-- BYTEP (R134). Each active lane builds each result byte from a selected byte of a or d, or from its sign. -/
  | bytep (d a b : BitVec 6)
  /-- BFE (R135). Each active lane extracts a sign-extended bit field of a. -/
  | bfe (d a b : BitVec 6)
  /-- BFEU (R135). Each active lane extracts a zero-extended bit field of a. -/
  | bfeu (d a b : BitVec 6)
  /-- BFI (R135). Each active lane inserts the low bits of a into a field of d. -/
  | bfi (d a b : BitVec 6)
  /-- ICMP (R136). Each active lane compares V[A] with V[B] under the condition code and writes a P register. -/
  | icmp (d a b : BitVec 6) (k : BitVec 3)
  /-- IADDI (R137). Each active lane adds the sign-extended 9-bit immediate to a. -/
  | iaddi (d a : BitVec 6) (i : BitVec 9)
  /-- IANDI (R137). Each active lane ANDs a with the zero-extended immediate. -/
  | iandi (d a : BitVec 6) (i : BitVec 9)
  /-- IORI (R137). Each active lane ORs a with the zero-extended immediate. -/
  | iori (d a : BitVec 6) (i : BitVec 9)
  /-- IXORI (R137). Each active lane XORs a with the zero-extended immediate. -/
  | ixori (d a : BitVec 6) (i : BitVec 9)
  /-- SHLI (R131). Each active lane shifts a left by the immediate n. -/
  | shli (d a : BitVec 6) (n : BitVec 5)
  /-- SHRI (R131). Each active lane shifts a logically right by the immediate n. -/
  | shri (d a : BitVec 6) (n : BitVec 5)
  /-- SARI (R131). Each active lane shifts a arithmetically right by the immediate n. -/
  | sari (d a : BitVec 6) (n : BitVec 5)
  /-- ROLI (R131). Each active lane rotates a left by the immediate n. -/
  | roli (d a : BitVec 6) (n : BitVec 5)
  /-- ICMPI (R136). Each active lane compares V[A] with the sign-extended immediate and writes a P register. -/
  | icmpi (k p : BitVec 3) (a : BitVec 6) (i : BitVec 9)
  /-- LEA (R138). Each active lane writes a + (b << f) mod 2^32. -/
  | lea (d a b : BitVec 6) (f : BitVec 3)
  /-- MOVI (R139). Each active lane writes the sign-extended 15-bit immediate. -/
  | movi (d : BitVec 6) (i : BitVec 15)
  /-- MOVL (R140). Each active lane writes the 32-bit literal word to V[D]. -/
  | movl (d : BitVec 6) (lit : BitVec 32)
  /-- MOVL_SX (R140). Writes the sign-extended literal to S[D]. -/
  | movlSx (d : BitVec 6) (lit : BitVec 32)
  /-- MOVL_ZX (R140). Writes the zero-extended literal to S[D]. -/
  | movlZx (d : BitVec 6) (lit : BitVec 32)
  /-- MOVL_HI (R140). Writes the literal to S[D][63:32] and keeps the low half. -/
  | movlHi (d : BitVec 6) (lit : BitVec 32)
  /-- FADD (R149). Each active lane writes RNE(a + b) in FP32. -/
  | fadd (d a b : BitVec 6)
  /-- FSUB (R149). Each active lane writes RNE(a - b) in FP32. -/
  | fsub (d a b : BitVec 6)
  /-- FMUL (R149). Each active lane writes RNE(a × b) in FP32. -/
  | fmul (d a b : BitVec 6)
  /-- FMIN (R149). Each active lane writes minimumNumber(a, b). -/
  | fmin (d a b : BitVec 6)
  /-- FMAX (R149). Each active lane writes maximumNumber(a, b). -/
  | fmax (d a b : BitVec 6)
  /-- FMINM (R149). Each active lane writes minimum(a, b), with any NaN giving the canonical NaN. -/
  | fminm (d a b : BitVec 6)
  /-- FMAXM (R149). Each active lane writes maximum(a, b), with any NaN giving the canonical NaN. -/
  | fmaxm (d a b : BitVec 6)
  /-- FABSD (R149). Each active lane writes RNE(|a - b|). -/
  | fabsd (d a b : BitVec 6)
  /-- FFMA (R150). Each active lane writes the fused RNE(a × b + d). -/
  | ffma (d a b : BitVec 6)
  /-- FFMS (R150). Each active lane writes the fused RNE(a × b - d). -/
  | ffms (d a b : BitVec 6)
  /-- FNFMA (R150). Each active lane writes the fused RNE(-(a × b) - d). -/
  | fnfma (d a b : BitVec 6)
  /-- FNFMS (R150). Each active lane writes the fused RNE(-(a × b) + d). -/
  | fnfms (d a b : BitVec 6)
  /-- PKFMA (R151). Each active lane computes a packed BF16 fused multiply-add, one rounding per half. -/
  | pkfma (d a b : BitVec 6)
  /-- PKADD (R151). Each active lane computes a packed BF16 addition, one rounding per half. -/
  | pkadd (d a b : BitVec 6)
  /-- PKMUL (R151). Each active lane computes a packed BF16 multiplication, one rounding per half. -/
  | pkmul (d a b : BitVec 6)
  /-- PKFMA_F16 (R151). Each active lane computes a packed FP16 fused multiply-add, one rounding per half. -/
  | pkfmaF16 (d a b : BitVec 6)
  /-- FCMP (R152). Each active lane compares FP32 a and b under the condition code and writes a P register. -/
  | fcmp (d a b : BitVec 6) (k : BitVec 3)
  /-- FCVT (R154). Each active lane converts between floating formats, rounding once by the selected mode. -/
  | fcvt (d a : BitVec 6) (sp t m : BitVec 3)
  /-- FRND (R155). Each active lane rounds FP32 a to an integral FP32 value in the mode's direction. -/
  | frnd (d a : BitVec 6) (m : BitVec 3)
  /-- FCVTI (R156). Each active lane converts FP32 a to the integer type by R97. -/
  | fcvti (d a : BitVec 6) (t m : BitVec 3)
  /-- ICVTF (R157). Each active lane converts the integer to FP32, rounding once by the mode. -/
  | icvtf (d a : BitVec 6) (t m : BitVec 3)
  /-- FSCALEB (R158). Each active lane writes RNE(a × 2^n). -/
  | fscaleb (d a b : BitVec 6)
  /-- FREXPE (R158). Each active lane writes the unbiased exponent of a as INT32. -/
  | frexpe (d a : BitVec 6)
  /-- FREXPM (R158). Each active lane writes the normalised significand of a with a's sign. -/
  | frexpm (d a : BitVec 6)
  /-- FCLASS (R159). Each active lane writes a one-hot class mask of a. -/
  | fclass (d a : BitVec 6)
  /-- FSGNJ (R158). Each active lane writes a with the sign bit of b. -/
  | fsgnj (d a b : BitVec 6)
  /-- FSGNJN (R158). Each active lane writes a with the inverted sign bit of b. -/
  | fsgnjn (d a b : BitVec 6)
  /-- FABS (R158). Each active lane writes a with its sign bit cleared. -/
  | fabs (d a : BitVec 6)
  /-- FNEG (R158). Each active lane writes a with its sign bit inverted. -/
  | fneg (d a : BitVec 6)
  /-- FRCP (R160). Each active lane writes 1 / a within 1 ulp. -/
  | frcp (d a : BitVec 6)
  /-- FRSQ (R160). Each active lane writes 1 / sqrt(a) within 2 ulp. -/
  | frsq (d a : BitVec 6)
  /-- FSQRT (R160). Each active lane writes the correctly rounded sqrt(a). -/
  | fsqrt (d a : BitVec 6)
  /-- FEXP2 (R160). Each active lane writes 2^a within 2 ulp. -/
  | fexp2 (d a : BitVec 6)
  /-- FLOG2 (R160). Each active lane writes log2(a) within 2 ulp. -/
  | flog2 (d a : BitVec 6)
  /-- FSINT (R160). Each active lane writes the sine of a turns. -/
  | fsint (d a : BitVec 6)
  /-- FCOST (R160). Each active lane writes the cosine of a turns. -/
  | fcost (d a : BitVec 6)
  /-- FTANH (R160). Each active lane writes tanh(a) within 2 ulp. -/
  | ftanh (d a : BitVec 6)
  /-- FDIV (R161). Each active lane writes the correctly rounded a / b. -/
  | fdiv (d a b : BitVec 6)
  /-- FSINCOS_T (R161). Each active lane writes the sine and the cosine of a turns to a register pair. -/
  | fsincosT (d a : BitVec 6)
  /-- FERF (R161). Each active lane writes erf(a) within 3 ulp. -/
  | ferf (d a : BitVec 6)
  /-- SHFL_IDX (R165). Each active lane reads V[A] from the lane that its selector indexes. -/
  | shflIdx (d a b : BitVec 6)
  /-- SHFL_UP (R165). Each active lane reads V[A] from lane l - delta. -/
  | shflUp (d a b : BitVec 6)
  /-- SHFL_DOWN (R165). Each active lane reads V[A] from lane l + delta. -/
  | shflDown (d a b : BitVec 6)
  /-- SHFL_XOR (R165). Each active lane reads V[A] from lane l XOR mask. -/
  | shflXor (d a b : BitVec 6)
  /-- VOTE_ALL (R166). Every active lane receives true when P[A] is true in every active lane. -/
  | voteAll (d a : BitVec 6)
  /-- VOTE_ANY (R166). Every active lane receives true when P[A] is true in any active lane. -/
  | voteAny (d a : BitVec 6)
  /-- VOTE_BAL (R166). Every active lane receives the mask of active lanes whose P[A] is true. -/
  | voteBal (d a : BitVec 6)
  /-- MATCH (R166). Each active lane receives the mask of active lanes whose V[A] equals its own. -/
  | matchLanes (d a : BitVec 6)
  /-- LRED_ADD (R167). Every active lane receives the sum of V[A] over the active lanes. -/
  | lredAdd (d a : BitVec 6)
  /-- LRED_MIN (R167). Every active lane receives the signed minimum of V[A] over the active lanes. -/
  | lredMin (d a : BitVec 6)
  /-- LRED_MAX (R167). Every active lane receives the signed maximum of V[A] over the active lanes. -/
  | lredMax (d a : BitVec 6)
  /-- LSCAN_ADD (R167). Each active lane receives the inclusive prefix sum of V[A] in ascending lane order. -/
  | lscanAdd (d a : BitVec 6)
  /-- MOV (R168). Each active lane copies V[A] to V[D]. -/
  | mov (d a : BitVec 6)
  /-- MOVS (R168). Each active lane copies the low or high half of S[A] to V[D]. -/
  | movs (d a : BitVec 6) (h : BitVec 1)
  /-- SMOV (R168). Writes V[A] of the lowest active lane, zero-extended, to S[D]. -/
  | smov (d a : BitVec 6)
  /-- SMOVS (R168). Copies S[A] to S[D]. -/
  | smovs (d a : BitVec 6)
  /-- SEL (R168). Each active lane copies V[A] to V[D] when P[k], optionally negated, is true. -/
  | sel (d a : BitVec 6) (n : BitVec 1) (k : BitVec 3)
  /-- PMOV_P_FROM_V (R168). Each active lane sets P[D] to (V[A] ≠ 0). -/
  | pmovPFromV (d a : BitVec 6)
  /-- PMOV_V_FROM_P (R168). Each active lane sets V[D] to 1 if P[A], else 0. -/
  | pmovVFromP (d a : BitVec 6)
  /-- SREAD (R116). Reads a special or system register, sampled at issue, into a V or S register. -/
  | sread (d : BitVec 6) (k h : BitVec 1) (n : BitVec 9)
  /-- SREAD_TIME (R114). A read of TIME also latches the fraction of the same sample in the group. -/
  | sreadTime (d : BitVec 6) (k h : BitVec 1)
  /-- SREAD_TIMEF (R114). A read of TIMEF returns the latched fraction and clears the latch, or returns a fresh sample. -/
  | sreadTimef (d : BitVec 6) (k h : BitVec 1)
  /-- SWRITE (R117). Writes a register that has no behaviour of its own, taking effect at the end of the issue cycle. -/
  | swrite (d : BitVec 6) (k h : BitVec 1) (n : BitVec 9)
  /-- SWRITE_GST (R118). Stores a value into GST; flag or status updates landing in the same cycle are applied after it. -/
  | swriteGst (d : BitVec 6) (k h : BitVec 1)
  /-- SWRITE_RAFBASE (R342). Sets RAFBASE for a context and invalidates every TLB entry of that context in the package. -/
  | swriteRafbase (d : BitVec 6) (k h : BitVec 1)
  /-- SWRITE_CLKMODE (R396). Sets or clears locked-clock mode, taking effect at the end of the issue cycle. -/
  | swriteClkmode (d : BitVec 6) (k h : BitVec 1)
  /-- SADD (R141). Writes (S[A] + S[B]) mod 2^64 once per issue. -/
  | sadd (d a b : BitVec 6)
  /-- SSUB (R141). Writes (S[A] - S[B]) mod 2^64. -/
  | ssub (d a b : BitVec 6)
  /-- SAND (R141). Writes S[A] AND S[B]. -/
  | sand (d a b : BitVec 6)
  /-- SOR (R141). Writes S[A] OR S[B]. -/
  | sor (d a b : BitVec 6)
  /-- SXOR (R141). Writes S[A] XOR S[B]. -/
  | sxor (d a b : BitVec 6)
  /-- SSHL (R141). Writes S[A] shifted left by S[B][7:0]. -/
  | sshl (d a b : BitVec 6)
  /-- SSHR (R141). Writes S[A] shifted logically right by S[B][7:0]. -/
  | sshr (d a b : BitVec 6)
  /-- SMUL (R141). Writes the low 64 bits of S[A] × S[B]. -/
  | smul (d a b : BitVec 6)
  /-- SADDI (R142). Writes S[A] plus the sign-extended immediate to S[D]. -/
  | saddi (d a : BitVec 6) (i : BitVec 9)
  /-- SCMP (R143). Compares two S registers once and writes the result to P[D] in every active lane. -/
  | scmp (d a b : BitVec 6) (k : BitVec 3)
  /-- BR (R171). Each active lane whose predicate holds branches to the target; the others go to the next PC. -/
  | br (k : BitVec 4) (o : BitVec 17)
  /-- BRU (R171). Every active lane follows the lowest active lane's predicate. -/
  | bru (k : BitVec 4) (o : BitVec 17)
  /-- CALL (R171). Each active lane whose predicate holds writes LR and branches to the target. -/
  | call (k : BitVec 4) (o : BitVec 17)
  /-- JMPX (R172). Each active lane jumps to the PC held in its V[A]. -/
  | jmpx (a : BitVec 6)
  /-- BRJ (R42). Ejects the taken lanes into continuation records and raises the join counter when the conditions hold; otherwise it acts as BR. -/
  | brj (k : BitVec 4) (j : BitVec 2) (o : BitVec 15)
  /-- JOIN (R46). Home lanes wait on the join counter; continuations write back to their home lane, decrement its counter and exit. -/
  | join (n : BitVec 6)
  /-- SPAWN (R178). Creates one detached record per active lane, or none, and writes OK, NOSLOT or REFUSED. -/
  | spawn (d a b : BitVec 6)
  /-- SETEJT (R179). Sets the group's EJT from its next issue. -/
  | setejt (m : BitVec 6)
  /-- LD (R241). Each active lane loads 1 to 16 bytes from its address into V registers; the result has variable latency. -/
  | ld (d a b : BitVec 6) (f : BitVec 3) (m : Attr)
  /-- ST (R242). Each active lane writes 1 to 16 bytes; the issue takes one store-queue entry. -/
  | st (d a b : BitVec 6) (f : BitVec 3) (m : Attr)
  /-- LDS (R243). Loads once per issue from one address into an S register. -/
  | lds (d a : BitVec 6) (f : BitVec 3) (m : Attr)
  /-- ATOM_ADD (R245). Each active lane atomically adds to a 32-bit word and receives the old value. -/
  | atomAdd (d a b : BitVec 6) (m : Attr)
  /-- ATOM_MINS (R245). Atomic signed minimum on a 32-bit word. -/
  | atomMins (d a b : BitVec 6) (m : Attr)
  /-- ATOM_MAXS (R245). Atomic signed maximum on a 32-bit word. -/
  | atomMaxs (d a b : BitVec 6) (m : Attr)
  /-- ATOM_MINU (R245). Atomic unsigned minimum on a 32-bit word. -/
  | atomMinu (d a b : BitVec 6) (m : Attr)
  /-- ATOM_MAXU (R245). Atomic unsigned maximum on a 32-bit word. -/
  | atomMaxu (d a b : BitVec 6) (m : Attr)
  /-- ATOM_AND (R245). Atomic AND on a 32-bit word. -/
  | atomAnd (d a b : BitVec 6) (m : Attr)
  /-- ATOM_OR (R245). Atomic OR on a 32-bit word. -/
  | atomOr (d a b : BitVec 6) (m : Attr)
  /-- ATOM_XOR (R245). Atomic XOR on a 32-bit word. -/
  | atomXor (d a b : BitVec 6) (m : Attr)
  /-- ATOMX_EXCH (R246). Atomic exchange of a 32-bit word. -/
  | atomxExch (d a b : BitVec 6) (m : Attr)
  /-- ATOMX_CAS32 (R246). 32-bit compare-and-swap that returns the old value. -/
  | atomxCas32 (d a b : BitVec 6) (m : Attr)
  /-- ATOMX_CAS64 (R246). 64-bit compare-and-swap that returns the old value. -/
  | atomxCas64 (d a b : BitVec 6) (m : Attr)
  /-- ATOMX_CAS128 (R246). 128-bit compare-and-swap, single-copy atomic, that returns the old value. -/
  | atomxCas128 (d a b : BitVec 6) (m : Attr)
  /-- ATOMX_FADD32 (R246). Atomic FP32 addition that returns the old value. -/
  | atomxFadd32 (d a b : BitVec 6) (m : Attr)
  /-- ATOMX_FMIN32 (R246). Atomic FP32 minimumNumber that returns the old value. -/
  | atomxFmin32 (d a b : BitVec 6) (m : Attr)
  /-- ATOMX_FMAX32 (R246). Atomic FP32 maximumNumber that returns the old value. -/
  | atomxFmax32 (d a b : BitVec 6) (m : Attr)
  /-- RED_ADD_I32 (R248). Combines the lanes' integer operands into the group's atomic buffer. -/
  | redAddI32 (d a b : BitVec 6) (m : Attr)
  /-- RED_ADD_F32 (R248). Combines FP32 addends into the atomic buffer in ascending lane order. -/
  | redAddF32 (d a b : BitVec 6) (m : Attr)
  /-- RED_ADD_BF16X2 (R248). Combines packed BF16 addends into the atomic buffer. -/
  | redAddBf16x2 (d a b : BitVec 6) (m : Attr)
  /-- RED_MIN_F32 (R248). Combines FP32 minimumNumber operands into the atomic buffer. -/
  | redMinF32 (d a b : BitVec 6) (m : Attr)
  /-- RED_MAX_F32 (R248). Combines FP32 maximumNumber operands into the atomic buffer. -/
  | redMaxF32 (d a b : BitVec 6) (m : Attr)
  /-- RED_ADD_I64 (R248). Combines 64-bit integer addends into the atomic buffer. -/
  | redAddI64 (d a b : BitVec 6) (m : Attr)
  /-- CACHE_PREF (R250). Prefetches each named line as a load with its CP would fill it, or only its translation under CP 3. -/
  | cachePref (a b : BitVec 6) (m : Attr)
  /-- CACHE_LOCK (R250). Locks the line in L1 for the band, or pins it in L2 for the context, and returns OK or REFUSED. -/
  | cacheLock (d a b : BitVec 6) (m : Attr)
  /-- CACHE_UNLOCK (R250). Removes the band's L1 lock or the context's L2 pin. -/
  | cacheUnlock (d a b : BitVec 6) (m : Attr)
  /-- CACHE_CWB (R250). Writes dirty copies of the line to memory and leaves them valid and clean. -/
  | cacheCwb (a b : BitVec 6) (m : Attr)
  /-- CACHE_CINV (R250). Invalidates the issuing core's L1 copy of the line. -/
  | cacheCinv (a b : BitVec 6) (m : Attr)
  /-- CACHE_CWBINV (R250). Writes the line back, then invalidates its copies in L1, L2 and the memory-side cache. -/
  | cacheCwbinv (a b : BitVec 6) (m : Attr)
  /-- STASH_MAP (R252). Creates a band mapping from a GLB range to a stash range. -/
  | stashMap (d a b : BitVec 6) (m : Attr)
  /-- STASH_UNMAP (R252). Writes back the dirty lines and removes the mapping. -/
  | stashUnmap (d a b : BitVec 6) (m : Attr)
  /-- STASH_FLUSH (R252). Writes back the dirty mapped lines of the range. -/
  | stashFlush (d a b : BitVec 6) (m : Attr)
  /-- STASH_FILL (R252). Fills the invalid mapped lines of the range. -/
  | stashFill (d a b : BitVec 6) (m : Attr)
  /-- STASH_QUERY (R253). Reports the stash line, mapping and state that hold an address. -/
  | stashQuery (d a b : BitVec 6) (m : Attr)
  /-- FENCE (R221). Orders, for each stream instance, earlier accesses before later ones at the given scope. -/
  | fence (sp : BitVec 3)
  /-- FENCE_X (R221). Orders earlier accesses of the masked streams before later ones. -/
  | fenceX (a : BitVec 6) (sp : BitVec 3)
  /-- FENCE_P (R225). Orders the accesses of one path class before the later accesses of another. -/
  | fenceP (d a : BitVec 6) (sp : BitVec 3)
  /-- REDF_ORD (R256). Joins a drain round of the tier unit, applied core by core in token order. -/
  | redfOrd (n : BitVec 3)
  /-- BAR_ARRIVE (R406). Flushes the atomic buffer, releases, and records the group's arrival in the barrier record. -/
  | barArrive (a b : BitVec 6)
  /-- BAR_WAIT (R406). Blocks until the awaited phase completes, then acquires. -/
  | barWait (a b : BitVec 6)
  /-- BAR_SYNC (R406). Arrives, then waits for that arrival's phase. -/
  | barSync (a b : BitVec 6)
  /-- BAR_STEP (R229). Arrives with STEPF set and waits until the superstep visibility is reached. -/
  | barStep (a b : BitVec 6)
  /-- BAR_EXPECT (R405). Adds a byte count to the open phase's EBYTES. -/
  | barExpect (d a b : BitVec 6)
  /-- SEM_ACQ (R412). Takes a unit of the semaphore slot, or joins its waiters. -/
  | semAcq (a : BitVec 6)
  /-- SEM_REL (R412). Grants a unit to the oldest waiter, or adds one unit to COUNT. -/
  | semRel (a : BitVec 6)
  /-- SEM_TRYACQ (R412). Takes a unit if one is available and returns OK, BUSY or REFUSED. -/
  | semTryacq (d a : BitVec 6)
  /-- SEM_ACQ_M (R415). Atomically takes a unit of a memory-word semaphore, or registers as a waiter. -/
  | semAcqM (a : BitVec 6)
  /-- SEM_REL_M (R415). Atomically increments a memory-word semaphore and wakes the oldest waiter. -/
  | semRelM (a : BitVec 6)
  /-- SYNCA_ALLOC (R417). Allocates the lowest free semaphore slot of the die and returns its handle. -/
  | syncaAlloc (d a : BitVec 6)
  /-- SYNCA_FREE (R417). Returns an allocated slot to FREE once it has no waiters. -/
  | syncaFree (a : BitVec 6)
  /-- QOP_PUSH (R326). Waits for allowance, then pushes one entry per active lane to the named queue. -/
  | qopPush (d b : BitVec 6)
  /-- QOP_POP (R326). Waits for entries, then pops one per active lane. -/
  | qopPop (d b : BitVec 6)
  /-- QOP_TRYPUSH (R326). Pushes if the allowance suffices, returning OK or FULL. -/
  | qopTrypush (d a b : BitVec 6)
  /-- QOP_TRYPOP (R326). Pops if enough entries are present, returning OK or EMPTY. -/
  | qopTrypop (d a b : BitVec 6)
  /-- QOP_ALLOW (R326). Grants send allowance and re-examines the push waiters. -/
  | qopAllow (d b : BitVec 6)
  /-- QOP_PEEK (R326). Reads the head entries without removing them. -/
  | qopPeek (d a b : BitVec 6)
  /-- WQ_ENQ (R331). Enqueues one 16-byte entry per lane where the work queue has room. -/
  | wqEnq (d a b : BitVec 6)
  /-- WQ_DEQ (R331). Waits for and takes one entry per lane. -/
  | wqDeq (d a : BitVec 6)
  /-- WQ_TRYDEQ (R331). Takes an entry per lane if one is present. -/
  | wqTrydeq (d a b : BitVec 6)
  /-- WQ_ENQW (R331). Enqueues, waiting for room for up to 64 µs. -/
  | wqEnqw (d a b : BitVec 6)
  /-- LAUNCH (R333). Takes a budget entry, reads and validates a launch record, and makes the child kernel ready. -/
  | launch (d a b : BitVec 6)
  /-- AMSG (R335). Sends one 64-byte active message per active lane to a band. -/
  | amsg (d a b : BitVec 6)
  /-- CHAN_POST (R295). Queues a transfer chain head on a copy channel. -/
  | chanPost (d a b : BitVec 6)
  /-- CHAN_STAT (R295). Returns OK if the channel is idle with an empty post queue, otherwise BUSY. -/
  | chanStat (d a : BitVec 6)
  /-- CHAN_CANCEL (R292). Begins cancellation of the channel's work. -/
  | chanCancel (d a : BitVec 6)
  /-- CHAN_COLL (R295). Queues a collective chain head on a collective channel. -/
  | chanColl (d a b : BitVec 6)
  /-- CREC_POLL (R297). Copies the present ring slot, or returns EMPTY. -/
  | crecPoll (d a b : BitVec 6)
  /-- CREC_WAIT (R297). Parks until the ring slot is present, then copies it. -/
  | crecWait (d a b : BitVec 6)
  /-- CREC_ACK (R297). Advances the ring's TAIL atomically when the slot is present. -/
  | crecAck (a b : BitVec 6)
  /-- MQ (R263). Issues one quarter operation per quarter that has an active lane, to be gathered into a matrix unit pass. -/
  | mq (d a : BitVec 6) (m : MatWord)
  /-- MLOADB (R268). Loads and aligns a B image from the stash into the shadow bank. -/
  | mloadb (d a : BitVec 6) (n : BitVec 2) (t : BitVec 3)
  /-- MSCL (R270). Copies a run of E8M0 scale slots from the stash into scale memory. -/
  | mscl (d a b : BitVec 6)
  /-- MACCRD (R267). Reads an accumulator element into V[D] in quadrant order. -/
  | maccrd (d a : BitVec 6)
  /-- MACCWR (R267). Writes V[D] into an accumulator element. -/
  | maccwr (d a : BitVec 6)
  /-- MACCCLR (R267). Clears an accumulator row to +0. -/
  | maccclr (a : BitVec 6)
  /-- MACCCVT (R271). Converts an accumulator row to the output format and writes it to the stash. -/
  | macccvt (d a : BitVec 6) (t : BitVec 3)
  /-- RGN_ENTER (R52). Pushes a region entry holding its identifier, the next PC and the idempotent flag. -/
  | rgnEnter (d a : BitVec 6) (m : BitVec 1)
  /-- EMIT (R446). Emits a user trace record carrying a payload from the lowest active lane. -/
  | emit (a b : BitVec 6)
  /-- CAUSEGET (R447). Writes the group's CAUSE to S[D]. -/
  | causeget (d : BitVec 6)
  /-- CAUSESET (R447). Sets CAUSE to S[A], or to a fresh core signet when S[A] is zero. -/
  | causeset (a : BitVec 6)
  /-- PERFRD (R448). Reads the counter that the selector names into S[D]. -/
  | perfrd (d a : BitVec 6)
  /-- CENSUSRD (R449). Reads a census site's four counts into a register quad. -/
  | censusrd (d a : BitVec 6)
  /-- SEGLD (R359). Loads a segment's base, limit and flags for the target context and its resident bands. -/
  | segld (d a : BitVec 6)
  /-- HEAPLD (R360). Loads the heap triple of the target context. -/
  | heapld (d a : BitVec 6)
  /-- TLBINV (R361). Removes a context's TLB entries in a range from every TLB of the package. -/
  | tlbinv (d a : BitVec 6)
  /-- DIVINST_INSTALL (R390). Makes a diversion entry valid for a band, with its garret. -/
  | divinstInstall (d a : BitVec 6)
  /-- RTSWAP_WRITE (R362). Writes a standby routing-table block from memory. -/
  | rtswapWrite (d a : BitVec 6)
  /-- KEYSEL (R363). Binds a Coffer key slot to the target context. -/
  | keysel (d a : BitVec 6)
  /-- CTXCTL_HOLD (R374). Makes every command queue of the context HELD. -/
  | ctxctlHold (d a : BitVec 6)
  /-- NOP (R183). Occupies the CTL pipe for one issue cycle and changes nothing except through its own control fields. -/
  | nop 
  /-- HALT (R387). In firmware mode, the group stops issuing until the host restarts it through Alaell. -/
  | halt 
  /-- ERET (R371). Leaves the trap handler: acts on the frame's ACT, restores PCV, S, P, GST, JC, EJT and the region stack from the frame, replays the replay entries and applies held effects. -/
  | eret 
  /-- IDLE (R387). In firmware mode, the group parks until its die's firmware event queue is non-empty. -/
  | idle 
  /-- DIVIDE_COMPLETE (R128). The divider completes an accepted divide-family instruction, in acceptance order, and writes its result. -/
  | divideComplete 
  /-- RET (R172). Each active lane jumps to its LR. -/
  | ret 
  /-- RECONV (R176). Each active lane goes to its next PC; it does not issue while any lane is PARKED. -/
  | reconv 
  /-- EXIT (R177). Active lanes become EXITED; continuations release their home lane and pay its counter; the atomic buffer is flushed. -/
  | exit 
  /-- REDF (R254). Applies every held atomic-buffer entry before any later access of the group is performed. -/
  | redf 
  /-- REDF_ORD_TOKEN (R256). The drain token reaches a core once that core's members have issued, and their entries are applied. -/
  | redfOrdToken 
  /-- RCLK_ADV (R398). Advances the band's reuse clock and updates RRATE. -/
  | rclkAdv 
  /-- RCLK_AUTO_ADVANCE (R399). When the band's advance count reaches 1,024, the reuse clock advances automatically. -/
  | rclkAutoAdvance 
  /-- BAR_FORWARDED_ARRIVAL (R401). An arrival that another band forwards reaches the gang barrier record and is served there. -/
  | barForwardedArrival 
  /-- BAR_CREDIT (R290). An engine's byte credit reaches a barrier record and counts against the open phase. -/
  | barCredit 
  /-- SEM_WORD_RETRY (R415). A registered waiter retries its ACQ.M after a write to the word's line, or when its retry interval expires. -/
  | semWordRetry 
  /-- ENQW_TIMEOUT (R331). An ENQW bound of 64 µs expires and the unserved lanes receive TIMEOUT. -/
  | enqwTimeout 
  /-- WQ_REFILL (R330). The unit moves entries from the overflow ring into the window as the window frees. -/
  | wqRefill 
  /-- AMSG_DELIVER (R49). A message in the inbound buffer becomes a detached record when the pool has a free record, and its status is returned. -/
  | amsgDeliver 
  /-- CHAN_CHAIN_START (R286). A channel starts its next queued chain once the previous chain ends. -/
  | chanChainStart 
  /-- ENGINE_RECORD_START (R279). An engine reads and checks a transfer or collective record and starts it. -/
  | engineRecordStart 
  /-- COMPLETION_RECORD_WRITE (R289). After its writes are performed, an engine reserves a ring slot and writes the completion record, then clears OWN. -/
  | completionRecordWrite 
  /-- COLL_STEP_START (R430). A collective engine starts a step once it holds every input, and sends a begin notice. -/
  | collStepStart 
  /-- COLL_STEP_DATA (R430). A member's step data arrives and its arrival time is recorded. -/
  | collStepData 
  /-- COLL_STEP_TIMEOUT (R430). STEPTO expires: the engine names the first late member, emits COLL_LATE and ends the record with COLL_TIMEOUT. -/
  | collStepTimeout 
  /-- CREC_WAIT_TIMEOUT (R297). After 64 µs with no record present, CREC.WAIT returns TIMEOUT. -/
  | crecWaitTimeout 
  /-- MATRIX_PASS_CLOSE (R264). An open pass closes at the end of cycle o + 7. -/
  | matrixPassClose 
  /-- MATRIX_PASS_START (R264). A closed pass starts in the first cycle in which the matrix unit is free. -/
  | matrixPassStart 
  /-- MATRIX_PASS_COMPLETE (R263). A pass ends and writes its accumulator results and census counts. -/
  | matrixPassComplete 
  /-- MSWAP (R269). Exchanges the active and shadow banks after earlier loads and passes complete. -/
  | mswap 
  /-- MLD_COMPLETE (R264). An accepted MLD instruction completes in acceptance order on the matrix unit. -/
  | mldComplete 
  /-- RGN_LEAVE (R52). Pops the top region entry. -/
  | rgnLeave 
  /-- DIVINST_LINK (R379). Adds a log segment and writes an end-of-segment entry; held arrivals proceed. -/
  | divinstLink 
  /-- DIVINST_DRAIN (R380). Replays the garret log into the stash and shadow records, removes the entry and loads the barrier records. -/
  | divinstDrain 
  /-- DIVINST_REMOVE (R390). Discards a diversion entry without replay. -/
  | divinstRemove 
  /-- DIVINST_READ (R390). Writes the 64-byte diversion entry to memory. -/
  | divinstRead 
  /-- RTSWAP_READ (R362). Reads an active routing-table block to memory. -/
  | rtswapRead 
  /-- RTSWAP_SWAP (R354). Holds differing packets, drains the router and exchanges its banks. -/
  | rtswapSwap 
  /-- RTSWAP_TIMEOUT (R354). A drain that does not end within 2 µs abandons the swap and returns TIMEOUT. -/
  | rtswapTimeout 
  /-- CTXCTL_UNHOLD (R391). Makes the context's queues OPEN. -/
  | ctxctlUnhold 
  /-- CTXCTL_SAVE (R375). Saves one whole band into the save area and garret and releases its resources. -/
  | ctxctlSave 
  /-- CTXCTL_RESTORE (R376). Reloads a saved band onto its core, or onto another core if that core is retired. -/
  | ctxctlRestore 
  /-- CTXCTL_RELEASE (R391). Resumes the band's groups with their saved states and order. -/
  | ctxctlRelease 
  /-- CTXCTL_KILL (R391). Raises a kernel fault in the band's task with a given code. -/
  | ctxctlKill 
  /-- CTXCTL_SERVE (R51). Releases the lanes parked on pages within a range. -/
  | ctxctlServe 
  /-- CTXCTL_DECLINE (R373). Declines a park-class fault, writes a fault record and leaves the lanes parked. -/
  | ctxctlDecline 
  /-- CTXCTL_FWRET (R391). Answers a waiting FWCALL: writes S1 and resumes the group. -/
  | ctxctlFwret 
  /-- CTXCTL_RESET (R383). Resets a partition. -/
  | ctxctlReset 
  /-- CHAIN_ISSUE (R317). Each cycle the quadrant issues the first eligible group in its order. -/
  | chainIssue 
  /-- GUARD_PROMOTE (R318). A group's guard count reaches 224 and the group is promoted ahead of the others. -/
  | guardPromote 
  /-- GAP_EXPIRE (R64). A group's gap cycles run out and it becomes eligible again. -/
  | gapExpire 
  /-- SWITCH_RELEASE (R64). A switch-parked group becomes eligible after its last outstanding register result is written. -/
  | switchRelease 
  /-- RESULT_WRITE (R66). A fixed-latency result is written at the end of cycle i + L - 1, and its flags are ORed into GST. -/
  | resultWrite 
  /-- LOAD_RETURN (R239). A lane's load, atomic or CREC data returns and is written to its registers. -/
  | loadReturn 
  /-- STORE_PERFORM (R323). A store-queue entry's writes are performed at their point of coherence and the entry is freed. -/
  | storePerform 
  /-- ATOM_PERFORM (R244). An atomic is performed indivisibly at its point of coherence or in the stash, and its old value is returned. -/
  | atomPerform 
  /-- WALK_START (R347). A waiting miss takes a free walk unit and its walk begins. -/
  | walkStart 
  /-- WALK_COMPLETE (R343). A page walk ends: it installs a leaf with A and D updates, or faults every joined lane. -/
  | walkComplete 
  /-- SLICE_SERVE_REQUEST (R192). A slice serves a request to one set in arrival order, choosing a victim on a fill. -/
  | sliceServeRequest 
  /-- SLICE_SWEEP (R205). A slice sweeps a set, setting LAP on lapsed lines and clamping old deadlines. -/
  | sliceSweep 
  /-- TAU_WINDOW (R208). When 2^20 trials of a context have closed on a die, the kept fraction adjusts tau and the count restarts. -/
  | tauWindow 
  /-- L1_LINE_DROP (R215). An L1 line is dropped no later than 65,536 cycles after its fill. -/
  | l1LineDrop 
  /-- STASH_PROBE (R195). A directory probe reaches a mapped stash line, which writes back if dirty and becomes CLEAN or INVALID. -/
  | stashProbe 
  /-- STASH_FILL_COMPLETE (R195). A fill of an INVALID mapped stash line returns, and the waiting access is performed. -/
  | stashFillComplete 
  /-- PEER_REQUEST (R189). A PEER access arrives at the target, which checks and translates it in the exporter context. -/
  | peerRequest 
  /-- PACKET_RETURN (R355). A packet whose active route entry is invalid is returned to its source. -/
  | packetReturn 
  /-- DATA_UNCORRECTABLE (R200). Consumed data with an uncorrectable error raises a rollback-class fault. -/
  | dataUncorrectable 
  /-- MACRO_PARITY (R273). A bank parity error discards the pass's writes, poisons the bank and faults the pass's groups. -/
  | macroParity 
  /-- ATOMBUF_PARITY (R321). A parity error in an atomic-buffer entry discards entries and rolls back the owning group. -/
  | atombufParity 
  /-- TRAP_ENTRY (R367). After sent accesses complete, the frame is written and every lane becomes ACTIVE at the handler PC. -/
  | trapEntry 
  /-- BAND_PLACE (R35). The launcher reserves a band's resources on a core and places it, forming its initial groups. -/
  | bandPlace 
  /-- BAND_RELEASE (R39). Once every group, record and asynchronous operation of the band has ended, its reservation is released. -/
  | bandRelease 
  /-- BIN_TIMER_EXPIRE (R44). A bin's timer expires and the bin fires, to the helper or as a group. -/
  | binTimerExpire 
  /-- BIN_FIRE (R44). A full or expired bin forms a group when a continuation slot of its band is free. -/
  | binFire 
  /-- POOL_RECORD_ENTER_BIN (R43). A record waiting in the pool enters a bin as soon as one qualifies. -/
  | poolRecordEnterBin 
  /-- HELPER_START (R45). The scalar helper unit starts running a queued record when one of its 8 entries is free. -/
  | helperStart 
  /-- TASK_COMPLETE (R54). A task completes once its bands are released and its work is done, and dependent nodes are released. -/
  | taskComplete 
  /-- SUBMISSION_START (R301). A host command queue starts its next submission when the previous one has completed. -/
  | submissionStart 
  /-- CODE_OBJECT_LOAD (R306). The launcher loads and validates a code object with its handler table. -/
  | codeObjectLoad 
  /-- EVENT_WAIT_SATISFIED (R304). An event-wait node's acquire read returns a nonzero value and the node completes. -/
  | eventWaitSatisfied 
  /-- BLOCKING_CANDIDATE (R311). A candidate passed over for 100 µs becomes blocking on its die. -/
  | blockingCandidate 
  /-- DIVERSION_APPEND (R378). An arrival for a suspended band is appended to its garret log. -/
  | diversionAppend 
  /-- SUSPEND_DEADLINE (R374). The suspension boundary deadline expires and the remaining bands are saved. -/
  | suspendDeadline 
  /-- SAVE_ABANDON (R386). A save not complete after 2 ms is abandoned and the partition is reset. -/
  | saveAbandon 
  /-- WATCHDOG_EXPIRE (R382). A queue's progress timer expires: a snapshot and optional dump are taken and WDACTION runs. -/
  | watchdogExpire 
  /-- WFG_REMOTE_TIMEOUT (R429). A remote party that does not answer within 1 ms keeps its edge with LOST set. -/
  | wfgRemoteTimeout 
  /-- TRACE_RECORD_ACCEPT (R420). The Filigree gateway accepts a record and writes it to the Undercroft, or an ordinary record is dropped. -/
  | traceRecordAccept 
  /-- LOSS (R424). The gateway emits a LOSS record for each class whose drop count has risen. -/
  | loss 
  /-- SAMPLE (R440). The sampling period expires and the quadrant emits a SAMPLE record. -/
  | sample 
  /-- BREAKPOINT_HALT (R437). A group halts at a breakpoint, region watch, BKPT or census divergence. -/
  | breakpointHalt 
  /-- DEBUG (R436). Opens or configures a debug session with breakpoints, watches and flags. -/
  | debug 
  /-- DEBUG_STEP (R438). Issues one chain of a halted group, then halts it again. -/
  | debugStep 
  /-- DEBUG_REVOKE (R439). Closing the session or revoking the right removes breakpoints and releases halted groups. -/
  | debugRevoke 
  /-- HELLO (R452). The host starts a session; the module replies with its certificate and a signed nonce. -/
  | hello 
  /-- KEYX (R452). The host transports a session key and the module opens a session. -/
  | keyx 
  /-- SESSION_TIMEOUT (R452). A session with no frame for 60 s is closed. -/
  | sessionTimeout 
  /-- ALAELL_GAP_TIMEOUT (R454). A frame held ahead of a gap for 1 ms ends the wait, and the gap counts as lost. -/
  | alaellGapTimeout 
  /-- QBIND (R453). Binds a host command queue to a context with its priority and watchdog. -/
  | qbind 
  /-- SUBMIT (R301). Queues a graph submission, or is refused with FULL. -/
  | submit 
  /-- HOST_LAUNCH (R453). Launches one kernel node that is not in a graph. -/
  | hostLaunch 
  /-- CTXNEW (R453). Creates a context with its partition, allotment, quotas, rings and frame region. -/
  | ctxnew 
  /-- CTXEND (R453). Ends a context. -/
  | ctxend 
  /-- SUSPEND (R374). The host suspends a context with a boundary deadline. -/
  | suspend 
  /-- RESUME (R376). The host resumes a suspended context. -/
  | resume 
  /-- KEYLOAD (R356). Loads a key into a Coffer slot by RSA key transport. -/
  | keyload 
  /-- KEYDESTROY (R356). Destroys a Coffer slot, making it EMPTY. -/
  | keydestroy 
  /-- PARTDEF (R453). Defines a partition's cores, engines, shares and routing partition. -/
  | partdef 
  /-- POWER (R460). Sets the module's power limit. -/
  | power 
  /-- CLOCK (R459). Sets a die pair's clock state, or is refused with BUSY in locked-clock mode. -/
  | clock 
  /-- RETAIN (R461). Moves a layer's pages to the LPDDR-6 tier and powers the layer off. -/
  | retain 
  /-- RETAIN_RESTORE (R461). Powers a retained layer back on and reports a hot-add. -/
  | retainRestore 
  /-- RETIRE_CORE (R462). Retires a core, whose bands are saved and restored elsewhere. -/
  | retireCore 
  /-- RETIRE_LAYER (R352). Retires an HBM layer after moving every page mapped on it. -/
  | retireLayer 
  /-- RETIRE_LANE (R463). Retires a Clasp lane by retraining the link without it and resending unacknowledged flits. -/
  | retireLane 
  /-- UPDATE (R458). Checks and loads a signed firmware image on a die. -/
  | update 
  /-- TRACEREAD (R425). Firmware reads a range of Undercroft records for the host. -/
  | traceread 
  /-- SNAPSHOT (R429). The host commands a wait-for snapshot. -/
  | snapshot 
  /-- HOST_MARK (R423). Emits a HOST_MARK trace record carrying a host value. -/
  | hostMark 
  /-- ATTEST (R458). Returns a signed attestation report over the host's nonce. -/
  | attest 
  /-- PTP_SYNC (R394). A PTP Sync message is timestamped and TIME is slewed toward the measured offset. -/
  | ptpSync 
  /-- PTP_DELAY_RESP (R393). A delay response completes a delay request-response measurement. -/
  | ptpDelayResp 
  /-- PTP_HOLDOVER (R394). No Sync for 2 s: the unit runs on its last rate and holdover is reported. -/
  | ptpHoldover 
  /-- TIME_STEP (R394). The host commands a forward step of TIME. -/
  | timeStep 
  /-- CLASP_FLIT (R455). A Clasp flit is received, checked by CRC and sequence, delivered and acknowledged. -/
  | claspFlit 
  /-- CLASP_RETRY (R455). An overdue or bad acknowledgement makes the sender resend from the first unacknowledged flit. -/
  | claspRetry 
  /-- SCALEOUT_PACKET (R457). A Plearis transport packet is received and delivered in order. -/
  | scaleoutPacket 
  /-- SCALEOUT_RETRANSMIT (R457). After 50 µs without acknowledgement the sender retransmits. -/
  | scaleoutRetransmit 
  /-- SCALEOUT_CONN_LOST (R457). A connection with no acknowledgement for 100 ms is lost and its records end FAULTED. -/
  | scaleoutConnLost 
  /-- POWER_MEASURE (R460). Every 100 µs power is measured and reported, and the module trips after 1 ms over the limit. -/
  | powerMeasure 
  /-- TEMPERATURE_TRIP (R460). A die exceeding its temperature limit trips the module. -/
  | temperatureTrip 
  /-- DEVICE_RESET (R201). Device reset clears non-persistent keys and returns die pairs to C2 with the 1,000 W limit. -/
  | deviceReset 
  /-- POWER_ON (R459). At power-on die pairs start in C2 with locked-clock mode off and TIME zero. -/
  | powerOn 
  /-- ENGINE_ACCESS (R287). A running copy or collective record reads its source bytes and writes its destination bytes, at up to 128 bytes per mesh cycle, faulting or parking on the way. -/
  | engineAccess 
  /-- COLL_BEGIN_NOTICE (R430). A peer's begin notice for a collective step arrives at the engine and is recorded. -/
  | collBeginNotice 
  /-- WFG_REMOTE_QUERY (R429). A firmware request from another module's snapshot arrives over Clasp and is answered with the local wait-for edges. -/
  | wfgRemoteQuery 
  /-- PARTITION_RESET_COMPLETE (R383). The partition reset ends within 5 ms and the partition's queues return from RESETTING to OPEN. -/
  | partitionResetComplete 
  /-- LINK_TRAINING_COMPLETE (R455). A Clasp link finishes training or retraining with its lane set, and held flits are resent and traffic resumes. -/
  | linkTrainingComplete 
  /-- FIRMWARE_UPDATE_COMPLETE (R462). The die's firmware core finishes loading the new image, and the faults, FWCALLs and saves waiting on it proceed. -/
  | firmwareUpdateComplete 
  /-- CLOCK_CHANGE_COMPLETE (R459). A commanded clock-state change takes effect within 20 µs, and the die pair's paused groups resume at the new rate. -/
  | clockChangeComplete 
  /-- UNDERCROFT_SHARE_CHANGE (R202). The host sets a die's Undercroft share, which resets W to 0 and leaves the earlier records unreadable. -/
  | undercroftShareChange 
  /-- HALT_RESTART (R387). The host restarts a group that is halted by HALT, through Alaell. -/
  | haltRestart 
deriving DecidableEq, Repr

end Sys2Proof
end

