-- ==== Sys2Proof/WellFormed.lean ====
section
/-!
DEFINITION. Well-formed instructions: the register-field checks of R71, the attribute combinations of R75, the matrix
word's checks that need no state (R77) and the illegal codes of fields (R79, R80, R81 and the chapter of each form).
`Instr.wf regs i` is the part of legality that the word and the register count `regs` decide; a word that decodes but
is not well-formed raises ILLEGAL at issue. Checks that read the machine's state stand with the meanings.
-/
namespace Sys2Proof

/-- A V register below the declared register count (R71). -/
def vOk (r : Nat) (d : BitVec 6) : Bool := d.toNat < r
/-- A pair (written .D): even first register, both below the count (R71). -/
def pairOk (r : Nat) (d : BitVec 6) : Bool := d.toNat % 2 == 0 && d.toNat + 1 < r
/-- A quad (written .Q): a multiple of 4, all four below the count (R71). -/
def quadOk (r : Nat) (d : BitVec 6) : Bool := d.toNat % 4 == 0 && d.toNat + 3 < r
/-- Eight registers from a multiple of 8 (R246, R296). -/
def octOk (r : Nat) (d : BitVec 6) : Bool := d.toNat % 8 == 0 && d.toNat + 7 < r
/-- Sixteen registers from a multiple of 16 (R335). -/
def hexOk (r : Nat) (d : BitVec 6) : Bool := d.toNat % 16 == 0 && d.toNat + 15 < r
/-- An S register, 0 to 31 (R71). -/
def sOk (d : BitVec 6) : Bool := d.toNat < 32
/-- A P register, 0 to 7 (R71). -/
def pOk (d : BitVec 6) : Bool := d.toNat < 8
/-- A condition code of R136, 0 to 5. -/
def condOk (k : BitVec 3) : Bool := k.toNat ≤ 5

/-- The special registers that SREAD may name (R80, R119). -/
def sreadNumberOk (n : Nat) : Bool :=
  n ≤ 1 || (0x8 ≤ n && n ≤ 0x1C) || n == 0x20 || n == 0x21 || (0x28 ≤ n && n ≤ 0x2A) || (0x30 ≤ n && n ≤ 0x33) ||
  (0x100 ≤ n && n ≤ 0x102) || (0x104 ≤ n && n ≤ 0x106) || (0x108 ≤ n && n ≤ 0x10A) || (0x10C ≤ n && n ≤ 0x10E) ||
  (0x110 ≤ n && n ≤ 0x112) || (0x118 ≤ n && n ≤ 0x11A) || (0x120 ≤ n && n ≤ 0x123) || n == 0x128 || n == 0x129 ||
  (0x130 ≤ n && n ≤ 0x133) || n == 0x138 || n == 0x13F

/-- The system registers whose access is RW (R117, R119). -/
def swriteNumberOk (n : Nat) : Bool :=
  n == 0x120 || n == 0x121 || n == 0x123 || n == 0x128 || n == 0x129 || (0x130 ≤ n && n ≤ 0x132) || n == 0x138 || n == 0x13F

/-- The RW registers of 64 bits; a V write with H = 1 to any other raises ILLEGAL (R117). -/
def swriteWide (n : Nat) : Bool := n == 0x120 || n == 0x121 || n == 0x123

/-- D and H of SREAD and SWRITE: class 0 names a V register, class 1 an S register with H = 0 (R80). -/
def specialOk (r : Nat) (d : BitVec 6) (k h : BitVec 1) : Bool :=
  if k = 1 then sOk d && h == 0 else vOk r d

/-- Codes of the attribute word that are illegal in themselves (R73): segments 5 to 7, scope 7, cache policy 7. -/
def attrOk (m : Attr) : Bool := m.seg.toNat ≤ 4 && m.scp.toNat ≤ 6 && m.cp.toNat ≤ 6

/-- The base and index registers of a memory instruction (R74, R235): a pair for GLB and PEER. -/
def baseOk (r : Nat) (a b : BitVec 6) (m : Attr) : Bool :=
  (if m.seg.toNat = 0 || m.seg.toNat = 4 then pairOk r a else vOk r a) && vOk r b

/-- The attribute combinations of LD and LDS (R75). -/
def loadAttrOk (m : Attr) : Bool :=
  attrOk m && m.ord.toNat ≤ 1 && m.cp.toNat ≤ 5 &&
    (m.seg.toNat != 4 || m.cp.toNat == 0 || m.cp.toNat == 1 || m.cp.toNat == 3)

/-- The attribute combinations of ST (R75). -/
def storeAttrOk (m : Attr) : Bool :=
  attrOk m && (m.ord.toNat == 0 || m.ord.toNat == 2) && m.cp.toNat ≤ 5 && m.seg.toNat != 3 &&
    (m.seg.toNat != 4 || m.cp.toNat == 0 || m.cp.toNat == 1 || m.cp.toNat == 3)

/-- The attribute combinations of ATOM and ATOMX (R75). -/
def atomAttrOk (m : Attr) : Bool :=
  attrOk m && m.cp == 0 && (m.seg.toNat == 0 || m.seg.toNat == 1 || m.seg.toNat == 4)

/-- The attribute combinations of RED (R75). -/
def redAttrOk (m : Attr) : Bool :=
  attrOk m && (m.ord.toNat == 0 || m.ord.toNat == 2) && (m.cp == 0 || (m.cp.toNat == 6 && m.seg == 0)) &&
    (m.seg.toNat == 0 || m.seg.toNat == 4)

/-- The attribute combinations of CACHE, `cpMax` being 4 for PREF and 0 for the others (R75, R250). -/
def cacheAttrOk (cpMax : Nat) (m : Attr) : Bool :=
  attrOk m && m.ord == 0 && m.cp.toNat ≤ cpMax && m.seg == 0

/-- The attribute combinations of STASH (R75, R251). -/
def stashAttrOk (m : Attr) : Bool := attrOk m && m.ord == 0 && m.cp == 0 && m.seg == 0

/-- The data registers of a load or store width: a pair for F = 5, a quad for F = 6 (R235). -/
def widthRegsOk (r : Nat) (d : BitVec 6) (f : BitVec 3) : Bool :=
  if f.toNat = 5 then pairOk r d else if f.toNat = 6 then quadOk r d else vOk r d

/-- The checks of an instruction that its word and the register count decide (R71, R75, R77, R79, R80, R81). UNDEF and
major 0x3F are never well-formed. An event has no word and is well-formed. -/
def Instr.wf (r : Nat) : Instr → Bool
  | .nop | .halt | .eret | .idle | .fwcall _ | .trap _ | .bkpt _ => true
  | .undef _ | .undefMajor _ => false
  -- integer (R125 to R135)
  | .iadd d a b | .isub d a b | .imin d a b | .imax d a b | .iminu d a b | .imaxu d a b | .iabsd d a b | .iaddc d a b
  | .imul d a b | .imulh d a b | .imulhu d a b | .imad d a b | .idiv d a b | .idivu d a b | .irem d a b | .iremu d a b
  | .andd d a b | .orr d a b | .xor d a b | .andn d a b | .orn d a b | .xnor d a b
  | .shl d a b | .shr d a b | .sar d a b | .rol d a b | .ror d a b | .fshl d a b | .fshr d a b
  | .bytep d a b | .bfe d a b | .bfeu d a b | .bfi d a b | .lea d a b _
  | .fadd d a b | .fsub d a b | .fmul d a b | .fmin d a b | .fmax d a b | .fminm d a b | .fmaxm d a b | .fabsd d a b
  | .ffma d a b | .ffms d a b | .fnfma d a b | .fnfms d a b | .pkfma d a b | .pkadd d a b | .pkmul d a b | .pkfmaF16 d a b
  | .fscaleb d a b | .fsgnj d a b | .fsgnjn d a b | .fdiv d a b
  | .shflIdx d a b | .shflUp d a b | .shflDown d a b | .shflXor d a b => vOk r d && vOk r a && vOk r b
  | .notb d a | .clz d a | .ctz d a | .popc d a | .brev d a
  | .frexpe d a | .frexpm d a | .fclass d a | .fabs d a | .fneg d a
  | .frcp d a | .frsq d a | .fsqrt d a | .fexp2 d a | .flog2 d a | .fsint d a | .fcost d a | .ftanh d a | .ferf d a
  | .matchLanes d a | .lredAdd d a | .lredMin d a | .lredMax d a | .lscanAdd d a | .mov d a => vOk r d && vOk r a
  | .bitil d a n | .bitdl d a n => vOk r d && vOk r a && 1 ≤ n.toNat && n.toNat ≤ 3
  | .icmp d a b k | .fcmp d a b k => pOk d && vOk r a && vOk r b && condOk k
  | .iaddi d a _ | .iandi d a _ | .iori d a _ | .ixori d a _ | .shli d a _ | .shri d a _ | .sari d a _ | .roli d a _ =>
    vOk r d && vOk r a
  | .icmpi k _ a _ => condOk k && vOk r a
  | .movi d _ | .movl d _ => vOk r d
  | .movlSx d _ | .movlZx d _ | .movlHi d _ => sOk d
  -- conversions (R79, R95)
  | .fcvt d a t u _ => vOk r d && vOk r a && t.toNat ≤ 5 && u.toNat ≤ 5
  | .frnd d a m => vOk r d && vOk r a && m.toNat ≤ 4
  | .fcvti d a t m | .icvtf d a t m => vOk r d && vOk r a && t.toNat ≤ 5 && m.toNat ≤ 4
  | .fsincosT d a => pairOk r d && vOk r a
  -- votes and moves (R166, R168)
  | .voteAll d a | .voteAny d a => pOk d && pOk a
  | .voteBal d a => vOk r d && pOk a
  | .movs d a _ => vOk r d && sOk a
  | .smov d a => sOk d && vOk r a
  | .smovs d a => sOk d && sOk a
  | .sel d a _ _ => vOk r d && vOk r a
  | .pmovPFromV d a => pOk d && vOk r a
  | .pmovVFromP d a => vOk r d && pOk a
  -- special registers (R80, R116, R117)
  | .sread d k h n => specialOk r d k h && sreadNumberOk n.toNat
  | .sreadTime d k h | .sreadTimef d k h => specialOk r d k h
  | .swrite d k h n => specialOk r d k h && swriteNumberOk n.toNat && (h == 0 || swriteWide n.toNat)
  | .swriteGst d k h | .swriteClkmode d k h => specialOk r d k h && h == 0
  | .swriteRafbase d k h => specialOk r d k h
  -- scalar (R141 to R143)
  | .sadd d a b | .ssub d a b | .sand d a b | .sor d a b | .sxor d a b | .sshl d a b | .sshr d a b | .smul d a b =>
    sOk d && sOk a && sOk b
  | .saddi d a _ => sOk d && sOk a
  | .scmp d a b k => pOk d && sOk a && sOk b && condOk k
  -- control (R171, R172, R174, R175)
  | .br _ _ | .bru _ _ | .call _ _ | .brj _ _ _ | .ret | .reconv | .exit => true
  | .jmpx a => vOk r a
  | .join n => n.toNat ≤ 3
  | .spawn d a b => vOk r d && vOk r a && b.toNat ≤ r
  | .setejt m => 1 ≤ m.toNat && m.toNat ≤ 8
  -- memory (R74, R75, R235)
  | .ld d a b f m => f.toNat ≤ 6 && widthRegsOk r d f && baseOk r a b m && loadAttrOk m
  | .st d a b f m =>
    (f.toNat == 0 || f.toNat == 2 || f.toNat == 4 || f.toNat == 5 || f.toNat == 6) && widthRegsOk r d f && baseOk r a b m &&
      storeAttrOk m
  | .lds d a f m => f.toNat ≤ 5 && sOk d && sOk a && loadAttrOk m
  | .atomAdd d a b m | .atomMins d a b m | .atomMaxs d a b m | .atomMinu d a b m | .atomMaxu d a b m | .atomAnd d a b m
  | .atomOr d a b m | .atomXor d a b m | .atomxExch d a b m | .atomxFadd32 d a b m | .atomxFmin32 d a b m
  | .atomxFmax32 d a b m => vOk r d && baseOk r a b m && atomAttrOk m
  | .atomxCas32 d a b m => pairOk r d && baseOk r a b m && atomAttrOk m
  | .atomxCas64 d a b m => quadOk r d && baseOk r a b m && atomAttrOk m
  | .atomxCas128 d a b m => octOk r d && baseOk r a b m && atomAttrOk m
  | .redAddI32 d a b m | .redAddF32 d a b m | .redAddBf16x2 d a b m | .redMinF32 d a b m | .redMaxF32 d a b m =>
    vOk r d && baseOk r a b m && redAttrOk m
  | .redAddI64 d a b m => pairOk r d && baseOk r a b m && redAttrOk m
  | .cachePref a b m => baseOk r a b m && cacheAttrOk 4 m
  | .cacheCwb a b m | .cacheCinv a b m | .cacheCwbinv a b m => baseOk r a b m && cacheAttrOk 0 m
  | .cacheLock d a b m | .cacheUnlock d a b m => vOk r d && baseOk r a b m && cacheAttrOk 0 m
  | .stashMap d a b m | .stashUnmap d a b m | .stashFlush d a b m | .stashFill d a b m | .stashQuery d a b m =>
    pairOk r d && baseOk r a b m && stashAttrOk m
  -- fences (R11, R79, R255)
  | .fence p => p.toNat ≤ 6
  | .fenceX a p => sOk a && p.toNat ≤ 6
  | .fenceP d a p => d.toNat ≤ 4 && a.toNat ≤ 4 && d != a && p.toNat ≤ 6
  | .redf | .rclkAdv => true
  | .redfOrd n => 1 ≤ n.toNat
  -- barriers, semaphores (R405, R412, R417)
  | .barArrive a b | .barWait a b | .barSync a b | .barStep a b => 1 ≤ a.toNat && a.toNat ≤ 7 && b.toNat ≤ 15
  | .barExpect d a b => vOk r d && 1 ≤ a.toNat && a.toNat ≤ 7 && b.toNat ≤ 15
  | .semAcq a | .semRel a | .syncaFree a => vOk r a
  | .semTryacq d a | .syncaAlloc d a => vOk r d && vOk r a
  | .semAcqM a | .semRelM a => pairOk r a
  -- queues and launches (R326, R331, R333, R335)
  | .qopPush d b | .qopPop d b | .qopAllow d b => vOk r d && b.toNat ≤ 15
  | .qopTrypush d a b | .qopTrypop d a b | .qopPeek d a b => vOk r d && vOk r a && b.toNat ≤ 15
  | .wqEnq d a b | .wqTrydeq d a b | .wqEnqw d a b => quadOk r d && sOk a && vOk r b
  | .wqDeq d a => quadOk r d && sOk a
  | .launch d a b => vOk r d && sOk a && sOk b
  | .amsg d a b => vOk r d && sOk a && hexOk r b
  -- channels and rings (R294, R296)
  | .chanPost d a b | .chanColl d a b => vOk r d && sOk a && sOk b
  | .chanStat d a | .chanCancel d a => vOk r d && sOk a
  | .crecPoll d a b | .crecWait d a b => octOk r d && sOk a && vOk r b
  | .crecAck a b => sOk a && vOk r b
  -- matrix (R77, R262, R267)
  | .mq d a m => vOk r d && vOk r a && m.afmt.toNat ≤ 6 && m.sco.toNat + m.ncol.toNat ≤ 1023 && m.rsv == 0
  | .mloadb d a _ _ => d.toNat ≤ 6 && vOk r a
  | .mswap => true
  | .mscl d a b => vOk r d && vOk r a && vOk r b
  | .maccrd d a | .maccwr d a => vOk r d && vOk r a
  | .maccclr a => vOk r a
  | .macccvt d a t => vOk r d && vOk r a && t.toNat ≤ 5
  -- regions and trace (R444, R445)
  | .rgnEnter _ _ _ | .rgnLeave => true
  | .emit a _ => vOk r a
  | .causeget d => sOk d
  | .causeset a => sOk a
  | .perfrd d a => sOk d && sOk a
  | .censusrd d a => quadOk r d && vOk r a
  -- privileged (R357)
  | .segld d a | .heapld d a | .tlbinv d a | .divinstInstall d a | .rtswapWrite d a | .keysel d a | .ctxctlHold d a =>
    vOk r d && sOk a
  -- events and rows that share another row's word
  | .divideComplete | .redfOrdToken | .rclkAutoAdvance | .barForwardedArrival | .barCredit | .semWordRetry
  | .enqwTimeout | .wqRefill | .amsgDeliver | .chanChainStart | .engineRecordStart | .completionRecordWrite
  | .collStepStart | .collStepData | .collStepTimeout | .crecWaitTimeout | .matrixPassClose | .matrixPassStart
  | .matrixPassComplete | .mldComplete | .rtswapTimeout | .chainIssue | .guardPromote | .gapExpire | .switchRelease
  | .resultWrite | .loadReturn | .storePerform | .atomPerform | .walkStart | .walkComplete | .sliceServeRequest
  | .sliceSweep | .tauWindow | .l1LineDrop | .stashProbe | .stashFillComplete | .peerRequest | .packetReturn
  | .dataUncorrectable | .macroParity | .atombufParity | .trapEntry | .bandPlace | .bandRelease | .binTimerExpire
  | .binFire | .poolRecordEnterBin | .helperStart | .taskComplete | .submissionStart | .codeObjectLoad
  | .eventWaitSatisfied | .blockingCandidate | .diversionAppend | .suspendDeadline | .saveAbandon | .watchdogExpire
  | .wfgRemoteTimeout | .traceRecordAccept | .loss | .sample | .breakpointHalt | .debug | .debugStep | .debugRevoke
  | .hello | .keyx | .sessionTimeout | .alaellGapTimeout | .qbind | .submit | .hostLaunch | .ctxnew | .ctxend
  | .suspend | .resume | .keyload | .keydestroy | .partdef | .power | .clock | .retain | .retainRestore | .retireCore
  | .retireLayer | .retireLane | .update | .traceread | .snapshot | .hostMark | .attest | .ptpSync | .ptpDelayResp
  | .ptpHoldover | .timeStep | .claspFlit | .claspRetry | .scaleoutPacket | .scaleoutRetransmit | .scaleoutConnLost
  | .powerMeasure | .temperatureTrip | .deviceReset | .powerOn | .engineAccess | .collBeginNotice | .wfgRemoteQuery
  | .partitionResetComplete | .linkTrainingComplete | .firmwareUpdateComplete | .clockChangeComplete
  | .undercroftShareChange | .haltRestart | .divinstLink | .divinstDrain | .divinstRemove | .divinstRead
  | .rtswapRead | .rtswapSwap | .ctxctlUnhold | .ctxctlSave | .ctxctlRestore | .ctxctlRelease | .ctxctlKill
  | .ctxctlServe | .ctxctlDecline | .ctxctlFwret | .ctxctlReset => true
end Sys2Proof
end

