-- ==== Sys2Proof/Decode.lean ====
section
/-!
DEFINITION. The decoder, total on any words and bytes, and the encoder (R58, R60, R61, R63, R70 to R81).
A word that no row of the opcode map matches is rejected by name, and issuing it raises ILLEGAL (R81). Codes that a
field may not hold, and register numbers out of range, are checked at issue (`Instr.legal`), after decoding.
-/
namespace Sys2Proof

/-- A field of `n` bits at bit `lo` of a word. -/
def fld (w lo n : Nat) : BitVec n := BitVec.ofNat n (w / 2 ^ lo)

/-- Why bytes or words are no instruction. -/
inductive Reject where
  /-- No row of the opcode map has this major, minor and fixed fields (R78, R81). -/
  | noRow
  /-- Fewer bytes than the instruction needs (R72). -/
  | truncated
deriving DecidableEq, Repr

/-- A decoded instruction: its control fields, its meaning's constructor and its length in words. -/
structure Decoded where
  ctl : Ctl
  instr : Instr
  words : Nat
deriving DecidableEq, Repr

/-- The memory attribute word's fields (R73). -/
def attrWord (x : Nat) : Attr :=
  { off := fld x 20 12, seg := fld x 17 3, str := fld x 13 4, scp := fld x 10 3, ru := fld x 5 5,
    ord := fld x 3 2, cp := fld x 0 3 }

/-- The attribute word of the fields (R73). -/
def Attr.word (m : Attr) : W32 :=
  BitVec.ofNat 32 (m.off.toNat * 2 ^ 20 + m.seg.toNat * 2 ^ 17 + m.str.toNat * 2 ^ 13 + m.scp.toNat * 2 ^ 10 +
    m.ru.toNat * 2 ^ 5 + m.ord.toNat * 2 ^ 3 + m.cp.toNat)

/-- The matrix word's fields (R77). -/
def matWord (x : Nat) : MatWord :=
  { afmt := fld x 28 4, kb := fld x 26 2, sco := fld x 16 10, ncol := fld x 8 8, bid := fld x 5 3,
    acc := fld x 4 1, rsv := fld x 0 4 }

/-- The matrix word of the fields (R77). -/
def MatWord.matWord (m : MatWord) : W32 :=
  BitVec.ofNat 32 (m.afmt.toNat * 2 ^ 28 + m.kb.toNat * 2 ^ 26 + m.sco.toNat * 2 ^ 16 + m.ncol.toNat * 2 ^ 8 +
    m.bid.toNat * 2 ^ 5 + m.acc.toNat * 2 ^ 4 + m.rsv.toNat)

/-- The control fields of a first word (R61). -/
def ctlOf (w : Nat) : Ctl := { c := fld w 31 1, s := fld w 30 1, g := fld w 28 2, y := fld w 27 1 }

/-- A first word: the control fields above the major and body `x` (R61). -/
def word (c : Ctl) (x : Nat) : W32 :=
  BitVec.ofNat 32 (c.c.toNat * 2 ^ 31 + c.s.toNat * 2 ^ 30 + c.g.toNat * 2 ^ 28 + c.y.toNat * 2 ^ 27 + x)

/-- SREAD of the special register `n`: TIME and TIMEF have rows of their own (R80, R114). -/
def decodeSread (d : BitVec 6) (k h : BitVec 1) (n : BitVec 9) : Option Instr :=
  if n.toNat = 0x28 then some (.sreadTime d k h) else
  if n.toNat = 0x29 then some (.sreadTimef d k h) else
  some (.sread d k h n)

/-- SWRITE of the special register `n`: GST, RAFBASE and CLKMODE have rows of their own (R80, R117, R118). -/
def decodeSwrite (d : BitVec 6) (k h : BitVec 1) (n : BitVec 9) : Option Instr :=
  if n.toNat = 0x32 then some (.swriteGst d k h) else
  if n.toNat = 0x120 then some (.swriteRafbase d k h) else
  if n.toNat = 0x138 then some (.swriteClkmode d k h) else
  some (.swrite d k h n)

/-- True for a first word whose instruction has a second word (R72). -/
def isTwoWord (w : Nat) : Bool :=
  let m := bits w 21 6
  m == 0x10 || m == 0x39 || (0x28 ≤ m && m ≤ 0x2F)

/-- The rows of major 0x00 (R78). -/
def decodeMajor00 (w : Nat) : Option Instr :=
  if bits w 0 3 = 4 then some (.fwcall (fld w 3 18)) else
  if bits w 0 3 = 5 then some (.trap (fld w 3 18)) else
  if bits w 0 3 = 6 then some (.bkpt (fld w 3 18)) else
  if bits w 0 3 = 7 then some (.undef (fld w 3 18)) else
  if bits w 0 3 = 0 ∧ bits w 3 6 = 0 ∧ bits w 9 6 = 0 ∧ bits w 15 6 = 0 then some (.nop) else
  if bits w 0 3 = 1 ∧ bits w 3 6 = 0 ∧ bits w 9 6 = 0 ∧ bits w 15 6 = 0 then some (.halt) else
  if bits w 0 3 = 2 ∧ bits w 3 6 = 0 ∧ bits w 9 6 = 0 ∧ bits w 15 6 = 0 then some (.eret) else
  if bits w 0 3 = 3 ∧ bits w 3 6 = 0 ∧ bits w 9 6 = 0 ∧ bits w 15 6 = 0 then some (.idle) else
  none

/-- The rows of major 0x01 (R78). -/
def decodeMajor01 (w : Nat) : Option Instr :=
  if bits w 0 3 = 0 then some (.iadd (fld w 15 6) (fld w 9 6) (fld w 3 6)) else
  if bits w 0 3 = 1 then some (.isub (fld w 15 6) (fld w 9 6) (fld w 3 6)) else
  if bits w 0 3 = 2 then some (.imin (fld w 15 6) (fld w 9 6) (fld w 3 6)) else
  if bits w 0 3 = 3 then some (.imax (fld w 15 6) (fld w 9 6) (fld w 3 6)) else
  if bits w 0 3 = 4 then some (.iminu (fld w 15 6) (fld w 9 6) (fld w 3 6)) else
  if bits w 0 3 = 5 then some (.imaxu (fld w 15 6) (fld w 9 6) (fld w 3 6)) else
  if bits w 0 3 = 6 then some (.iabsd (fld w 15 6) (fld w 9 6) (fld w 3 6)) else
  if bits w 0 3 = 7 then some (.iaddc (fld w 15 6) (fld w 9 6) (fld w 3 6)) else
  none

/-- The rows of major 0x02 (R78). -/
def decodeMajor02 (w : Nat) : Option Instr :=
  if bits w 0 3 = 0 then some (.imul (fld w 15 6) (fld w 9 6) (fld w 3 6)) else
  if bits w 0 3 = 1 then some (.imulh (fld w 15 6) (fld w 9 6) (fld w 3 6)) else
  if bits w 0 3 = 2 then some (.imulhu (fld w 15 6) (fld w 9 6) (fld w 3 6)) else
  if bits w 0 3 = 3 then some (.imad (fld w 15 6) (fld w 9 6) (fld w 3 6)) else
  if bits w 0 3 = 4 then some (.idiv (fld w 15 6) (fld w 9 6) (fld w 3 6)) else
  if bits w 0 3 = 5 then some (.idivu (fld w 15 6) (fld w 9 6) (fld w 3 6)) else
  if bits w 0 3 = 6 then some (.irem (fld w 15 6) (fld w 9 6) (fld w 3 6)) else
  if bits w 0 3 = 7 then some (.iremu (fld w 15 6) (fld w 9 6) (fld w 3 6)) else
  none

/-- The rows of major 0x03 (R78). -/
def decodeMajor03 (w : Nat) : Option Instr :=
  if bits w 0 3 = 0 then some (.andd (fld w 15 6) (fld w 9 6) (fld w 3 6)) else
  if bits w 0 3 = 1 then some (.orr (fld w 15 6) (fld w 9 6) (fld w 3 6)) else
  if bits w 0 3 = 2 then some (.xor (fld w 15 6) (fld w 9 6) (fld w 3 6)) else
  if bits w 0 3 = 3 then some (.andn (fld w 15 6) (fld w 9 6) (fld w 3 6)) else
  if bits w 0 3 = 4 then some (.orn (fld w 15 6) (fld w 9 6) (fld w 3 6)) else
  if bits w 0 3 = 5 then some (.xnor (fld w 15 6) (fld w 9 6) (fld w 3 6)) else
  if bits w 0 3 = 6 ∧ bits w 3 6 = 0 then some (.notb (fld w 15 6) (fld w 9 6)) else
  none

/-- The rows of major 0x04 (R78). -/
def decodeMajor04 (w : Nat) : Option Instr :=
  if bits w 0 3 = 0 then some (.shl (fld w 15 6) (fld w 9 6) (fld w 3 6)) else
  if bits w 0 3 = 1 then some (.shr (fld w 15 6) (fld w 9 6) (fld w 3 6)) else
  if bits w 0 3 = 2 then some (.sar (fld w 15 6) (fld w 9 6) (fld w 3 6)) else
  if bits w 0 3 = 3 then some (.rol (fld w 15 6) (fld w 9 6) (fld w 3 6)) else
  if bits w 0 3 = 4 then some (.ror (fld w 15 6) (fld w 9 6) (fld w 3 6)) else
  if bits w 0 3 = 5 then some (.fshl (fld w 15 6) (fld w 9 6) (fld w 3 6)) else
  if bits w 0 3 = 6 then some (.fshr (fld w 15 6) (fld w 9 6) (fld w 3 6)) else
  none

/-- The rows of major 0x05 (R78). -/
def decodeMajor05 (w : Nat) : Option Instr :=
  if bits w 0 3 = 0 ∧ bits w 3 6 = 0 then some (.clz (fld w 15 6) (fld w 9 6)) else
  if bits w 0 3 = 1 ∧ bits w 3 6 = 0 then some (.ctz (fld w 15 6) (fld w 9 6)) else
  if bits w 0 3 = 2 ∧ bits w 3 6 = 0 then some (.popc (fld w 15 6) (fld w 9 6)) else
  if bits w 0 3 = 3 ∧ bits w 3 6 = 0 then some (.brev (fld w 15 6) (fld w 9 6)) else
  if bits w 0 3 = 4 then some (.bitil (fld w 15 6) (fld w 9 6) (fld w 3 6)) else
  if bits w 0 3 = 5 then some (.bitdl (fld w 15 6) (fld w 9 6) (fld w 3 6)) else
  if bits w 0 3 = 6 then some (.bytep (fld w 15 6) (fld w 9 6) (fld w 3 6)) else
  none

/-- The rows of major 0x06 (R78). -/
def decodeMajor06 (w : Nat) : Option Instr :=
  if bits w 0 3 = 0 then some (.bfe (fld w 15 6) (fld w 9 6) (fld w 3 6)) else
  if bits w 0 3 = 1 then some (.bfeu (fld w 15 6) (fld w 9 6) (fld w 3 6)) else
  if bits w 0 3 = 2 then some (.bfi (fld w 15 6) (fld w 9 6) (fld w 3 6)) else
  none

/-- The rows of major 0x07 (R78). -/
def decodeMajor07 (w : Nat) : Option Instr :=
  some (.icmp (fld w 15 6) (fld w 9 6) (fld w 3 6) (fld w 0 3))

/-- The rows of major 0x08 (R78). -/
def decodeMajor08 (w : Nat) : Option Instr :=
  some (.iaddi (fld w 15 6) (fld w 9 6) (fld w 0 9))

/-- The rows of major 0x09 (R78). -/
def decodeMajor09 (w : Nat) : Option Instr :=
  some (.iandi (fld w 15 6) (fld w 9 6) (fld w 0 9))

/-- The rows of major 0x0A (R78). -/
def decodeMajor0A (w : Nat) : Option Instr :=
  some (.iori (fld w 15 6) (fld w 9 6) (fld w 0 9))

/-- The rows of major 0x0B (R78). -/
def decodeMajor0B (w : Nat) : Option Instr :=
  some (.ixori (fld w 15 6) (fld w 9 6) (fld w 0 9))

/-- The rows of major 0x0C (R78). -/
def decodeMajor0C (w : Nat) : Option Instr :=
  if bits w 5 4 = 0 then some (.shli (fld w 15 6) (fld w 9 6) (fld w 0 5)) else
  if bits w 5 4 = 4 then some (.shri (fld w 15 6) (fld w 9 6) (fld w 0 5)) else
  if bits w 5 4 = 8 then some (.sari (fld w 15 6) (fld w 9 6) (fld w 0 5)) else
  if bits w 5 4 = 12 then some (.roli (fld w 15 6) (fld w 9 6) (fld w 0 5)) else
  none

/-- The rows of major 0x0D (R78). -/
def decodeMajor0D (w : Nat) : Option Instr :=
  some (.icmpi (fld w 18 3) (fld w 15 3) (fld w 9 6) (fld w 0 9))

/-- The rows of major 0x0E (R78). -/
def decodeMajor0E (w : Nat) : Option Instr :=
  some (.lea (fld w 15 6) (fld w 9 6) (fld w 3 6) (fld w 0 3))

/-- The rows of major 0x0F (R78). -/
def decodeMajor0F (w : Nat) : Option Instr :=
  some (.movi (fld w 15 6) (fld w 0 15))

/-- The rows of major 0x11 (R78). -/
def decodeMajor11 (w : Nat) : Option Instr :=
  if bits w 0 3 = 0 then some (.fadd (fld w 15 6) (fld w 9 6) (fld w 3 6)) else
  if bits w 0 3 = 1 then some (.fsub (fld w 15 6) (fld w 9 6) (fld w 3 6)) else
  if bits w 0 3 = 2 then some (.fmul (fld w 15 6) (fld w 9 6) (fld w 3 6)) else
  if bits w 0 3 = 3 then some (.fmin (fld w 15 6) (fld w 9 6) (fld w 3 6)) else
  if bits w 0 3 = 4 then some (.fmax (fld w 15 6) (fld w 9 6) (fld w 3 6)) else
  if bits w 0 3 = 5 then some (.fminm (fld w 15 6) (fld w 9 6) (fld w 3 6)) else
  if bits w 0 3 = 6 then some (.fmaxm (fld w 15 6) (fld w 9 6) (fld w 3 6)) else
  if bits w 0 3 = 7 then some (.fabsd (fld w 15 6) (fld w 9 6) (fld w 3 6)) else
  none

/-- The rows of major 0x12 (R78). -/
def decodeMajor12 (w : Nat) : Option Instr :=
  if bits w 0 3 = 0 then some (.ffma (fld w 15 6) (fld w 9 6) (fld w 3 6)) else
  if bits w 0 3 = 1 then some (.ffms (fld w 15 6) (fld w 9 6) (fld w 3 6)) else
  if bits w 0 3 = 2 then some (.fnfma (fld w 15 6) (fld w 9 6) (fld w 3 6)) else
  if bits w 0 3 = 3 then some (.fnfms (fld w 15 6) (fld w 9 6) (fld w 3 6)) else
  if bits w 0 3 = 4 then some (.pkfma (fld w 15 6) (fld w 9 6) (fld w 3 6)) else
  if bits w 0 3 = 5 then some (.pkadd (fld w 15 6) (fld w 9 6) (fld w 3 6)) else
  if bits w 0 3 = 6 then some (.pkmul (fld w 15 6) (fld w 9 6) (fld w 3 6)) else
  if bits w 0 3 = 7 then some (.pkfmaF16 (fld w 15 6) (fld w 9 6) (fld w 3 6)) else
  none

/-- The rows of major 0x13 (R78). -/
def decodeMajor13 (w : Nat) : Option Instr :=
  some (.fcmp (fld w 15 6) (fld w 9 6) (fld w 3 6) (fld w 0 3))

/-- The rows of major 0x14 (R78). -/
def decodeMajor14 (w : Nat) : Option Instr :=
  some (.fcvt (fld w 15 6) (fld w 9 6) (fld w 6 3) (fld w 3 3) (fld w 0 3))

/-- The rows of major 0x15 (R78). -/
def decodeMajor15 (w : Nat) : Option Instr :=
  if bits w 3 6 = 0 then some (.frnd (fld w 15 6) (fld w 9 6) (fld w 0 3)) else
  none

/-- The rows of major 0x16 (R78). -/
def decodeMajor16 (w : Nat) : Option Instr :=
  if bits w 6 3 = 0 then some (.fcvti (fld w 15 6) (fld w 9 6) (fld w 3 3) (fld w 0 3)) else
  none

/-- The rows of major 0x17 (R78). -/
def decodeMajor17 (w : Nat) : Option Instr :=
  if bits w 6 3 = 0 then some (.icvtf (fld w 15 6) (fld w 9 6) (fld w 3 3) (fld w 0 3)) else
  none

/-- The rows of major 0x18 (R78). -/
def decodeMajor18 (w : Nat) : Option Instr :=
  if bits w 0 3 = 0 then some (.fscaleb (fld w 15 6) (fld w 9 6) (fld w 3 6)) else
  if bits w 0 3 = 1 ∧ bits w 3 6 = 0 then some (.frexpe (fld w 15 6) (fld w 9 6)) else
  if bits w 0 3 = 2 ∧ bits w 3 6 = 0 then some (.frexpm (fld w 15 6) (fld w 9 6)) else
  if bits w 0 3 = 3 ∧ bits w 3 6 = 0 then some (.fclass (fld w 15 6) (fld w 9 6)) else
  if bits w 0 3 = 4 then some (.fsgnj (fld w 15 6) (fld w 9 6) (fld w 3 6)) else
  if bits w 0 3 = 5 then some (.fsgnjn (fld w 15 6) (fld w 9 6) (fld w 3 6)) else
  if bits w 0 3 = 6 ∧ bits w 3 6 = 0 then some (.fabs (fld w 15 6) (fld w 9 6)) else
  if bits w 0 3 = 7 ∧ bits w 3 6 = 0 then some (.fneg (fld w 15 6) (fld w 9 6)) else
  none

/-- The rows of major 0x19 (R78). -/
def decodeMajor19 (w : Nat) : Option Instr :=
  if bits w 0 3 = 0 ∧ bits w 3 6 = 0 then some (.frcp (fld w 15 6) (fld w 9 6)) else
  if bits w 0 3 = 1 ∧ bits w 3 6 = 0 then some (.frsq (fld w 15 6) (fld w 9 6)) else
  if bits w 0 3 = 2 ∧ bits w 3 6 = 0 then some (.fsqrt (fld w 15 6) (fld w 9 6)) else
  if bits w 0 3 = 3 ∧ bits w 3 6 = 0 then some (.fexp2 (fld w 15 6) (fld w 9 6)) else
  if bits w 0 3 = 4 ∧ bits w 3 6 = 0 then some (.flog2 (fld w 15 6) (fld w 9 6)) else
  if bits w 0 3 = 5 ∧ bits w 3 6 = 0 then some (.fsint (fld w 15 6) (fld w 9 6)) else
  if bits w 0 3 = 6 ∧ bits w 3 6 = 0 then some (.fcost (fld w 15 6) (fld w 9 6)) else
  if bits w 0 3 = 7 ∧ bits w 3 6 = 0 then some (.ftanh (fld w 15 6) (fld w 9 6)) else
  none

/-- The rows of major 0x1A (R78). -/
def decodeMajor1A (w : Nat) : Option Instr :=
  if bits w 0 3 = 0 then some (.fdiv (fld w 15 6) (fld w 9 6) (fld w 3 6)) else
  if bits w 0 3 = 1 ∧ bits w 3 6 = 0 then some (.fsincosT (fld w 15 6) (fld w 9 6)) else
  if bits w 0 3 = 2 ∧ bits w 3 6 = 0 then some (.ferf (fld w 15 6) (fld w 9 6)) else
  none

/-- The rows of major 0x1B (R78). -/
def decodeMajor1B (w : Nat) : Option Instr :=
  if bits w 0 3 = 0 then some (.shflIdx (fld w 15 6) (fld w 9 6) (fld w 3 6)) else
  if bits w 0 3 = 1 then some (.shflUp (fld w 15 6) (fld w 9 6) (fld w 3 6)) else
  if bits w 0 3 = 2 then some (.shflDown (fld w 15 6) (fld w 9 6) (fld w 3 6)) else
  if bits w 0 3 = 3 then some (.shflXor (fld w 15 6) (fld w 9 6) (fld w 3 6)) else
  none

/-- The rows of major 0x1C (R78). -/
def decodeMajor1C (w : Nat) : Option Instr :=
  if bits w 0 3 = 0 ∧ bits w 3 6 = 0 then some (.voteAll (fld w 15 6) (fld w 9 6)) else
  if bits w 0 3 = 1 ∧ bits w 3 6 = 0 then some (.voteAny (fld w 15 6) (fld w 9 6)) else
  if bits w 0 3 = 2 ∧ bits w 3 6 = 0 then some (.voteBal (fld w 15 6) (fld w 9 6)) else
  if bits w 0 3 = 3 ∧ bits w 3 6 = 0 then some (.matchLanes (fld w 15 6) (fld w 9 6)) else
  if bits w 0 3 = 4 ∧ bits w 3 6 = 0 then some (.lredAdd (fld w 15 6) (fld w 9 6)) else
  if bits w 0 3 = 5 ∧ bits w 3 6 = 0 then some (.lredMin (fld w 15 6) (fld w 9 6)) else
  if bits w 0 3 = 6 ∧ bits w 3 6 = 0 then some (.lredMax (fld w 15 6) (fld w 9 6)) else
  if bits w 0 3 = 7 ∧ bits w 3 6 = 0 then some (.lscanAdd (fld w 15 6) (fld w 9 6)) else
  none

/-- The rows of major 0x1D (R78). -/
def decodeMajor1D (w : Nat) : Option Instr :=
  if bits w 0 3 = 0 ∧ bits w 3 6 = 0 then some (.mov (fld w 15 6) (fld w 9 6)) else
  if bits w 0 3 = 1 ∧ bits w 4 5 = 0 then some (.movs (fld w 15 6) (fld w 9 6) (fld w 3 1)) else
  if bits w 0 3 = 2 ∧ bits w 3 6 = 0 then some (.smov (fld w 15 6) (fld w 9 6)) else
  if bits w 0 3 = 3 ∧ bits w 3 6 = 0 then some (.smovs (fld w 15 6) (fld w 9 6)) else
  if bits w 0 3 = 4 ∧ bits w 7 2 = 0 then some (.sel (fld w 15 6) (fld w 9 6) (fld w 6 1) (fld w 3 3)) else
  if bits w 0 3 = 5 ∧ bits w 3 6 = 0 then some (.pmovPFromV (fld w 15 6) (fld w 9 6)) else
  if bits w 0 3 = 5 ∧ bits w 3 6 = 1 then some (.pmovVFromP (fld w 15 6) (fld w 9 6)) else
  none

/-- The rows of major 0x1E (R78). -/
def decodeMajor1E (w : Nat) : Option Instr :=
  if bits w 9 4 = 0 then decodeSread (fld w 15 6) (fld w 14 1) (fld w 13 1) (fld w 0 9) else
  none

/-- The rows of major 0x1F (R78). -/
def decodeMajor1F (w : Nat) : Option Instr :=
  if bits w 9 4 = 0 then decodeSwrite (fld w 15 6) (fld w 14 1) (fld w 13 1) (fld w 0 9) else
  none

/-- The rows of major 0x20 (R78). -/
def decodeMajor20 (w : Nat) : Option Instr :=
  if bits w 0 3 = 0 then some (.sadd (fld w 15 6) (fld w 9 6) (fld w 3 6)) else
  if bits w 0 3 = 1 then some (.ssub (fld w 15 6) (fld w 9 6) (fld w 3 6)) else
  if bits w 0 3 = 2 then some (.sand (fld w 15 6) (fld w 9 6) (fld w 3 6)) else
  if bits w 0 3 = 3 then some (.sor (fld w 15 6) (fld w 9 6) (fld w 3 6)) else
  if bits w 0 3 = 4 then some (.sxor (fld w 15 6) (fld w 9 6) (fld w 3 6)) else
  if bits w 0 3 = 5 then some (.sshl (fld w 15 6) (fld w 9 6) (fld w 3 6)) else
  if bits w 0 3 = 6 then some (.sshr (fld w 15 6) (fld w 9 6) (fld w 3 6)) else
  if bits w 0 3 = 7 then some (.smul (fld w 15 6) (fld w 9 6) (fld w 3 6)) else
  none

/-- The rows of major 0x21 (R78). -/
def decodeMajor21 (w : Nat) : Option Instr :=
  some (.saddi (fld w 15 6) (fld w 9 6) (fld w 0 9))

/-- The rows of major 0x22 (R78). -/
def decodeMajor22 (w : Nat) : Option Instr :=
  some (.scmp (fld w 15 6) (fld w 9 6) (fld w 3 6) (fld w 0 3))

/-- The rows of major 0x23 (R78). -/
def decodeMajor23 (w : Nat) : Option Instr :=
  some (.br (fld w 17 4) (fld w 0 17))

/-- The rows of major 0x24 (R78). -/
def decodeMajor24 (w : Nat) : Option Instr :=
  some (.bru (fld w 17 4) (fld w 0 17))

/-- The rows of major 0x25 (R78). -/
def decodeMajor25 (w : Nat) : Option Instr :=
  some (.call (fld w 17 4) (fld w 0 17))

/-- The rows of major 0x26 (R78). -/
def decodeMajor26 (w : Nat) : Option Instr :=
  if bits w 0 3 = 0 ∧ bits w 3 6 = 0 ∧ bits w 15 6 = 0 then some (.jmpx (fld w 9 6)) else
  if bits w 0 3 = 1 ∧ bits w 3 6 = 0 ∧ bits w 9 6 = 0 ∧ bits w 15 6 = 0 then some (.ret) else
  none

/-- The rows of major 0x27 (R78). -/
def decodeMajor27 (w : Nat) : Option Instr :=
  if bits w 0 3 = 0 ∧ bits w 9 6 = 0 ∧ bits w 15 6 = 0 then some (.join (fld w 3 6)) else
  if bits w 0 3 = 3 then some (.spawn (fld w 15 6) (fld w 9 6) (fld w 3 6)) else
  if bits w 0 3 = 4 ∧ bits w 9 6 = 0 ∧ bits w 15 6 = 0 then some (.setejt (fld w 3 6)) else
  if bits w 0 3 = 1 ∧ bits w 3 6 = 0 ∧ bits w 9 6 = 0 ∧ bits w 15 6 = 0 then some (.reconv) else
  if bits w 0 3 = 2 ∧ bits w 3 6 = 0 ∧ bits w 9 6 = 0 ∧ bits w 15 6 = 0 then some (.exit) else
  none

/-- The rows of major 0x30 (R78). -/
def decodeMajor30 (w : Nat) : Option Instr :=
  if bits w 0 3 = 0 ∧ bits w 6 3 = 0 ∧ bits w 9 6 = 0 ∧ bits w 15 6 = 0 then some (.fence (fld w 3 3)) else
  if bits w 0 3 = 1 ∧ bits w 6 3 = 0 ∧ bits w 15 6 = 0 then some (.fenceX (fld w 9 6) (fld w 3 3)) else
  if bits w 0 3 = 2 ∧ bits w 6 3 = 0 then some (.fenceP (fld w 15 6) (fld w 9 6) (fld w 3 3)) else
  if bits w 0 3 = 4 ∧ bits w 6 3 = 0 ∧ bits w 9 6 = 0 ∧ bits w 15 6 = 0 then some (.redfOrd (fld w 3 3)) else
  if bits w 0 3 = 3 ∧ bits w 3 6 = 0 ∧ bits w 9 6 = 0 ∧ bits w 15 6 = 0 then some (.redf) else
  if bits w 0 3 = 5 ∧ bits w 3 6 = 0 ∧ bits w 9 6 = 0 ∧ bits w 15 6 = 0 then some (.rclkAdv) else
  none

/-- The rows of major 0x31 (R78). -/
def decodeMajor31 (w : Nat) : Option Instr :=
  if bits w 0 3 = 0 ∧ bits w 15 6 = 0 then some (.barArrive (fld w 9 6) (fld w 3 6)) else
  if bits w 0 3 = 1 ∧ bits w 15 6 = 0 then some (.barWait (fld w 9 6) (fld w 3 6)) else
  if bits w 0 3 = 2 ∧ bits w 15 6 = 0 then some (.barSync (fld w 9 6) (fld w 3 6)) else
  if bits w 0 3 = 3 ∧ bits w 15 6 = 0 then some (.barStep (fld w 9 6) (fld w 3 6)) else
  if bits w 0 3 = 4 then some (.barExpect (fld w 15 6) (fld w 9 6) (fld w 3 6)) else
  none

/-- The rows of major 0x32 (R78). -/
def decodeMajor32 (w : Nat) : Option Instr :=
  if bits w 0 3 = 0 ∧ bits w 3 6 = 0 ∧ bits w 15 6 = 0 then some (.semAcq (fld w 9 6)) else
  if bits w 0 3 = 1 ∧ bits w 3 6 = 0 ∧ bits w 15 6 = 0 then some (.semRel (fld w 9 6)) else
  if bits w 0 3 = 2 ∧ bits w 3 6 = 0 then some (.semTryacq (fld w 15 6) (fld w 9 6)) else
  if bits w 0 3 = 3 ∧ bits w 3 6 = 0 ∧ bits w 15 6 = 0 then some (.semAcqM (fld w 9 6)) else
  if bits w 0 3 = 4 ∧ bits w 3 6 = 0 ∧ bits w 15 6 = 0 then some (.semRelM (fld w 9 6)) else
  none

/-- The rows of major 0x33 (R78). -/
def decodeMajor33 (w : Nat) : Option Instr :=
  if bits w 0 3 = 0 ∧ bits w 3 6 = 0 then some (.syncaAlloc (fld w 15 6) (fld w 9 6)) else
  if bits w 0 3 = 1 ∧ bits w 3 6 = 0 ∧ bits w 15 6 = 0 then some (.syncaFree (fld w 9 6)) else
  none

/-- The rows of major 0x34 (R78). -/
def decodeMajor34 (w : Nat) : Option Instr :=
  if bits w 0 3 = 0 ∧ bits w 9 6 = 0 then some (.qopPush (fld w 15 6) (fld w 3 6)) else
  if bits w 0 3 = 1 ∧ bits w 9 6 = 0 then some (.qopPop (fld w 15 6) (fld w 3 6)) else
  if bits w 0 3 = 2 then some (.qopTrypush (fld w 15 6) (fld w 9 6) (fld w 3 6)) else
  if bits w 0 3 = 3 then some (.qopTrypop (fld w 15 6) (fld w 9 6) (fld w 3 6)) else
  if bits w 0 3 = 4 ∧ bits w 9 6 = 0 then some (.qopAllow (fld w 15 6) (fld w 3 6)) else
  if bits w 0 3 = 5 then some (.qopPeek (fld w 15 6) (fld w 9 6) (fld w 3 6)) else
  none

/-- The rows of major 0x35 (R78). -/
def decodeMajor35 (w : Nat) : Option Instr :=
  if bits w 0 3 = 0 then some (.wqEnq (fld w 15 6) (fld w 9 6) (fld w 3 6)) else
  if bits w 0 3 = 1 ∧ bits w 3 6 = 0 then some (.wqDeq (fld w 15 6) (fld w 9 6)) else
  if bits w 0 3 = 2 then some (.wqTrydeq (fld w 15 6) (fld w 9 6) (fld w 3 6)) else
  if bits w 0 3 = 3 then some (.wqEnqw (fld w 15 6) (fld w 9 6) (fld w 3 6)) else
  none

/-- The rows of major 0x36 (R78). -/
def decodeMajor36 (w : Nat) : Option Instr :=
  if bits w 0 3 = 0 then some (.launch (fld w 15 6) (fld w 9 6) (fld w 3 6)) else
  if bits w 0 3 = 1 then some (.amsg (fld w 15 6) (fld w 9 6) (fld w 3 6)) else
  none

/-- The rows of major 0x37 (R78). -/
def decodeMajor37 (w : Nat) : Option Instr :=
  if bits w 0 3 = 0 then some (.chanPost (fld w 15 6) (fld w 9 6) (fld w 3 6)) else
  if bits w 0 3 = 1 ∧ bits w 3 6 = 0 then some (.chanStat (fld w 15 6) (fld w 9 6)) else
  if bits w 0 3 = 2 ∧ bits w 3 6 = 0 then some (.chanCancel (fld w 15 6) (fld w 9 6)) else
  if bits w 0 3 = 3 then some (.chanColl (fld w 15 6) (fld w 9 6) (fld w 3 6)) else
  none

/-- The rows of major 0x38 (R78). -/
def decodeMajor38 (w : Nat) : Option Instr :=
  if bits w 0 3 = 0 then some (.crecPoll (fld w 15 6) (fld w 9 6) (fld w 3 6)) else
  if bits w 0 3 = 1 then some (.crecWait (fld w 15 6) (fld w 9 6) (fld w 3 6)) else
  if bits w 0 3 = 2 ∧ bits w 15 6 = 0 then some (.crecAck (fld w 9 6) (fld w 3 6)) else
  none

/-- The rows of major 0x3A (R78). -/
def decodeMajor3A (w : Nat) : Option Instr :=
  if bits w 0 3 = 0 ∧ bits w 8 1 = 0 then some (.mloadb (fld w 15 6) (fld w 9 6) (fld w 6 2) (fld w 3 3)) else
  if bits w 0 3 = 2 then some (.mscl (fld w 15 6) (fld w 9 6) (fld w 3 6)) else
  if bits w 0 3 = 3 ∧ bits w 3 6 = 0 then some (.maccrd (fld w 15 6) (fld w 9 6)) else
  if bits w 0 3 = 4 ∧ bits w 3 6 = 0 then some (.maccwr (fld w 15 6) (fld w 9 6)) else
  if bits w 0 3 = 5 ∧ bits w 3 6 = 0 ∧ bits w 15 6 = 0 then some (.maccclr (fld w 9 6)) else
  if bits w 0 3 = 6 ∧ bits w 6 3 = 0 then some (.macccvt (fld w 15 6) (fld w 9 6) (fld w 3 3)) else
  if bits w 0 3 = 1 ∧ bits w 3 6 = 0 ∧ bits w 9 6 = 0 ∧ bits w 15 6 = 0 then some (.mswap) else
  none

/-- The rows of major 0x3B (R78). -/
def decodeMajor3B (w : Nat) : Option Instr :=
  some (.brj (fld w 17 4) (fld w 15 2) (fld w 0 15))

/-- The rows of major 0x3C (R78). -/
def decodeMajor3C (w : Nat) : Option Instr :=
  if bits w 0 3 = 0 ∧ bits w 3 4 = 0 ∧ bits w 8 1 = 0 then some (.rgnEnter (fld w 15 6) (fld w 9 6) (fld w 7 1)) else
  if bits w 0 3 = 0 ∧ bits w 3 6 = 32 ∧ bits w 9 6 = 0 ∧ bits w 15 6 = 0 then some (.rgnLeave) else
  none

/-- The rows of major 0x3D (R78). -/
def decodeMajor3D (w : Nat) : Option Instr :=
  if bits w 0 3 = 0 ∧ bits w 15 6 = 0 then some (.emit (fld w 9 6) (fld w 3 6)) else
  if bits w 0 3 = 1 ∧ bits w 3 6 = 0 ∧ bits w 9 6 = 0 then some (.causeget (fld w 15 6)) else
  if bits w 0 3 = 2 ∧ bits w 3 6 = 0 ∧ bits w 15 6 = 0 then some (.causeset (fld w 9 6)) else
  if bits w 0 3 = 3 ∧ bits w 3 6 = 0 then some (.perfrd (fld w 15 6) (fld w 9 6)) else
  if bits w 0 3 = 4 ∧ bits w 3 6 = 0 then some (.censusrd (fld w 15 6) (fld w 9 6)) else
  none

/-- The rows of major 0x3E (R78). -/
def decodeMajor3E (w : Nat) : Option Instr :=
  if bits w 0 3 = 0 ∧ bits w 3 6 = 0 then some (.segld (fld w 15 6) (fld w 9 6)) else
  if bits w 0 3 = 1 ∧ bits w 3 6 = 0 then some (.heapld (fld w 15 6) (fld w 9 6)) else
  if bits w 0 3 = 2 ∧ bits w 3 6 = 0 then some (.tlbinv (fld w 15 6) (fld w 9 6)) else
  if bits w 0 3 = 3 ∧ bits w 3 6 = 0 then some (.divinstInstall (fld w 15 6) (fld w 9 6)) else
  if bits w 0 3 = 4 ∧ bits w 3 6 = 0 then some (.rtswapWrite (fld w 15 6) (fld w 9 6)) else
  if bits w 0 3 = 5 ∧ bits w 3 6 = 0 then some (.keysel (fld w 15 6) (fld w 9 6)) else
  if bits w 0 3 = 6 ∧ bits w 3 6 = 0 then some (.ctxctlHold (fld w 15 6) (fld w 9 6)) else
  none

/-- The rows of major 0x3F (R78). -/
def decodeMajor3F (w : Nat) : Option Instr :=
  some (.undefMajor (fld w 0 21))

/-- The two-word rows of major 0x10 (R72, R78). -/
def decodeMajor10 (w x : Nat) : Option Instr :=
  if bits w 0 3 = 0 ∧ bits w 3 6 = 0 ∧ bits w 9 6 = 0 then some (.movl (fld w 15 6) (fld x 0 32)) else
  if bits w 0 3 = 1 ∧ bits w 3 6 = 0 ∧ bits w 9 6 = 0 then some (.movlSx (fld w 15 6) (fld x 0 32)) else
  if bits w 0 3 = 2 ∧ bits w 3 6 = 0 ∧ bits w 9 6 = 0 then some (.movlZx (fld w 15 6) (fld x 0 32)) else
  if bits w 0 3 = 3 ∧ bits w 3 6 = 0 ∧ bits w 9 6 = 0 then some (.movlHi (fld w 15 6) (fld x 0 32)) else
  none

/-- The two-word rows of major 0x28 (R72, R78). -/
def decodeMajor28 (w x : Nat) : Option Instr :=
  some (.ld (fld w 15 6) (fld w 9 6) (fld w 3 6) (fld w 0 3) (attrWord x))

/-- The two-word rows of major 0x29 (R72, R78). -/
def decodeMajor29 (w x : Nat) : Option Instr :=
  some (.st (fld w 15 6) (fld w 9 6) (fld w 3 6) (fld w 0 3) (attrWord x))

/-- The two-word rows of major 0x2A (R72, R78). -/
def decodeMajor2A (w x : Nat) : Option Instr :=
  if bits w 3 6 = 0 then some (.lds (fld w 15 6) (fld w 9 6) (fld w 0 3) (attrWord x)) else
  none

/-- The two-word rows of major 0x2B (R72, R78). -/
def decodeMajor2B (w x : Nat) : Option Instr :=
  if bits w 0 3 = 0 then some (.atomAdd (fld w 15 6) (fld w 9 6) (fld w 3 6) (attrWord x)) else
  if bits w 0 3 = 1 then some (.atomMins (fld w 15 6) (fld w 9 6) (fld w 3 6) (attrWord x)) else
  if bits w 0 3 = 2 then some (.atomMaxs (fld w 15 6) (fld w 9 6) (fld w 3 6) (attrWord x)) else
  if bits w 0 3 = 3 then some (.atomMinu (fld w 15 6) (fld w 9 6) (fld w 3 6) (attrWord x)) else
  if bits w 0 3 = 4 then some (.atomMaxu (fld w 15 6) (fld w 9 6) (fld w 3 6) (attrWord x)) else
  if bits w 0 3 = 5 then some (.atomAnd (fld w 15 6) (fld w 9 6) (fld w 3 6) (attrWord x)) else
  if bits w 0 3 = 6 then some (.atomOr (fld w 15 6) (fld w 9 6) (fld w 3 6) (attrWord x)) else
  if bits w 0 3 = 7 then some (.atomXor (fld w 15 6) (fld w 9 6) (fld w 3 6) (attrWord x)) else
  none

/-- The two-word rows of major 0x2C (R72, R78). -/
def decodeMajor2C (w x : Nat) : Option Instr :=
  if bits w 0 3 = 0 then some (.atomxExch (fld w 15 6) (fld w 9 6) (fld w 3 6) (attrWord x)) else
  if bits w 0 3 = 1 then some (.atomxCas32 (fld w 15 6) (fld w 9 6) (fld w 3 6) (attrWord x)) else
  if bits w 0 3 = 2 then some (.atomxCas64 (fld w 15 6) (fld w 9 6) (fld w 3 6) (attrWord x)) else
  if bits w 0 3 = 3 then some (.atomxCas128 (fld w 15 6) (fld w 9 6) (fld w 3 6) (attrWord x)) else
  if bits w 0 3 = 4 then some (.atomxFadd32 (fld w 15 6) (fld w 9 6) (fld w 3 6) (attrWord x)) else
  if bits w 0 3 = 5 then some (.atomxFmin32 (fld w 15 6) (fld w 9 6) (fld w 3 6) (attrWord x)) else
  if bits w 0 3 = 6 then some (.atomxFmax32 (fld w 15 6) (fld w 9 6) (fld w 3 6) (attrWord x)) else
  none

/-- The two-word rows of major 0x2D (R72, R78). -/
def decodeMajor2D (w x : Nat) : Option Instr :=
  if bits w 0 3 = 0 then some (.redAddI32 (fld w 15 6) (fld w 9 6) (fld w 3 6) (attrWord x)) else
  if bits w 0 3 = 1 then some (.redAddF32 (fld w 15 6) (fld w 9 6) (fld w 3 6) (attrWord x)) else
  if bits w 0 3 = 2 then some (.redAddBf16x2 (fld w 15 6) (fld w 9 6) (fld w 3 6) (attrWord x)) else
  if bits w 0 3 = 3 then some (.redMinF32 (fld w 15 6) (fld w 9 6) (fld w 3 6) (attrWord x)) else
  if bits w 0 3 = 4 then some (.redMaxF32 (fld w 15 6) (fld w 9 6) (fld w 3 6) (attrWord x)) else
  if bits w 0 3 = 5 then some (.redAddI64 (fld w 15 6) (fld w 9 6) (fld w 3 6) (attrWord x)) else
  none

/-- The two-word rows of major 0x2E (R72, R78). -/
def decodeMajor2E (w x : Nat) : Option Instr :=
  if bits w 0 3 = 0 ∧ bits w 15 6 = 0 then some (.cachePref (fld w 9 6) (fld w 3 6) (attrWord x)) else
  if bits w 0 3 = 1 then some (.cacheLock (fld w 15 6) (fld w 9 6) (fld w 3 6) (attrWord x)) else
  if bits w 0 3 = 2 then some (.cacheUnlock (fld w 15 6) (fld w 9 6) (fld w 3 6) (attrWord x)) else
  if bits w 0 3 = 3 ∧ bits w 15 6 = 0 then some (.cacheCwb (fld w 9 6) (fld w 3 6) (attrWord x)) else
  if bits w 0 3 = 4 ∧ bits w 15 6 = 0 then some (.cacheCinv (fld w 9 6) (fld w 3 6) (attrWord x)) else
  if bits w 0 3 = 5 ∧ bits w 15 6 = 0 then some (.cacheCwbinv (fld w 9 6) (fld w 3 6) (attrWord x)) else
  none

/-- The two-word rows of major 0x2F (R72, R78). -/
def decodeMajor2F (w x : Nat) : Option Instr :=
  if bits w 0 3 = 0 then some (.stashMap (fld w 15 6) (fld w 9 6) (fld w 3 6) (attrWord x)) else
  if bits w 0 3 = 1 then some (.stashUnmap (fld w 15 6) (fld w 9 6) (fld w 3 6) (attrWord x)) else
  if bits w 0 3 = 2 then some (.stashFlush (fld w 15 6) (fld w 9 6) (fld w 3 6) (attrWord x)) else
  if bits w 0 3 = 3 then some (.stashFill (fld w 15 6) (fld w 9 6) (fld w 3 6) (attrWord x)) else
  if bits w 0 3 = 4 then some (.stashQuery (fld w 15 6) (fld w 9 6) (fld w 3 6) (attrWord x)) else
  none

/-- The two-word rows of major 0x39 (R72, R78). -/
def decodeMajor39 (w x : Nat) : Option Instr :=
  if bits w 0 3 = 0 ∧ bits w 3 6 = 0 then some (.mq (fld w 15 6) (fld w 9 6) (matWord x)) else
  none

/-- The instruction that the words `w` and, for a two-word form, `x` encode (R78, R81). -/
def decodeInstr (w x : Nat) : Option Instr :=
  match bits w 21 6 with
  | 0 => decodeMajor00 w
  | 1 => decodeMajor01 w
  | 2 => decodeMajor02 w
  | 3 => decodeMajor03 w
  | 4 => decodeMajor04 w
  | 5 => decodeMajor05 w
  | 6 => decodeMajor06 w
  | 7 => decodeMajor07 w
  | 8 => decodeMajor08 w
  | 9 => decodeMajor09 w
  | 10 => decodeMajor0A w
  | 11 => decodeMajor0B w
  | 12 => decodeMajor0C w
  | 13 => decodeMajor0D w
  | 14 => decodeMajor0E w
  | 15 => decodeMajor0F w
  | 16 => decodeMajor10 w x
  | 17 => decodeMajor11 w
  | 18 => decodeMajor12 w
  | 19 => decodeMajor13 w
  | 20 => decodeMajor14 w
  | 21 => decodeMajor15 w
  | 22 => decodeMajor16 w
  | 23 => decodeMajor17 w
  | 24 => decodeMajor18 w
  | 25 => decodeMajor19 w
  | 26 => decodeMajor1A w
  | 27 => decodeMajor1B w
  | 28 => decodeMajor1C w
  | 29 => decodeMajor1D w
  | 30 => decodeMajor1E w
  | 31 => decodeMajor1F w
  | 32 => decodeMajor20 w
  | 33 => decodeMajor21 w
  | 34 => decodeMajor22 w
  | 35 => decodeMajor23 w
  | 36 => decodeMajor24 w
  | 37 => decodeMajor25 w
  | 38 => decodeMajor26 w
  | 39 => decodeMajor27 w
  | 40 => decodeMajor28 w x
  | 41 => decodeMajor29 w x
  | 42 => decodeMajor2A w x
  | 43 => decodeMajor2B w x
  | 44 => decodeMajor2C w x
  | 45 => decodeMajor2D w x
  | 46 => decodeMajor2E w x
  | 47 => decodeMajor2F w x
  | 48 => decodeMajor30 w
  | 49 => decodeMajor31 w
  | 50 => decodeMajor32 w
  | 51 => decodeMajor33 w
  | 52 => decodeMajor34 w
  | 53 => decodeMajor35 w
  | 54 => decodeMajor36 w
  | 55 => decodeMajor37 w
  | 56 => decodeMajor38 w
  | 57 => decodeMajor39 w x
  | 58 => decodeMajor3A w
  | 59 => decodeMajor3B w
  | 60 => decodeMajor3C w
  | 61 => decodeMajor3D w
  | 62 => decodeMajor3E w
  | 63 => decodeMajor3F w
  | _ => none

/-- A first word with the fields of bits [20:3] in place. -/
def bodyOf_3w18 (c : Ctl) (base : Nat) (x0 : BitVec 18) : W32 :=
  word c (base + x0.toNat * 2 ^ 3)

/-- A first word with the fields of bits [20:0] in place. -/
def bodyOf_0w21 (c : Ctl) (base : Nat) (x0 : BitVec 21) : W32 :=
  word c (base + x0.toNat * 2 ^ 0)

/-- A first word with the fields of bits [20:15], [14:9], [8:3] in place. -/
def bodyOf_15_9_3 (c : Ctl) (base : Nat) (x0 : BitVec 6) (x1 : BitVec 6) (x2 : BitVec 6) : W32 :=
  word c (base + x0.toNat * 2 ^ 15 + x1.toNat * 2 ^ 9 + x2.toNat * 2 ^ 3)

/-- A first word with the fields of bits [20:15], [14:9] in place. -/
def bodyOf_15_9 (c : Ctl) (base : Nat) (x0 : BitVec 6) (x1 : BitVec 6) : W32 :=
  word c (base + x0.toNat * 2 ^ 15 + x1.toNat * 2 ^ 9)

/-- A first word with the fields of bits [20:15], [14:9], [8:3], [2:0] in place. -/
def bodyOf_15_9_3_0w6w6w6w3 (c : Ctl) (base : Nat) (x0 : BitVec 6) (x1 : BitVec 6) (x2 : BitVec 6) (x3 : BitVec 3) : W32 :=
  word c (base + x0.toNat * 2 ^ 15 + x1.toNat * 2 ^ 9 + x2.toNat * 2 ^ 3 + x3.toNat * 2 ^ 0)

/-- A first word with the fields of bits [20:15], [14:9], [8:0] in place. -/
def bodyOf_15_9_0w6w6w9 (c : Ctl) (base : Nat) (x0 : BitVec 6) (x1 : BitVec 6) (x2 : BitVec 9) : W32 :=
  word c (base + x0.toNat * 2 ^ 15 + x1.toNat * 2 ^ 9 + x2.toNat * 2 ^ 0)

/-- A first word with the fields of bits [20:15], [14:9], [4:0] in place. -/
def bodyOf_15_9_0w6w6w5 (c : Ctl) (base : Nat) (x0 : BitVec 6) (x1 : BitVec 6) (x2 : BitVec 5) : W32 :=
  word c (base + x0.toNat * 2 ^ 15 + x1.toNat * 2 ^ 9 + x2.toNat * 2 ^ 0)

/-- A first word with the fields of bits [20:18], [17:15], [14:9], [8:0] in place. -/
def bodyOf_18_15_9_0w3w3w6w9 (c : Ctl) (base : Nat) (x0 : BitVec 3) (x1 : BitVec 3) (x2 : BitVec 6) (x3 : BitVec 9) : W32 :=
  word c (base + x0.toNat * 2 ^ 18 + x1.toNat * 2 ^ 15 + x2.toNat * 2 ^ 9 + x3.toNat * 2 ^ 0)

/-- A first word with the fields of bits [20:15], [14:0] in place. -/
def bodyOf_15_0w6w15 (c : Ctl) (base : Nat) (x0 : BitVec 6) (x1 : BitVec 15) : W32 :=
  word c (base + x0.toNat * 2 ^ 15 + x1.toNat * 2 ^ 0)

/-- A first word with the fields of bits [20:15] in place. -/
def bodyOf_15 (c : Ctl) (base : Nat) (x0 : BitVec 6) : W32 :=
  word c (base + x0.toNat * 2 ^ 15)

/-- A first word with the fields of bits [20:15], [14:9], [8:6], [5:3], [2:0] in place. -/
def bodyOf_15_9_6_3_0w6w6w3w3w3 (c : Ctl) (base : Nat) (x0 : BitVec 6) (x1 : BitVec 6) (x2 : BitVec 3) (x3 : BitVec 3) (x4 : BitVec 3) : W32 :=
  word c (base + x0.toNat * 2 ^ 15 + x1.toNat * 2 ^ 9 + x2.toNat * 2 ^ 6 + x3.toNat * 2 ^ 3 + x4.toNat * 2 ^ 0)

/-- A first word with the fields of bits [20:15], [14:9], [2:0] in place. -/
def bodyOf_15_9_0w6w6w3 (c : Ctl) (base : Nat) (x0 : BitVec 6) (x1 : BitVec 6) (x2 : BitVec 3) : W32 :=
  word c (base + x0.toNat * 2 ^ 15 + x1.toNat * 2 ^ 9 + x2.toNat * 2 ^ 0)

/-- A first word with the fields of bits [20:15], [14:9], [5:3], [2:0] in place. -/
def bodyOf_15_9_3_0w6w6w3w3 (c : Ctl) (base : Nat) (x0 : BitVec 6) (x1 : BitVec 6) (x2 : BitVec 3) (x3 : BitVec 3) : W32 :=
  word c (base + x0.toNat * 2 ^ 15 + x1.toNat * 2 ^ 9 + x2.toNat * 2 ^ 3 + x3.toNat * 2 ^ 0)

/-- A first word with the fields of bits [20:15], [14:9], [3:3] in place. -/
def bodyOf_15_9_3w6w6w1 (c : Ctl) (base : Nat) (x0 : BitVec 6) (x1 : BitVec 6) (x2 : BitVec 1) : W32 :=
  word c (base + x0.toNat * 2 ^ 15 + x1.toNat * 2 ^ 9 + x2.toNat * 2 ^ 3)

/-- A first word with the fields of bits [20:15], [14:9], [6:6], [5:3] in place. -/
def bodyOf_15_9_6_3w6w6w1w3 (c : Ctl) (base : Nat) (x0 : BitVec 6) (x1 : BitVec 6) (x2 : BitVec 1) (x3 : BitVec 3) : W32 :=
  word c (base + x0.toNat * 2 ^ 15 + x1.toNat * 2 ^ 9 + x2.toNat * 2 ^ 6 + x3.toNat * 2 ^ 3)

/-- A first word with the fields of bits [20:15], [14:14], [13:13], [8:0] in place. -/
def bodyOf_15_14_13_0w6w1w1w9 (c : Ctl) (base : Nat) (x0 : BitVec 6) (x1 : BitVec 1) (x2 : BitVec 1) (x3 : BitVec 9) : W32 :=
  word c (base + x0.toNat * 2 ^ 15 + x1.toNat * 2 ^ 14 + x2.toNat * 2 ^ 13 + x3.toNat * 2 ^ 0)

/-- A first word with the fields of bits [20:15], [14:14], [13:13] in place. -/
def bodyOf_15_14_13w6w1w1 (c : Ctl) (base : Nat) (x0 : BitVec 6) (x1 : BitVec 1) (x2 : BitVec 1) : W32 :=
  word c (base + x0.toNat * 2 ^ 15 + x1.toNat * 2 ^ 14 + x2.toNat * 2 ^ 13)

/-- A first word with the fields of bits [20:17], [16:0] in place. -/
def bodyOf_17_0w4w17 (c : Ctl) (base : Nat) (x0 : BitVec 4) (x1 : BitVec 17) : W32 :=
  word c (base + x0.toNat * 2 ^ 17 + x1.toNat * 2 ^ 0)

/-- A first word with the fields of bits [14:9] in place. -/
def bodyOf_9 (c : Ctl) (base : Nat) (x0 : BitVec 6) : W32 :=
  word c (base + x0.toNat * 2 ^ 9)

/-- A first word with the fields of bits [20:17], [16:15], [14:0] in place. -/
def bodyOf_17_15_0w4w2w15 (c : Ctl) (base : Nat) (x0 : BitVec 4) (x1 : BitVec 2) (x2 : BitVec 15) : W32 :=
  word c (base + x0.toNat * 2 ^ 17 + x1.toNat * 2 ^ 15 + x2.toNat * 2 ^ 0)

/-- A first word with the fields of bits [8:3] in place. -/
def bodyOf_3 (c : Ctl) (base : Nat) (x0 : BitVec 6) : W32 :=
  word c (base + x0.toNat * 2 ^ 3)

/-- A first word with the fields of bits [14:9], [8:3] in place. -/
def bodyOf_9_3 (c : Ctl) (base : Nat) (x0 : BitVec 6) (x1 : BitVec 6) : W32 :=
  word c (base + x0.toNat * 2 ^ 9 + x1.toNat * 2 ^ 3)

/-- A first word with the fields of bits [5:3] in place. -/
def bodyOf_3w3 (c : Ctl) (base : Nat) (x0 : BitVec 3) : W32 :=
  word c (base + x0.toNat * 2 ^ 3)

/-- A first word with the fields of bits [14:9], [5:3] in place. -/
def bodyOf_9_3w6w3 (c : Ctl) (base : Nat) (x0 : BitVec 6) (x1 : BitVec 3) : W32 :=
  word c (base + x0.toNat * 2 ^ 9 + x1.toNat * 2 ^ 3)

/-- A first word with the fields of bits [20:15], [14:9], [5:3] in place. -/
def bodyOf_15_9_3w6w6w3 (c : Ctl) (base : Nat) (x0 : BitVec 6) (x1 : BitVec 6) (x2 : BitVec 3) : W32 :=
  word c (base + x0.toNat * 2 ^ 15 + x1.toNat * 2 ^ 9 + x2.toNat * 2 ^ 3)

/-- A first word with the fields of bits [20:15], [8:3] in place. -/
def bodyOf_15_3 (c : Ctl) (base : Nat) (x0 : BitVec 6) (x1 : BitVec 6) : W32 :=
  word c (base + x0.toNat * 2 ^ 15 + x1.toNat * 2 ^ 3)

/-- A first word with the fields of bits [20:15], [14:9], [7:6], [5:3] in place. -/
def bodyOf_15_9_6_3w6w6w2w3 (c : Ctl) (base : Nat) (x0 : BitVec 6) (x1 : BitVec 6) (x2 : BitVec 2) (x3 : BitVec 3) : W32 :=
  word c (base + x0.toNat * 2 ^ 15 + x1.toNat * 2 ^ 9 + x2.toNat * 2 ^ 6 + x3.toNat * 2 ^ 3)

/-- A first word with the fields of bits [20:15], [14:9], [7:7] in place. -/
def bodyOf_15_9_7w6w6w1 (c : Ctl) (base : Nat) (x0 : BitVec 6) (x1 : BitVec 6) (x2 : BitVec 1) : W32 :=
  word c (base + x0.toNat * 2 ^ 15 + x1.toNat * 2 ^ 9 + x2.toNat * 2 ^ 7)

/-- The words of an instruction, under the control fields `c`; none for an event, which has no words, and for a row
that shares another row's word (R61, R70, R72). -/
def encode (c : Ctl) : Instr → Option (List W32)
  | .fwcall k => some [bodyOf_3w18 c 0x00000004 k]
  | .trap k => some [bodyOf_3w18 c 0x00000005 k]
  | .bkpt k => some [bodyOf_3w18 c 0x00000006 k]
  | .undef x => some [bodyOf_3w18 c 0x00000007 x]
  | .undefMajor x => some [bodyOf_0w21 c 0x07E00000 x]
  | .iadd d a b => some [bodyOf_15_9_3 c 0x00200000 d a b]
  | .isub d a b => some [bodyOf_15_9_3 c 0x00200001 d a b]
  | .imin d a b => some [bodyOf_15_9_3 c 0x00200002 d a b]
  | .imax d a b => some [bodyOf_15_9_3 c 0x00200003 d a b]
  | .iminu d a b => some [bodyOf_15_9_3 c 0x00200004 d a b]
  | .imaxu d a b => some [bodyOf_15_9_3 c 0x00200005 d a b]
  | .iabsd d a b => some [bodyOf_15_9_3 c 0x00200006 d a b]
  | .iaddc d a b => some [bodyOf_15_9_3 c 0x00200007 d a b]
  | .imul d a b => some [bodyOf_15_9_3 c 0x00400000 d a b]
  | .imulh d a b => some [bodyOf_15_9_3 c 0x00400001 d a b]
  | .imulhu d a b => some [bodyOf_15_9_3 c 0x00400002 d a b]
  | .imad d a b => some [bodyOf_15_9_3 c 0x00400003 d a b]
  | .idiv d a b => some [bodyOf_15_9_3 c 0x00400004 d a b]
  | .idivu d a b => some [bodyOf_15_9_3 c 0x00400005 d a b]
  | .irem d a b => some [bodyOf_15_9_3 c 0x00400006 d a b]
  | .iremu d a b => some [bodyOf_15_9_3 c 0x00400007 d a b]
  | .andd d a b => some [bodyOf_15_9_3 c 0x00600000 d a b]
  | .orr d a b => some [bodyOf_15_9_3 c 0x00600001 d a b]
  | .xor d a b => some [bodyOf_15_9_3 c 0x00600002 d a b]
  | .andn d a b => some [bodyOf_15_9_3 c 0x00600003 d a b]
  | .orn d a b => some [bodyOf_15_9_3 c 0x00600004 d a b]
  | .xnor d a b => some [bodyOf_15_9_3 c 0x00600005 d a b]
  | .notb d a => some [bodyOf_15_9 c 0x00600006 d a]
  | .shl d a b => some [bodyOf_15_9_3 c 0x00800000 d a b]
  | .shr d a b => some [bodyOf_15_9_3 c 0x00800001 d a b]
  | .sar d a b => some [bodyOf_15_9_3 c 0x00800002 d a b]
  | .rol d a b => some [bodyOf_15_9_3 c 0x00800003 d a b]
  | .ror d a b => some [bodyOf_15_9_3 c 0x00800004 d a b]
  | .fshl d a b => some [bodyOf_15_9_3 c 0x00800005 d a b]
  | .fshr d a b => some [bodyOf_15_9_3 c 0x00800006 d a b]
  | .clz d a => some [bodyOf_15_9 c 0x00A00000 d a]
  | .ctz d a => some [bodyOf_15_9 c 0x00A00001 d a]
  | .popc d a => some [bodyOf_15_9 c 0x00A00002 d a]
  | .brev d a => some [bodyOf_15_9 c 0x00A00003 d a]
  | .bitil d a sp => some [bodyOf_15_9_3 c 0x00A00004 d a sp]
  | .bitdl d a sp => some [bodyOf_15_9_3 c 0x00A00005 d a sp]
  | .bytep d a b => some [bodyOf_15_9_3 c 0x00A00006 d a b]
  | .bfe d a b => some [bodyOf_15_9_3 c 0x00C00000 d a b]
  | .bfeu d a b => some [bodyOf_15_9_3 c 0x00C00001 d a b]
  | .bfi d a b => some [bodyOf_15_9_3 c 0x00C00002 d a b]
  | .icmp d a b k => some [bodyOf_15_9_3_0w6w6w6w3 c 0x00E00000 d a b k]
  | .iaddi d a i => some [bodyOf_15_9_0w6w6w9 c 0x01000000 d a i]
  | .iandi d a i => some [bodyOf_15_9_0w6w6w9 c 0x01200000 d a i]
  | .iori d a i => some [bodyOf_15_9_0w6w6w9 c 0x01400000 d a i]
  | .ixori d a i => some [bodyOf_15_9_0w6w6w9 c 0x01600000 d a i]
  | .shli d a n => some [bodyOf_15_9_0w6w6w5 c 0x01800000 d a n]
  | .shri d a n => some [bodyOf_15_9_0w6w6w5 c 0x01800080 d a n]
  | .sari d a n => some [bodyOf_15_9_0w6w6w5 c 0x01800100 d a n]
  | .roli d a n => some [bodyOf_15_9_0w6w6w5 c 0x01800180 d a n]
  | .icmpi k p a i => some [bodyOf_18_15_9_0w3w3w6w9 c 0x01A00000 k p a i]
  | .lea d a b f => some [bodyOf_15_9_3_0w6w6w6w3 c 0x01C00000 d a b f]
  | .movi d i => some [bodyOf_15_0w6w15 c 0x01E00000 d i]
  | .movl d lit => some [bodyOf_15 c 0x02000000 d, lit]
  | .movlSx d lit => some [bodyOf_15 c 0x02000001 d, lit]
  | .movlZx d lit => some [bodyOf_15 c 0x02000002 d, lit]
  | .movlHi d lit => some [bodyOf_15 c 0x02000003 d, lit]
  | .fadd d a b => some [bodyOf_15_9_3 c 0x02200000 d a b]
  | .fsub d a b => some [bodyOf_15_9_3 c 0x02200001 d a b]
  | .fmul d a b => some [bodyOf_15_9_3 c 0x02200002 d a b]
  | .fmin d a b => some [bodyOf_15_9_3 c 0x02200003 d a b]
  | .fmax d a b => some [bodyOf_15_9_3 c 0x02200004 d a b]
  | .fminm d a b => some [bodyOf_15_9_3 c 0x02200005 d a b]
  | .fmaxm d a b => some [bodyOf_15_9_3 c 0x02200006 d a b]
  | .fabsd d a b => some [bodyOf_15_9_3 c 0x02200007 d a b]
  | .ffma d a b => some [bodyOf_15_9_3 c 0x02400000 d a b]
  | .ffms d a b => some [bodyOf_15_9_3 c 0x02400001 d a b]
  | .fnfma d a b => some [bodyOf_15_9_3 c 0x02400002 d a b]
  | .fnfms d a b => some [bodyOf_15_9_3 c 0x02400003 d a b]
  | .pkfma d a b => some [bodyOf_15_9_3 c 0x02400004 d a b]
  | .pkadd d a b => some [bodyOf_15_9_3 c 0x02400005 d a b]
  | .pkmul d a b => some [bodyOf_15_9_3 c 0x02400006 d a b]
  | .pkfmaF16 d a b => some [bodyOf_15_9_3 c 0x02400007 d a b]
  | .fcmp d a b k => some [bodyOf_15_9_3_0w6w6w6w3 c 0x02600000 d a b k]
  | .fcvt d a sp t m => some [bodyOf_15_9_6_3_0w6w6w3w3w3 c 0x02800000 d a sp t m]
  | .frnd d a m => some [bodyOf_15_9_0w6w6w3 c 0x02A00000 d a m]
  | .fcvti d a t m => some [bodyOf_15_9_3_0w6w6w3w3 c 0x02C00000 d a t m]
  | .icvtf d a t m => some [bodyOf_15_9_3_0w6w6w3w3 c 0x02E00000 d a t m]
  | .fscaleb d a b => some [bodyOf_15_9_3 c 0x03000000 d a b]
  | .frexpe d a => some [bodyOf_15_9 c 0x03000001 d a]
  | .frexpm d a => some [bodyOf_15_9 c 0x03000002 d a]
  | .fclass d a => some [bodyOf_15_9 c 0x03000003 d a]
  | .fsgnj d a b => some [bodyOf_15_9_3 c 0x03000004 d a b]
  | .fsgnjn d a b => some [bodyOf_15_9_3 c 0x03000005 d a b]
  | .fabs d a => some [bodyOf_15_9 c 0x03000006 d a]
  | .fneg d a => some [bodyOf_15_9 c 0x03000007 d a]
  | .frcp d a => some [bodyOf_15_9 c 0x03200000 d a]
  | .frsq d a => some [bodyOf_15_9 c 0x03200001 d a]
  | .fsqrt d a => some [bodyOf_15_9 c 0x03200002 d a]
  | .fexp2 d a => some [bodyOf_15_9 c 0x03200003 d a]
  | .flog2 d a => some [bodyOf_15_9 c 0x03200004 d a]
  | .fsint d a => some [bodyOf_15_9 c 0x03200005 d a]
  | .fcost d a => some [bodyOf_15_9 c 0x03200006 d a]
  | .ftanh d a => some [bodyOf_15_9 c 0x03200007 d a]
  | .fdiv d a b => some [bodyOf_15_9_3 c 0x03400000 d a b]
  | .fsincosT d a => some [bodyOf_15_9 c 0x03400001 d a]
  | .ferf d a => some [bodyOf_15_9 c 0x03400002 d a]
  | .shflIdx d a b => some [bodyOf_15_9_3 c 0x03600000 d a b]
  | .shflUp d a b => some [bodyOf_15_9_3 c 0x03600001 d a b]
  | .shflDown d a b => some [bodyOf_15_9_3 c 0x03600002 d a b]
  | .shflXor d a b => some [bodyOf_15_9_3 c 0x03600003 d a b]
  | .voteAll d a => some [bodyOf_15_9 c 0x03800000 d a]
  | .voteAny d a => some [bodyOf_15_9 c 0x03800001 d a]
  | .voteBal d a => some [bodyOf_15_9 c 0x03800002 d a]
  | .matchLanes d a => some [bodyOf_15_9 c 0x03800003 d a]
  | .lredAdd d a => some [bodyOf_15_9 c 0x03800004 d a]
  | .lredMin d a => some [bodyOf_15_9 c 0x03800005 d a]
  | .lredMax d a => some [bodyOf_15_9 c 0x03800006 d a]
  | .lscanAdd d a => some [bodyOf_15_9 c 0x03800007 d a]
  | .mov d a => some [bodyOf_15_9 c 0x03A00000 d a]
  | .movs d a h => some [bodyOf_15_9_3w6w6w1 c 0x03A00001 d a h]
  | .smov d a => some [bodyOf_15_9 c 0x03A00002 d a]
  | .smovs d a => some [bodyOf_15_9 c 0x03A00003 d a]
  | .sel d a n k => some [bodyOf_15_9_6_3w6w6w1w3 c 0x03A00004 d a n k]
  | .pmovPFromV d a => some [bodyOf_15_9 c 0x03A00005 d a]
  | .pmovVFromP d a => some [bodyOf_15_9 c 0x03A0000D d a]
  | .sread d k h n => some [bodyOf_15_14_13_0w6w1w1w9 c 0x03C00000 d k h n]
  | .sreadTime d k h => some [bodyOf_15_14_13w6w1w1 c 0x03C00028 d k h]
  | .sreadTimef d k h => some [bodyOf_15_14_13w6w1w1 c 0x03C00029 d k h]
  | .swrite d k h n => some [bodyOf_15_14_13_0w6w1w1w9 c 0x03E00000 d k h n]
  | .swriteGst d k h => some [bodyOf_15_14_13w6w1w1 c 0x03E00032 d k h]
  | .swriteRafbase d k h => some [bodyOf_15_14_13w6w1w1 c 0x03E00120 d k h]
  | .swriteClkmode d k h => some [bodyOf_15_14_13w6w1w1 c 0x03E00138 d k h]
  | .sadd d a b => some [bodyOf_15_9_3 c 0x04000000 d a b]
  | .ssub d a b => some [bodyOf_15_9_3 c 0x04000001 d a b]
  | .sand d a b => some [bodyOf_15_9_3 c 0x04000002 d a b]
  | .sor d a b => some [bodyOf_15_9_3 c 0x04000003 d a b]
  | .sxor d a b => some [bodyOf_15_9_3 c 0x04000004 d a b]
  | .sshl d a b => some [bodyOf_15_9_3 c 0x04000005 d a b]
  | .sshr d a b => some [bodyOf_15_9_3 c 0x04000006 d a b]
  | .smul d a b => some [bodyOf_15_9_3 c 0x04000007 d a b]
  | .saddi d a i => some [bodyOf_15_9_0w6w6w9 c 0x04200000 d a i]
  | .scmp d a b k => some [bodyOf_15_9_3_0w6w6w6w3 c 0x04400000 d a b k]
  | .br k o => some [bodyOf_17_0w4w17 c 0x04600000 k o]
  | .bru k o => some [bodyOf_17_0w4w17 c 0x04800000 k o]
  | .call k o => some [bodyOf_17_0w4w17 c 0x04A00000 k o]
  | .jmpx a => some [bodyOf_9 c 0x04C00000 a]
  | .brj k j o => some [bodyOf_17_15_0w4w2w15 c 0x07600000 k j o]
  | .join n => some [bodyOf_3 c 0x04E00000 n]
  | .spawn d a b => some [bodyOf_15_9_3 c 0x04E00003 d a b]
  | .setejt m => some [bodyOf_3 c 0x04E00004 m]
  | .ld d a b f m => some [bodyOf_15_9_3_0w6w6w6w3 c 0x05000000 d a b f, m.word]
  | .st d a b f m => some [bodyOf_15_9_3_0w6w6w6w3 c 0x05200000 d a b f, m.word]
  | .lds d a f m => some [bodyOf_15_9_0w6w6w3 c 0x05400000 d a f, m.word]
  | .atomAdd d a b m => some [bodyOf_15_9_3 c 0x05600000 d a b, m.word]
  | .atomMins d a b m => some [bodyOf_15_9_3 c 0x05600001 d a b, m.word]
  | .atomMaxs d a b m => some [bodyOf_15_9_3 c 0x05600002 d a b, m.word]
  | .atomMinu d a b m => some [bodyOf_15_9_3 c 0x05600003 d a b, m.word]
  | .atomMaxu d a b m => some [bodyOf_15_9_3 c 0x05600004 d a b, m.word]
  | .atomAnd d a b m => some [bodyOf_15_9_3 c 0x05600005 d a b, m.word]
  | .atomOr d a b m => some [bodyOf_15_9_3 c 0x05600006 d a b, m.word]
  | .atomXor d a b m => some [bodyOf_15_9_3 c 0x05600007 d a b, m.word]
  | .atomxExch d a b m => some [bodyOf_15_9_3 c 0x05800000 d a b, m.word]
  | .atomxCas32 d a b m => some [bodyOf_15_9_3 c 0x05800001 d a b, m.word]
  | .atomxCas64 d a b m => some [bodyOf_15_9_3 c 0x05800002 d a b, m.word]
  | .atomxCas128 d a b m => some [bodyOf_15_9_3 c 0x05800003 d a b, m.word]
  | .atomxFadd32 d a b m => some [bodyOf_15_9_3 c 0x05800004 d a b, m.word]
  | .atomxFmin32 d a b m => some [bodyOf_15_9_3 c 0x05800005 d a b, m.word]
  | .atomxFmax32 d a b m => some [bodyOf_15_9_3 c 0x05800006 d a b, m.word]
  | .redAddI32 d a b m => some [bodyOf_15_9_3 c 0x05A00000 d a b, m.word]
  | .redAddF32 d a b m => some [bodyOf_15_9_3 c 0x05A00001 d a b, m.word]
  | .redAddBf16x2 d a b m => some [bodyOf_15_9_3 c 0x05A00002 d a b, m.word]
  | .redMinF32 d a b m => some [bodyOf_15_9_3 c 0x05A00003 d a b, m.word]
  | .redMaxF32 d a b m => some [bodyOf_15_9_3 c 0x05A00004 d a b, m.word]
  | .redAddI64 d a b m => some [bodyOf_15_9_3 c 0x05A00005 d a b, m.word]
  | .cachePref a b m => some [bodyOf_9_3 c 0x05C00000 a b, m.word]
  | .cacheLock d a b m => some [bodyOf_15_9_3 c 0x05C00001 d a b, m.word]
  | .cacheUnlock d a b m => some [bodyOf_15_9_3 c 0x05C00002 d a b, m.word]
  | .cacheCwb a b m => some [bodyOf_9_3 c 0x05C00003 a b, m.word]
  | .cacheCinv a b m => some [bodyOf_9_3 c 0x05C00004 a b, m.word]
  | .cacheCwbinv a b m => some [bodyOf_9_3 c 0x05C00005 a b, m.word]
  | .stashMap d a b m => some [bodyOf_15_9_3 c 0x05E00000 d a b, m.word]
  | .stashUnmap d a b m => some [bodyOf_15_9_3 c 0x05E00001 d a b, m.word]
  | .stashFlush d a b m => some [bodyOf_15_9_3 c 0x05E00002 d a b, m.word]
  | .stashFill d a b m => some [bodyOf_15_9_3 c 0x05E00003 d a b, m.word]
  | .stashQuery d a b m => some [bodyOf_15_9_3 c 0x05E00004 d a b, m.word]
  | .fence sp => some [bodyOf_3w3 c 0x06000000 sp]
  | .fenceX a sp => some [bodyOf_9_3w6w3 c 0x06000001 a sp]
  | .fenceP d a sp => some [bodyOf_15_9_3w6w6w3 c 0x06000002 d a sp]
  | .redfOrd n => some [bodyOf_3w3 c 0x06000004 n]
  | .barArrive a b => some [bodyOf_9_3 c 0x06200000 a b]
  | .barWait a b => some [bodyOf_9_3 c 0x06200001 a b]
  | .barSync a b => some [bodyOf_9_3 c 0x06200002 a b]
  | .barStep a b => some [bodyOf_9_3 c 0x06200003 a b]
  | .barExpect d a b => some [bodyOf_15_9_3 c 0x06200004 d a b]
  | .semAcq a => some [bodyOf_9 c 0x06400000 a]
  | .semRel a => some [bodyOf_9 c 0x06400001 a]
  | .semTryacq d a => some [bodyOf_15_9 c 0x06400002 d a]
  | .semAcqM a => some [bodyOf_9 c 0x06400003 a]
  | .semRelM a => some [bodyOf_9 c 0x06400004 a]
  | .syncaAlloc d a => some [bodyOf_15_9 c 0x06600000 d a]
  | .syncaFree a => some [bodyOf_9 c 0x06600001 a]
  | .qopPush d b => some [bodyOf_15_3 c 0x06800000 d b]
  | .qopPop d b => some [bodyOf_15_3 c 0x06800001 d b]
  | .qopTrypush d a b => some [bodyOf_15_9_3 c 0x06800002 d a b]
  | .qopTrypop d a b => some [bodyOf_15_9_3 c 0x06800003 d a b]
  | .qopAllow d b => some [bodyOf_15_3 c 0x06800004 d b]
  | .qopPeek d a b => some [bodyOf_15_9_3 c 0x06800005 d a b]
  | .wqEnq d a b => some [bodyOf_15_9_3 c 0x06A00000 d a b]
  | .wqDeq d a => some [bodyOf_15_9 c 0x06A00001 d a]
  | .wqTrydeq d a b => some [bodyOf_15_9_3 c 0x06A00002 d a b]
  | .wqEnqw d a b => some [bodyOf_15_9_3 c 0x06A00003 d a b]
  | .launch d a b => some [bodyOf_15_9_3 c 0x06C00000 d a b]
  | .amsg d a b => some [bodyOf_15_9_3 c 0x06C00001 d a b]
  | .chanPost d a b => some [bodyOf_15_9_3 c 0x06E00000 d a b]
  | .chanStat d a => some [bodyOf_15_9 c 0x06E00001 d a]
  | .chanCancel d a => some [bodyOf_15_9 c 0x06E00002 d a]
  | .chanColl d a b => some [bodyOf_15_9_3 c 0x06E00003 d a b]
  | .crecPoll d a b => some [bodyOf_15_9_3 c 0x07000000 d a b]
  | .crecWait d a b => some [bodyOf_15_9_3 c 0x07000001 d a b]
  | .crecAck a b => some [bodyOf_9_3 c 0x07000002 a b]
  | .mq d a m => some [bodyOf_15_9 c 0x07200000 d a, m.matWord]
  | .mloadb d a n t => some [bodyOf_15_9_6_3w6w6w2w3 c 0x07400000 d a n t]
  | .mscl d a b => some [bodyOf_15_9_3 c 0x07400002 d a b]
  | .maccrd d a => some [bodyOf_15_9 c 0x07400003 d a]
  | .maccwr d a => some [bodyOf_15_9 c 0x07400004 d a]
  | .maccclr a => some [bodyOf_9 c 0x07400005 a]
  | .macccvt d a t => some [bodyOf_15_9_3w6w6w3 c 0x07400006 d a t]
  | .rgnEnter d a m => some [bodyOf_15_9_7w6w6w1 c 0x07800000 d a m]
  | .emit a b => some [bodyOf_9_3 c 0x07A00000 a b]
  | .causeget d => some [bodyOf_15 c 0x07A00001 d]
  | .causeset a => some [bodyOf_9 c 0x07A00002 a]
  | .perfrd d a => some [bodyOf_15_9 c 0x07A00003 d a]
  | .censusrd d a => some [bodyOf_15_9 c 0x07A00004 d a]
  | .segld d a => some [bodyOf_15_9 c 0x07C00000 d a]
  | .heapld d a => some [bodyOf_15_9 c 0x07C00001 d a]
  | .tlbinv d a => some [bodyOf_15_9 c 0x07C00002 d a]
  | .divinstInstall d a => some [bodyOf_15_9 c 0x07C00003 d a]
  | .rtswapWrite d a => some [bodyOf_15_9 c 0x07C00004 d a]
  | .keysel d a => some [bodyOf_15_9 c 0x07C00005 d a]
  | .ctxctlHold d a => some [bodyOf_15_9 c 0x07C00006 d a]
  | .nop => some [word c 0x00000000]
  | .halt => some [word c 0x00000001]
  | .eret => some [word c 0x00000002]
  | .idle => some [word c 0x00000003]
  | .divideComplete => none
  | .ret => some [word c 0x04C00001]
  | .reconv => some [word c 0x04E00001]
  | .exit => some [word c 0x04E00002]
  | .redf => some [word c 0x06000003]
  | .redfOrdToken => none
  | .rclkAdv => some [word c 0x06000005]
  | .rclkAutoAdvance => none
  | .barForwardedArrival => none
  | .barCredit => none
  | .semWordRetry => none
  | .enqwTimeout => none
  | .wqRefill => none
  | .amsgDeliver => none
  | .chanChainStart => none
  | .engineRecordStart => none
  | .completionRecordWrite => none
  | .collStepStart => none
  | .collStepData => none
  | .collStepTimeout => none
  | .crecWaitTimeout => none
  | .matrixPassClose => none
  | .matrixPassStart => none
  | .matrixPassComplete => none
  | .mswap => some [word c 0x07400001]
  | .mldComplete => none
  | .rgnLeave => some [word c 0x07800100]
  | .divinstLink => none
  | .divinstDrain => none
  | .divinstRemove => none
  | .divinstRead => none
  | .rtswapRead => none
  | .rtswapSwap => none
  | .rtswapTimeout => none
  | .ctxctlUnhold => none
  | .ctxctlSave => none
  | .ctxctlRestore => none
  | .ctxctlRelease => none
  | .ctxctlKill => none
  | .ctxctlServe => none
  | .ctxctlDecline => none
  | .ctxctlFwret => none
  | .ctxctlReset => none
  | .chainIssue => none
  | .guardPromote => none
  | .gapExpire => none
  | .switchRelease => none
  | .resultWrite => none
  | .loadReturn => none
  | .storePerform => none
  | .atomPerform => none
  | .walkStart => none
  | .walkComplete => none
  | .sliceServeRequest => none
  | .sliceSweep => none
  | .tauWindow => none
  | .l1LineDrop => none
  | .stashProbe => none
  | .stashFillComplete => none
  | .peerRequest => none
  | .packetReturn => none
  | .dataUncorrectable => none
  | .macroParity => none
  | .atombufParity => none
  | .trapEntry => none
  | .bandPlace => none
  | .bandRelease => none
  | .binTimerExpire => none
  | .binFire => none
  | .poolRecordEnterBin => none
  | .helperStart => none
  | .taskComplete => none
  | .submissionStart => none
  | .codeObjectLoad => none
  | .eventWaitSatisfied => none
  | .blockingCandidate => none
  | .diversionAppend => none
  | .suspendDeadline => none
  | .saveAbandon => none
  | .watchdogExpire => none
  | .wfgRemoteTimeout => none
  | .traceRecordAccept => none
  | .loss => none
  | .sample => none
  | .breakpointHalt => none
  | .debug => none
  | .debugStep => none
  | .debugRevoke => none
  | .hello => none
  | .keyx => none
  | .sessionTimeout => none
  | .alaellGapTimeout => none
  | .qbind => none
  | .submit => none
  | .hostLaunch => none
  | .ctxnew => none
  | .ctxend => none
  | .suspend => none
  | .resume => none
  | .keyload => none
  | .keydestroy => none
  | .partdef => none
  | .power => none
  | .clock => none
  | .retain => none
  | .retainRestore => none
  | .retireCore => none
  | .retireLayer => none
  | .retireLane => none
  | .update => none
  | .traceread => none
  | .snapshot => none
  | .hostMark => none
  | .attest => none
  | .ptpSync => none
  | .ptpDelayResp => none
  | .ptpHoldover => none
  | .timeStep => none
  | .claspFlit => none
  | .claspRetry => none
  | .scaleoutPacket => none
  | .scaleoutRetransmit => none
  | .scaleoutConnLost => none
  | .powerMeasure => none
  | .temperatureTrip => none
  | .deviceReset => none
  | .powerOn => none
  | .engineAccess => none
  | .collBeginNotice => none
  | .wfgRemoteQuery => none
  | .partitionResetComplete => none
  | .linkTrainingComplete => none
  | .firmwareUpdateComplete => none
  | .clockChangeComplete => none
  | .undercroftShareChange => none
  | .haltRestart => none

/-- Decodes the instruction that starts with the word `w`, with `x` the word after it. -/
def decodeWords (w x : W32) : Except Reject Decoded :=
  match decodeInstr w.toNat x.toNat with
  | some i => .ok { ctl := ctlOf w.toNat, instr := i, words := if isTwoWord w.toNat then 2 else 1 }
  | none => .error .noRow

/-- A word from its four bytes, the least significant first (R2, R58). -/
def wordOfBytes (a b c d : Byte) : W32 :=
  BitVec.ofNat 32 (a.toNat + b.toNat * 2 ^ 8 + c.toNat * 2 ^ 16 + d.toNat * 2 ^ 24)

/-- The four bytes of a word, the least significant first (R2, R58). -/
def bytesOfWord (w : W32) : List Byte :=
  [BitVec.ofNat 8 w.toNat, BitVec.ofNat 8 (w.toNat / 2 ^ 8), BitVec.ofNat 8 (w.toNat / 2 ^ 16),
   BitVec.ofNat 8 (w.toNat / 2 ^ 24)]

/-- Decodes the instruction at the front of a list of bytes and returns the bytes after it. -/
def decodeBytes : List Byte → Except Reject (Decoded × List Byte)
  | a :: b :: c :: d :: rest =>
    let w := wordOfBytes a b c d
    if isTwoWord w.toNat then
      match rest with
      | e :: f :: g :: h :: rest' =>
        match decodeWords w (wordOfBytes e f g h) with
        | .ok r => .ok (r, rest')
        | .error r => .error r
      | _ => .error .truncated
    else
      match decodeWords w 0 with
      | .ok r => .ok (r, rest)
      | .error r => .error r
  | _ => .error .truncated

/-- The instruction whose bits are `w`, bit 0 the least significant bit of the first word, the bits above `nbits`
zero: its words are laid out little-endian, the first at the lowest address, and given to the decoder. -/
def decodeTableWord (nbits w : Nat) : Option Instr :=
  let v := w % 2 ^ nbits
  match decodeBytes (bytesOfWord (BitVec.ofNat 32 v) ++ bytesOfWord (BitVec.ofNat 32 (v / 2 ^ 32))) with
  | .ok (r, _) => some r.instr
  | .error _ => none

/-- The pipes of R63 and R78. -/
inductive Pipe where
  | int | vab | sfu | mem | ctl | xf | mat | none
deriving DecidableEq, Repr

/-- The pipe that a first word's major names (R63, R78); UNDEF names none. -/
def pipeOf (w : Nat) : Pipe :=
  let m := bits w 21 6
  if m = 0x3F then .none
  else if m = 0 || m = 0x1E || m = 0x1F || (0x20 ≤ m && m ≤ 0x27) || m = 0x3B || m = 0x3C || m = 0x3D || m = 0x3E then .ctl
  else if (1 ≤ m && m ≤ 0x10) || m = 0x1B || m = 0x1C || m = 0x1D then .int
  else if 0x11 ≤ m && m ≤ 0x18 then .vab
  else if m = 0x19 || m = 0x1A then .sfu
  else if 0x28 ≤ m && m ≤ 0x30 then .mem
  else if 0x31 ≤ m && m ≤ 0x38 then .xf
  else .mat

/-- True for an instruction that can transfer control, which must be the last member of its chain: BR, BRU, CALL, JMPX,
FLOW, BRJ and the SYS minors ERET, HALT, IDLE, FWCALL, TRAP and BKPT (R63). -/
def mustEndChain (w : Nat) : Bool :=
  let m := bits w 21 6
  (0x23 ≤ m && m ≤ 0x27) || m == 0x3B || (m == 0 && 1 ≤ bits w 0 3 && bits w 0 3 ≤ 6)

/-- A member of a packet: its slot, its length in words and its chain bit. -/
structure Member where
  slot : Nat
  words : Nat
  chained : Bool
deriving DecidableEq, Repr

/-- The members of a packet, from slot 0 on, or none where a two-word instruction starts in slot 2 (R60). -/
def packetMembers (w0 w1 w2 : Nat) : Option (List Member) :=
  let one (w s : Nat) : Member := { slot := s, words := 1, chained := bits w 31 1 == 1 }
  let two (w s : Nat) : Member := { slot := s, words := 2, chained := bits w 31 1 == 1 }
  if isTwoWord w0 then
    if isTwoWord w2 then none else some [two w0 0, one w2 2]
  else if isTwoWord w1 then some [one w0 0, two w1 1]
  else if isTwoWord w2 then none
  else some [one w0 0, one w1 1, one w2 2]

/-- The word in slot `s` of a packet. -/
def packetWord (w0 w1 w2 : Nat) (s : Nat) : Nat := if s = 0 then w0 else if s = 1 then w1 else w2

/-- Splits members into chains: a maximal run in which every member but the last is chained (R62). -/
def chainsOf : List Member → List (List Member)
  | [] => []
  | m :: ms =>
    match chainsOf ms with
    | [] => [[m]]
    | c :: cs => if m.chained then (m :: c) :: cs else [m] :: c :: cs

/-- No pipe is named twice in one chain; the two vector pipes take two vector members (R63). -/
def pipesOk (ps : List Pipe) : Bool :=
  [Pipe.int, .sfu, .mem, .ctl, .xf, .mat].all (fun p => ps.countP (· == p) ≤ 1) && ps.countP (· == Pipe.vab) ≤ 2

/-- The structure check of a packet (R60, R63): its members, or none where the packet is illegal. -/
def checkPacket (w0 w1 w2 : Nat) : Option (List Member) :=
  match packetMembers w0 w1 w2 with
  | none => none
  | some ms =>
    let wd (m : Member) := packetWord w0 w1 w2 m.slot
    -- the member that ends the packet may not chain
    if ms.any (fun m => m.slot + m.words == 3 && m.chained) then none
    else if ms.any (fun m => m.chained && mustEndChain (wd m)) then none
    else if (chainsOf ms).all (fun c => pipesOk (c.map (fun m => pipeOf (wd m)))) then some ms
    else none

end Sys2Proof
end

