-- ==== Sys2Proof/Machine/State.lean ====
section
/-!
DEFINITION. The state of the machine as plain data. The device has 8 dies of 97 cores (R12); what stands on a core, a
die or in the module is held in lists of records that name their place, so that a list holds only what is there.
-/
namespace Sys2Proof.Machine

/-! ## Lanes -/

/-- Lane states (R40). -/
inductive LaneState where
  | active | parked | ejected | joinwait | exited
deriving DecidableEq, Repr

/-- Where a lane came from (R42, R48, R49): placed at formation, an ejected continuation of lane `lane` of group `gid`
that owes join counter `jc`, or a detached record with no home. -/
inductive Origin where
  | home
  | cont (gid lane jc : Nat)
  | detached
deriving DecidableEq, Repr

/-- The page fault that parked a lane (R51, R238): its code, the context (R189) and address that met it, and the TIME at
which firmware declined it, if it has (R428). -/
structure ParkInfo where
  code : Byte
  ctx : Nat
  va : Nat
  declined : Option Nat
deriving DecidableEq, Repr

/-- One lane (R107, R109). `v` holds V0 to V63, `p` bit k holds Pk (bit 7 is P7, always true). `coord` holds TCOORD0 to
TCOORD7 and `pq`, `pl` the kernel-wide group index and lane whose private area the lane uses (R31, R188). `jsel` is the join counter that a
JOINWAIT lane waits for (R46) and `origin` where the lane came from. -/
structure Lane where
  v : List W32
  p : BitVec 8
  lr : W32
  pc : W32
  st : LaneState
  jsel : BitVec 2
  origin : Origin
  coord : List Nat
  pq : Nat
  pl : Nat
  park : Option ParkInfo
deriving DecidableEq, Repr

/-! ## Results that wait to be written -/

/-- One register write (R62, R66). -/
inductive RegWrite where
  | v (lane reg : Nat) (x : W32)
  | p (lane reg : Nat) (x : Bool)
  | lr (lane : Nat) (x : W32)
  | s (reg : Nat) (x : W64)
  | lstat (code : BitVec 3)
deriving DecidableEq, Repr

/-- What brings an outstanding result (R65): the pipe after a fixed latency, the divider, a memory access, the matrix
unit, or another unit whose answer is awaited. -/
inductive OutKind where
  | fixed
  | divide
  | memory
  | matrix
  | unit
deriving DecidableEq, Repr

/-- An outstanding register result of one issued instruction (R65 to R68, R370): its words, PC, the lanes it may still write (a lane ejected or exited
since the issue is dropped, R67), its latency, the cycle from which a fixed result is written, the writes and per-lane flags it brings once known, the
operands captured per lane, the bytes that have returned by lane and index, the drawn u of an SR conversion (R147), and whether it has been sent from
the core (R367). -/
structure Outst where
  oid : Nat
  kind : OutKind
  w0 : W32
  w1 : W32
  pc : W32
  mask : BitVec 32
  lat : Nat
  due : Nat
  sent : Bool
  writes : List RegWrite
  flags : List (Nat × BitVec 5)
  ops : List (List W32)
  got : List ((Nat × Nat) × Byte)
  u : BitVec 32
deriving DecidableEq, Repr

/-! ## Groups -/

/-- An entry of the region stack (R52, R108). `at_` is the number of the next access when it was pushed (R321). -/
structure RgnEntry where
  id : BitVec 12
  pc : W32
  idem : Bool
  at_ : Nat
deriving DecidableEq, Repr

/-- Why a group is blocked inside an instruction that it has issued (R316). The group's lanes stand at the PC after it.
`walk` waits for page walks of its own access; the others wait for the unit named. -/
inductive Block where
  | walk
  | barArrive (bar : Nat) (step sync : Bool)
  | barWait (bar phase : Nat) (step : Bool)
  | sem (slot : Nat)
  | semWord (pa : Nat) (retryAt : Nat) (reg : Nat)
  | semFree (slot : Nat)
  | qpush (q : Nat)
  | qpop (q : Nat)
  | wqDeq (q : Nat)
  | wqEnqw (q until_ : Nat)
  | crecWait (until_ : Nat)
  | storeFull
  | bufferFull
  | fwcall
  | redfOrd (tier round : Nat)
  | idle
  | halt
deriving DecidableEq, Repr

/-- What a trap in progress will hand to the handler (R367): code, TCODE, the faulting address of ALIGN or SEG_LIMIT, the
PC of the faulting member and Active(g) at the issue, and the time of the fault. -/
structure TrapInfo where
  code : Byte
  tcode : BitVec 18
  va : W64
  fpc : W32
  lanes : BitVec 32
  time : W64
deriving DecidableEq, Repr

/-- State of a replay entry (R370). -/
inductive ReplayState where
  | pending | done | awaited
deriving DecidableEq, Repr

/-- A replay entry as the core holds it (R370): the outstanding result it came from and its state. -/
structure Replay where
  state : ReplayState
  out : Outst
deriving DecidableEq, Repr

/-- An effect on a home group held while the group is in its handler, halted or being saved (R46, R177, R181, R371):
a returning or exiting continuation of lane `lane`, or a fault service of pages `[lo, hi)` of a context. -/
inductive Held where
  | join (lane : Nat) (v : List W32) (p : BitVec 8) (pc : W32) (n : Nat)
  | exit (lane : Nat) (j : Nat)
  | serve (ctx lo hi : Nat)
deriving DecidableEq, Repr

/-- A group's place in issue (R64, R316 to R318): parked by a switch marker, in its gap until a cycle, having given way,
the guard count, promoted or not, and the cycle it was formed in. -/
structure Sched where
  switched : Bool
  gapUntil : Nat
  gaveWay : Bool
  guard : Nat
  promoted : Bool
  formed : Nat
deriving DecidableEq, Repr

/-! ## Memory accesses in flight -/

/-- A place that holds a byte (R190, R193, R212): a physical address, a byte of a core's stash, or an offset on a device
of the scale-up domain (R189). -/
inductive Place where
  | mem (pa : Nat)
  | stash (die core off : Nat)
  | peer (dev off : Nat)
deriving DecidableEq, Repr

/-- What an access does when it is performed (R241 to R250). -/
inductive AccKind where
  /-- A load of V registers, with its width code F. -/
  | load (f : Nat)
  /-- A load of an S register, with its width code F. -/
  | lds (f : Nat)
  /-- A store of these bytes. -/
  | store (data : List Byte)
  /-- An atomic: major 0x2C or not, its minor, its operands, and its size in bytes. -/
  | atom (x : Bool) (minor : Nat) (ops : List W32) (n : Nat)
  /-- A lane's RED that waits for its translation: minor and operand, and whether another module has found its address good. -/
  | redIn (minor : Nat) (ops : List W32) (known : Bool)
  /-- The application of an atomic-buffer entry: minor of RED and the combined operand. -/
  | red (minor : Nat) (ops : List W32)
  /-- A prefetch of a line. -/
  | pref
  /-- CACHE.LOCK of a line at the scope of the access. -/
  | lock
  /-- CACHE.UNLOCK of a line at the scope of the access. -/
  | unlock
  /-- CACHE.CINV of a line. -/
  | cinv
  /-- CACHE.CWB of a line. -/
  | cwb
  /-- CACHE.CWBINV of a line. -/
  | cwbinv
  /-- STASH: minor, the line-aligned address, and the operands V[D] and V[D + 1] (R251). -/
  | stashOp (minor : Nat) (g : Int) (t len : W32)
  /-- SEM.ACQ.M of a word (R415). -/
  | semAcq
  /-- SEM.REL.M of a word (R415). -/
  | semRel
deriving DecidableEq, Repr

/-- One access in flight (R212, R216, R239). `aid` numbers accesses in issue order; `iss` is shared by the accesses of one
issue; `oid` names the outstanding result it returns to (none for a store). An access of lane `lane` that R216 or R188
splits has one record for each part, `part` being its first byte. `va` and `n` are the bytes accessed, `seg` the segment,
`stream` the stream instance; the attributes follow R73, `ru` being the effective code of R76 and `rr` the band's RRATE at the
issue (R204). A cache policy of 8 or 9 is a CP 4 or CP 6 that a UNC region has turned away (R341). `places` holds the place of
each byte once the address is translated; until then the access waits for a walk. `d` is the destination register, `mask` the
lanes it stands for, `ctx` the context it is made in. `turn` places the application of an atomic-buffer entry among those of its core
(R320): the cycle of its flush, whether that is no early drain, the quadrant and the slot. -/
structure Acc where
  aid : Nat
  gid : Nat
  iss : Nat
  oid : Option Nat
  lane : Nat
  part : Nat
  kind : AccKind
  pc : W32
  seg : Nat
  va : Nat
  n : Nat
  places : Option (List Place)
  stream : Nat
  ord : Nat
  scp : Nat
  cp : Nat
  ru : Nat
  rr : Nat
  d : Nat
  mask : BitVec 32
  ctx : Nat
  die : Nat
  core : Nat
  turn : Nat
deriving DecidableEq, Repr

/-- An access performed before an earlier one of its group, which an order of a narrow scope puts first only for the agents that the
scope covers (R213, R217): its group with die and core, the locations it read or wrote, and the earlier accesses with those scopes. -/
structure EarlyAcc where
  gid : Nat
  die : Nat
  core : Nat
  locs : List Place
  writes : Bool
  waits : List (Nat × Nat)
deriving DecidableEq, Repr

/-- What must have been performed before something starts (R225 to R227): of each group in `accs` the accesses numbered below the
number beside it, the matrix items `mats`, the trace records `recs`. -/
structure Needs where
  accs : List (Nat × Nat)
  mats : List Nat
  recs : List Nat
deriving DecidableEq, Repr

/-- A fence of a group (R221, R224, R225, R227, R254): the earlier accesses that `accs` names, by group and the number they lie below, in
the from streams are performed, for the agents that scope `scp` covers (R213), before the group's accesses numbered `at_` and above in the to
streams; `each` keeps the streams apart; `redOnly` makes only
atomic-buffer applications count as earlier accesses (R254); `inv` names the streams whose next access that it orders has still to
invalidate L1 (R222); `mats` and `recs` are matrix items and trace records that come first too (R225). -/
structure Fence where
  accs : List (Nat × Nat)
  at_ : Nat
  mask : BitVec 16
  each : Bool
  redOnly : Bool
  scp : Nat
  inv : BitVec 16
  mats : List Nat
  recs : List Nat
deriving DecidableEq, Repr

/-- An entry of a group's atomic buffer (R248): its key (minor, segment, address, scope, stream, CP), its place, the combined
operand, and its number in issue order (R320, R321); `rel` marks one of a release (R224). -/
structure RedEntry where
  minor : Nat
  seg : Nat
  va : Nat
  scp : Nat
  stream : Nat
  cp : Nat
  ru : Nat
  val : List W32
  rr : Nat
  places : List Place
  created : Nat
  rel : Bool
deriving DecidableEq, Repr

/-! ## Groups -/

/-- A group of 32 lanes (R38, R108, R113). `gid` names it in the model; `idx` is the band-local index of an initial group and `helper` the helper
entry of one that the scalar helper runs. `frame` is the index of its trap frame in the band's block (R368). `entrySt` holds the lanes' state codes
and `entryPark` their page faults at the entry to the trap handler (R371), `entryRgn` the `at_` numbers of its region stack, `pathNeeds` what must
come before its later work on each other path, by class code (R225). `waitAt` is the TIME of its last issue or park, from which a wait of the group
counts (R428), `stepPc` the PC of a debugger's step whose fixed results are not all written (R438), `dbgFrom` what the header of its frame shows in a
halt (R437). `outs` are its outstanding results in issue order, `reds` its atomic buffer, `fences` its fences. -/
structure Group where
  gid : Nat
  band : Nat
  die : Nat
  core : Nat
  quad : Nat
  slot : Nat
  helper : Option Nat
  idx : Option Nat
  frame : Nat
  lanes : List Lane
  s : List W64
  jc : List Nat
  ejt : Nat
  gst : W32
  rgn : List RgnEntry
  cause : W64
  tfp : W64
  timeLatch : Option (BitVec 16)
  outs : List Outst
  reds : List RedEntry
  fences : List Fence
  pathNeeds : List (Nat × Needs)
  sched : Sched
  blocked : Option Block
  trapping : Option TrapInfo
  handler : Bool
  replay : List Replay
  entrySt : List Nat
  entryPark : List (Option ParkInfo)
  entryRgn : List Nat
  held : List Held
  dbgHalt : Bool
  dbgStep : Bool
  stepPc : Option W32
  saved : Bool
  redRound : List (Nat × Nat)
  waitAt : Nat
  dbgFrom : Option TrapInfo
deriving DecidableEq, Repr

/-! ## Matrix units -/

/-- A bank of a matrix unit (R257): its tag, format code, KB, poison mark and the B image as loaded, byte `i` of row `k`
at 128 k + i, bytes not listed being 0. `loaded` is false for an empty bank. -/
structure Bank where
  loaded : Bool
  tag : Nat
  fmt : Nat
  kb : Nat
  poisoned : Bool
  img : List Host.Cell
deriving DecidableEq, Repr

/-- What issue-time checks see of a bank in quadrant order (R259). -/
structure BankView where
  loaded : Bool
  tag : Nat
  fmt : Nat
  kb : Nat
deriving DecidableEq, Repr

/-- One lane of a quarter operation (R263): lane, accumulator row, STH offset of its A row and the row's bytes, read when its pass
starts (R264). -/
structure MatLane where
  lane : Nat
  row : Nat
  off : Nat
  bytes : List Byte
deriving DecidableEq, Repr

/-- A quarter operation (R263, R264), named `qid`, of a group of a band; `needs` comes before its reads (R225). -/
structure Quarter where
  qid : Nat
  needs : Needs
  gid : Nat
  band : Nat
  pc : W32
  quarter : Nat
  word : MatWord
  lanes : List MatLane
deriving DecidableEq, Repr

/-- An MLD instruction as accepted (R267): the group, its outstanding result (MACCRD), its word, and per lane the captured
values of D and A. -/
structure MldOp where
  mid : Nat
  needs : Needs
  gid : Nat
  band : Nat
  oid : Nat
  pc : W32
  minor : Nat
  d : Nat
  b : Nat
  lanes : List (Nat × W32 × W32)
  count : Nat
deriving DecidableEq, Repr

/-- An item of the matrix queue (R257, R264). -/
inductive MatItem where
  | pass (openedAt : Nat) (closed : Bool) (qs : List Quarter)
  | mld (op : MldOp)
deriving DecidableEq, Repr

/-- A quadrant's matrix state (R257): the banks, the accumulator elements that are not +0, the scale bytes that are not
0x7F (slot s, byte b at 4 s + b), the queue in acceptance order, and the cycle at which the running item ends. A quadrant is listed while
a matrix band holds it, and stands otherwise as at reset (log 171). -/
structure MatUnit where
  die : Nat
  core : Nat
  quad : Nat
  active : Bank
  shadow : Bank
  viewA : BankView
  viewS : BankView
  acc : List (Nat × W32)
  scale : List (Nat × Byte)
  queue : List MatItem
  running : Option Nat
deriving DecidableEq, Repr

/-! ## Kernels, bands, contexts, partitions -/

/-- A tier of a launch record (R30, R305): child count, domain code and scope code. -/
structure Tier where
  count : Nat
  domain : Nat
  scope : Nat
deriving DecidableEq, Repr

/-- The declarations of a launch record (R32, R305). -/
structure Launch where
  tiers : List Tier
  bars : List Nat
  arglen : Nat
  arg : Nat
  clen : Nat
  traph : Nat
  code : Nat
  entry : Nat
  launches : Nat
  sems : Nat
  stash : Nat
  nq : Nat
  cont : Nat
  strdef : Nat
  rudef : Nat
  census : Bool
  regs : Nat
deriving DecidableEq, Repr

/-- A code object as loaded and kept by a die (R306): its address and context, its words and its handler table. -/
structure CodeObj where
  die : Nat
  ctx : Nat
  addr : Nat
  words : List W32
  handlers : List W32
  matrix : Bool
deriving DecidableEq, Repr

/-- Where a kernel comes from (R303, R333, R453): a node of a submission, or a LAUNCH of a band
with the budget entry it holds, its completion ring (0 for none), the launch record's address and the launcher's CAUSE, or the host; `boot` is a
die's firmware (R13). -/
inductive Parent where
  | node (queue node : Nat)
  | launch (kid band entry ring addr : Nat) (cause : W64)
  | host (tag : Nat)
  | boot
deriving DecidableEq, Repr

/-- A census divergence that a core has raised (R432): the group, where a group has raised it, with the PC and the record's payload, and whether that
group was halted before. -/
structure Raise where
  die : Nat
  core : Nat
  gid : Option Nat
  pc : W32
  payload : Nat
  halted : Bool
deriving DecidableEq, Repr

/-- A kernel that is ready, running or ended (R30 to R36, R54). `die` is that of its launcher (R309), `args` is the argument block that a LAUNCH has
read (R333), `after` what comes before the accesses of this kernel (R227), `startCycle` the cycle of each die at which band 0 was placed (R113),
`sites` the band index, die and core of each band that has been placed, and `passedAt` the time since which its next band has been passed over (R311);
the bands of a `captured` kernel start halted (R438). `pend` is the pending-launch entry of a launched kernel (R310), `raised` the census divergences
of the present TIME (R432). -/
structure Kernel where
  kid : Nat
  ctx : Nat
  die : Nat
  parent : Parent
  queue : Nat
  prio : Nat
  signet : W64
  launch : Launch
  loaded : Bool
  placed : Nat
  released : Nat
  startCycle : Option (List Nat)
  readyAt : Nat
  blocking : Bool
  lastCore : Nat
  filler : Bool
  failed : Option Byte
  diverged : Bool
  raised : List Raise
  args : List Byte
  sites : List (Nat × Nat × Nat)
  passedAt : Option Nat
  after : Option Needs
  captured : Bool
  pend : Nat
deriving DecidableEq, Repr

/-- A mapping of a band's stash (R194): GLB base, STH base and length. -/
structure Mapping where
  g : Nat
  t : Nat
  len : Nat
deriving DecidableEq, Repr

/-- A segment's registers (R119, R358). -/
structure Segment where
  base : Nat
  limit : Nat
  valid : Bool
  wr : Bool
deriving DecidableEq, Repr

/-- Where a band is (R35, R57, R375): on its core, or saved. A `dying` one has ended with its kernel (R55); what its groups have stored
is still to be performed. -/
inductive BandState where
  | resident | saving | saved | restored | dying
deriving DecidableEq, Repr

/-- A placed band with its reservation (R35, R112, R193). `stashBase` is the first stash line, `segs` the band's copy of
GLB, STH, PRV, KON and PEER (R359), `freeCont` its free continuation slots as (quadrant, slot, frame), `adv` the count of
memory instructions for the automatic advance of RCLK and `advReq` the advances asked for in this cycle (R398, R399). `savedBins`
holds the bins of a saved band (bin, cycles its timer has run, records), `savedOrder` its groups as they stood in their quadrants' orders (R317)
and `savedMats` its matrix state (R258, R375). `ghosts` are the
groups of a dying band that are gone, with their quadrants, slots and register counts; a `matrix` band has its core's matrix units (R258).
`pend` are its entries of its die's pending-launch store, one for each of its budget, as 4,096 × die + index (R35, R299). -/
structure Band where
  bid : Nat
  kid : Nat
  index : Nat
  ctx : Nat
  die : Nat
  core : Nat
  st : BandState
  rclk : W32
  rrate : W32
  rateAt : Nat
  adv : Nat
  advReq : Nat
  maps : List (Option Mapping)
  stashBase : Nat
  stashLines : Nat
  segs : List Segment
  freeCont : List (Nat × Nat × Nat)
  contEver : Bool
  frameBase : Nat
  budget : List (Option Nat)
  saveArea : Nat
  savedBins : List (Nat × Nat × List Nat)
  savedOrder : List Nat
  savedMats : List MatUnit
  ghosts : List (Nat × Nat × Nat × Nat)
  matrix : Bool
  pend : List Nat
deriving DecidableEq, Repr

/-- A context (R20, R119, R453). -/
structure Context where
  ctx : Nat
  part : Nat
  segs : List Segment
  heapBase : Nat
  heapLim : Nat
  heapOff : Nat
  rafbase : W64
  trapvec : W64
  keyslot : Option Nat
  allot : List (Nat × Nat)
  quota : Nat
  pinQuota : Nat
  redQuota : Nat
  trust : List Nat
  trials : List (Nat × Nat)
  binTimer : Nat
  faultRing : Nat
  faultLoss : W32
  handleTable : Nat
  handleCount : Nat
  frames : Nat × Nat
  frameUse : List (Nat × Nat)
  held : Bool
  dbgRight : Bool
deriving DecidableEq, Repr

/-- A partition (R20, R453): its cores, engines, work-queue units, bandwidth share and routing partition. -/
structure Partition where
  part : Nat
  cores : List (Nat × Nat)
  engines : List Nat
  units : List Nat
  share : Nat
  routing : Nat
  exporter : Option Nat
  resetting : Bool
deriving DecidableEq, Repr

/-! ## Continuation pool, bins, helper, messages -/

/-- Where a pool record is (R43, R44, R45). -/
inductive PoolPlace where
  | waiting
  | bin (b : Nat)
  | helperQueue
deriving DecidableEq, Repr

/-- A continuation-pool record (R42, R48, R49): its core and band, PC, registers, origin, coordinates and signet. A
record leaves this list when a group or helper entry starts to run it; its thread still counts in the pool until it ends.
`needs` comes before the accesses of its thread, at scope `scp` (R227). `at_` places a record of the present cycle among those of its
core (R314). -/
structure PoolRec where
  rid : Nat
  die : Nat
  core : Nat
  band : Nat
  pc : W32
  v : List W32
  p : BitVec 8
  origin : Origin
  coord : List Nat
  pq : Nat
  pl : Nat
  cause : W64
  place : PoolPlace
  needs : Needs
  scp : Nat
  at_ : Option Nat
  saved : Bool
deriving DecidableEq, Repr

/-- A continuation bin (R43, R44): its core and index, the band whose records it holds, their pool records in arrival
order, and the cycle its timer started. -/
structure Bin where
  die : Nat
  core : Nat
  bin : Nat
  band : Nat
  recs : List Nat
  timerFrom : Nat
  firing : Bool
deriving DecidableEq, Repr

/-- An active message on its way (R315, R335): the destination kernel (none where KSEL names none), its band index and handler index,
the reserved bits of the handle, the payload; the sending group with its core and band, its outstanding status, the lane and whether it is
the lowest of its issue, its CAUSE and what the handler's accesses follow (R336); the inbound buffer it lies in, by die and core, with the
number of its arrival there (R315). -/
structure Msg where
  mid : Nat
  kid : Option Nat
  band : Nat
  hidx : Nat
  bad : Bool
  payload : List W32
  gid : Nat
  die : Nat
  core : Nat
  sband : Nat
  oid : Nat
  d : Nat
  lane : Nat
  low : Bool
  cause : W64
  needs : Needs
  inb : Option (Nat × Nat × Nat)
deriving DecidableEq, Repr

/-! ## Memory -/

/-- Metadata of a cached line (R203, R204). -/
structure LineMeta where
  ctx : Nat
  pin : Bool
  nr : Bool
  lap : Bool
  age : Nat
  trial : Nat
  delta : Nat
  dl : Nat
deriving DecidableEq, Repr

/-- The three caches (R185, R197). -/
inductive Level where
  | l1 | l2 | msc
deriving DecidableEq, Repr

/-- A cached line (R185, R203). `unit` is the core of an L1 or the site of a slice. An L1 line holds a copy of the line's
128 bytes; the value at a line's point of coherence is `MemState.bytes`. `secs` and `dirtySecs` name the 32-byte sectors that hold data
and those that are dirty (R16, R198); a line of L1 or L2 holds all four or none. `hitAt` is the cycle of its last hit (R192). `lock` is the
band of an L1 lock and the context of an L2 pin (R210), `redres` a reduction-resident line, `mscOk` its CP history (R198). -/
structure CacheLine where
  level : Level
  die : Nat
  unit : Nat
  set : Nat
  way : Nat
  line : Nat
  data : List Byte
  filledAt : Nat
  hitAt : Option Nat
  secs : BitVec 4
  dirtySecs : BitVec 4
  redres : Bool
  mscOk : Bool
  lock : Option Nat
  md : LineMeta
deriving DecidableEq, Repr

/-- What a request does at a slice: a read, a write, the application of a CP 6 entry (R322), a walker's read (R340). -/
inductive SliceOp where
  | read | write | red | walk
deriving DecidableEq, Repr

/-- A request waiting at a slice (R192): the mesh cycle of its arrival and its requester's rank, the line and the sectors of it that
are needed (R198). `delta` is none for effective code 0 (R204). `trial` opens a trial (R208). -/
structure SliceReq where
  rid : Nat
  die : Nat
  site : Nat
  at_ : Nat
  rank : Nat
  line : Nat
  secs : BitVec 4
  op : SliceOp
  ctx : Nat
  cp : Nat
  delta : Option Nat
  trial : Bool
deriving DecidableEq, Repr

/-- State of a mapped stash line that is not INVALID (R195): its core and line, the physical line it holds, its dirtiness. -/
structure StashLine where
  die : Nat
  core : Nat
  sline : Nat
  band : Nat
  pline : Nat
  dirty : Bool
deriving DecidableEq, Repr

/-- A leaf held by a TLB (R346, R348): `die`, and `core` for a first-level entry. -/
structure TlbEntry where
  die : Nat
  core : Option Nat
  ctx : Nat
  region : Nat
  vbase : Nat
  frame : Nat
  size : Nat
  r : Bool
  w : Bool
  d : Bool
  unc : Bool
deriving DecidableEq, Repr

/-- A miss or walk (R347): the page of `va` in the context's tables, whether it needs read and write, its walk unit once it
walks. `peer` marks a walk made for a PEER request in the exporter's context. -/
structure Walk where
  wid : Nat
  die : Nat
  core : Nat
  ctx : Nat
  region : Nat
  page : Nat
  va : Nat
  rd : Bool
  wr : Bool
  walking : Bool
  at_ : Nat
deriving DecidableEq, Repr

/-- Counters of the caches (R185, R211). -/
structure CacheCount where
  level : Level
  die : Nat
  unit : Nat
  bypass : W32
  refused : W32
deriving DecidableEq, Repr

/-- The memories (R185). `bytes` holds the byte at the point of coherence of each physical address (R214); an address it
does not list reads as 0. `stash` holds the stash bytes of each core, keyed by `stashKey`. `sectorKey` names the key
generation that a written 32-byte sector was encrypted under (R199). `early` holds the accesses performed ahead of earlier ones, and
`orphans` the fences of groups that are gone and whose accesses are not (R55, R221). -/
structure MemState where
  bytes : List Host.Cell
  stash : List Host.Cell
  sectorKey : List (Nat × Nat)
  stashLines : List StashLine
  lines : List CacheLine
  reqs : List SliceReq
  tlb : List TlbEntry
  walks : List Walk
  counts : List CacheCount
  accs : List Acc
  nextAid : Nat
  early : List EarlyAcc
  orphans : List (Nat × Fence)
deriving DecidableEq, Repr

/-! ## Barriers and semaphores -/

/-- A barrier record (R401, R403, R513): the band that holds it, its tier, index and unit (`u`: within the band for a tier up
to the band's, within the kernel for a gang tier), and the fields of R403. `per` is the number of tier-(n - 1) units a member
slot covers, `unitGroups` the groups of one such unit, `counts` the groups of each slot that have arrived, `retired` the
kernel-wide indices of members that have retired. `shadow` marks the record of a saved band. -/
structure BarRec where
  bar : Nat
  kid : Nat
  band : Nat
  tier : Nat
  index : Nat
  u : Nat
  nmem : Nat
  narr : Nat
  mask : BitVec 64
  per : Nat
  unitGroups : Nat
  counts : List Nat
  ebytes : Nat
  cbytes : Nat
  phase : Bool
  stepf : Bool
  overBytes : Bool
  retired : List Nat
  credited : Bool
  shadow : Bool
deriving DecidableEq, Repr

/-- A group's token of a barrier (R403): the phase of its pending arrival and whether one is pending. -/
structure Token where
  bar : Nat
  gid : Nat
  token : Bool
  pend : Bool
deriving DecidableEq, Repr

/-- An arrival or an EXPECT on its way to a barrier record, or an engine's byte credit (R290, R401, R405). An arrival is a release: it is served
once the group's accesses numbered below `after` have been performed (R228, R406). -/
inductive BarMsg where
  | arrive (mid bar : Nat) (q : Nat) (gid : Nat) (step : Bool) (after : Nat)
  | credit (mid bar : Nat) (bytes : Nat)
  | expect (mid bar : Nat) (gid : Nat) (bytes : Nat)
deriving DecidableEq, Repr

/-- State of a semaphore slot (R410). -/
inductive SemState where
  | free | declared | allocated
deriving DecidableEq, Repr

/-- A semaphore slot of a die's pool (R410). A slot that no record lists is FREE with GEN 0. -/
structure SemSlot where
  die : Nat
  slot : Nat
  st : SemState
  gen : BitVec 8
  ctx : Nat
  band : Nat
  count : W32
  holder : Option (Nat × Nat × Nat)
  waiters : List Nat
  freer : Option Nat
  scope : Nat
deriving DecidableEq, Repr

/-- What an operation of a semaphore slot does when it reaches it (R412, R417): TRYACQ and ALLOC with their registers. -/
inductive SemOp where
  | rel
  | acq
  | tryAcq (d : Nat)
  | alloc (count : W32) (d a : Nat)
  | free
deriving DecidableEq, Repr

/-- An operation on its way to its slot (R413, R414, R417): the group with its die, core, GSLOT, band and context, its handle, the number below
which the group's accesses come first, what it does, the result that it brings and its lanes. -/
structure SemMsg where
  gid : Nat
  die : Nat
  core : Nat
  gslot : Nat
  band : Nat
  ctx : Nat
  handle : W32
  after : Nat
  op : SemOp
  oid : Nat
  mask : BitVec 32
deriving DecidableEq, Repr

/-- Barriers and semaphores (R392). -/
structure SyncState where
  bars : List BarRec
  tokens : List Token
  barMsgs : List BarMsg
  sems : List SemSlot
  semMsgs : List SemMsg
deriving DecidableEq, Repr

/-! ## Engines -/

/-- State of a channel (R275). -/
inductive ChanState where
  | idle | running | cancelling
deriving DecidableEq, Repr

/-- A chain head waiting in a post queue (R275): the head, and what the post carried: the posting group's signet, band,
context, task, coordinates for its barriers, and what comes first (R225, R226). -/
structure Post where
  head : Nat
  coll : Bool
  signet : W64
  ctx : Nat
  kid : Nat
  band : Nat
  gid : Nat
  q : Nat
  node : Option (Nat × Nat)
  needs : Needs
deriving DecidableEq, Repr

/-- What a CHAN does at its engine (R295). -/
inductive ChanOp where
  | post (p : Post)
  | stat
  | cancel
deriving DecidableEq, Repr

/-- A CHAN on its way to its engine (R298): the group with its die, core and context, its handle, what it does, the result that it brings, its
register and its lanes. -/
structure ChanMsg where
  gid : Nat
  die : Nat
  core : Nat
  ctx : Nat
  handle : W64
  op : ChanOp
  oid : Nat
  d : Nat
  mask : BitVec 32
deriving DecidableEq, Repr

/-- How far a started record has come: a collective gathers the bytes of SEND, then exchanges a step with the other members; bytes are
then written; the record ends with a status and a fault code, and its completion record is written; OWN is cleared after it (R289). -/
inductive RecPhase where
  | gather
  | exchange
  | moving
  | done (status : Nat) (fault : Byte)
  | clearing
deriving DecidableEq, Repr

/-- A record in flight on a channel (R275, R278, R283): its address and 64 bytes, whether it is a collective's, the post it came from and the ring it
completes to; the destination bytes written so far; the page fault that waits for firmware's service; the slot of its ring that it has reserved, with
the slot's PHASE (R288); the arrival that waits for its append, with its length (R378); the index values in hand of an indirect source and
destination, by point (R281). `own` holds the bytes read and not yet written; of a collective, those of SEND and then those of RECV. For a collective:
the team descriptor, the time at which the step began, the begin notices and arrivals by rank (R430), and the number of the record among those of its
team that the engine has started (R285). -/
structure EngRec where
  rid : Nat
  addr : Nat
  raw : List Byte
  coll : Bool
  post : Post
  ring : Nat
  moved : Nat
  phase : RecPhase
  page : Option ParkInfo
  slot : Option (Nat × Nat)
  divert : Option (Nat × Nat)
  sidx : Option (Nat × Nat)
  didx : Option (Nat × Nat)
  lay : List Byte
  team : List Byte
  own : List Byte
  stepAt : Option Nat
  notices : List Nat
  arrivals : List (Nat × Nat × List Byte)
  seq : Nat
deriving DecidableEq, Repr

/-- A channel (R275, R276), named by (collective or copy, die, engine, channel). `cur` is the next record of the chain that runs,
if one does, and `part` the 8-byte fields already read, by number, of the record whose read is under way (R298); `page` the page fault
that this read waits for; `doomed` the record addresses from which
a cancellation still walks (R292), with the fault code of its completions. `node` is the graph node whose chain runs and `failed` the
first fault code of its completions (R304). -/
structure Channel where
  cid : Nat
  coll : Bool
  die : Nat
  eng : Nat
  chn : Nat
  bound : Option (Nat × Nat)
  ring : Nat
  st : ChanState
  posts : List Post
  cur : Option (Nat × Post)
  part : List (Nat × List Byte)
  page : Option ParkInfo
  doomed : List (Nat × Post × Byte)
  recs : List EngRec
  node : Option (Nat × Nat)
  failed : Option Byte
deriving DecidableEq, Repr

/-- The step data of a member of a collective on its way to a member on this module (R284, R430): engine, context, the number of the
sender's record among those of the team, its team, its rank, the fields that must agree, and the sender's SEND bytes. -/
structure CollPkt where
  die : Nat
  eng : Nat
  ctx : Nat
  team : Nat
  seq : Nat
  rank : Nat
  fields : List Nat
  data : List Byte
deriving DecidableEq, Repr

/-! ## Queues -/

/-- The form of a queue operation (R326, R331), or a LAUNCH on its way to the launcher (R333). -/
inductive QKind where
  | push | pop | tryPush | tryPop | allow | peek | enq | deq | tryDeq | enqw | launch
deriving DecidableEq, Repr

/-- A queue operation of one issue, on its way to its queue or waiting there (R324, R327, R332): the group with its die, core, quadrant
and GSLOT, and its outstanding result, if it has one; the queue, queue `q` of band `band` or, for `work`, the work queue named `q`; Active(g) and the lanes still to
be served with the values they push; D and the status register; the number below which the group's accesses come before a release,
and at which those after an acquire begin, and the matrix items that come before; and the time at which an ENQW gives up. A LAUNCH holds the
address of its record in `q`, of its ring in `until_`, its budget entry in `st`, the time of the LAUNCH in `since` (R309), and a value where
a debug step issued it (R438). -/
structure QOp where
  gid : Nat
  die : Nat
  core : Nat
  quad : Nat
  gslot : Nat
  oid : Option Nat
  kind : QKind
  work : Bool
  band : Nat
  q : Nat
  mask : BitVec 32
  lanes : List Nat
  vals : List (List W32)
  d : Nat
  st : Nat
  at_ : Nat
  mats : List Nat
  until_ : Nat
  since : Nat
  cause : W64
deriving DecidableEq, Repr

/-- A named queue of a band (R325). The head index is where `head` of the 256 slots stands; the slots' words are in the
queue's own list. A queue that no record lists is empty with allowance 0. -/
structure NamedQ where
  band : Nat
  q : Nat
  slots : List W32
  head : Nat
  occ : Nat
  allow : Nat
  pushW : List QOp
  popW : List QOp
deriving DecidableEq, Repr

/-- A work queue of a unit (R329, R330): its binding and key, its window and overflow ring (with the number of entries the
ring holds, the ring's head index, the entries as they were enqueued, and the address whose translation has faulted and is not yet served), and the
waiting DEQ and ENQW operations. -/
structure WorkQ where
  wid : Nat
  die : Nat
  unit : Nat
  queue : Nat
  ctx : Nat
  key : Nat
  base : Nat
  count : Nat
  window : List (List W32)
  rhead : Nat
  rocc : Nat
  ring : List (List W32)
  stuck : Option Nat
  deqW : List QOp
  enqW : List QOp
deriving DecidableEq, Repr

/-- State of a host command queue (R301). -/
inductive HqState where
  | unbound | open_ | held | resetting
deriving DecidableEq, Repr

/-- State of a graph node (R303). -/
inductive NodeState where
  | waiting | ready | running | done | failed
deriving DecidableEq, Repr

/-- A node of a submission in progress, as the launcher holds it (R303, R304). -/
structure Node where
  idx : Nat
  kind : Nat
  evop : Bool
  body : Nat
  chan : W64
  succ : List Nat
  preds : Nat
  st : NodeState
  fault : Byte
  failIdx : Nat
  handles : List (Nat × Nat)
  signet : W64
  kid : Option Nat
  outstanding : Nat
  readyAt : Nat
deriving DecidableEq, Repr

/-- A host command queue (R301, R119): its binding, priority, watchdog and dump flag, waiting submissions as (graph,
nodes), and the submission in progress. -/
structure HostQ where
  q : Nat
  st : HqState
  ctx : Nat
  prio : Nat
  wdPeriod : Nat
  wdAction : Bool
  wdRemain : Nat
  wdHeld : Bool
  dumpFlag : Bool
  dumpBuf : Nat
  dumpLen : Nat
  waiting : List (Nat × Nat)
  base : Nat
  nodes : List Node
  signet : W64
  running : Bool
deriving DecidableEq, Repr


/-! ## Trace, census, debug -/

/-- A trace record (R421), numbered `rno`, of group `gid` (0 for another source) and context `ctx` (256 for none); `needs` comes before it is
written (R225). -/
structure TraceRec where
  rno : Nat
  gid : Nat
  ctx : Nat
  needs : Option Needs
  time : Nat
  signet : W64
  rids : List Nat
  depth : Nat
  type : Nat
  scls : Nat
  sdie : Nat
  sunit : Nat
  ssub : Nat
  dbg : Bool
  payload : Nat
deriving DecidableEq, Repr

/-- A site of a core's census table (R431): band, PC and the NaN, infinity, saturation and underflow counts. -/
structure CensusSite where
  die : Nat
  core : Nat
  band : Nat
  pc : W32
  counts : List Nat
deriving DecidableEq, Repr

/-- Eligibility counters of a quadrant (R434), listed where not 0. -/
structure EligCount where
  die : Nat
  core : Nat
  quad : Nat
  idx : Nat
  n : Nat
deriving DecidableEq, Repr

/-! ## The issue and event latches -/

/-- The issue latch (R62): the group that issues, Active(g), the PC, next PC and words of the member that executes, the
chain's issue address, the signet as it stood before the chain, and the members still to execute. `moved` is set by a
member that has set the lanes' PCs (R169) or that the group must issue again. -/
structure Issue where
  gid : Nat
  mask : BitVec 32
  addr : W32
  pc : W32
  npc : W32
  w0 : W32
  w1 : W32
  cause : W64
  moved : Bool
  members : List (W32 × W32 × W32 × W32)
deriving DecidableEq, Repr

/-- The operands of an event, as its table row names them in words: what it names by number, and the words that an
outside input carries. `frame` holds the four words of the header of a host frame and the eight of its trailer (R451). -/
structure Ev where
  id : Nat
  sub : Nat
  lane : Nat
  die : Nat
  core : Nat
  quad : Nat
  words : List W64
  bytes : List Byte
  frame : List W64
deriving DecidableEq, Repr

/-- An item of the agenda: an event with its operands. -/
structure Item where
  instr : Instr
  ev : Ev
deriving DecidableEq, Repr

/-! ## Observability of a die and of the module -/

/-- A Filigree source's port (R424): its records emitted and not yet accepted, oldest first. -/
structure TracePort where
  die : Nat
  scls : Nat
  unit : Nat
  recs : List TraceRec
deriving DecidableEq, Repr

/-- A die's gateway (R202, R419, R424, R425): its share in bytes, W, the records accepted and not yet written, the cycle in which it last wrote
one, the loss counters by class and what the class's last LOSS record had covered. -/
structure Gateway where
  die : Nat
  share : Nat
  w : Nat
  buf : List TraceRec
  wroteAt : Option Nat
  loss : List Nat
  lossTold : List Nat
deriving DecidableEq, Repr

/-- A debug session of a context (R436). -/
structure DebugSession where
  ctx : Nat
  bps : List (Nat × W32)
  watches : List (Nat × Bool)
  capture : Bool
  stopAll : Bool
deriving DecidableEq, Repr

/-- Sampling of a context (R440): its period, the cycle of each die at which it began and, per quadrant, the cycle of its next record and the next slot. -/
structure Sampling where
  ctx : Nat
  period : Nat
  since : List Nat
  nextAt : List ((Nat × Nat × Nat) × (Nat × Nat))
deriving DecidableEq, Repr

/-- The census ring of a context (R433) and its reference census (R432), none being given where `base` is 0. -/
structure CensusRef where
  ctx : Nat
  base : Nat
  count : Nat
  halt : Bool
  ring : Nat
deriving DecidableEq, Repr

/-- What observes (R419). `snaps` holds the snapshot buffer that the host has named for a partition (partition, context, address, length), `act` the
signet that the records of a watchdog action in progress carry (R509), `queries` the edges of a snapshot that wait for another module (name, context,
edge's address, time; R429), `eligFrom` the cycle of a die at which its eligibility counters were last cleared, 0 where it is not listed. -/
structure ObsState where
  ports : List TracePort
  gateways : List Gateway
  undercroft : List (Nat × Nat × TraceRec)
  seqs : List ((Nat × Nat × Nat) × Nat)
  census : List CensusSite
  censusOver : List ((Nat × Nat) × W32)
  overTold : List Nat
  elig : List EligCount
  eligFrom : List (Nat × Nat)
  dbg : List DebugSession
  dbgEdited : List Nat
  sampling : List Sampling
  refs : List CensusRef
  userOff : List Nat
  copyDone : Bool
  snaps : List (Nat × Nat × Nat × Nat)
  queries : List (Nat × Nat × Nat × Nat)
  act : Option W64
deriving DecidableEq, Repr

/-! ## Tables, keys, routing -/

/-- State of a Coffer slot (R356). -/
inductive KeyState where
  | empty | loaded | bound | persistent
deriving DecidableEq, Repr

/-- A Coffer slot (R356): its state, its context when bound, and the generation of the key it holds. -/
structure KeySlot where
  slot : Nat
  st : KeyState
  ctx : Option Nat
  gen : Nat
deriving DecidableEq, Repr

/-- A router's two banks (R353), listing the entries that are not 0 by index, and a swap in progress (R354): the cycle it began
at, the group and outstanding status that wait; `queue` holds those of later swaps, which wait for it to end. -/
structure Router where
  die : Nat
  cls : Nat
  idx : Nat
  active : List (Nat × Byte)
  standby : List (Nat × Byte)
  swap : Option (Nat × Nat × Nat)
  queue : List (Nat × Nat)
deriving DecidableEq, Repr

/-- A diversion entry of a core (R377), with the band it diverts for, the offset of the next append in its segment, the address of the next log entry
to replay (`rep`), the end-of-segment entries between, the DRAIN that waits, the page fault that a fill of its replay waits for (R195), and whether
DIVERSION_FULL has been raised for the segment. -/
structure DivEntry where
  die : Nat
  core : Nat
  idx : Nat
  ctx : Nat
  kid : Nat
  ksig : W64
  bandIdx : Nat
  bid : Nat
  garret : Nat
  seg : Nat
  segFree : Nat
  segOff : Nat
  nextSeq : Nat
  repSeq : Nat
  rep : Nat
  sthBase : Nat
  sthLen : Nat
  drain : Bool
  drainer : Option (Nat × Nat)
  page : Option ParkInfo
  fullTold : Bool
  links : Nat
deriving DecidableEq, Repr

/-- A write of an engine's record that waits to be appended to a garret log (R378, R379): its name, the record `rid` with its channel, the
band, the stash offset and the bytes; or a remote atomic, with its minor as OP shows it and the route of its reply (R232). -/
structure Arrival where
  mid : Nat
  rid : Nat
  cid : Nat
  bid : Nat
  offs : Nat
  payload : List Byte
  signet : W64
  atom : Option (Nat × Nat)
deriving DecidableEq, Repr

/-- A firmware event of a die (R379, R387, R388): its kind and words. -/
structure FwEvent where
  die : Nat
  kind : Nat
  words : List W64
deriving DecidableEq, Repr

/-- A save in progress (R374, R375, R386): its band, the cycle it began at and the status that waits. -/
structure Saving where
  bid : Nat
  since : Nat
  gid : Nat
  oid : Nat
deriving DecidableEq, Repr

/-- An absent fault that waits for its band's release (R381); `eng` marks one of an engine's record, which never ends a kernel (R291). -/
structure Absent where
  bid : Nat
  orig : Byte
  eng : Bool
deriving DecidableEq, Repr

/-- A TLBINV whose status waits (R361): the group and its result, and the accesses and walks that come first. -/
structure Invalidation where
  gid : Nat
  oid : Nat
  aids : List Nat
  wids : List Nat
deriving DecidableEq, Repr

/-- A band's segment as it was before a SEGLD whose status has not been written (R359): the SEGLD's group and result. -/
structure SegWas where
  gid : Nat
  oid : Nat
  band : Nat
  seg : Nat
  was : Segment
deriving DecidableEq, Repr

/-- A context's heap triple as it was before a HEAPLD whose status has not been written (R360): the HEAPLD's group and result. -/
structure HeapWas where
  gid : Nat
  oid : Nat
  ctx : Nat
  base : Nat
  lim : Nat
  off : Nat
deriving DecidableEq, Repr

/-- Tables and pre-emption (R339, R377). `suspends` holds the contexts that the host has suspended with the time of their deadline,
`resuming` those that it resumes, `resets` the CTXCTL RESETs that wait as (partition, group, result). -/
structure TabState where
  keys : List KeySlot
  keyGen : Nat
  routers : List Router
  rtwin : List (Nat × W32)
  divwin : List (Nat × Nat)
  wdsel : Nat
  tgtctx : Nat
  divs : List DivEntry
  arrivals : List Arrival
  fwq : List FwEvent
  saves : List Saving
  absents : List Absent
  suspends : List (Nat × Nat)
  resets : List (Nat × Nat × Nat)
  resuming : List Nat
  invs : List Invalidation
  segWas : List SegWas
  heapWas : List HeapWas
deriving DecidableEq, Repr

/-! ## Host, links, power -/

/-- An Alaell session (R452, R454): the next SEQ in order, the highest SEQ accepted and those accepted near it, the frames held ahead of a gap
and since when, and the time of its last frame. -/
structure Session where
  sid : Nat
  key : BitVec 512
  seqNext : Nat
  seqMax : Nat
  seen : List Nat
  heldFrames : List (Nat × Item)
  heldSince : Nat
  lastFrame : Nat
deriving DecidableEq, Repr

/-- A frame that the module sends to the host: ACK with its status, EVENT, TRACEDATA (R453). -/
inductive HostMsg where
  | ack (tag : Nat) (status : Nat)
  | event (kind : Nat) (words : List W64)
  | data (tag : Nat) (words : List W64)
deriving DecidableEq, Repr

/-- A Clasp link (R455, R463): its lanes, the next sequence number to send and to accept, the flits not yet acknowledged, and
whether it trains, and what it has put on the wire. -/
structure Link where
  lid : Nat
  die : Nat
  lanes : Nat
  up : Bool
  training : Bool
  sendSeq : Nat
  recvSeq : Nat
  retry : List (Nat × List W64)
  waiting : List (List W64)
  delivered : List (List W64)
  wire : List (Nat × List W64)
deriving DecidableEq, Repr

/-- A scale-out connection (R21, R457): its port, the context and peer table entry it joins, sequence numbers, the packets not acknowledged with the
time of their last transmission, the sender's window, what has been delivered in order what has come ahead of it and what has been sent. -/
structure Conn where
  id : Nat
  port : Nat
  ctx : Nat
  peer : Nat
  sendSeq : Nat
  recvSeq : Nat
  unacked : List (Nat × List W64)
  sentAt : Nat
  lastAck : Nat
  window : Nat
  lost : Bool
  delivered : List (List W64)
  ahead : List (Nat × List W64)
  wire : List (Nat × List W64)
deriving DecidableEq, Repr

/-- A request of another module of the domain (R189, R456), as PEER_REQUEST reads it from its event; `die` is where it arrives, `code`, `ctx` and `va` the
page fault for which it is held, in the exporter's context. -/
structure PeerReq where
  pid : Nat
  origin : Nat
  routing : Nat
  kind : Nat
  off : Nat
  n : Nat
  minor : Nat
  data : List Byte
  die : Nat
  code : Byte
  ctx : Nat
  va : Nat
deriving DecidableEq, Repr

/-- The clock state of a die pair (R459). -/
inductive ClockState where
  | c0 | c1 | c2 | c3
deriving DecidableEq, Repr

/-- The length of a cycle of the arithmetic clock in twenty-firsts of a nanosecond (R22, R459): 1.05, 0.84 and 0.525 GHz; a stopped
clock has none. -/
def ClockState.period : ClockState → Nat
  | .c0 => 20 | .c1 => 25 | .c2 => 40 | .c3 => 0

/-- A firmware image (R13, R458): its SHA-512 digest, and its code, which starts at `entry`. -/
structure Firmware where
  digest : BitVec 512
  words : List W32
  entry : Nat
deriving DecidableEq, Repr

/-- A die pair (R12, R459, R462): its clock state, a change under way as (new state, time it was commanded at), its firmware
image and an update under way. `cycle` counts the cycles of its arithmetic clock since reset, `left` is what is left of
the present one in twenty-firsts of a nanosecond, and `now` the TIME that its units read in it, in units of 2^-16 ns (R114, R395). -/
structure DiePair where
  die : Nat
  cycle : Nat
  left : Nat
  now : Nat
  clock : ClockState
  change : Option (ClockState × Nat)
  firmware : Firmware
  update : Option (Firmware × Nat)
deriving DecidableEq, Repr

/-- Host, links, power and time (R392 to R395, R451 to R463). `time` counts units of 2^-16 ns, `elapsed` the
time that time-outs are measured in, which is TIME's but in locked-clock mode free of its discipline (R4, R396); `rem` and `remE` are what each
leaves over, in 21,000,000ths of a unit; `rate` is the correction in parts per million, `slew` the
last measured offset. `layersOff` holds the layers that are powered off (stack, layer) and `layersGone` the retired ones,
`lanesGone` a die for each of its Clasp lanes that has been retired (R29), `waitingFrames` the commands to a
queue that is RESETTING (R454), `measuredAt` the time of the last power measurement (R460), `peerHeld` the requests of other modules
whose page faults firmware has not yet served (R189). -/
structure OutState where
  device : Nat
  sessions : List Session
  nonce : List W64
  nextSession : Nat
  sent : List HostMsg
  locked : Bool
  time : Nat
  elapsed : Nat
  rem : Nat
  remE : Nat
  rate : Int
  slew : Int
  lastSync : Nat
  holdover : Bool
  delayReq : Option Nat
  delay : Int
  links : List Link
  conns : List Conn
  replies : List (Nat × Nat × Byte × List Byte)
  peerHeld : List PeerReq
  dies : List DiePair
  powerLimit : Nat
  measured : Nat
  overSince : Option Nat
  tripped : Bool
  retired : List (Nat × Nat)
  layersOff : List (Nat × Nat)
  layersGone : List (Nat × Nat)
  lanesGone : List Nat
  waitingFrames : List (Nat × Item)
  ptpDomain : Nat
  measuredAt : Nat
deriving DecidableEq, Repr

/-! ## The state -/

/-- A pipe, divider or other unit that is occupied until a cycle (R69). -/
structure Busy where
  die : Nat
  core : Nat
  quad : Nat
  pipe : Pipe
  until_ : Nat
deriving DecidableEq, Repr

/-- An SWRITE or a CAUSESET that takes effect at the end of its issue cycle (R115, R447): the group with its die, the register and the value. -/
structure LateWrite where
  gid : Nat
  die : Nat
  reg : Nat
  val : Nat
deriving DecidableEq, Repr

/-- A trap raised by the chain that executes: its code (R82). -/
structure TrapNow where
  code : Byte
  tcode : BitVec 18
  va : W64
deriving DecidableEq, Repr

/-- A unit that serves operations one at a time, those that reach it in one mesh cycle in a stated order of requesters: a named queue (R327), a
work-queue unit (R332), a barrier record (R404), a semaphore slot (R413), a die's pool of slots (R417), an engine (R298), a garret log (R378), a
trace gateway (R420) and the host port (R454). -/
inductive ServedUnit where
  | named (band q : Nat)
  | workUnit (die unit : Nat)
  | record (bar : Nat)
  | slot (key : Nat)
  | pool (die : Nat)
  | engine (coll : Bool) (die eng : Nat)
  | log (bid : Nat)
  | gateway (die : Nat)
  | host
deriving DecidableEq, Repr

/-- The rank of the last requester that a unit has served in a mesh cycle of its die (R192). -/
structure Turn where
  unit : ServedUnit
  die : Nat
  at_ : Nat
  rank : Nat
deriving DecidableEq, Repr

/-- The machine. `collSeqs` counts, by die, engine, context and team, the collective records that have started (R285); `late` holds the
SWRITEs of the present cycle (R115). The model's own fields, which the spec does not name: `issued` and
`issuers` (the quadrants and groups that have issued in their dies' present cycles), `waited` (the groups that stood eligible when those
quadrants chose, with die, core and quadrant), `cur` and `ev` (the issue and event latches), `agenda`
(the order in which asynchronous steps and outside inputs come), `trapNow`, `nextId` (the next name of a record) and `free`
(the number of free values used). -/
structure State where
  groups : List Group
  order : List Nat
  kernels : List Kernel
  bands : List Band
  ctxs : List Context
  parts : List Partition
  codes : List CodeObj
  pool : List PoolRec
  bins : List Bin
  msgs : List Msg
  mem : MemState
  sync : SyncState
  mats : List MatUnit
  hqs : List HostQ
  named : List NamedQ
  work : List WorkQ
  qops : List QOp
  chans : List Channel
  pkts : List CollPkt
  collSeqs : List ((Nat × Nat × Nat × Nat) × Nat)
  obs : ObsState
  tab : TabState
  out : OutState
  busy : List Busy
  late : List LateWrite
  issued : List (Nat × Nat × Nat)
  issuers : List Nat
  waited : List ((Nat × Nat × Nat) × Nat)
  turns : List Turn
  chanMsgs : List ChanMsg
  cur : Option Issue
  ev : Ev
  agenda : List (Option Item)
  trapNow : Option TrapNow
  nextId : Nat
  free : Nat
deriving DecidableEq, Repr

/-- Faults: the model stops. -/
inductive Fault where
  /-- An instruction of a program is executed with no group that issues it. Raised by every meaning of a program instruction;
  `step` never does so. Safe. -/
  | noIssue
deriving DecidableEq, Repr

/-- Refusals: the model gives no next state. -/
inductive Refusal where
  /-- The instruction has no meaning in the model yet. Raised by an arm of `exec`. Safe. -/
  | notModelled (mnemonic : String)
deriving DecidableEq, Repr

/-- A die pair at reset (R459): C2. -/
def DiePair.reset (d : Nat) : DiePair :=
  { die := d, cycle := 0, left := ClockState.c2.period, now := 0, clock := .c2, change := none,
    firmware := { digest := 0, words := [], entry := 0 }, update := none }

/-- A gateway at reset (R202, R425): a share of 2 GiB, W = 0. -/
def Gateway.reset (d : Nat) : Gateway :=
  { die := d, share := 2147483648, w := 0, buf := [], wroteAt := Option.none, loss := List.replicate 8 0, lossTold := List.replicate 8 0 }

/-- No event operands. -/
def Ev.none : Ev := { id := 0, sub := 0, lane := 0, die := 0, core := 0, quad := 0, words := [], bytes := [], frame := [] }

/-- The dies of the module (R12). -/
def dieList : List Nat := [0, 1, 2, 3, 4, 5, 6, 7]

/-- The state at power-on and after device reset (R459, R460): no context, no kernel, no group; every table empty; die pairs in
C2, the power limit 1,000 W, locked-clock mode off, TIME 0. -/
def State.reset : State :=
  { groups := [], order := [], kernels := [], bands := [], ctxs := [], parts := [], codes := [], pool := [], bins := [],
    msgs := [],
    mem := { bytes := [], stash := [], sectorKey := [], stashLines := [], lines := [], reqs := [], tlb := [], walks := [],
             counts := [], accs := [], nextAid := 0, early := [], orphans := [] },
    sync := { bars := [], tokens := [], barMsgs := [], sems := [], semMsgs := [] },
    mats := [], hqs := [], named := [], work := [], qops := [], chans := [], pkts := [], collSeqs := [],
    obs := { ports := [], gateways := dieList.map Gateway.reset, undercroft := [], seqs := [], census := [],
             censusOver := [], overTold := [], elig := [], eligFrom := [], dbg := [], dbgEdited := [], sampling := [], refs := [],
             userOff := [], copyDone := false, snaps := [], queries := [], act := Option.none },
    tab := { keys := [], keyGen := 0, routers := [], rtwin := [], divwin := [], wdsel := 0, tgtctx := 0, divs := [],
             arrivals := [], fwq := [], saves := [], absents := [], suspends := [], resets := [], resuming := [], invs := [], segWas := [], heapWas := [] },
    out := { device := 0, sessions := [], nonce := [], nextSession := 1, sent := [], locked := false, time := 0, elapsed := 0,
             rem := 0, remE := 0, rate := 0, slew := 0, lastSync := 0, holdover := false, delayReq := Option.none, delay := 0,
             links := [], conns := [], replies := [], peerHeld := [], dies := dieList.map DiePair.reset, powerLimit := 1000, measured := 0,
             overSince := Option.none, tripped := false, retired := [], layersOff := [], layersGone := [], lanesGone := [], waitingFrames := [], ptpDomain := 0, measuredAt := 0 },
    busy := [], late := [], issued := [], issuers := [], waited := [], turns := [], chanMsgs := [], cur := Option.none, ev := Ev.none, agenda := [], trapNow := Option.none,
    nextId := 1, free := 0 }

end Sys2Proof.Machine
end

