-- ==== Sys2Proof/Machine/Base.lean ====
section
/-!
DEFINITION. Accessors of the state: finding and changing a group, band, kernel, context or other record; reading and
writing registers (R71, R107, R108); the lane masks of an issue (R41).
-/
namespace Sys2Proof.Machine

/-- What a meaning answers. -/
abbrev Out := Host.Outcome State Fault Refusal

/-! ## Lists -/

/-- The elements of `l` with those that satisfy `p` changed by `f`. -/
def mapIf {α : Type} (p : α → Bool) (f : α → α) (l : List α) : List α := l.map fun x => if p x then f x else x

/-- The value of a key in an association list, or a default. -/
def assoc {κ α : Type} [DecidableEq κ] (k : κ) (d : α) (l : List (κ × α)) : α :=
  match l.find? (fun e => decide (e.1 = k)) with
  | some e => e.2
  | none => d

/-- The association list with the value of a key replaced, in first place. -/
def assocSet {κ α : Type} [DecidableEq κ] (k : κ) (x : α) (l : List (κ × α)) : List (κ × α) :=
  (k, x) :: l.filter (fun e => !decide (e.1 = k))

/-- The least element of a list of numbers, or none of an empty one. -/
def leastOf : List Nat → Option Nat
  | [] => none
  | x :: xs => match leastOf xs with
    | none => some x
    | some y => some (min x y)

/-- Insertion into a list ordered by a key, behind the entries of equal key. -/
def insertBy {α : Type} (key : α → Nat) (x : α) : List α → List α
  | [] => [x]
  | y :: ys => if key y ≤ key x then y :: insertBy key x ys else x :: y :: ys

/-- A list in ascending order of a key; entries of equal key keep their order. -/
def sortBy {α : Type} (key : α → Nat) (l : List α) : List α := l.foldl (fun r x => insertBy key x r) []

/-! ## Finding records -/

def State.group? (s : State) (gid : Nat) : Option Group := s.groups.find? (fun g => g.gid == gid)
def State.kernel? (s : State) (kid : Nat) : Option Kernel := s.kernels.find? (fun k => k.kid == kid)
def State.band? (s : State) (bid : Nat) : Option Band := s.bands.find? (fun b => b.bid == bid)
def State.ctx? (s : State) (c : Nat) : Option Context := s.ctxs.find? (fun x => x.ctx == c)
def State.part? (s : State) (p : Nat) : Option Partition := s.parts.find? (fun x => x.part == p)
def State.hq? (s : State) (q : Nat) : Option HostQ := s.hqs.find? (fun x => x.q == q)
def State.chan? (s : State) (c : Nat) : Option Channel := s.chans.find? (fun x => x.cid == c)

/-- The state with group `gid` changed. -/
def State.modGroup (s : State) (gid : Nat) (f : Group → Group) : State :=
  { s with groups := mapIf (fun g => g.gid == gid) f s.groups }
def State.modKernel (s : State) (kid : Nat) (f : Kernel → Kernel) : State :=
  { s with kernels := mapIf (fun k => k.kid == kid) f s.kernels }
def State.modBand (s : State) (bid : Nat) (f : Band → Band) : State :=
  { s with bands := mapIf (fun b => b.bid == bid) f s.bands }
def State.modCtx (s : State) (c : Nat) (f : Context → Context) : State :=
  { s with ctxs := mapIf (fun x => x.ctx == c) f s.ctxs }
def State.modHq (s : State) (q : Nat) (f : HostQ → HostQ) : State :=
  { s with hqs := mapIf (fun x => x.q == q) f s.hqs }
def State.modChan (s : State) (c : Nat) (f : Channel → Channel) : State :=
  { s with chans := mapIf (fun x => x.cid == c) f s.chans }
def State.setMem (s : State) (m : MemState) : State := { s with mem := m }
def State.modMem (s : State) (f : MemState → MemState) : State := { s with mem := f s.mem }
def State.modSync (s : State) (f : SyncState → SyncState) : State := { s with sync := f s.sync }
def State.modObs (s : State) (f : ObsState → ObsState) : State := { s with obs := f s.obs }
def State.modTab (s : State) (f : TabState → TabState) : State := { s with tab := f s.tab }
def State.modOut (s : State) (f : OutState → OutState) : State := { s with out := f s.out }

/-- A name for a new record, and the state in which the next one is free. -/
def State.fresh (s : State) : State := { s with nextId := s.nextId + 1 }
/-- The state with one more free value used. -/
def State.nextFree (s : State) : State := { s with free := s.free + 1 }

/-! ## What a group belongs to -/

/-- Firmware mode (R13): the groups of the firmware core, core 96 of a die (R17). -/
def Group.firmware (g : Group) : Bool := g.core == 96

/-- A queue's watchdog timer reloaded (R382). -/
def HostQ.reload (h : HostQ) : HostQ := { h with wdRemain := h.wdPeriod * 65536000 }

/-- Where a band is. -/
def State.bandSt (s : State) (bid : Nat) : Option BandState := (s.band? bid).map fun b => b.st

/-- Whether the firmware core of a die loads an image (R462). -/
def State.updating (s : State) (die : Nat) : Bool := s.out.dies.any fun d => d.die == die && d.update.isSome

/-- A launch record with nothing declared. -/
def Launch.empty : Launch :=
  { tiers := [], bars := [], arglen := 0, arg := 0, clen := 0, traph := 0, code := 0, entry := 0, launches := 0, sems := 0,
    stash := 0, nq := 0, cont := 0, strdef := 0, rudef := 30, census := false, regs := 0 }

/-- The band's tier b (R30): the tier bound to CORE. -/
def Launch.bandTier (l : Launch) : Nat := l.tiers.findIdx (fun t => t.domain == 1)

/-- The product of the child counts of tiers `lo` to `hi - 1` (R30, R31). -/
def Launch.countProd (l : Launch) (lo hi : Nat) : Nat :=
  ((l.tiers.take hi).drop lo).foldl (fun n t => n * t.count) 1

/-- G, the groups of a band (R30). -/
def Launch.bandGroups (l : Launch) : Nat := l.countProd 1 (l.bandTier + 1)

/-- The bands of a kernel (R31). -/
def Launch.bandCount (l : Launch) : Nat := l.countProd (l.bandTier + 1) l.tiers.length

def State.kernelOf? (s : State) (g : Group) : Option Kernel :=
  match s.band? g.band with
  | none => none
  | some b => s.kernel? b.kid

/-- The launch record of a group's kernel. -/
def State.launchOf (s : State) (g : Group) : Launch :=
  match s.kernelOf? g with
  | none => Launch.empty
  | some k => k.launch

/-- The declared register count of R71: 64 in firmware mode. -/
def State.regsOf (s : State) (g : Group) : Nat := if g.firmware then 64 else (s.launchOf g).regs

/-- The context of a group; 255 for firmware (R203). -/
def State.ctxOf (s : State) (g : Group) : Nat :=
  match s.band? g.band with
  | none => 255
  | some b => b.ctx

/-- The signet of a group's kernel (R427). -/
def State.ksigOf (s : State) (g : Group) : W64 :=
  match s.kernelOf? g with
  | none => 0
  | some k => k.signet

/-- GSLOT (R113): quadrant × 32 + slot, or 128 + helper entry. -/
def Group.gslot (g : Group) : Nat :=
  match g.helper with
  | some e => 128 + e
  | none => g.quad * 32 + g.slot

/-- Whether a code object is a kernel's: the one that its launcher's die keeps (R306). -/
def CodeObj.isOf (c : CodeObj) (k : Kernel) : Bool := c.die == k.die && c.ctx == k.ctx && c.addr == k.launch.code

/-- The code object of a kernel, once it is loaded. -/
def State.codeOfKernel (s : State) (k : Kernel) : Option CodeObj := s.codes.find? fun c => c.isOf k

/-- The packets of a kernel's code object (R58, R306). -/
def State.codeOf (s : State) (g : Group) : Option CodeObj :=
  match s.kernelOf? g with
  | none => none
  | some k => s.codeOfKernel k

/-! ## Lanes and masks -/

/-- A lane that holds nothing and has exited. -/
def Lane.empty : Lane :=
  { v := [], p := 0x80, lr := 0, pc := 0, st := .exited, jsel := 0, origin := .home, coord := [], pq := 0, pl := 0,
    park := none }

def Group.lane (g : Group) (l : Nat) : Lane := g.lanes.getD l Lane.empty

/-- The group with lane `l` changed. -/
def Group.modLane (g : Group) (l : Nat) (f : Lane → Lane) : Group := { g with lanes := g.lanes.modify l f }

/-- The 32 lane numbers. -/
def laneNos : List Nat := List.range 32

/-- The lanes of a mask in ascending order. -/
def lanesOf (m : BitVec 32) : List Nat := laneNos.filter (fun l => m.getLsbD l)

/-- The lowest lane of a mask. -/
def lowLane (m : BitVec 32) : Nat := (laneNos.find? (fun l => m.getLsbD l)).getD 0

/-- The mask of the lanes that satisfy a condition. -/
def maskOf (f : Nat → Bool) : BitVec 32 :=
  laneNos.foldl (fun m l => if f l then m ||| (1#32 <<< l) else m) 0#32

/-- The lanes whose state satisfies a condition. -/
def Group.maskSt (g : Group) (f : LaneState → Bool) : BitVec 32 := maskOf (fun l => f (g.lane l).st)

def LaneState.code : LaneState → Nat
  | .active => 0 | .parked => 1 | .ejected => 2 | .joinwait => 3 | .exited => 4

def LaneState.ofCode : Nat → Option LaneState
  | 0 => some .active | 1 => some .parked | 2 => some .ejected | 3 => some .joinwait | 4 => some .exited | _ => none

/-- The issue address of a group (R41): the least PC of its ACTIVE lanes. -/
def Group.issueAddr (g : Group) : Option Nat :=
  leastOf ((laneNos.filter fun l => (g.lane l).st == .active).map fun l => (g.lane l).pc.toNat)

/-- Active(g) (R6, R41): the ACTIVE lanes at an address. -/
def Group.activeAt (g : Group) (a : W32) : BitVec 32 := maskOf fun l => (g.lane l).st == .active && (g.lane l).pc == a

/-- An EXITED group (R39). -/
def Group.allExited (g : Group) : Bool := laneNos.all fun l => (g.lane l).st == .exited

/-! ## Registers -/

def Lane.rv (l : Lane) (r : Nat) : W32 := l.v.getD r 0
/-- A read of a P register; P7 is true (R107). -/
def Lane.rp (l : Lane) (k : Nat) : Bool := k == 7 || l.p.getLsbD k
def Lane.wv (l : Lane) (r : Nat) (x : W32) : Lane := { l with v := l.v.set r x }
/-- A write of a P register; a write of P7 is discarded (R71). -/
def Lane.wp (l : Lane) (k : Nat) (x : Bool) : Lane :=
  if k < 7 then { l with p := if x then l.p ||| (1#8 <<< k) else l.p &&& ~~~(1#8 <<< k) } else l
/-- A read of an S register; S0 reads 0 (R108). -/
def Group.rs (g : Group) (r : Nat) : W64 := if r = 0 then 0 else g.s.getD r 0
/-- A write of an S register; a write of S0 is discarded (R71). -/
def Group.ws (g : Group) (r : Nat) (x : W64) : Group := if r = 0 then g else { g with s := g.s.set r x }

/-- LSTAT of GST (R110). -/
def setLstat (gst : W32) (code : BitVec 3) : W32 := (gst &&& 0xFFFFF8FF#32) ||| (code.setWidth 32 <<< 8)
/-- The five flags ORed into GST (R98, R110). -/
def orFlags (gst : W32) (f : BitVec 5) : W32 := gst ||| f.setWidth 32

/-- One register write on the group, of a lane that the mask still names; a status with no lane left changes nothing (R67). -/
def Group.apply (g : Group) (mask : BitVec 32) (w : RegWrite) : Group :=
  match w with
  | .v l r x => if mask.getLsbD l then g.modLane l (fun y => y.wv r x) else g
  | .p l r x => if mask.getLsbD l then g.modLane l (fun y => y.wp r x) else g
  | .lr l x => if mask.getLsbD l then g.modLane l (fun y => { y with lr := x }) else g
  | .s r x => g.ws r x
  | .lstat c => if mask = 0 then g else { g with gst := setLstat g.gst c }

/-- The flags of the lanes that the mask still names ORed into GST (R67, R98). -/
def Group.applyFlags (g : Group) (mask : BitVec 32) (fs : List (Nat × BitVec 5)) : Group :=
  fs.foldl (fun g f => if mask.getLsbD f.1 then { g with gst := orFlags g.gst f.2 } else g) g

/-- An outstanding result written to the group (R62, R66, R98): its registers in order, then its flags. -/
def Group.land (g : Group) (o : Outst) : Group :=
  (o.writes.foldl (fun g w => g.apply o.mask w) g).applyFlags o.mask o.flags

/-! ## Time -/

/-- The arithmetic-clock cycle in which a die stands, counted from reset (R4, R459). -/
def State.cycleOn (s : State) (die : Nat) : Nat :=
  match s.out.dies.find? (fun d => d.die == die) with
  | some d => d.cycle
  | none => 0

/-- The TIME that a die's units read in its present cycle, in units of 2^-16 ns (R114, R395). -/
def State.timeOn (s : State) (die : Nat) : Nat :=
  match s.out.dies.find? (fun d => d.die == die) with
  | some d => d.now
  | none => s.out.time

/-- TIME in whole nanoseconds (R113). -/
def State.timeNs (s : State) : Nat := s.out.time / 65536
/-- The fraction of TIME in units of 2^-16 ns (R113). -/
def State.timeF (s : State) : Nat := s.out.time % 65536
/-- Microseconds in the units of `elapsed`, 2^-16 ns. -/
def usToUnits (us : Nat) : Nat := us * 65536000

end Sys2Proof.Machine
end

