-- ==== Sys2Proof/Machine/Trace.lean ====
section
/-!
DEFINITION. Signets (R426, R427) and the emission of trace records (R421 to R424).
-/
namespace Sys2Proof.Machine

/-- A signet (R426). -/
def mkSignet (device die cls unit seq : Nat) : W64 :=
  BitVec.ofNat 64 (device % 512 * 2 ^ 55 + die % 8 * 2 ^ 52 + cls % 8 * 2 ^ 49 + unit % 512 * 2 ^ 40 + seq % 2 ^ 40)

/-- The sequence counter of a unit (R426). -/
def State.seqOf (s : State) (die cls unit : Nat) : Nat := assoc (die, cls, unit) 0 s.obs.seqs

/-- The fresh signet that a unit would take (R426). -/
def State.freshSignet (s : State) (die cls unit : Nat) : W64 :=
  mkSignet s.out.device die cls unit (s.seqOf die cls unit)

/-- The state after a unit has taken a fresh signet: its counter rises by 1 and wraps at 40 bits (R426). -/
def State.bumpSeq (s : State) (die cls unit : Nat) : State :=
  s.modObs fun o => { o with seqs := assocSet (die, cls, unit) ((s.seqOf die cls unit + 1) % 2 ^ 40) o.seqs }

/-- The priority types of R423. -/
def priorityType (t : Nat) : Bool :=
  t == 0x08 || t == 0x09 || t == 0x0A || t == 0x12 || t == 0x1A || t == 0x1B || t == 0x1C || t == 0x20 || t == 0x21 ||
  t == 0x22 || t == 0x28 || t == 0x29 || t == 0x30 || t == 0x38 || t == 0x3E || t == 0x3F

/-- One drop counted at the loss counter of a class on a die (R424). -/
def State.countLoss (s : State) (die cls : Nat) : State :=
  let f := fun (g : Gateway) => { g with loss := g.loss.modify cls (fun n => (n + 1) % 2 ^ 64) }
  s.modObs fun o => { o with gateways := mapIf (fun g => g.die == die) f o.gateways }

/-- Emission of a record (R424): a record joins its source's port; an ordinary record that finds 16 records in the port is
dropped and counted. Within a watchdog action every record but NODE_DONE carries the action's signet (R509). -/
def State.emit (s0 : State) (r0 : TraceRec) : State :=
  let r := { r0 with rno := s0.nextId, signet := if r0.type = 3 then r0.signet else s0.obs.act.getD r0.signet }
  let s := { s0 with nextId := s0.nextId + 1 }
  let is := fun (p : TracePort) => p.die == r.sdie && p.scls == r.scls && p.unit == r.sunit
  match s.obs.ports.find? is with
  | none => s.modObs fun o =>
      { o with ports := o.ports ++ [{ die := r.sdie, scls := r.scls, unit := r.sunit, recs := [r] }] }
  | some p =>
      if p.recs.length < 16 || priorityType r.type then
        s.modObs fun o => { o with ports := mapIf is (fun p => { p with recs := p.recs ++ [r] }) o.ports }
      else s.countLoss r.sdie r.scls

/-- The debug-edited flag of a context (R439). -/
def State.dbgFlag (s : State) (ctx : Nat) : Bool := s.obs.dbgEdited.contains ctx

/-- A record of a group (R421, R422): its CAUSE, its region stack and its GSLOT. -/
def State.emitGroup (s : State) (g : Group) (type payload : Nat) : State :=
  s.emit { rno := 0, gid := g.gid, ctx := s.ctxOf g, needs := (g.pathNeeds.find? fun n => n.1 == 4).map fun n => n.2,
           time := s.out.time, signet := g.cause, rids := (g.rgn.reverse.take 3).map (fun e => e.id.toNat),
           depth := g.rgn.length, type := type, scls := if g.firmware then 5 else 0, sdie := g.die, sunit := g.core,
           ssub := if g.firmware then 0 else g.gslot, dbg := s.dbgFlag (s.ctxOf g), payload := payload % 2 ^ 40 }

/-- A record of a source other than a group (R421): no regions. -/
def State.emitUnit (s : State) (die cls unit sub ctx : Nat) (signet : W64) (type payload : Nat) : State :=
  s.emit { rno := 0, gid := 0, ctx := ctx, needs := none, time := s.out.time, signet := signet, rids := [], depth := 0, type := type, scls := cls, sdie := die,
           sunit := unit, ssub := sub, dbg := s.dbgFlag ctx, payload := payload % 2 ^ 40 }

/-- Whether a debug session is attached to a context (R437). -/
def State.debugged (s : State) (ctx : Nat) : Bool := s.obs.dbg.any fun d => d.ctx == ctx

/-- A group halts in debug with a cause and a PC, and under STOPALL every group of its band with it (R436, R437). -/
def State.debugHalt (s : State) (g : Group) (cause : Nat) (pc : W32) : State :=
  let all := s.obs.dbg.any fun d => d.ctx == s.ctxOf g && d.stopAll
  let hit := fun (x : Group) => x.gid == g.gid || (all && x.band == g.band)
  { s with groups := mapIf hit (fun x => { x with dbgHalt := true }) s.groups }.emitGroup g 0x32 (pc.toNat + cause * 2 ^ 32)

/-- A record as 32 bytes, read as one number (R421). -/
def TraceRec.word (r : TraceRec) : Nat :=
  r.time / 65536 % 2 ^ 64 * 2 ^ 192 + r.signet.toNat * 2 ^ 128 + r.time % 65536 * 2 ^ 112 +
  r.rids.getD 0 0 * 2 ^ 100 + r.rids.getD 1 0 * 2 ^ 88 + r.rids.getD 2 0 * 2 ^ 76 + r.depth * 2 ^ 72 + r.type * 2 ^ 64 +
  r.scls * 2 ^ 61 + r.sdie * 2 ^ 58 + r.sunit * 2 ^ 51 + r.ssub * 2 ^ 43 + (if r.dbg then 2 ^ 42 else 0) + r.payload

end Sys2Proof.Machine
end

