-- ==== Sys2Proof/Machine/Memory.lean ====
section
/-!
DEFINITION. Named operations over memory: bytes in canonical form, the point of coherence of a byte (R214), the stash (R193,
R195), keys (R199, R345, R356), translation (R187, R340 to R348) and reading or writing a virtual range.
-/
namespace Sys2Proof.Machine

/-! ## Cells in canonical form -/

/-- The byte at an address; an address that is not listed reads as 0. -/
def cellGet : List Host.Cell → Nat → Byte
  | [], _ => 0
  | (k, b) :: r, a => if k = a then b else cellGet r a

/-- The list with the byte at an address replaced; the byte 0 removes the entry. -/
def cellPut : List Host.Cell → Nat → Byte → List Host.Cell
  | [], a, x => if x = 0 then [] else [(a, x)]
  | (k, b) :: r, a, x =>
    if a < k then (if x = 0 then (k, b) :: r else (a, x) :: (k, b) :: r)
    else if a = k then (if x = 0 then r else (a, x) :: r)
    else (k, b) :: cellPut r a x

/-- Addresses strictly rise from `lo`, and no listed byte is 0. -/
def cellsFrom : Nat → List Host.Cell → Bool
  | _, [] => true
  | lo, (k, b) :: r => decide (lo ≤ k) && decide (b ≠ 0) && cellsFrom (k + 1) r

/-- The canonical form of a memory. -/
def Memory.wf (m : List Host.Cell) : Bool := cellsFrom 0 m

/-- Bytes from a place upward replaced. -/
def cellsPut (m : List Host.Cell) (a : Nat) : List Byte → List Host.Cell
  | [] => m
  | b :: bs => cellsPut (cellPut m a b) (a + 1) bs

/-- The value of bytes, the first least significant (R2). -/
def leNat : List Byte → Nat
  | [] => 0
  | b :: bs => b.toNat + 256 * leNat bs

/-- The `n` bytes of a value, the least significant first (R2). -/
def leBytes : Nat → Nat → List Byte
  | 0, _ => []
  | n + 1, x => BitVec.ofNat 8 (x % 256) :: leBytes n (x / 256)

/-- `32 k`-bit words as bytes. -/
def wordBytes (ws : List W32) : List Byte := ws.flatMap (fun w => leBytes 4 w.toNat)

/-- The word at byte 4 k of a list of bytes. -/
def wordAt (bs : List Byte) (k : Nat) : W32 := BitVec.ofNat 32 (leNat ((bs.drop (4 * k)).take 4))

/-- A field of a record held as bytes: bits `lo` to `lo + n - 1` (R2). -/
def fieldAt (bs : List Byte) (lo n : Nat) : Nat := leNat bs / 2 ^ lo % 2 ^ n

/-! ## The stash and the point of coherence -/

/-- The key of a stash byte: die, core and offset within the 512 KiB of the core (R185). -/
def stashKey (die core off : Nat) : Nat := (die * 97 + core) * 524288 + off

/-- The stash that holds a physical line DIRTY, if one does (R195, R214). -/
def MemState.dirtyHolder (m : MemState) (pline : Nat) : Option StashLine :=
  m.stashLines.find? (fun l => l.pline == pline && l.dirty)

/-- The byte of a physical address at its point of coherence (R214). -/
def MemState.coh (m : MemState) (pa : Nat) : Byte :=
  match m.dirtyHolder (pa / 128) with
  | some l => cellGet m.stash (stashKey l.die l.core (l.sline * 128 + pa % 128))
  | none => cellGet m.bytes pa

/-- The 128 bytes of a stash line. -/
def MemState.stashLine (m : MemState) (l : StashLine) : List Byte :=
  (List.range 128).map fun i => cellGet m.stash (stashKey l.die l.core (l.sline * 128 + i))

/-- A stash line written back to memory if DIRTY (R195, R196). -/
def MemState.writeBack (m : MemState) (l : StashLine) : MemState :=
  if l.dirty then { m with bytes := cellsPut m.bytes (l.pline * 128) (m.stashLine l) } else m

/-- A probe of a physical line by a load (R195): a DIRTY stash line is written back and becomes CLEAN. -/
def MemState.probeLoad (m : MemState) (pline : Nat) : MemState :=
  match m.dirtyHolder pline with
  | none => m
  | some l =>
    let m1 := m.writeBack l
    { m1 with stashLines := mapIf (fun x => x.pline == pline) (fun x => { x with dirty := false }) m1.stashLines }

/-- A probe of a physical line by a write from elsewhere (R195): holders write back if DIRTY and become INVALID. -/
def MemState.probeStore (m : MemState) (pline : Nat) : MemState :=
  let m1 := m.probeLoad pline
  { m1 with stashLines := m1.stashLines.filter (fun x => !(x.pline == pline)) }

/-! ## Homes (R190, R191) -/

/-- The home die of a physical address. -/
def homeDie (pa : Nat) : Nat :=
  if pa < 2 ^ 40 then Nat.xor (pa / 2 ^ 12 % 16) (pa / 2 ^ 16 % 16) / 2 else (pa - 2 ^ 40) / 2 ^ 36 % 8

/-- The home site of a line. -/
def homeSite (line : Nat) : Nat := line % 100
/-- The L2 set of a line. -/
def l2Set (line : Nat) : Nat := line / 100 % 160
/-- The memory-side cache set of a line. -/
def mscSet (line : Nat) : Nat := line / 100 % 1024

/-! ## Requesters (R17, R192) -/

/-- The site (x, y) of a core (R17): clusters of 2 × 4 sites, the last two of 4 × 2, and the firmware core at (8, 8). -/
def coreSite (core : Nat) : Nat × Nat :=
  let k := core / 8
  let p := core % 8
  if core = 96 then (8, 8)
  else if k < 10 then (2 * (k % 5) + p % 2, 4 * (k / 5) + p / 2)
  else (4 * (k - 10) + p % 4, 8 + p / 4)

/-- The units of a die that ask slices beside its cores, by number: the launcher, the work-queue units and the gateway, which hold sites
(R17), the page walkers, and the engines, a copy engine `e` at `unitEngine + e` and a collective one at `unitEngine + 12 + e`. -/
def unitLauncher : Nat := 97
def unitQueues : Nat := 98
def unitGateway : Nat := 99
def unitWalker : Nat := 100
def unitEngine : Nat := 101

/-- The site index x + 10 y of a unit that holds a site (R17, R192). -/
def siteOf (unit : Nat) : Nat :=
  if unit = unitLauncher then 89 else if unit = unitQueues then 98 else if unit = unitGateway then 99
  else (coreSite unit).1 + 10 * (coreSite unit).2

/-- The rank of a requester at a slice of die `home` (R192): sites by index, then edge ports. DESIGN CHOICE (log 148): the spec gives
the ports no numbers; a request from another die enters by port `d` of its die, and the walkers and engines of the die by the ports behind. -/
def rankOf (die unit home : Nat) : Nat :=
  if die ≠ home then 100 + die else if unit < unitWalker then siteOf unit else 8 + unit

/-! ## The Undercroft (R202) -/

/-- Whether a physical range touches the Undercroft. -/
def State.inUndercroft (s : State) (lo n : Nat) : Bool :=
  s.obs.gateways.any fun w =>
    let top := 2 ^ 40 + (w.die + 1) * 2 ^ 36
    decide (lo < top) && decide (top - w.share < lo + n)

/-! ## Declared reuse and requests to slices (R76, R192, R204) -/

/-- The distances of the reuse codes (R76); 30 counts as 64 ticks and 31 as 1,024. -/
def reuseDist (code : Nat) : Nat :=
  [0, 1, 2, 3, 4, 5, 6, 8, 10, 12, 14, 16, 20, 24, 28, 32, 40, 48, 56, 64, 80, 96, 112, 128, 160, 192, 224, 256, 384, 512, 64,
   1024].getD code 0

/-- Δ of an effective code (R204); none for code 0. -/
def deltaOf (code rrate tau : Nat) : Option Nat :=
  if code = 0 then none else some (min 1023 (max 1 (reuseDist code * rrate * tau / 256)))

/-- τ of a context on a die (R208); 1 for firmware (R204). -/
def State.tau (s : State) (ctx die : Nat) : Nat :=
  match s.ctx? ctx with
  | some c => if ctx = 255 then 1 else c.trust.getD die 1
  | none => 1

/-- The slice clock of a die modulo 4,096 (R203). -/
def State.sliceClock (s : State) (die : Nat) : Nat := s.cycleOn die / 256 % 4096

/-- The mesh cycle in which a die's present arithmetic cycle begins (R22, R459): both clocks keep the ratio 4 to 3 in C0, C1 and C2.
DESIGN CHOICE (log 149): what arrives in one arithmetic cycle arrives in one mesh cycle. -/
def State.meshOn (s : State) (die : Nat) : Nat := 4 * s.cycleOn die / 3

/-! ## Turns at a unit (R192) -/

/-- Whether a unit of a die can serve a requester of rank `rank` in the present mesh cycle (R192): it has served none of a higher rank in it. One
that cannot be served has not arrived in this cycle: it waits for a later one. -/
def State.inTurn (s : State) (u : ServedUnit) (die rank : Nat) : Bool :=
  !(s.turns.any fun t => t.unit == u && t.at_ == s.meshOn die && decide (rank < t.rank))

/-- A requester of rank `rank` served at a unit of a die in the present mesh cycle. -/
def State.takeTurn (s : State) (u : ServedUnit) (die rank : Nat) : State :=
  { s with turns := { unit := u, die := die, at_ := s.meshOn die, rank := rank } :: s.turns.filter fun t => !(t.unit == u) }

/-- The turns of cycles that have passed forgotten. -/
def State.oldTurns (s : State) : State := { s with turns := s.turns.filter fun t => t.at_ == s.meshOn t.die }

/-- The rank of a group among the requesters of a unit of a die (R192). -/
def Group.rankAt (g : Group) (die : Nat) : Nat := rankOf g.die g.core die

/-- The 32-byte sectors of a line that physical addresses lie in. -/
def secsOf (pas : List Nat) (line : Nat) : BitVec 4 :=
  pas.foldl (fun m p => if p / 128 = line then m ||| (1#4 <<< (p / 32 % 4)) else m) 0#4

/-- A request of unit `unit` of die `die` put among those that wait at its home slice: in order of arrival, those of one mesh cycle by
requester (R192, R204). -/
def State.askSlice (s : State) (die unit : Nat) (secs : BitVec 4) (line : Nat) (op : SliceOp) (ctx cp code rrate : Nat) : State :=
  let home := homeDie (line * 128)
  let r : SliceReq := { rid := s.nextId, die := home, site := homeSite line, at_ := s.meshOn home, rank := rankOf die unit home,
                        line := line, secs := secs, op := op, ctx := ctx, cp := cp, delta := deltaOf code rrate (s.tau ctx home),
                        trial := decide (1 ≤ code) && decide (code ≤ 19) }
  ({ s with nextId := s.nextId + 1 }).modMem fun m => { m with reqs := insertBy (fun q => 256 * q.at_ + q.rank) r m.reqs }

/-- Requests for the lines of a list of physical addresses, with the attributes of an agent that carries none: CP 0, code 30,
RRATE 2,048 (R197, R204). -/
def State.askLines (s : State) (die unit : Nat) (pas : List Nat) (op : SliceOp) (ctx : Nat) : State :=
  ((pas.map fun p => p / 128).eraseDups).foldl (fun s l => s.askSlice die unit (secsOf pas l) l op ctx 0 30 2048) s

/-! ## Stash lines written back (R195, R196) -/

/-- The write of a stash line that is written back reaches its home slice. It carries no attributes of an access (log 150). -/
def State.askBack (s : State) (l : StashLine) : State :=
  if l.dirty then s.askSlice l.die l.core 0xF#4 l.pline .write (((s.band? l.band).map fun b => b.ctx).getD 255) 0 30 2048 else s

/-- A stash line written back to memory if DIRTY, through its home slice (R195, R196). -/
def State.writeBack (s : State) (l : StashLine) : State := (s.setMem (s.mem.writeBack l)).askBack l

/-- A probe of a physical line by a load (R195). -/
def State.probeLoad (s : State) (pline : Nat) : State :=
  match s.mem.dirtyHolder pline with
  | none => s
  | some l => (s.setMem (s.mem.probeLoad pline)).askBack l

/-- A probe of a physical line by a write from elsewhere (R195). -/
def State.probeStore (s : State) (pline : Nat) : State :=
  let t := s.setMem (s.mem.probeStore pline)
  match s.mem.dirtyHolder pline with
  | none => t
  | some l => t.askBack l

/-! ## Keys -/

/-- The key generation under which a context's accesses pass; none when its slot has been destroyed, and is not bound to it again (R356). -/
def State.keyGenOf (s : State) (ctx : Nat) : Option Nat :=
  match s.ctx? ctx with
  | none => some 0
  | some c => match c.keyslot with
    | none => some 0
    | some k => match s.tab.keys.find? (fun x => x.slot == k) with
      | none => none
      | some x => if x.st == .bound && x.ctx == some ctx then some x.gen else none

/-- The stack and layer of an HBM address (R191). -/
def layerOf (pa : Nat) : Nat × Nat := (Nat.xor (pa / 2 ^ 12 % 16) (pa / 2 ^ 16 % 16), pa / 2 ^ 36 % 16)

/-- Whether an address lies on a layer that is powered off or retired (R201, R461). -/
def State.layerDown (s : State) (pa : Nat) : Bool :=
  decide (pa < 2 ^ 40) && (s.out.layersOff.contains (layerOf pa) || s.out.layersGone.contains (layerOf pa))

/-- What a context reads of a byte: the byte when the sector was written under its key, the byte 0 under no key (R356), and
an unusable byte under another key (R345, R363) or of a layer that is off. -/
def State.seen (s : State) (ctx pa : Nat) (raw : Byte) : Byte :=
  if s.layerDown pa then Config.freeByte (pa * 256 + raw.toNat) else
  match s.keyGenOf ctx with
  | none => 0
  | some k => match s.mem.sectorKey.find? (fun e => e.1 == pa / 32) with
    | none => raw
    | some e => if e.2 = k then raw else Config.freeByte (((pa * 1024 + e.2) * 1024 + k) * 256 + raw.toNat)

/-- A byte as a context reads it at its point of coherence. -/
def State.readPa (s : State) (ctx pa : Nat) : Byte := s.seen ctx pa (s.mem.coh pa)

/-- The sector of a byte taken over by a key: where another key wrote it, its bytes become what the new key reads. -/
def State.takeSector (s : State) (ctx pa : Nat) : State :=
  match s.keyGenOf ctx with
  | none => s
  | some k =>
    match s.mem.sectorKey.find? (fun e => e.1 == pa / 32) with
    | some e =>
      if e.2 = k then s
      else
        let bs := (List.range 32).map fun i => s.readPa ctx (pa / 32 * 32 + i)
        s.modMem fun m =>
          { m with bytes := cellsPut m.bytes (pa / 32 * 32) bs, sectorKey := assocSet (pa / 32) k m.sectorKey }
    | none => if k = 0 then s else s.modMem fun m => { m with sectorKey := assocSet (pa / 32) k m.sectorKey }

/-- A byte written at its point of coherence by an agent other than a stash that holds it (R195, R214). -/
def State.writePa (s : State) (ctx pa : Nat) (x : Byte) : State :=
  let s1 := s.probeStore (pa / 128)
  let s2 := s1.takeSector ctx pa
  s2.modMem fun m => { m with bytes := cellPut m.bytes pa x }

/-- A byte of a core's stash written (R195): a mapped line becomes DIRTY and other holders of its line INVALID. -/
def State.writeStash (s : State) (die core off : Nat) (x : Byte) : State :=
  let s1 := s.modMem fun m => { m with stash := cellPut m.stash (stashKey die core off) x }
  match s1.mem.stashLines.find? (fun l => l.die == die && l.core == core && l.sline == off / 128) with
  | none => s1
  | some l =>
    let mine := fun (y : StashLine) => y.die == die && y.core == core && y.sline == off / 128
    let kept := s1.mem.stashLines.filter (fun y => !(y.pline == l.pline) || mine y)
    s1.modMem fun m => { m with stashLines := mapIf mine (fun y => { y with dirty := true }) kept }

/-- A byte of a place as a context reads it at its point of coherence. -/
def State.readPlace (s : State) (ctx : Nat) : Place → Byte
  | .mem pa => s.readPa ctx pa
  | .stash die core off => cellGet s.mem.stash (stashKey die core off)
  | .peer _ _ => 0

/-- A byte of a place written. A place on another module changes nothing here. -/
def State.writePlace (s : State) (ctx : Nat) (p : Place) (x : Byte) : State :=
  match p with
  | .mem pa => s.writePa ctx pa x
  | .stash die core off =>
    let s1 := s.writeStash die core off x
    match s1.mem.stashLines.find? (fun l => l.die == die && l.core == core && l.sline == off / 128) with
    | some l => s1.takeSector ctx (l.pline * 128 + off % 128)
    | none => s1
  | .peer _ _ => s

/-- Bytes written to places, one by one. -/
def State.writePlaces (s : State) (ctx : Nat) : List Place → List Byte → State
  | p :: ps, b :: bs => (s.writePlace ctx p b).writePlaces ctx ps bs
  | _, _ => s

/-- A number of `n` bytes read at a physical address. -/
def State.readPaN (s : State) (ctx pa n : Nat) : Nat := leNat ((List.range n).map fun i => s.readPa ctx (pa + i))

/-! ## Fault codes (R365) -/

def fcIllegal : Byte := 0x01
def fcIllegalPacket : Byte := 0x02
def fcPriv : Byte := 0x03
def fcAlign : Byte := 0x04
def fcSegLimit : Byte := 0x05
def fcPcAlign : Byte := 0x07
def fcTrap : Byte := 0x08
def fcBkpt : Byte := 0x09
def fcPageNotPresent : Byte := 0x10
def fcPagePerm : Byte := 0x11
def fcNoMapping : Byte := 0x12
def fcPeerUnreachable : Byte := 0x13
def fcDataUncorrectable : Byte := 0x20
def fcMacroParity : Byte := 0x21
def fcAtombufParity : Byte := 0x22
def fcCopyFault : Byte := 0x30
def fcCollTimeout : Byte := 0x31
def fcWatchdogAbort : Byte := 0x40
def fcPartitionReset : Byte := 0x41
def fcAbsentFault : Byte := 0x51

/-- The class of a fault code (R365). -/
def faultClass (c : Byte) : Nat :=
  if c.toNat < 0x10 then 0 else if c.toNat < 0x12 then 1 else if c.toNat < 0x20 then 2 else if c.toNat < 0x30 then 3
  else if c.toNat < 0x40 then 4 else if c.toNat < 0x50 then 5 else 6

/-- The park-class codes (R51). -/
def parkCode (c : Byte) : Bool := faultClass c == 1

/-! ## Walks (R341 to R345) -/

/-- Whether `[lo, lo + n)` lies in the union of extents; `fuel` bounds the extents crossed. -/
def coveredBy (ext : List (Nat × Nat)) : Nat → Nat → Nat → Bool
  | 0, _, n => n == 0
  | fuel + 1, lo, n =>
    if n = 0 then true
    else match ext.find? (fun e => decide (e.1 ≤ lo) && decide (lo < e.1 + e.2)) with
      | none => false
      | some e => if lo + n ≤ e.1 + e.2 then true else coveredBy ext fuel (e.1 + e.2) (lo + n - (e.1 + e.2))

/-- Whether a physical range lies in a context's allotment (R343); the Undercroft is in none (R202). -/
def Context.granted (c : Context) (lo n : Nat) : Bool := coveredBy c.allot (c.allot.length + 1) lo n

/-- A region of a context (R341, R342). -/
structure Region where
  idx : Nat
  unc : Bool
  pgsz : Nat
  lvl : Nat
  nhint : Nat
  hints : Nat
  root : Nat
  vbase : Nat
deriving DecidableEq, Repr

/-- The region of an address (R342): the valid entry of lowest index whose range holds it. -/
def State.region? (s : State) (c : Context) (va : Nat) : Option Region :=
  let rb := c.rafbase.toNat
  if bits rb 6 1 = 0 then none
  else
    let try1 := fun (i : Nat) =>
      let e := s.readPaN c.ctx (rb / 4096 * 4096 + 64 * i) 64
      if bits e 279 1 = 1 ∧ bits e 0 64 ≤ va ∧ va < bits e 64 64 then
        some { idx := i, unc := bits e 278 1 == 1, pgsz := bits e 275 3, lvl := bits e 272 3, nhint := bits e 256 16,
               hints := bits e 192 64, root := bits e 128 64, vbase := bits e 0 64 : Region }
      else none
    (List.range (bits rb 0 6 + 1)).findSome? try1

/-- The page shift of a PGSZ code (R341). -/
def pageShift : Nat → Nat
  | 0 => 12 | 1 => 16 | 2 => 21 | _ => 30

/-- A leaf that a walk has found: the leaf's own address, the frame, and the entry's bits. -/
structure Leaf where
  region : Nat
  page : Nat
  vbase : Nat
  size : Nat
  frame : Nat
  leafPa : Nat
  r : Bool
  w : Bool
  d : Bool
  unc : Bool
  contig : Bool
deriving DecidableEq, Repr

/-- The pointer levels of a walk (R343, R344): the address of the leaf table. -/
def State.walkPointers (s : State) (c : Context) (i : Nat) : Nat → Nat → Except Byte Nat
  | 0, t => .ok t
  | j + 1, t =>
    let x := s.readPaN c.ctx (t + 8 * (i / 512 ^ (j + 1) % 512)) 8
    if x % 2 = 0 then .error fcPageNotPresent
    else if bits x 41 23 ≠ 0 ∨ bits x 1 11 ≠ 0 then .error fcNoMapping
    else if !(c.granted (bits x 12 29 * 4096) 4096) then .error fcNoMapping
    else s.walkPointers c i j (bits x 12 29 * 4096)

/-- A walk of a context's tables (R343). -/
def State.walk (s : State) (c : Context) (va : Nat) (rd wr : Bool) : Except Byte Leaf :=
  match s.region? c va with
  | none => .error fcNoMapping
  | some e =>
    if 4 ≤ e.pgsz ∨ e.lvl = 0 ∨ 5 < e.lvl then .error fcNoMapping
    else
      let sh := pageShift e.pgsz
      let i := (va - e.vbase) / 2 ^ sh
      if 512 ^ e.lvl ≤ i then .error fcNoMapping
      else match s.walkPointers c i (e.lvl - 1) e.root with
        | .error f => .error f
        | .ok t =>
          let x := s.readPaN c.ctx (t + 8 * (i % 512)) 8
          let frame := bits x 12 29 * 4096
          if x % 2 = 0 then .error fcPageNotPresent
          else if bits x 41 23 ≠ 0 ∨ bits x 9 3 ≠ 0 ∨ bits x 5 3 ≠ 0 then .error fcNoMapping
          else if frame % 2 ^ sh ≠ 0 ∨ !(c.granted frame (2 ^ sh)) ∨ s.inUndercroft frame (2 ^ sh) then .error fcNoMapping
          else if (rd && bits x 1 1 == 0) || (wr && bits x 2 1 == 0) then .error fcPagePerm
          else .ok { region := e.idx, page := i, vbase := e.vbase + i * 2 ^ sh, size := 2 ^ sh, frame := frame,
                     leafPa := t + 8 * (i % 512), r := bits x 1 1 == 1, w := bits x 2 1 == 1, d := bits x 4 1 == 1,
                     unc := e.unc, contig := bits x 8 1 == 1 }

/-- The physical addresses that a walk reads (R340): region entries up to the one found, then the leaf. -/
def State.walkReads (s : State) (ctx va : Nat) : List Nat :=
  match s.ctx? ctx with
  | none => []
  | some c =>
    let rb := c.rafbase.toNat / 4096 * 4096
    match s.region? c va with
    | none => []
    | some e =>
      let raf := (List.range (e.idx + 1)).map fun i => rb + 64 * i
      match s.walk c va false false with
      | .ok l => raf ++ [l.leafPa]
      | .error _ => raf

/-! ## TLBs (R345, R346) -/

/-- The TLB entry that a core's lookup finds: its first level, then its die's second level (R340). -/
def State.tlbFind (s : State) (die core ctx va : Nat) : Option TlbEntry :=
  let is := fun (e : TlbEntry) => e.die == die && e.ctx == ctx && decide (e.vbase ≤ va) && decide (va < e.vbase + e.size)
  match s.mem.tlb.find? (fun e => is e && e.core == some core) with
  | some e => some e
  | none => s.mem.tlb.find? (fun e => is e && e.core == none)

/-- The newest `n` entries of one TLB kept, the rest of the list as it is. -/
def keepNewest (n : Nat) (p : TlbEntry → Bool) : List TlbEntry → List TlbEntry
  | [] => []
  | e :: es => if p e then (if n = 0 then keepNewest 0 p es else e :: keepNewest (n - 1) p es) else e :: keepNewest n p es

/-- The span of 16 pages for which a leaf with CONTIG may be installed (R348). -/
def Leaf.span (l : Leaf) : Leaf :=
  { l with vbase := l.vbase / (16 * l.size) * (16 * l.size), frame := l.frame / (16 * l.size) * (16 * l.size), size := 16 * l.size }

/-- The leaf that a TLB installs (R348): that of the page, or of the span where CONTIG allows it and a free value decides so. -/
def State.installed (s : State) (l : Leaf) : State × Leaf :=
  if l.contig then (s.nextFree, if (Config.freeWord s.free).getLsbD 0 then l.span else l) else (s, l)

/-- A leaf installed in the first-level TLB of a core, where the unit that asks is one, and the second level of its die (R339, R346). -/
def State.tlbInstall (s : State) (die core ctx : Nat) (l : Leaf) (wr : Bool) : State :=
  let e : TlbEntry := { die := die, core := some core, ctx := ctx, region := l.region, vbase := l.vbase, frame := l.frame,
                        size := l.size, r := l.r, w := l.w, d := l.d || wr, unc := l.unc }
  let old := s.mem.tlb.filter fun x =>
    !(x.die == die && x.ctx == ctx && x.vbase == l.vbase && (x.core == some core || x.core == none))
  let l1 := if unitLauncher ≤ core then old else keepNewest 128 (fun x => x.die == die && x.core == some core) (e :: old)
  let l2 := keepNewest 16384 (fun x => x.die == die && x.core == none) ({ e with core := none } :: l1)
  s.modMem fun m => { m with tlb := l2 }

/-- What a lookup without a walk gives. -/
inductive Found where
  | hit (pa : Nat) (unc : Bool)
  | fault (code : Byte)
  | miss
deriving DecidableEq, Repr

/-- Whether a GLB address lies in a context's heap (R187). -/
def Context.inHeap (c : Context) (va : Nat) : Bool := decide (c.heapBase ≤ va) && decide (va < c.heapLim)

/-- Whether a result of a group is still outstanding. -/
def State.awaits (s : State) (gid oid : Nat) : Bool := (s.group? gid).any fun g => g.outs.any fun o => o.oid == oid

/-- A context's heap triple as what issues now uses it: between a HEAPLD and its status, the old or the new one (R359, R360). -/
def State.heapNow (s : State) (c : Context) : Context :=
  match s.tab.heapWas.find? fun x => x.ctx == c.ctx && s.awaits x.gid x.oid with
  | some x => if Config.seesOld s.mem.nextAid then { c with heapBase := x.base, heapLim := x.lim, heapOff := x.off } else c
  | none => c

/-- Translation without a walk (R340): the heap triple, then the TLBs. A write that hits a clean entry walks again (R345). -/
def State.lookup (s : State) (die core ctx va : Nat) (heap rd wr : Bool) : Found :=
  match (s.ctx? ctx).map s.heapNow with
  | none => .fault fcNoMapping
  | some c =>
    if heap && c.inHeap va then
      (if s.inUndercroft ((va + c.heapOff) % 2 ^ 64) 1 then .fault fcNoMapping else .hit ((va + c.heapOff) % 2 ^ 64) false)
    else match s.tlbFind die core ctx va with
      | none => .miss
      | some e =>
        if (rd && !e.r) || (wr && !e.w) then .fault fcPagePerm
        else if wr && !e.d then .miss
        else if s.inUndercroft (e.frame + (va - e.vbase)) 1 then .fault fcNoMapping
        else .hit (e.frame + (va - e.vbase)) e.unc

/-- A walk that ends (R340, R343, R345): its reads reach the slices, the leaf's A and, for a write, D are set by an atomic OR and the
leaf is installed. -/
def State.walkEnd (s : State) (die core ctx va : Nat) (rd wr : Bool) : State × Except Byte Leaf :=
  match s.ctx? ctx with
  | none => (s, .error fcNoMapping)
  | some c =>
    let s0 := s.askLines die unitWalker (s.walkReads ctx va) .walk ctx
    match s.walk c va rd wr with
    | .error f => (s0, .error f)
    | .ok l =>
      let b := s.readPa ctx l.leafPa
      let b' := if wr then b ||| 0x18 else b ||| 0x08
      let s1 := if b' = b then s0 else s0.writePa ctx l.leafPa b'
      let (s2, k) := s1.installed l
      (s2.tlbInstall die core ctx k wr, .ok l)

/-- Translation of one address, with a walk where it misses. -/
def State.translate (s : State) (die core ctx va : Nat) (heap rd wr : Bool) : State × Except Byte Nat :=
  match s.lookup die core ctx va heap rd wr with
  | .hit pa _ => (s, .ok pa)
  | .fault f => (s, .error f)
  | .miss =>
    match s.walkEnd die core ctx va rd wr with
    | (s1, .error f) => (s1, .error f)
    | (s1, .ok l) => (s1, .ok (l.frame + (va - l.vbase)))

/-- The physical addresses of `n` bytes from a GLB address, or the first fault and its index. -/
def State.translateN (s : State) (die core ctx : Nat) (rd wr : Bool) : Nat → Nat → State × Except (Byte × Nat) (List Nat)
  | 0, _ => (s, .ok [])
  | n + 1, va =>
    match s.translate die core ctx va true rd wr with
    | (s1, .error f) => (s1, .error (f, va))
    | (s1, .ok pa) =>
      match s1.translateN die core ctx rd wr n (va + 1) with
      | (s2, .error f) => (s2, .error f)
      | (s2, .ok ps) => (s2, .ok (pa :: ps))

/-! ## L1 copies (R215, R222) -/

/-- The L1 copy of a line in a core. -/
def MemState.l1Find (m : MemState) (die core line : Nat) : Option CacheLine :=
  m.lines.find? fun l => l.level == .l1 && l.die == die && l.unit == core && l.line == line

/-- L1 copies kept by `p` or by a lock, whose contents are to be fetched again (R222). -/
def MemState.l1Keep (m : MemState) (p : CacheLine → Bool) : MemState :=
  { m with lines := mapIf (fun l => l.level == .l1 && !(p l)) (fun l => { l with data := [], secs := 0 })
                      (m.lines.filter fun l => !(l.level == .l1) || p l || l.lock.isSome) }

/-- Every L1 line of a core invalidated; a locked line stays locked (R222). -/
def State.l1Invalidate (s : State) (die core : Nat) : State :=
  s.modMem fun m => m.l1Keep fun l => !(l.die == die && l.unit == core)

/-- The L1 copy of one line invalidated, a locked one kept without contents (R250). -/
def State.l1DropLine (s : State) (die core line : Nat) : State :=
  s.modMem fun m => m.l1Keep fun l => !(l.die == die && l.unit == core && l.line == line)

/-- The L1 copies that a unit of a die holds of the lines of physical addresses dropped: what it reads or writes past its L1 it reads
again from there on (R215). -/
def State.l1DropPas (s : State) (die core : Nat) (pas : List Nat) : State :=
  ((pas.map fun p => p / 128).eraseDups).foldl (fun s l => s.l1DropLine die core l) s

/-! ## Ranges read and written by a unit -/

/-- Bytes of a GLB range as a context reads them at their points of coherence, through the home slices (R197), or the first fault. -/
def State.readGlb (s : State) (die core ctx va n : Nat) : State × Except (Byte × Nat) (List Byte) :=
  match s.translateN die core ctx true false n va with
  | (s1, .error f) => (s1, .error f)
  | (s1, .ok ps) => (((s1.askLines die core ps .read ctx).l1DropPas die core ps), .ok (ps.map fun pa => s1.readPa ctx pa))

/-- Bytes written at physical addresses. -/
def State.writePas (s : State) (ctx : Nat) : List Nat → List Byte → State
  | p :: ps, b :: bs => (s.writePa ctx p b).writePas ctx ps bs
  | _, _ => s

/-- Bytes written to a GLB range; a fault writes nothing. -/
def State.writeGlb (s : State) (die core ctx va : Nat) (bs : List Byte) : State × Option (Byte × Nat) :=
  match s.translateN die core ctx false true bs.length va with
  | (s1, .error f) => (s1, some f)
  | (s1, .ok ps) => (((s1.writePas ctx ps bs).askLines die core ps .write ctx).l1DropPas die core ps, none)

/-! ## Segments (R119, R186) -/

/-- A segment with every register 0. -/
def Segment.zero : Segment := { base := 0, limit := 0, valid := false, wr := false }

/-- A band's copy of a segment as what issues now uses it: between a SEGLD and its status, the old or the new one (R359). -/
def State.segNow (s : State) (b : Band) (seg : Nat) : Segment :=
  let now := b.segs.getD seg Segment.zero
  match s.tab.segWas.find? fun x => x.band == b.bid && x.seg == seg && s.awaits x.gid x.oid with
  | some x => if Config.seesOld s.mem.nextAid then x.was else now
  | none => now

/-- A group's copy of a segment (R359); firmware uses its own context's as they stand (R13). -/
def State.segOf (s : State) (g : Group) (seg : Nat) : Segment :=
  match s.band? g.band with
  | some b => if b.core = 96 then ((s.ctx? b.ctx).map fun c => c.segs.getD seg Segment.zero).getD Segment.zero else s.segNow b seg
  | none => ((s.ctx? 255).map fun c => c.segs.getD seg Segment.zero).getD Segment.zero

end Sys2Proof.Machine
end

