-- ==== Sys2Proof/Machine/Task.lean ====
section
/-!
DEFINITION. Rings (R288, R366), fault records, graph nodes (R303, R304), the release of a band (R39), the census at release
(R433) and the kernel fault (R55).
-/
namespace Sys2Proof.Machine

/-! ## Rings -/

/-- What writing a slot of a ring came to. -/
inductive RingRes where
  | ok | full | bad (code : Byte) (va : Nat)
deriving DecidableEq, Repr

/-- The slot counts that a ring may have (R288): powers of two from 16 to 65,536. -/
def ringCount (n : Nat) : Bool := (List.range 13).any fun k => n == 16 * 2 ^ k

/-- The descriptor of a ring with its reserved fields (R288): BASE, COUNT, HEAD and TAIL, or none when it breaks R288. -/
def ringFields (bs : List Byte) : Option (Nat × Nat × Nat × Nat) :=
  if ringCount (fieldAt bs 64 32) && fieldAt bs 96 32 == 0 && fieldAt bs 256 256 == 0 then
    some (fieldAt bs 0 64, fieldAt bs 64 32, fieldAt bs 128 64, fieldAt bs 192 64)
  else none

/-- The PHASE of slot `i` (R289). -/
def ringPhase (i count : Nat) : Nat := (i / count + 1) % 2

/-- What reserving a slot of a ring gives: the slot's address and PHASE. -/
inductive RingSlot where
  | slot (va phase : Nat) | full | bad (code : Byte) (va : Nat)
deriving DecidableEq, Repr

/-- One slot of `size` bytes reserved by the increment of HEAD (R288, R289). -/
def State.ringReserve (s : State) (die unit ctx ring size : Nat) : State × RingSlot :=
  if ring = 0 ∨ ring % 64 ≠ 0 then (s, .bad fcCopyFault ring)
  else match s.readGlb die unit ctx ring 64 with
    | (s1, .error f) => (s1, .bad f.1 f.2)
    | (s1, .ok bs) =>
      match ringFields bs with
      | none => (s1, .bad fcCopyFault ring)
      | some (base, count, head, tail) =>
        if count ≤ (head + 2 ^ 64 - tail) % 2 ^ 64 then (s1, .full)
        else match s1.writeGlb die unit ctx (ring + 16) (leBytes 8 (head + 1)) with
          | (s2, some f) => (s2, .bad f.1 f.2)
          | (s2, none) => (s2, .slot (base + size * (head % count)) (ringPhase head count))

/-- One slot of `size` bytes reserved, then written (R288, R289): `entry` gives the slot's value for its PHASE. -/
def State.ringPut (s : State) (die unit ctx ring size : Nat) (entry : Nat → Nat) : State × RingRes :=
  match s.ringReserve die unit ctx ring size with
  | (s1, .full) => (s1, .full)
  | (s1, .bad f va) => (s1, .bad f va)
  | (s1, .slot va phase) => match s1.writeGlb die unit ctx va (leBytes size (entry phase)) with
    | (s2, some f) => (s2, .bad f.1 f.2)
    | (s2, none) => (s2, .ok)

/-! ## Fault records (R366) -/

/-- What a fault record says. `rec` marks a fault of an engine's record, whose class is 4 whatever its code (R365). -/
structure FaultInfo where
  ctx : Nat
  die : Nat
  core : Nat
  gslot : Nat
  node : Nat
  lanes : Nat
  pc : Nat
  addr : Nat
  signet : W64
  orig : Byte
  code : Byte
  eng : Bool
deriving DecidableEq, Repr

/-- The fault record as a number (R366). -/
def FaultInfo.word (f : FaultInfo) (time phase : Nat) : Nat :=
  time * 2 ^ 448 + f.signet.toNat * 2 ^ 384 + f.addr % 2 ^ 64 * 2 ^ 320 + f.pc * 2 ^ 288 + f.node * 2 ^ 256 +
  f.lanes * 2 ^ 224 + f.ctx * 2 ^ 56 + f.gslot * 2 ^ 48 + f.core * 2 ^ 41 + f.die * 2 ^ 38 + (if f.eng then 4 else faultClass f.code) * 2 ^ 35 +
  f.orig.toNat * 2 ^ 24 + f.code.toNat * 2 ^ 16 + phase

/-- A fault record written to the context's fault queue, or dropped with the fault-loss counter raised (R366). -/
def State.faultRecord (s : State) (f : FaultInfo) : State :=
  match s.ctx? f.ctx with
  | none => s
  | some c =>
    match s.ringPut f.die f.core f.ctx c.faultRing 64 (fun ph => f.word s.timeNs ph) with
    | (s1, .ok) => s1
    | (s1, _) => s1.modCtx f.ctx fun c => { c with faultLoss := c.faultLoss + 1 }

/-- The graph node whose task a kernel belongs to, following its launching kernels (R54, R334); `fuel` bounds the chain. -/
def State.rootOf (s : State) : Nat → Nat → Nat
  | 0, kid => kid
  | fuel + 1, kid =>
    match s.kernel? kid with
    | some k => match k.parent with
      | .launch p _ _ _ _ _ => s.rootOf fuel p
      | _ => kid
    | none => kid

/-- The root kernel of a kernel's task. -/
def State.taskOf (s : State) (kid : Nat) : Nat := s.rootOf s.kernels.length kid

/-- The graph-node index of a task (R366). -/
def State.nodeOf (s : State) (kid : Nat) : Nat :=
  match s.kernel? (s.taskOf kid) with
  | some k => match k.parent with
    | .node _ n => n
    | _ => 0
  | none => 0

/-- A group's fault record. -/
def State.groupFault (s : State) (g : Group) (code orig : Byte) (pc : W32) (lanes : BitVec 32) (addr : Nat) : FaultInfo :=
  { ctx := s.ctxOf g, die := g.die, core := g.core, gslot := g.gslot,
    node := match s.band? g.band with | some b => s.nodeOf b.kid | none => 0,
    lanes := lanes.toNat, pc := pc.toNat, addr := addr, signet := g.cause, orig := orig, code := code, eng := false }

/-- The trace record of a group's fault (R366, R423). -/
def State.traceFault (s : State) (g : Group) (code : Byte) (pc : W32) : State :=
  s.emitGroup g 0x08 (pc.toNat * 256 + code.toNat)

/-! ## Graph nodes (R303, R304) -/

def NodeState.code : NodeState → Nat
  | .waiting => 0 | .ready => 1 | .running => 2 | .done => 3 | .failed => 4

/-- The launcher's writes of a node's STATE, PREDS, FAULT, FAILIDX and TIME (R303). -/
def State.writeNode (s : State) (q : HostQ) (n : Node) : State :=
  let a := q.base + 64 * n.idx
  let die := q.q % 8
  let s1 := (s.writeGlb die unitLauncher q.ctx (a + 1)
    (leBytes 1 n.st.code ++ leBytes 2 n.preds ++ leBytes 1 n.fault.toNat)).1
  let s2 := (s1.writeGlb die unitLauncher q.ctx (a + 28) (leBytes 4 n.failIdx)).1
  if n.st == .done || n.st == .failed then (s2.writeGlb die unitLauncher q.ctx (a + 48) (leBytes 8 s.timeNs)).1 else s2

/-- A node of a queue changed and its record written. -/
def State.setNode (s : State) (q idx : Nat) (f : Node → Node) : State :=
  let s1 := s.modHq q fun h => { h with nodes := mapIf (fun n => n.idx == idx) f h.nodes }
  match s1.hq? q with
  | none => s1
  | some h => match h.nodes.find? (fun n => n.idx == idx) with
    | none => s1
    | some n => s1.writeNode h n

/-- The NODE_DONE record of a node (R423). -/
def State.traceNode (s : State) (q idx : Nat) : State :=
  match s.hq? q with
  | none => s
  | some h => match h.nodes.find? (fun n => n.idx == idx) with
    | none => s
    | some n => s.emitUnit (q % 8) 3 0 0 h.ctx h.signet 0x03 (idx + n.st.code * 2 ^ 24 + n.fault.toNat * 2 ^ 32)

/-- The nodes that depend on the nodes of a list, directly or through other nodes (R55); `fuel` bounds the depth. -/
def dependants (ns : List Node) : Nat → List Nat → List Nat
  | 0, _ => []
  | fuel + 1, front =>
    let nx := (ns.filter (fun n => front.contains n.idx)).flatMap (fun n => n.succ)
    if nx.isEmpty then [] else nx ++ dependants ns fuel nx

/-- A node FAILED with its code; its dependants FAILED with code 0x00 and its index (R55). -/
def State.failNode (s : State) (q idx : Nat) (code : Byte) : State :=
  match s.hq? q with
  | none => s
  | some h =>
    let s1 := (s.setNode q idx fun n => { n with st := .failed, fault := code }).traceNode q idx
    let deps := (dependants h.nodes h.nodes.length [idx]).eraseDups
    deps.foldl (fun s d =>
      match (s.hq? q).bind (fun h => h.nodes.find? (fun n => n.idx == d)) with
      | none => s
      | some n =>
        if n.st == .waiting || n.st == .ready then
          (s.setNode q d fun n => { n with st := .failed, fault := 0, failIdx := idx }).traceNode q d
        else s) s1

/-- A node DONE: each successor's PREDS falls by 1 and a successor whose PREDS reaches 0 becomes READY (R304). -/
def State.doneNode (s : State) (q idx : Nat) : State :=
  match (s.hq? q).bind (fun h => h.nodes.find? (fun n => n.idx == idx)) with
  | none => s
  | some n0 =>
    let s1 := (s.setNode q idx fun n => { n with st := .done }).traceNode q idx
    n0.succ.foldl (fun s d =>
      s.setNode q d fun n =>
        if n.st == .waiting then
          if n.preds ≤ 1 then { n with preds := 0, st := .ready, readyAt := s.out.elapsed } else { n with preds := n.preds - 1 }
        else n) s1

/-! ## Census (R431 to R433) -/

/-- Whether a divergence of a kernel halts the group that raises it (R432): HALT is set and a debug session is attached. -/
def State.haltsDiverged (s : State) (k : Kernel) : Bool := s.obs.refs.any (fun r => r.ctx == k.ctx && r.halt) && s.debugged k.ctx

/-- A divergence of a kernel that has raised none at an earlier TIME (R432): which of those of one TIME is the first is settled before TIME moves on;
until then the group that raises it does not issue where it would halt. -/
def State.diverge (s : State) (kid : Nat) (gid : Option Nat) (die core : Nat) (pc : W32) (count : Nat) (overBytes : Bool) : State :=
  match s.kernel? kid with
  | none => s
  | some k =>
    if k.diverged then s
    else
      let was := (gid.bind s.group?).any fun g => g.dbgHalt
      let x : Raise := { die := die, core := core, gid := gid, pc := pc, payload := pc.toNat + count * 2 ^ 32 + (if overBytes then 2 ^ 34 else 0), halted := was }
      let s1 := s.modKernel kid fun k => { k with raised := k.raised ++ [x] }
      match gid with
      | some i => if s.haltsDiverged k then s1.modGroup i fun g => { g with dbgHalt := true } else s1
      | none => s1

/-- The first divergence of a kernel among those raised at one TIME (R432): that of the lowest die and core. -/
def Kernel.firstRaise (k : Kernel) : Option Raise := (sortBy (fun x => x.die * 97 + x.core) k.raised).head?

/-- A kernel's divergences settled (R432): CENSUS_DIVERGE is raised for the first one, whose group halts under HALT; no other does. -/
def State.settleRaise (s : State) (k : Kernel) : State :=
  match k.firstRaise with
  | none => s
  | some x =>
    let back := fun (s : State) (y : Raise) => y.gid.elim s fun i => s.modGroup i fun g => { g with dbgHalt := y.halted }
    let s1 := (k.raised.reverse.foldl back s).modKernel k.kid fun k => { k with raised := [], diverged := true }
    match x.gid.bind s1.group? with
    | none => s1.emitUnit x.die 0 x.core 0 k.ctx k.signet 0x28 x.payload
    | some g =>
      let s2 := s1.emitGroup g 0x28 x.payload
      if s.haltsDiverged k then s2.debugHalt g 3 x.pc else s2

/-- Every kernel's divergences settled. -/
def State.settleRaises (s : State) : State := s.kernels.foldl (fun s k => s.settleRaise k) s

/-- The sites of a band appended to the context's census ring, the reference compared, and the sites freed (R432, R433). -/
def State.censusRelease (s : State) (b : Band) (k : Kernel) : State :=
  let sites := s.obs.census.filter fun c => c.band == b.bid
  let count := fun (pc : W32) => match sites.find? (fun c => c.pc == pc) with
    | some c => c.counts
    | none => [0, 0, 0, 0]
  match s.obs.refs.find? (fun r => r.ctx == b.ctx) with
  | none => s.modObs fun o => { o with census := o.census.filter fun c => !(c.band == b.bid) }
  | some r =>
    let put := fun (s : State) (c : CensusSite) =>
      let w := fun ph => k.launch.code / 64 * 2 ^ 198 + ph * 2 ^ 192 + b.index * 2 ^ 160 + c.pc.toNat * 2 ^ 128 +
        c.counts.getD 0 0 * 2 ^ 96 + c.counts.getD 1 0 * 2 ^ 64 + c.counts.getD 2 0 * 2 ^ 32 + c.counts.getD 3 0
      match s.ringPut b.die b.core b.ctx r.ring 32 w with
      | (s1, .ok) => s1
      | (s1, _) => s1.modObs fun o =>
          { o with censusOver := assocSet (b.die, b.core) (assoc (b.die, b.core) 0 o.censusOver + 1) o.censusOver }
    let s1 := sites.foldl put s
    let check := fun (s : State) (i : Nat) =>
      match s.readGlb b.die b.core b.ctx (r.base + 32 * i) 32 with
      | (s1, .error _) => s1
      | (s1, .ok bs) =>
        if fieldAt bs 198 58 * 64 = k.launch.code ∧ fieldAt bs 160 32 = b.index then
          let pc := BitVec.ofNat 32 (fieldAt bs 128 32)
          let refc := [fieldAt bs 96 32, fieldAt bs 64 32, fieldAt bs 32 32, fieldAt bs 0 32]
          match (List.range 4).find? (fun j => decide ((count pc).getD j 0 < refc.getD j 0)) with
          | some j => s1.diverge k.kid none b.die b.core pc j false
          | none => s1
        else s1
    let s2 := (List.range r.count).foldl check s1
    s2.modObs fun o => { o with census := o.census.filter fun c => !(c.band == b.bid) }

/-! ## Release of a band (R39, R196, R210, R410) -/

/-- A semaphore slot returned to FREE: its generation rises by 1 (R410). -/
def SemSlot.release (x : SemSlot) : SemSlot :=
  { x with st := .free, gen := x.gen + 1, count := 0, holder := none, waiters := [], freer := none }

/-- Whether the code object of a kernel holds matrix instructions (R258). -/
def State.isMatrix (s : State) (k : Kernel) : Bool := s.codes.any fun c => c.isOf k && c.matrix

/-- The code objects that no kernel names are no longer kept (R306). -/
def State.dropCodes (s : State) : State :=
  { s with codes := s.codes.filter fun c => s.kernels.any c.isOf }

/-- The group slots and the stash of a band returned to its core (R39): mapped stash lines written back and freed, the stash zeroed. -/
def State.freeBand (s : State) (b : Band) : State :=
  let s1 := (s.mem.stashLines.filter (fun l => l.band == b.bid)).foldl (fun s l => s.writeBack l) s
  let here := !(b.st == .saved)
  let lo := stashKey b.die b.core (128 * b.stashBase)
  let hi := stashKey b.die b.core (128 * (b.stashBase + b.stashLines))
  { s1.modMem (fun m => { m with
      stashLines := m.stashLines.filter (fun l => !(l.band == b.bid)),
      stash := m.stash.filter (fun c => !(here && decide (lo ≤ c.1) && decide (c.1 < hi))) }) with
    mats := if here && b.matrix then s1.mats.filter (fun u => !(u.die == b.die && u.core == b.core)) else s1.mats,
    bands := s1.bands.filter (fun x => !(x.bid == b.bid)) }

/-- The rest of a band's reservation released (R39): locks ended, declared semaphore slots FREE, its barrier records of tiers up to the
band's, its queues, pool records, bins and messages gone, its census appended. -/
def State.endBand (s : State) (b : Band) (k : Kernel) : State :=
  let s0 := s.censusRelease b k
  let y := s0.sync
  let sync := { y with
    bars := y.bars.filter (fun r => !(r.band == b.bid && decide (r.tier ≤ k.launch.bandTier))),
    sems := mapIf (fun x => x.st == .declared && x.band == b.bid) SemSlot.release y.sems }
  let unlock := fun (l : CacheLine) => { l with lock := none, md := { l.md with pin := false } }
  let s1 := { s0.modMem (fun m => { m with lines := mapIf (fun l => l.level == .l1 && l.lock == some b.bid) unlock m.lines }) with
    sync := sync,
    named := s0.named.filter (fun q => !(q.band == b.bid)),
    pool := s0.pool.filter (fun r => !(r.band == b.bid)),
    bins := mapIf (fun x => x.band == b.bid) (fun x => { x with recs := [], firing := false }) s0.bins,
    msgs := s0.msgs.filter (fun m => !(m.sband == b.bid)) }
  let s2 := s1.modKernel b.kid fun k => { k with released := k.released + 1 }
  let s3 := s2.modCtx b.ctx fun c => { c with frameUse := c.frameUse.filter (fun u => !(u.1 == b.frameBase)) }
  s3.emitUnit b.die 3 0 0 b.ctx k.signet 0x02 b.index

/-- The reservation of a band released (R39). -/
def State.releaseBand (s : State) (b : Band) : State :=
  match s.kernel? b.kid with
  | none => s.freeBand b
  | some k => (s.endBand b k).freeBand b

/-- Whether the stores of a band's former groups have all been performed, those of the matrix unit included (R234). -/
def State.ghostsQuiet (s : State) (b : Band) : Bool :=
  !(s.mem.accs.any fun a => b.ghosts.any fun x => x.1 == a.gid) &&
  !(s.mats.any fun u => u.queue.any fun q => match q with
    | .mld op => b.ghosts.any fun x => x.1 == op.gid
    | .pass _ _ _ => false)

/-! ## Kernel faults (R55) -/

/-- A queue operation that holds its group until it is served (R326, R331). -/
def QKind.blocks : QKind → Bool
  | .push => true | .pop => true | .deq => true | .enqw => true | _ => false

/-- The number of a slot among those of every die. -/
def SemSlot.key (x : SemSlot) : Nat := x.die * 65536 + x.slot

/-- A group taken from the places where it waits: queues, semaphores (R324, R413). Operations on their way that do not hold the
group, and releases, stay unless `all` is set. -/
def State.leaveQueues (s : State) (gid : Nat) (all : Bool) : State :=
  let others := fun (l : List QOp) => l.filter fun x => !(x.gid == gid)
  { s with
    qops := s.qops.filter (fun x => !(x.gid == gid) || (!all && !x.kind.blocks)),
    chanMsgs := s.chanMsgs.filter (fun m => !all || !(m.gid == gid)),
    named := s.named.map (fun q => { q with pushW := others q.pushW, popW := others q.popW }),
    work := s.work.map (fun q => { q with deqW := others q.deqW, enqW := others q.enqW }),
    sync := { s.sync with
      semMsgs := s.sync.semMsgs.filter (fun m => !(m.gid == gid) || (!all && m.op != .acq && m.op != .free)),
      sems := s.sync.sems.map fun x =>
        let free := s.groups.find? fun g => g.gid != gid && g.blocked == some (.semFree x.key)
        { x with waiters := x.waiters.filter (fun y => !(y == gid)),
                 freer := if x.freer == some gid then free.map fun g => g.gid else x.freer } } }

/-- A group removed: what it issued and has not performed but for its stores and the fences that order them, its places in queues and
units (R55, R221, R224, R234). -/
def State.dropGroup (s0 : State) (gid : Nat) : State :=
  let s := s0.leaveQueues gid true
  let stays := fun (a : Acc) => !(a.gid == gid) || (match a.kind with
    | .store _ => true | .atom _ _ _ _ => true | .cwb => true | .cwbinv => true | _ => false)
  let qs := fun (q : MatItem) => match q with
    | .pass o c l => some (.pass o c (l.filter fun x => !(x.gid == gid)))
    | .mld op => if op.gid == gid && decide (op.minor < 6) then none else some (.mld op)
  let fences := ((s.group? gid).map fun g => g.fences.map fun f => (gid, f)).getD []
  { s with
    groups := s.groups.filter (fun g => !(g.gid == gid)),
    order := s.order.filter (fun x => !(x == gid)),
    mats := s.mats.map (fun u => { u with queue := u.queue.filterMap qs }),
    msgs := s.msgs.filter (fun m => !(m.gid == gid)),
    sync := { s.sync with tokens := s.sync.tokens.filter (fun t => !(t.gid == gid)) },
    mem := { s.mem with accs := s.mem.accs.filter stays, orphans := s.mem.orphans ++ fences } }

/-- The STATUS of a record that a cancellation ends (R292): CANCELLED, or FAULTED where a watchdog ends its node (R382). -/
def Post.endStatus (p : Post) (code : Byte) : Nat := if p.node.isSome && code == fcWatchdogAbort then 2 else 1

/-- Whether a record has ended, its completion record or its OWN bit perhaps still to be written (R289). -/
def RecPhase.ended : RecPhase → Bool
  | .done _ _ => true
  | .clearing => true
  | _ => false

/-- A record that a cancellation stops (R292): CANCELLED with a fault code, unless it has ended. -/
def EngRec.stop (r : EngRec) (code : Byte) : EngRec :=
  if r.phase.ended then r
  else { r with phase := .done (r.post.endStatus code) code, page := none, divert := none }

/-- What a channel does of the posts that `p` picks, cancelled with a fault code (R55, R292): records in flight stop; the chain that runs and the
heads that wait are walked, each record with OWN set completing CANCELLED. -/
def Channel.cancel (c : Channel) (p : Post → Bool) (code : Byte) : Channel :=
  let mine := c.posts.filter p
  let cur := match c.cur with
    | some (a, x) => if p x then [(a, x, code)] else []
    | none => []
  { c with
    recs := mapIf (fun r => p r.post) (fun r => r.stop code) c.recs,
    posts := c.posts.filter (fun x => !(p x)),
    cur := match c.cur with
      | some (a, x) => if p x then none else some (a, x)
      | none => none,
    part := if cur.isEmpty && mine.isEmpty then c.part else [],
    page := if cur.isEmpty && mine.isEmpty then c.page else none,
    doomed := c.doomed ++ cur ++ mine.map (fun x => (x.head, x, code)),
    st := if c.recs.any (fun r => p r.post) || !mine.isEmpty || !cur.isEmpty then .cancelling else c.st }

/-- The completion record of a child kernel (R289, R334). -/
def State.childRecord (s : State) (k : Kernel) (status : Nat) (code : Byte) : State :=
  match k.parent with
  | .launch _ _ _ ring addr cause =>
    if ring = 0 then s
    else
      let w := fun ph => ph * 2 ^ 255 + addr % 2 ^ 56 * 2 ^ 192 + s.timeNs % 2 ^ 64 * 2 ^ 128 + cause.toNat * 2 ^ 64 +
        s.timeF * 2 ^ 16 + code.toNat * 2 ^ 8 + status
      (s.ringPut k.die unitLauncher k.ctx ring 32 w).1
  | _ => s

/-- A band whose kernel has ended (R55, R234): its reservation is released, but its group slots and stash wait until its stores have been
performed. -/
def State.killBand (s : State) (gs : List Group) (b : Band) : State :=
  let regs := ((s.kernel? b.kid).map fun k => k.launch.regs).getD 64
  let ghosts := (gs.filter fun g => g.band == b.bid).map fun g => (g.gid, g.quad, if g.helper.isSome then 32 else g.slot, regs)
  let b' := { b with st := if b.st == .saved then .saved else .dying, ghosts := ghosts }
  let s1 := match s.kernel? b.kid with
    | some k => s.endBand b k
    | none => s
  if s1.ghostsQuiet b' then s1.freeBand b else s1.modBand b.bid fun _ => b'

/-- A kernel fault (R55, R334): every kernel of the task ends. Its groups and records are retired, its asynchronous work is
cancelled, its reservations are released, child completions are written and its node fails with the code. -/
def State.kernelFault (s : State) (kid : Nat) (code : Byte) : State :=
  let root := s.taskOf kid
  let ks := s.kernels.filter (fun k => s.taskOf k.kid == root)
  if ks.isEmpty then s
  else
    let kids := ks.map (fun k => k.kid)
    let bs := s.bands.filter (fun b => kids.contains b.kid)
    let bids := bs.map (fun b => b.bid)
    let gids := (s.groups.filter (fun g => bids.contains g.band)).map (fun g => g.gid)
    let s1 := gids.foldl (fun s i => s.dropGroup i) (ks.foldl (fun s k => s.settleRaise k) s)
    let s2 := { s1 with chans := s1.chans.map (fun (c : Channel) => c.cancel (fun p => kids.contains p.kid) code) }
    let s3 := { s2 with sync := { s2.sync with bars := s2.sync.bars.filter (fun r => !(kids.contains r.kid)) } }
    let s4 := bs.foldl (fun t b => t.killBand s.groups b) s3
    let s5 := ks.foldl (fun s k => s.childRecord k (if k.kid = kid then 2 else 1) code) s4
    let s6 := match s.kernel? root with
      | some k => match k.parent with
        | .node q n => s5.failNode q n code
        | .host tag => s5.modOut fun o => { o with sent := o.sent ++ [HostMsg.event 0x100 [BitVec.ofNat 64 tag, code.setWidth 64]] }
        | .launch _ _ _ _ _ _ | .boot => s5
      | none => s5
    ({ s6 with
      kernels := s6.kernels.filter (fun k => !(kids.contains k.kid)),
      tab := { s6.tab with divs := s6.tab.divs.filter (fun d => !(bids.contains d.bid)),
                           arrivals := s6.tab.arrivals.filter (fun a => !(bids.contains a.bid)),
                           absents := s6.tab.absents.filter (fun a => !(bids.contains a.bid)) } }).dropCodes

/-- A kernel fault that no group meets (R366, R509): the fault record is that of group 0 of the task's band of lowest index, with its issue address
and its active lanes, and the trace record that of its die's firmware core. -/
def State.actFault (s : State) (kid : Nat) (code : Byte) : State :=
  let root := s.taskOf kid
  let bs := s.bands.filter fun b => s.taskOf b.kid == root
  let first := (sortBy (fun (b : Band) => b.index) (bs.filter (fun b => b.kid == root) ++ bs.filter fun b => !(b.kid == root))).head?
  match first.bind fun b => s.groups.find? fun g => g.band == b.bid && g.idx == some 0 with
  | none => s.kernelFault kid code
  | some g =>
    let pc := BitVec.ofNat 32 (g.issueAddr.getD 0)
    let lanes := if g.issueAddr.isSome then g.activeAt pc else 0
    let s1 := s.emitUnit g.die 5 96 0 (s.ctxOf g) g.cause 0x08 (pc.toNat * 256 + code.toNat)
    (s1.faultRecord (s.groupFault g code 0 pc lanes 0)).kernelFault kid code

/-- A kernel fault that a group meets: its fault record and trace record, then R55. -/
def State.groupKernelFault (s : State) (g : Group) (code : Byte) (pc : W32) (lanes : BitVec 32) (addr : Nat) : State :=
  let s1 := (s.traceFault g code pc).faultRecord (s.groupFault g code 0 pc lanes addr)
  match s.band? g.band with
  | some b => s1.kernelFault b.kid code
  | none => s1.dropGroup g.gid

end Sys2Proof.Machine
end

