-- ==== Sys2Proof/Machine/Access.lean ====
section
/-!
DEFINITION. Accesses in flight: their creation at issue, their translation, and the order in which they may be performed
(R215 to R224, R254); L1 copies that an acquire invalidates (R222); the flush of an atomic buffer (R249, R320).
-/
namespace Sys2Proof.Machine

/-! ## Which accesses come first -/

/-- An access that reads memory for its group. -/
def AccKind.reads : AccKind → Bool
  | .load _ => true | .lds _ => true | .atom _ _ _ _ => true | .semAcq => true | .pref => true | .lock => true | _ => false

/-- An access that writes memory. -/
def AccKind.writes : AccKind → Bool
  | .store _ => true | .atom _ _ _ _ => true | .semAcq => true | .semRel => true | .red _ _ => true | .cwb => true | .cwbinv => true
  | _ => false

/-- The access of a memory-word semaphore's release, which follows every earlier access of its group (R414, R416). -/
def AccKind.isSemRel : AccKind → Bool
  | .semRel => true | _ => false

def AccKind.isAtom : AccKind → Bool
  | .atom _ _ _ _ => true | _ => false
def AccKind.isStore : AccKind → Bool
  | .store _ => true | _ => false
def AccKind.isRed : AccKind → Bool
  | .red _ _ => true | _ => false
def AccKind.isRedIn : AccKind → Bool
  | .redIn _ _ _ => true | _ => false
def AccKind.isLoad : AccKind → Bool
  | .load _ => true | .lds _ => true | _ => false

def AccKind.isStash : AccKind → Bool
  | .stashOp _ _ _ _ => true | _ => false

/-- The operations on whole lines (R250). -/
def AccKind.isLine : AccKind → Bool
  | .pref => true | .lock => true | .unlock => true | .cinv => true | .cwb => true | .cwbinv => true | _ => false

/-- Whether an access goes to another module. -/
def Acc.elsewhere (a : Acc) : Bool := (a.places.getD []).any fun p => match p with
  | .peer _ _ => true
  | _ => false

/-- Whether the address of an access is fully translated: that of a RED at another module only once that module has answered (R189, R248). -/
def Acc.found (a : Acc) : Bool :=
  match a.kind with
  | .redIn _ _ known => a.places.isSome && (known || !a.elsewhere)
  | _ => a.places.isSome

/-- The line of a place. -/
def Place.line : Place → Place
  | .mem pa => .mem (pa / 128)
  | .stash die core off => .stash die core (off / 128)
  | .peer dev off => .peer dev (off / 128)

/-- The mapped stash line that a place lies in, when it is mapped: its band, its GLB line address and whether it holds data (R195). -/
def State.mappedLine (s : State) (die core off : Nat) : Option (Nat × Nat × Bool) :=
  let line := off / 128
  let inBand := fun (b : Band) => b.die == die && b.core == core && !(b.st == .saved) &&
    decide (b.stashBase ≤ line) && decide (line < b.stashBase + b.stashLines)
  match s.bands.find? inBand with
  | none => none
  | some b =>
    let sth := off - 128 * b.stashBase
    let hit := b.maps.findSome? fun m => match m with
      | none => none
      | some m => if m.t ≤ sth ∧ sth < m.t + m.len then some (m.g + (sth / 128 * 128 - m.t)) else none
    match hit with
    | none => none
    | some g =>
      some (b.bid, g, s.mem.stashLines.any fun l => l.die == die && l.core == core && l.sline == line)

/-- Whether every stash line that an access touches is unmapped or filled (R195). -/
def State.filled (s : State) (ps : List Place) : Bool :=
  ps.all fun p => match p with
    | .stash die core off => match s.mappedLine die core off with
      | some (_, _, has) => has
      | none => true
    | _ => true

/-- The physical address behind a GLB address of a context, where its tables give one. -/
def State.glbPa (s : State) (ctx va : Nat) : Option Nat :=
  match (s.ctx? ctx).map s.heapNow with
  | none => none
  | some c =>
    if c.inHeap va then some ((va + c.heapOff) % 2 ^ 64)
    else match s.walk c va false false with
      | .ok l => some (l.frame + (va - l.vbase))
      | .error _ => none

/-- The location of a place (R212): a byte of a mapped stash range is a byte of physical memory, whether its line holds data or not. -/
def State.locOf (s : State) (p : Place) : Place :=
  match p with
  | .stash die core off =>
    match s.mem.stashLines.find? (fun l => l.die == die && l.core == core && l.sline == off / 128) with
    | some l => .mem (l.pline * 128 + off % 128)
    | none => match s.mappedLine die core off with
      | some (bid, g, _) => match (s.band? bid).bind fun b => s.glbPa b.ctx (g + off % 128) with
        | some pa => .mem pa
        | none => p
      | none => p
  | _ => p

/-- The locations of an access whose address is translated. -/
def State.locsOf (s : State) (a : Acc) : List Place := (a.places.getD []).map s.locOf

/-- Whether two lists of locations meet, by lines where one belongs to an operation on a line. -/
def locsMeet (lines : Bool) (p q : List Place) : Bool :=
  if lines then (p.map Place.line).any fun x => (q.map Place.line).contains x else p.any fun x => q.contains x

/-- Whether two accesses touch a common location, or a common line where one acts on a line. -/
def State.overlaps (s : State) (a b : Acc) : Bool := locsMeet (a.kind.isLine || b.kind.isLine) (s.locsOf a) (s.locsOf b)

/-- Whether every byte of `a` is written by `b`. -/
def State.within (s : State) (a b : Acc) : Bool :=
  a.places.isSome && b.places.isSome && (s.locsOf a).all fun x => (s.locsOf b).contains x

def Acc.acquires (a : Acc) : Bool := a.ord == 1 || a.ord == 3
def Acc.releases (a : Acc) : Bool := a.ord == 2 || a.ord == 3

/-! ## Scopes (R11, R213) -/

/-- Whether a scope covers agents on two cores. -/
def scopeCovers (scp die core die' core' : Nat) : Bool :=
  match scp with
  | 0 => false
  | 1 => die == die' && core == core'
  | 2 => die == die' && core / 8 == core' / 8
  | 3 => die == die'
  | _ => true

/-- The scope of an order that holds for every agent. -/
def scopeAll : Nat := 7

/-- The scope of a hand-off to a core (R227): the narrowest that covers both. -/
def scopeBetween (die core die' core' : Nat) : Nat :=
  if die ≠ die' then 4 else if core = core' then 1 else if core / 8 = core' / 8 then 2 else 3

/-- A fence that orders `e` before `a` (R221, R227, R254). -/
def Fence.orders (f : Fence) (e a : Acc) : Bool :=
  (f.accs.any fun x => e.gid == x.1 && decide (e.aid < x.2)) && decide (f.at_ ≤ a.aid) &&
  (if f.redOnly then e.kind.isRed
   else f.mask.getLsbD e.stream && f.mask.getLsbD a.stream && (!f.each || e.stream == a.stream))

/-- Whether an application comes before another of its core (R320): those of one group in their order, those of several by turn. -/
def Acc.redBefore (e a : Acc) : Bool :=
  e.kind.isRed && a.kind.isRed && e.die == a.die && e.core == a.core &&
  (if e.gid = a.gid then decide (e.aid < a.aid) else decide (e.turn < a.turn) || (e.turn == a.turn && decide (e.aid < a.aid)))

/-- What puts an earlier access `e` of the group of `a` before it for every agent. -/
def State.strictBefore (s : State) (a e : Acc) : Bool :=
  -- one location (R215, R216)
  (!(e.iss == a.iss) && s.overlaps a e &&
    (if e.kind.writes then !(a.kind.isLoad && e.kind.isStore && s.within a e) else a.kind.reads || a.kind.writes)) ||
  (e.iss == a.iss && a.kind.writes && e.kind.writes && s.overlaps a e) ||
  -- the lines of one operation in ascending lane order (R250)
  (e.iss == a.iss && a.kind.isLine && e.kind.isLine && decide (e.lane < a.lane)) ||
  a.kind.isSemRel ||
  -- an application after earlier stores of its stream (R224)
  (a.kind.isRed && e.kind.isStore && e.stream == a.stream)

/-- The widest scope at which an access must follow an access `e` that is not yet performed (R213): 0 where it need not, and `scopeAll`
where it must for every agent. DEDUCED (log 155): R219's acquire and release order at the access's scope, as R213 has it. -/
def State.orderScope (s : State) (fences : List Fence) (a e : Acc) : Nat :=
  let own := e.gid == a.gid && decide (e.aid < a.aid) && !(e.iss == a.iss && e.lane == a.lane)
  let line := own && !(e.iss == a.iss) && e.stream == a.stream
  if e.redBefore a || (own && s.strictBefore a e) then scopeAll
  else
    (fences.map fun f => if f.orders e a then f.scp else 0).foldl max
      (max (if line && e.acquires then e.scp else 0)
        (max (if line && a.releases then a.scp else 0)
          -- total store order, as the core's groups see it (R217)
          (if line && (a.kind.writes || (a.kind.reads && e.kind.reads)) then 1 else 0)))

/-- Whether a group has accesses numbered below `n` that are not performed. -/
def State.pendingBelow (s : State) (gid n : Nat) : Bool :=
  s.mem.accs.any fun a => a.gid == gid && decide (a.aid < n)

/-- The matrix items of a group that are still queued. -/
def State.matsOf (s : State) (gid : Nat) : List Nat :=
  s.mats.flatMap fun u => u.queue.flatMap fun q => match q with
    | .pass _ _ qs => (qs.filter fun x => x.gid == gid).map fun x => x.qid
    | .mld op => if op.gid == gid then [op.mid] else []

/-- The trace records that are not yet written (R424). -/
def State.openRecs (s : State) : List TraceRec := s.obs.ports.flatMap (fun p => p.recs) ++ s.obs.gateways.flatMap fun g => g.buf

/-- The trace records of a group that are not yet written. -/
def State.recsOf (s : State) (gid : Nat) : List Nat := (s.openRecs.filter fun r => r.gid == gid).map fun r => r.rno

/-- Whether a matrix item of a list is still queued, or a record of a list not yet written. -/
def State.stillOpen (s : State) (mats recs : List Nat) : Bool :=
  (!mats.isEmpty && s.mats.any fun u => u.queue.any fun q => match q with
    | .pass _ _ qs => qs.any fun x => mats.contains x.qid
    | .mld op => mats.contains op.mid) ||
  (!recs.isEmpty && s.openRecs.any fun r => recs.contains r.rno)

/-- What a group has done so far, on its own path, the matrix path and the trace path (R227). -/
def State.needsOf (s : State) (gid : Nat) : Needs := { accs := [(gid, s.mem.nextAid)], mats := s.matsOf gid, recs := s.recsOf gid }

/-- Nothing to wait for. -/
def Needs.none : Needs := { accs := [], mats := [], recs := [] }

/-- Whether what must come first has been performed. -/
def State.needsMet (s : State) (n : Needs) : Bool := !(n.accs.any fun x => s.pendingBelow x.1 x.2) && !(s.stillOpen n.mats n.recs)

/-- Two needs together. -/
def Needs.join (a b : Needs) : Needs := { accs := a.accs ++ b.accs, mats := a.mats ++ b.mats, recs := a.recs ++ b.recs }

/-- What must come before the later work of a group on each other path (R225), once `n` must. -/
def addPaths (l : List (Nat × Needs)) (n : Needs) : List (Nat × Needs) :=
  [1, 2, 3, 4].map fun k => (k, (((l.find? fun x => x.1 == k).map fun x => x.2).getD Needs.none).join n)

/-- The fences of a group, also of one that is gone (R55). -/
def State.fencesOf (s : State) (gid : Nat) : List Fence :=
  match s.group? gid with
  | some g => g.fences
  | none => (s.mem.orphans.filter fun x => x.1 == gid).map fun x => x.2

/-- Whether a queue operation that returns an entry acquires (R324, R328, R332). -/
def QKind.acquires : QKind → Bool
  | .pop => true | .tryPop => true | .peek => true | .deq => true | .tryDeq => true | _ => false

/-- Whether an access follows a queue operation of its group that acquires and has not been served (R324). -/
def State.behindQueue (s : State) (a : Acc) : Bool :=
  s.qops.any fun o => o.gid == a.gid && o.kind.acquires && decide (o.at_ ≤ a.aid)

/-! ## When an access may be performed -/

/-- Whether an access that is written or read at `locs` conflicts with another. -/
def State.conflicts (s : State) (locs : List Place) (writes : Bool) (x : Acc) : Bool :=
  (writes || x.kind.writes || x.kind.isRedIn) && (x.places.isNone || locsMeet x.kind.isLine locs (s.locsOf x))

/-- Whether an agent at a place would see a performed access before one that comes first for it (R213, R217). -/
def State.earlyFor (s : State) (y : EarlyAcc) (die core : Nat) : Bool :=
  y.waits.any fun w => scopeCovers w.2 y.die y.core die core && s.mem.accs.any fun e => e.aid == w.1

/-- Whether an access of a group must wait, because it would see an access of another group of its scope out of order. -/
def State.behindEarly (s : State) (a : Acc) : Bool :=
  s.mem.early.any fun y => !(y.gid == a.gid) && s.earlyFor y a.die a.core && s.conflicts y.locs y.writes a

/-- The same of another agent of a die, which lies in no core (R213): the bytes that it reads or writes. -/
def State.unitBehind (s : State) (die : Nat) (writes : Bool) (pas : List Nat) : Bool :=
  s.mem.early.any fun y => s.earlyFor y die 1000 && (writes || y.writes) && locsMeet false y.locs (pas.map .mem)

/-- The accesses that come before one, with the scopes for which they do; `skip` picks those that are performed with it. -/
def State.blockers (s : State) (skip : Acc → Bool) (a : Acc) : List (Nat × Nat) :=
  (s.mem.accs.filterMap fun e =>
    let k := s.orderScope (s.fencesOf a.gid) a e
    if skip e || k = 0 then none else some (e.aid, k))

/-- Whether an access may go ahead of accesses that come first only for a scope (R213): none of them does so for every agent, and no agent
that a scope covers has an access under way that could tell. -/
def State.mayOvertake (s : State) (a : Acc) (ws : List (Nat × Nat)) : Bool :=
  ws.all (fun w => decide (w.2 ≤ 4)) &&
  !(s.mem.accs.any fun x => !(x.gid == a.gid) && (ws.any fun w => scopeCovers w.2 a.die a.core x.die x.core) &&
      s.conflicts (s.locsOf a) a.kind.writes x)

/-- Whether an access to the stash follows a STASH operation of its band that arrived before it or in its cycle (R251). DEDUCED (log 163):
the stash serves them in arrival order whatever lines they touch. -/
def State.behindStash (s : State) (a : Acc) : Bool :=
  let band := fun (gid : Nat) => (s.group? gid).map fun g => g.band
  a.seg == 1 && s.mem.accs.any fun e => e.kind.isStash && decide (e.turn / 512 ≤ a.turn / 512) && band e.gid == band a.gid

/-- Whether the band of a group is off its core, so that its loads that are outstanding wait for the resumption (R233). -/
def State.awaySaved (s : State) (gid : Nat) : Bool :=
  ((s.group? gid).bind fun g => s.band? g.band).any fun b => b.st == .saved || b.st == .restored

/-- Whether an access may be performed now, with those of `skip`: every part of its lane's access is translated (R238) and its stash lines are
filled; the lanes whose places it could share are translated (R216); no order holds it. -/
def State.canPerformWith (s : State) (skip : Acc → Bool) (a : Acc) : Bool :=
  match a.places with
  | none => false
  | some ps =>
    let mine := s.mem.accs.filter fun e => e.gid == a.gid && e.iss == a.iss
    s.filled ps && !(a.kind.isRedIn) && !(s.awaySaved a.gid) && !(s.behindQueue a) && !(s.behindStash a) && !(s.behindEarly a) &&
    (mine.filter fun e => e.lane == a.lane).all (fun e => e.places.isSome && s.filled (e.places.getD [])) &&
    !(mine.any fun e => e.places.isNone && (a.kind.isLoad || a.kind.isAtom || decide (e.lane < a.lane))) &&
    (!(a.kind.isRed) || decide (a.turn / 512 < s.cycleOn a.die)) &&
    s.mayOvertake a (s.blockers skip a) &&
    !((s.fencesOf a.gid).any fun f => decide (f.at_ ≤ a.aid) && s.stillOpen f.mats f.recs)

/-- Whether an access may be performed now on its own. -/
def State.canPerform (s : State) (a : Acc) : Bool := s.canPerformWith (fun _ => false) a

/-- Whether an access of the same issue may follow `a` at once: what it waits for lies in that issue. -/
def State.canFollow (s : State) (a : Acc) : Bool := s.canPerformWith (fun e => e.gid == a.gid && e.iss == a.iss) a

/-- An access that is performed ahead of others, as those whom it concerns must know it. -/
def State.earlyOf (s : State) (a : Acc) : Option EarlyAcc :=
  let ws := s.blockers (fun _ => false) a
  if ws.isEmpty then none
  else some { gid := a.gid, die := a.die, core := a.core, locs := s.locsOf a, writes := a.kind.writes, waits := ws }

/-- Accesses removed by number as they are performed. -/
def State.dropAccs (s : State) (aids : List Nat) : State :=
  let new := (s.mem.accs.filter fun a => aids.contains a.aid).filterMap s.earlyOf
  s.modMem fun m =>
    let left := m.accs.filter fun a => !(aids.contains a.aid)
    { m with accs := left,
             early := (m.early ++ new).filter fun y => y.waits.any fun w => left.any fun e => e.aid == w.1,
             orphans := m.orphans.filter fun x => left.any fun e => e.gid == x.1 }

/-! ## What a group reads at once (R215) -/

/-- The byte that a group has stored to a place, by its newest store below number `n` that is not yet performed (R215). -/
def State.ownStore (s : State) (gid n : Nat) (p : Place) : Option Byte :=
  let hit := fun (e : Acc) => match e.kind with
    | .store bs => if e.gid = gid ∧ e.aid < n then ((s.locsOf e).zip bs).findSome? fun x => if x.1 = s.locOf p then some x.2 else none
                   else none
    | _ => none
  (s.mem.accs.filterMap hit).getLast?

/-- Bytes of a GLB range as a group reads them, its own stores included (R215), or the first fault. -/
def State.readOwn (s : State) (g : Group) (va n : Nat) : State × Except (Byte × Nat) (List Byte) :=
  let ctx := s.ctxOf g
  match s.translateN g.die g.core ctx true false n va with
  | (s1, .error f) => (s1, .error f)
  | (s1, .ok ps) =>
    ((s1.askLines g.die g.core ps .read ctx).l1DropPas g.die g.core ps,
     .ok (ps.map fun pa => (s1.ownStore g.gid s.mem.nextAid (.mem pa)).getD (s1.readPa ctx pa)))

/-! ## Creating accesses -/

/-- Where an access of a group stands among those that arrive in one order (R251, R320): its cycle, early drains before the rest of the
cycle, then quadrant and slot. -/
def State.arrival (s : State) (g : Group) (early : Bool) : Nat :=
  s.cycleOn g.die * 512 + (if early then 0 else 256) + (if g.helper.isSome then 4 else g.quad) * 32 + g.slot % 32

/-- The stream of an attribute's STR (R73, R212). -/
def State.streamOf (s : State) (g : Group) (str : Nat) : Nat := if str = 0 then (s.launchOf g).strdef else str

/-- The effective reuse code of an attribute's RU (R76). -/
def State.ruOf (s : State) (g : Group) (ru : Nat) : Nat := if ru = 30 then (s.launchOf g).rudef else ru

/-- The accesses of one issue added in order, numbered from the next access number. -/
def State.addAccs (s : State) (as : List Acc) : State :=
  let put := fun (m : MemState) (a : Acc) => { m with accs := m.accs ++ [{ a with aid := m.nextAid }], nextAid := m.nextAid + 1 }
  s.modMem fun m => as.foldl put m

/-- Whether an access needs read and write permission (R343). DESIGN CHOICE (log 156): R343 names none for CINV and UNLOCK, which change
nothing at a line's point of coherence; they need what a read needs. -/
def AccKind.needs : AccKind → Bool × Bool
  | .load _ => (true, false) | .lds _ => (true, false) | .store _ => (false, true) | .atom _ _ _ _ => (true, true)
  | .semAcq => (true, true) | .semRel => (true, true) | .redIn _ _ _ => (false, true) | .red _ _ => (false, true) | .pref => (true, false) | .lock => (true, false)
  | .unlock => (true, false) | .stashOp _ _ _ _ => (false, false) | .cinv => (true, false) | .cwb => (false, true) | .cwbinv => (false, true)

/-- The places of an access found without a walk: `n` addresses from `va` (R340). -/
def State.placesAt (s : State) (die core ctx : Nat) (heap rd wr : Bool) : Nat → Nat → Except (Option Byte) (List Nat × Bool)
  | 0, _ => .ok ([], false)
  | n + 1, va =>
    match s.lookup die core ctx va heap rd wr with
    | .miss => .error none
    | .fault f => .error (some f)
    | .hit pa u => match s.placesAt die core ctx heap rd wr n (va + 1) with
      | .error e => .error e
      | .ok (ps, u2) => .ok (pa :: ps, u || u2)

/-- What an attempt to translate an access gives. -/
inductive Tried where
  | done (a : Acc)
  | wait
  | fault (code : Byte)
deriving DecidableEq, Repr

/-- The context and translation of a PEER address (R189, R340): the exporter of the routing partition of the access on this
module, or the place on another module. -/
def State.exporterOf (s : State) (ctx : Nat) : Option Nat :=
  match s.ctx? ctx with
  | none => none
  | some c => match s.part? c.part with
    | none => none
    | some p => (s.parts.find? fun x => x.routing == p.routing && x.exporter.isSome).bind fun x => x.exporter

/-- The cache policy of an access in a UNC region (R341): CP 3, with a pin or residency turned away. -/
def uncCp (cp : Nat) : Nat := if cp = 4 then 8 else if cp = 6 then 9 else 3

/-- An attempt to translate an access without a walk. A PEER address of another module is a place there; one of this module
is checked against the exporter's SEG.GLB and translated in the exporter's context (R189). -/
def State.tryAcc (s : State) (a : Acc) : Tried :=
  let need := a.kind.needs
  if a.places.isSome then .done a
  else if a.seg = 4 then
    let dev := a.va / 2 ^ 47 % 512
    let off := a.va % 2 ^ 47
    if dev ≠ s.out.device then .done { a with places := some ((List.range a.n).map fun i => .peer dev (off + i)) }
    else match s.exporterOf a.ctx with
      | none => .fault fcPeerUnreachable
      | some e => match s.ctx? e with
        | none => .fault fcPeerUnreachable
        | some c =>
          let g := c.segs.getD 0 Segment.zero
          if !g.valid || decide (off < g.base) || decide (g.limit < off + a.n) || (need.2 && !g.wr) then .fault fcNoMapping
          else match s.placesAt a.die a.core e true need.1 need.2 a.n off with
            | .error none => .wait
            | .error (some f) => .fault f
            | .ok (ps, _) => .done { a with places := some (ps.map .mem) }
  else match s.placesAt a.die a.core a.ctx (a.seg == 0) need.1 need.2 a.n a.va with
    | .error none => .wait
    | .error (some f) => .fault f
    | .ok (ps, unc) => .done { a with places := some (ps.map .mem), cp := if unc then uncCp a.cp else a.cp }

/-! ## Atomic buffers (R248, R249, R320) -/

/-- The application of an entry as an access. -/
def RedEntry.toAcc (e : RedEntry) (g : Group) (ctx turn : Nat) : Acc :=
  { aid := 0, gid := g.gid, iss := 0, oid := none, lane := 0, part := 0, kind := .red e.minor e.val, pc := 0, seg := e.seg,
    va := e.va, n := e.places.length, places := some e.places, stream := e.stream, ord := if e.rel then 2 else 0, scp := e.scp, cp := e.cp,
    ru := e.ru, rr := e.rr, d := 0, mask := 0, ctx := ctx, die := g.die, core := g.core, turn := turn }

/-- Where an application by a group stands among those of its core (R320): early drains of a cycle before flushes, then by quadrant and
slot, and never before an application of the group itself. -/
def State.redTurn (s : State) (g : Group) (early : Bool) : Nat :=
  ((s.mem.accs.filter fun a => a.gid == g.gid && a.kind.isRed).map fun a => a.turn).foldl max
    (s.arrival g early)

/-- The oldest `n` entries of a group's atomic buffer turned into applications, oldest first (R249, R320). -/
def State.applyReds (s : State) (gid n : Nat) (early : Bool) : State :=
  match s.group? gid with
  | none => s
  | some g =>
    let ctx := s.ctxOf g
    let turn := s.redTurn g early
    let one := fun (s : State) (e : RedEntry) =>
      { s.addAccs [{ e.toAcc g ctx turn with iss := s.nextId }] with nextId := s.nextId + 1 }
    ((g.reds.take n).foldl one s).modGroup gid fun g => { g with reds := g.reds.drop n }

/-- A flush of the oldest `n` entries at a flush point (R249). -/
def State.flushReds (s : State) (gid n : Nat) : State := s.applyReds gid n false

/-- A fence added to a group at the present point of its issue order, for the agents of a scope; `inv` marks one that invalidates the
core's L1 before the later accesses that it orders (R222). Fences with nothing left to do are dropped. -/
def State.addFence (s : State) (gid : Nat) (mask : BitVec 16) (each redOnly : Bool) (scp : Nat) (inv : Bool) : State :=
  let live := fun (f : Fence) => f.inv != 0 || (f.accs.any fun x => s.pendingBelow x.1 x.2) || s.stillOpen f.mats f.recs
  s.modGroup gid fun g =>
    { g with fences := g.fences.filter live ++
        [{ accs := [(gid, s.mem.nextAid)], at_ := s.mem.nextAid, mask := mask, each := each, redOnly := redOnly, scp := scp,
           inv := if inv then mask else 0, mats := [], recs := [] }] }

/-- What `n` names comes before the accesses of a group numbered `at_` and above, at a scope (R227); at a scope wider than CORE the first
of them invalidates L1 (R222). -/
def handOff (n : Needs) (at_ scp : Nat) : Fence :=
  { accs := n.accs, at_ := at_, mask := 0xFFFF#16, each := false, redOnly := false, scp := scp,
    inv := if 2 ≤ scp then 0xFFFF#16 else 0, mats := n.mats, recs := n.recs }

/-- A hand-off from one group to another on its core at the present point, before the receiver's later work on every path (R227). -/
def State.addHandOff (s : State) (src gid : Nat) : State :=
  let n := s.needsOf src
  s.modGroup gid fun g => { g with fences := g.fences ++ [handOff n s.mem.nextAid 1], pathNeeds := addPaths g.pathNeeds n }

end Sys2Proof.Machine
end

