-- ==== Sys2Proof/Machine/Barrier.lean ====
section
/-!
DEFINITION. Barrier records: members and slots (R401), service of arrivals and credits, completion of a phase (R403, R404,
R513), release of waiters (R406), retirement (R404), visibility of a superstep (R229).
-/
namespace Sys2Proof.Machine

/-! ## Members -/

/-- The kernel-wide index of an initial group (R188): band index × G + band-local index; none of another group. -/
def State.groupQ (s : State) (g : Group) : Option Nat :=
  match g.idx, s.band? g.band with
  | some i, some b => some (b.index * (s.launchOf g).bandGroups + i)
  | _, _ => none

/-- P_n, the groups of a unit of tier n (R401). -/
def Launch.unitGroups (l : Launch) (n : Nat) : Nat := l.countProd 1 (n + 1)

/-- The record of a barrier of a group's tier-n unit, for kernel-wide group index q (R401, R513). -/
def State.barFind (s : State) (b : Band) (l : Launch) (q tier index : Nat) : Option BarRec :=
  let p := l.unitGroups tier
  if tier ≤ l.bandTier then
    s.sync.bars.find? fun r => r.kid == b.kid && r.band == b.bid && r.tier == tier && r.index == index &&
      r.u == q % l.bandGroups / p
  else s.sync.bars.find? fun r => r.kid == b.kid && r.tier == tier && r.index == index && r.u == q / p

/-- The member slot of a group in a record (R401). -/
def BarRec.slotOf (r : BarRec) (q : Nat) : Nat := q % r.nmem / r.unitGroups / r.per

/-- The groups that a member slot covers (R401, R513). -/
def BarRec.slotSize (r : BarRec) (i : Nat) : Nat :=
  min (r.per * r.unitGroups) (r.nmem - i * (r.per * r.unitGroups))

def State.modBar (s : State) (bar : Nat) (f : BarRec → BarRec) : State :=
  s.modSync fun y => { y with bars := mapIf (fun r => r.bar == bar) f y.bars }

def State.bar? (s : State) (bar : Nat) : Option BarRec := s.sync.bars.find? fun r => r.bar == bar

/-- A group's token of a barrier (R403). -/
def State.token (s : State) (bar gid : Nat) : Token :=
  (s.sync.tokens.find? fun t => t.bar == bar && t.gid == gid).getD { bar := bar, gid := gid, token := false, pend := false }

def State.setToken (s : State) (bar gid : Nat) (token pend : Bool) : State :=
  let t : Token := { bar := bar, gid := gid, token := token, pend := pend }
  s.modSync fun y => { y with tokens := t :: y.tokens.filter (fun t => !(t.bar == bar && t.gid == gid)) }

/-! ## Service of one operation (R404) -/

/-- One member counted at its slot (R403, R513). -/
def BarRec.count1 (r : BarRec) (q : Nat) : BarRec :=
  let i := r.slotOf q
  let counts := r.counts.modify i (· + 1)
  { r with narr := r.narr + 1, counts := counts,
           mask := if counts.getD i 0 = r.slotSize i then r.mask ||| (1#64 <<< i) else r.mask }

/-- An arrival at a record (R406). -/
def BarRec.arrive (r : BarRec) (q : Nat) (step : Bool) : BarRec := { r.count1 q with stepf := r.stepf || step }

/-- A byte credit at a record (R290). -/
def BarRec.credit (r : BarRec) (n : Nat) : BarRec := { r with cbytes := min (r.cbytes + n) (2 ^ 48 - 1), credited := true }

/-- The record after a phase has completed (R404): the retired members count as arrived. -/
def BarRec.complete (r : BarRec) : BarRec :=
  let r0 := { r with overBytes := r.overBytes || decide (r.ebytes < r.cbytes), phase := !r.phase, narr := 0, mask := 0,
                     counts := List.replicate 64 0, ebytes := 0, cbytes := 0, stepf := false, credited := false }
  r.retired.foldl (fun r q => r.count1 q) r0

/-- The member groups of a record that are still resident or saved. -/
def State.members (s : State) (r : BarRec) : List Group :=
  s.groups.filter fun g =>
    match s.band? g.band, s.groupQ g with
    | some b, some q => b.kid == r.kid && (s.barFind b (s.launchOf g) q r.tier r.index).any (fun x => x.bar == r.bar)
    | _, _ => false

/-- The bytes of a GLB range as a context would read them, where its tables translate it; nothing is asked of a slice. -/
def State.peekGlb (s : State) (ctx va n : Nat) : Option (List Byte) :=
  let bs := (List.range n).filterMap fun i => (s.glbPa ctx (va + i)).map fun pa => s.readPa ctx pa
  if bs.length = n then some bs else none

/-- Whether a step-tracked record stands in the chain at an address that no engine has read yet (R229, R290); `fuel` bounds the records
looked at. -/
def State.chainSteps (s : State) (ctx : Nat) : Nat → Nat → Bool
  | 0, _ => false
  | fuel + 1, a =>
    match (if a = 0 ∨ a % 64 ≠ 0 then none else s.peekGlb ctx a 64) with
    | none => false
    | some raw => fieldAt raw 0 1 == 1 && (fieldAt raw 2 1 == 1 || s.chainSteps ctx fuel (fieldAt raw 64 64))

/-- The records of one chain that `stepVisible` looks at. -/
def chainFuel : Nat := 65536

/-- Whether a channel has a step-tracked record of one of a list of groups whose completion record is not written (R290). -/
def State.stepTracked (s : State) (c : Channel) (gids : List Nat) : Bool :=
  c.posts.any (fun p => gids.contains p.gid && s.chainSteps p.ctx chainFuel p.head) ||
  c.cur.any (fun x => gids.contains x.2.gid && s.chainSteps x.2.ctx chainFuel x.1) ||
  c.doomed.any (fun x => gids.contains x.2.1.gid && s.chainSteps x.2.1.ctx chainFuel x.1) ||
  c.recs.any (fun x => gids.contains x.post.gid && fieldAt x.raw 2 1 == 1 && x.phase != .clearing)

/-- Whether a matrix unit holds a MACCCVT, which stores to the stash, of one of a list of groups (R229). -/
def MatUnit.storesOf (u : MatUnit) (gids : List Nat) : Bool :=
  u.queue.any fun q => match q with
    | .mld op => decide (6 ≤ op.minor) && gids.contains op.gid
    | .pass _ _ _ => false

/-- Whether what the members issued before their STEP is visible (R229): their accesses and stores of MACCCVT are performed, their messages
delivered or refused, their copies with the step-tracked flag done. -/
def State.stepVisible (s : State) (r : BarRec) : Bool :=
  let gids := (s.members r).map fun g => g.gid
  !(s.mem.accs.any fun a => gids.contains a.gid) && !(s.msgs.any fun m => gids.contains m.gid) &&
  !(s.mats.any fun u => u.storesOf gids) && !(s.chans.any fun c => s.stepTracked c gids)

/-- Whether the open phase completes (R404). -/
def State.phaseDone (s : State) (r : BarRec) : Bool :=
  r.narr == r.nmem && decide (r.ebytes ≤ r.cbytes) && (!r.stepf || s.stepVisible r)

/-- An acquire at a tier's scope for a group (R222, R228, R229): the core's L1 is invalidated at a scope wider than CORE, where
the phase had byte credits, and by a STEP, whose release is an acquire on every path, that of the copies included. -/
def State.barAcquire (s : State) (g : Group) (r : BarRec) : State :=
  let scope := ((s.launchOf g).tiers.getD r.tier { count := 1, domain := 0, scope := 0 }).scope
  if 2 ≤ scope || r.credited || r.stepf then s.l1Invalidate g.die g.core else s

/-- A completion released to one member group (R404, R406): its pending arrival ends, a wait for the phase ends with an
acquire, and a second arrival that waited for the phase is made in the next one. -/
def State.releaseMember (s : State) (old : BarRec) (gid : Nat) : State :=
  match s.group? gid with
  | none => s
  | some g =>
    let t := s.token old.bar gid
    let s1 := if t.pend && t.token == old.phase then s.setToken old.bar gid t.token false else s
    match g.blocked with
    | some (.barWait b ph _) =>
      if b = old.bar ∧ (ph == 1) = old.phase then
        (s1.barAcquire g old).modGroup gid fun g => { g with blocked := none }
      else s1
    | _ => s1

/-- Messages of a group on their way to a record. -/
def State.barPending (s : State) (bar gid : Nat) : Bool :=
  s.sync.barMsgs.any fun m => match m with
    | .arrive _ b _ g _ _ => b == bar && g == gid
    | .expect _ b g _ => b == bar && g == gid
    | .credit _ _ _ => false

/-- The die of the band that holds a record (R401). -/
def State.barDie (s : State) (r : BarRec) : Nat := ((s.band? r.band).map fun b => b.die).getD 0

/-- The rank of a requester at a record (R404): groups by the order of R192, engine credits after all groups. -/
def State.barRank (s : State) (r : BarRec) (gid : Option Nat) : Nat :=
  match gid with
  | some i => ((s.group? i).map fun g => g.rankAt (s.barDie r)).getD 0
  | none => 65536

/-- Whether the turn of a requester has come at a record. -/
def State.barInTurn (s : State) (r : BarRec) (gid : Option Nat) : Bool := s.inTurn (.record r.bar) (s.barDie r) (s.barRank r gid)

/-- The turn of a requester at a record taken. -/
def State.barTake (s : State) (r : BarRec) (gid : Option Nat) : State := s.takeTurn (.record r.bar) (s.barDie r) (s.barRank r gid)

/-- Whether a group's operation reaches a record at once: the record is its own band's, live, the group's turn has come, and nothing of the group
comes before it. -/
def State.barAtOnce (s : State) (r : BarRec) (g : Group) : Bool :=
  r.band == g.band && !r.shadow && !(s.barPending r.bar g.gid) && !(s.pendingBelow g.gid s.mem.nextAid) && s.barInTurn r (some g.gid)

/-- The arrival of a group (R228, R406): its atomic buffer is flushed and its token set; `serve` makes the arrival at once, and
otherwise it is on its way until the group's accesses have been performed. -/
def State.makeArrival (s : State) (g : Group) (r : BarRec) (q : Nat) (step : Bool) (serve : State → State) : State :=
  let s1 := (s.flushReds g.gid g.reds.length).setToken r.bar g.gid r.phase true
  if s1.barAtOnce r g then serve s1
  else
    ({ s1 with nextId := s1.nextId + 1 }).modSync fun y =>
      { y with barMsgs := y.barMsgs ++ [BarMsg.arrive s1.nextId r.bar q g.gid step s1.mem.nextAid] }

/-- Second arrivals that waited for the completed phase are made in the next one (R404, R406). -/
def State.lateArrival (s : State) (bar gid : Nat) : State :=
  match s.group? gid, s.bar? bar with
  | some g, some r =>
    match g.blocked, s.groupQ g with
    | some (.barArrive b step sync), some q =>
      if b = bar then
        let s1 := s.makeArrival g r q step fun s => (s.barTake r (some gid)).modBar bar fun r => r.arrive q step
        s1.modGroup gid fun g =>
          { g with blocked := if sync then some (.barWait bar (if r.phase then 1 else 0) step) else none }
      else s
    | _, _ => s
  | _, _ => s

/-- The completion test after an operation (R404), made again after the late arrivals it lets in; `fuel` bounds the phases
that can complete in a row. -/
def State.barTest (s : State) : Nat → Nat → State
  | 0, _ => s
  | fuel + 1, bar =>
    match s.bar? bar with
    | none => s
    | some r =>
      if r.shadow then s
      else if s.phaseDone r then
        let gids := (s.members r).map fun g => g.gid
        let s1 := s.modBar bar BarRec.complete
        let s2 := gids.foldl (fun s i => s.releaseMember r i) s1
        let s3 := gids.foldl (fun s i => s.lateArrival bar i) s2
        if gids.any (fun i => match (s2.group? i).bind (fun g => g.blocked) with
          | some (.barArrive b _ _) => b == bar
          | _ => false) then s3.barTest fuel bar else s3
      else s

/-- An operation served at a record and the completion test (R404). -/
def State.barServe (s : State) (bar : Nat) (f : BarRec → BarRec) : State := (s.modBar bar f).barTest 2 bar

/-- A member group that retires counts as arrived in the open phase, if it had no arrival pending there, and in every later
phase (R404). -/
def State.barRetire (s : State) (g : Group) : State :=
  match s.band? g.band, s.groupQ g with
  | some b, some q =>
    let l := s.launchOf g
    let mine := s.sync.bars.filter fun r =>
      r.kid == b.kid && (s.barFind b l q r.tier r.index).any (fun x => x.bar == r.bar)
    mine.foldl (fun s r =>
      let t := s.token r.bar g.gid
      s.barServe r.bar fun r =>
        let r1 := if t.pend then r else r.count1 q
        { r1 with retired := r1.retired ++ [q] }) s
  | _, _ => s

end Sys2Proof.Machine
end

