-- ==== Sys2Proof/Machine/Ops.lean ====
section
/-!
DEFINITION. The shared operations of meanings: the issue of an instruction, results (R62 to R68), control transfer (R169,
R170), continuations and their homes (R39, R46, R177), parking and rollback (R51, R53), taking a trap (R367 to R370) and
returning from one (R371).
-/
namespace Sys2Proof.Machine

/-! ## Results (R62 to R68) -/

/-- The words that a replay entry captures of a lane (R370): the registers that fields A, B and D name, then D + 1 onward. -/
def Group.captured (g : Group) (w0 : W32) (l : Nat) : List W32 :=
  let w := w0.toNat
  let major := bits w 21 6
  let scalar := major == 0x20 || major == 0x21 || major == 0x22
  let rd := fun (r : Nat) => if scalar then (g.rs r).setWidth 32 else (g.lane l).rv r
  [rd (bits w 9 6), rd (bits w 3 6), rd (bits w 15 6), rd (bits w 15 6 + 1), rd (bits w 15 6 + 2), rd (bits w 15 6 + 3)]

/-- An outstanding result of the member that executes (R65, R370). -/
def Issue.outst (c : Issue) (g : Group) (s : State) (kind : OutKind) (lat : Nat) (sent : Bool) (ws : List RegWrite)
    (fs : List (Nat × BitVec 5)) (u : BitVec 32) : Outst :=
  { oid := s.nextId, kind := kind, w0 := c.w0, w1 := c.w1, pc := c.pc, mask := c.mask, lat := lat, due := s.cycleOn g.die + lat,
    sent := sent, writes := ws, flags := fs, ops := (lanesOf c.mask).map (fun l => g.captured c.w0 l), got := [], u := u }

/-- An outstanding result added to its group, named by the next free name. -/
def State.addOut (s : State) (gid : Nat) (o : Outst) : State :=
  { s.modGroup gid (fun g => { g with outs := g.outs ++ [o] }) with nextId := s.nextId + 1 }

/-- The result of a fixed-latency instruction: written `lat` cycles after the issue (R65, R66). -/
def State.postFixed (s : State) (c : Issue) (g : Group) (lat : Nat) (ws : List RegWrite) : State :=
  s.addOut c.gid (c.outst g s .fixed lat false ws [] 0)

/-- The result of a fixed-latency instruction that raises flags (R98). -/
def State.postFlags (s : State) (c : Issue) (g : Group) (lat : Nat) (ws : List RegWrite) (fs : List (Nat × BitVec 5))
    (u : BitVec 32) : State :=
  s.addOut c.gid (c.outst g s .fixed lat false ws fs u)

/-- A variable-latency result whose value is known at once, and which is written at any later time (R65, R67). -/
def State.postUnit (s : State) (c : Issue) (g : Group) (ws : List RegWrite) : State :=
  s.addOut c.gid (c.outst g s .unit 1 false ws [] 0)

/-- A variable-latency result that another unit has still to bring (R65, R67). -/
def State.postAwait (s : State) (c : Issue) (g : Group) (kind : OutKind) : State :=
  s.addOut c.gid (c.outst g s kind 1 true [] [] 0)

/-- Status() (R121): the code zero-extended in V[d] of every lane of the mask, and LSTAT. -/
def statusWrites (mask : BitVec 32) (d : Nat) (code : Nat) : List RegWrite :=
  (lanesOf mask).map (fun l => .v l d (BitVec.ofNat 32 code)) ++ [.lstat (BitVec.ofNat 3 code)]

/-- Status codes (R121). -/
def stOk : Nat := 0
def stFull : Nat := 1
def stEmpty : Nat := 2
def stRefused : Nat := 3
def stNoslot : Nat := 4
def stBusy : Nat := 5
def stTimeout : Nat := 6
def stAbsent : Nat := 7

/-- The bits of a mask that another mask names, cleared. -/
def clearMask (m x : BitVec 32) : BitVec 32 := m &&& ~~~x

/-- Lanes that have been ejected or have exited get none of the results outstanding (R67). -/
def Group.dropLanes (g : Group) (m : BitVec 32) : Group :=
  { g with outs := g.outs.map (fun o => { o with mask := clearMask o.mask m }),
           replay := g.replay.map (fun r => { r with out := { r.out with mask := clearMask r.out.mask m } }) }

/-- An outstanding result of a group by its name. -/
def Group.out? (g : Group) (oid : Nat) : Option Outst := g.outs.find? fun o => o.oid == oid

/-- The lanes that an event names for a result that lands lane by lane (R67, R164): all where it names none. -/
def State.evLanes (s : State) : BitVec 32 :=
  let m := (s.ev.words.headD 0).setWidth 32
  if m = 0 then 0xFFFFFFFF#32 else m

/-- A write of one lane's register. -/
def RegWrite.ofLane : RegWrite → Bool
  | .v _ _ _ => true | .p _ _ _ => true | .lr _ _ => true | _ => false

/-- An outstanding result written in the lanes of a mask (R67, R164): S and LSTAT come with its last lanes, and it is then gone. -/
def Group.landPart (g : Group) (o : Outst) (m : BitVec 32) : Group :=
  let rest := clearMask o.mask m
  if rest = 0 then { g.land o with outs := g.outs.filter fun x => !(x.oid == o.oid) }
  else
    { g.land { o with mask := o.mask &&& m, writes := o.writes.filter RegWrite.ofLane } with
      outs := mapIf (fun x => x.oid == o.oid) (fun x => { x with mask := rest }) g.outs }

/-- A group that enters its trap handler or is saved: results that come are kept, not written (R367, R375). -/
def Group.frozen (g : Group) : Bool := g.trapping.isSome || g.saved

/-- Whether a group's chain is executing: nothing of it is written before its members have read their operands (R62). -/
def State.inChain (s : State) (gid : Nat) : Bool := s.cur.any fun c => c.gid == gid

/-- An awaited result that has come: it is written, or kept until a later cycle while the chain that brought it executes (R62), or, while
the group enters or runs its trap handler or is saved, for its replay entry or its resumption (R367, R370, R375). -/
def State.deliver (s : State) (gid oid : Nat) (ws : List RegWrite) : State :=
  s.modGroup gid fun g =>
    match g.out? oid with
    | some o =>
      if g.frozen || s.inChain gid then
        { g with outs := mapIf (fun x => x.oid == oid) (fun x => { x with sent := false, writes := ws, due := s.cycleOn g.die + 1 }) g.outs }
      else { (g.land { o with writes := ws }) with outs := g.outs.filter fun x => !(x.oid == oid) }
    | none =>
      let f := fun (r : Replay) => { r with out := { r.out with sent := false, writes := ws } }
      { g with replay := mapIf (fun r => r.out.oid == oid) f g.replay }

/-! ## Retirement and homes (R39, R46, R177) -/

/-- The lanes of a group waiting at a JOIN for counter `n` become ACTIVE (R46). -/
def Group.wake (g : Group) (n : Nat) : Group :=
  { g with lanes := mapIf (fun l => l.st == .joinwait && l.jsel.toNat == n) (fun l => { l with st := .active }) g.lanes }

/-- A join counter lowered by one, not below 0; at 0 its waiting lanes become ACTIVE (R46). -/
def Group.payJoin (g : Group) (n : Nat) : Group :=
  let j := g.jc.getD n 0 - 1
  let g1 := { g with jc := g.jc.set n j }
  if j = 0 then g1.wake n else g1

/-- A returning continuation's effect on its home (R46): registers written back, JOINWAIT, the counter paid. -/
def Group.homeJoin (g : Group) (k : Nat) (v : List W32) (p : BitVec 8) (pc : W32) (n : Nat) : Group :=
  (g.modLane k fun l => { l with v := v, p := p, pc := pc, st := .joinwait, jsel := BitVec.ofNat 2 n }).payJoin n

/-- An exiting continuation's effect on its home (R177): the lane exits, the counter is paid. -/
def Group.homeExit (g : Group) (k j : Nat) : Group := (g.modLane k fun l => { l with st := .exited }).payJoin j

/-- Whether effects on a home group are held: it is in or entering its handler, halted or being saved (R46, R181). -/
def Group.holds (g : Group) : Bool := g.handler || g.trapping.isSome || g.dbgHalt || g.saved

/-- A group of which every lane has exited retires once its accesses have been performed (R39, R234): it counts as arrived at its barriers, its
slot becomes a continuation slot of its band, and it leaves its quadrant's order. DEDUCED (log 154): entries that its atomic buffer still
holds, as after an exit in a trap handler, are flushed first, since R234 has every RED applied. -/
def State.retire (s0 : State) (gid : Nat) : State :=
  let s := match s0.group? gid with
    | some g => if g.allExited then s0.flushReds gid g.reds.length else s0
    | none => s0
  match s.group? gid with
  | none => s
  | some g =>
    if g.allExited && !(s.mem.accs.any fun a => a.gid == gid) then
      let s1 := s.barRetire g
      let s2 := { s1 with
        groups := s1.groups.filter (fun x => !(x.gid == gid)),
        order := s1.order.filter (fun x => !(x == gid)),
        sync := { s1.sync with tokens := s1.sync.tokens.filter (fun t => !(t.gid == gid)) } }
      match g.helper with
      | some _ => s2
      | none => s2.modBand g.band fun b => { b with freeCont := b.freeCont ++ [(g.quad, g.slot, g.frame)], contEver := true }
    else s

/-- A continuation's return reaches its home at once or is held there (R46). -/
def State.sendHome (s : State) (h : Nat) (e : Held) : State :=
  match s.group? h with
  | none => s
  | some g =>
    if g.holds then s.modGroup h fun g => { g with held := g.held ++ [e] }
    else match e with
      | .join k v p pc n => s.modGroup h fun g => g.homeJoin k v p pc n
      | .exit k j => (s.modGroup h fun g => g.homeExit k j).retire h
      | .serve _ _ _ => s

/-! ## Parking and release (R51, R373) -/

/-- A firmware event of a die; a group of its firmware core that waits in IDLE goes on (R387). -/
def State.fwEvent (s : State) (die kind : Nat) (ws : List W64) : State :=
  let s1 := s.modTab fun t => { t with fwq := t.fwq ++ [{ die := die, kind := kind, words := ws }] }
  { s1 with groups := mapIf (fun g => g.die == die && g.blocked == some .idle) (fun g => { g with blocked := none }) s1.groups }

/-- One lane parked at the faulting instruction (R51). The fault, met in context `ctx`, is reported to the die's firmware and
traced. -/
def State.parkLane (s : State) (gid lane : Nat) (pc : W32) (code : Byte) (ctx va : Nat) : State :=
  match s.group? gid with
  | none => s
  | some g =>
    let s1 := s.modGroup gid fun g => { g with waitAt := s.timeNs }.modLane lane fun l =>
      { l with pc := pc, st := .parked, park := some { code := code, ctx := ctx, va := va, declined := none } }
    (s1.traceFault g code pc).fwEvent g.die code.toNat
      [BitVec.ofNat 64 ctx, BitVec.ofNat 64 va, BitVec.ofNat 64 g.core, BitVec.ofNat 64 g.gslot]

/-- The lanes of a group parked on pages in `[lo, hi)` of a context become ACTIVE (R51, R373). -/
def Group.serve (g : Group) (ctx lo hi : Nat) : Group :=
  let on := fun (l : Lane) => match l.park with
    | some p => p.ctx == ctx && decide (lo ≤ p.va) && decide (p.va < hi)
    | none => false
  { g with lanes := mapIf (fun l => l.st == .parked && on l) (fun l => { l with st := .active, park := none }) g.lanes }

/-- The bound of an ENQW or a CREC.WAIT that a trap, a halt or a save has interrupted: it begins again in full (R324). -/
def Group.renewWait (g : Group) (now : Nat) : Group :=
  match g.blocked with
  | some (.wqEnqw w _) => { g with blocked := some (.wqEnqw w (now + usToUnits 64)) }
  | some (.crecWait _) => { g with blocked := some (.crecWait (now + usToUnits 64)) }
  | _ => g

/-- Held effects applied in order, before the group's next issue (R46, R371). -/
def Group.applyHeld (g : Group) : Group :=
  let one := fun (g : Group) (e : Held) => match e with
    | .join k v p pc n => g.homeJoin k v p pc n
    | .exit k j => g.homeExit k j
    | .serve ctx lo hi => g.serve ctx lo hi
  { g.held.foldl one g with held := [] }

/-! ## Rollback (R53, R321) -/

/-- The index of the innermost idempotent entry of a region stack held outermost first. -/
def innermostIdem (r : List RgnEntry) : Option Nat :=
  (List.range r.length).reverse.find? fun i => match r[i]? with
    | some e => e.idem
    | none => false

/-- A rollback-class fault of a group (R53, R372): back to the innermost idempotent entry, or a kernel fault. What was held while a trap was
entered, which the rollback ends, takes effect (R181). -/
def State.rollback (s : State) (gid : Nat) (code : Byte) (addr : Nat) : State :=
  let wake := fun (g : Group) => if g.holds then g else g.applyHeld
  match s.group? gid with
  | none => s
  | some g =>
    let pc0 := BitVec.ofNat 32 (g.issueAddr.getD 0)
    match (if g.handler then none else innermostIdem g.rgn) with
    | none => s.groupKernelFault g code pc0 (g.maskSt fun x => x == .active) addr
    | some i =>
      match g.rgn[i]? with
      | none => s
      | some e =>
        let back := fun (l : Lane) => { l with pc := e.pc, st := .active, park := none }
        let s1 := (s.leaveQueues gid false).modGroup gid fun g =>
          { g with rgn := g.rgn.take (i + 1), outs := [], replay := [], blocked := none, trapping := none,
                   reds := if code = fcAtombufParity then g.reds.filter (fun r => decide (r.created < e.at_)) else g.reds,
                   lanes := mapIf (fun l => l.st == .active || l.st == .parked) back g.lanes }
        let keep := fun (a : Acc) => !(a.gid == gid) || a.kind.isStore || a.kind.isAtom || a.kind.isRed ||
          a.kind == .cwb || a.kind == .cwbinv
        let s2 := s1.modMem fun m => { m with accs := (m.accs.filter keep).map (fun a =>
          if a.gid == gid then { a with oid := none } else a) }
        let s3 := ((s2.traceFault g code pc0).emitGroup g 0x0A (e.pc.toNat * 256 + code.toNat)).modGroup gid wake
        s3.faultRecord (s.groupFault g code 0 e.pc (g.maskSt fun x => x == .active || x == .parked) addr)

/-! ## Trap frames (R367 to R370) -/

/-- The handler PC of a group (R367): TRAPH of its kernel, or the context's TRAPVEC; none where neither is set (R119). -/
def State.handlerPc (s : State) (g : Group) : Option W32 :=
  let vec := match s.ctx? (s.ctxOf g) with
    | some c => if c.trapvec = 0 ∨ bits c.trapvec.toNat 32 32 ≠ 0 then none else some (c.trapvec.setWidth 32)
    | none => none
  if g.firmware then vec
  else if (s.launchOf g).traph ≠ 0 then some (BitVec.ofNat 32 (s.launchOf g).traph) else vec

/-- A PCV entry as a word (R109). -/
def Lane.pcvWord (l : Lane) (pc : W32) : Nat := pc.toNat + l.st.code * 2 ^ 32 + (if l.st == .joinwait then l.jsel.toNat else 0) * 2 ^ 35

/-- An AMSG, whose status a trap does not wait for (R367, R370). -/
def Outst.isAmsg (o : Outst) : Bool := bits o.w0.toNat 21 6 == 0x36 && bits o.w0.toNat 0 3 == 1

/-- The state of an outstanding result's replay entry (R367, R370). -/
def Outst.replayState (o : Outst) : ReplayState :=
  match o.kind with
  | .fixed => .pending
  | .divide => .pending
  | _ => if o.sent then (if o.isAmsg then .awaited else .pending) else .done

def ReplayState.code : ReplayState → Nat
  | .pending => 1 | .done => 2 | .awaited => 3

/-- The bytes of a lane's area of a replay entry (R370). -/
def Replay.area (r : Replay) (l : Nat) : List Byte :=
  let pad := fun (bs : List Byte) => (bs ++ List.replicate 48 (0 : Byte)).take 48
  match r.state with
  | .awaited => pad []
  | .pending => if r.out.mask.getLsbD l then
      pad (wordBytes (r.out.ops.getD ((lanesOf r.out.mask).findIdx (fun x => x == l)) [])) else pad []
  | .done => pad (r.out.writes.flatMap fun w => match w with
      | .v k _ x => if k = l then leBytes 4 x.toNat else []
      | .s _ x => if lowLane r.out.mask = l then leBytes 8 x.toNat else []
      | _ => [])

/-- A replay entry of a frame: its 64-byte header and its lanes' areas (R370). -/
def Replay.bytes (r : Replay) : List Byte :=
  leBytes 4 r.out.w0.toNat ++ leBytes 4 r.out.w1.toNat ++ leBytes 4 r.out.pc.toNat ++ leBytes 4 r.out.mask.toNat ++
  leBytes 4 r.state.code ++ leBytes 4 r.out.u.toNat ++ List.replicate 40 0 ++ laneNos.flatMap r.area

/-- The header of a frame (R369). -/
def Group.frameHeader (g : Group) (t : TrapInfo) (nrep : Nat) : Nat :=
  t.time.toNat * 2 ^ 320 + g.cause.toNat * 2 ^ 256 + t.va.toNat * 2 ^ 192 + t.lanes.toNat * 2 ^ 160 + t.fpc.toNat * 2 ^ 128 +
  g.gst.toNat * 2 ^ 96 + (g.jc.getD 3 0 * 2 ^ 18 + g.jc.getD 2 0 * 2 ^ 12 + g.jc.getD 1 0 * 2 ^ 6 + g.jc.getD 0 0) * 2 ^ 42 +
  g.ejt * 2 ^ 38 + g.rgn.length * 2 ^ 34 + t.tcode.toNat * 2 ^ 16 + nrep * 2 ^ 10 + t.code.toNat

/-- A region-stack entry of a frame (R368). -/
def RgnEntry.word (e : RgnEntry) : Nat := e.id.toNat + (if e.idem then 4096 else 0) + e.pc.toNat * 2 ^ 32

/-- The lane-mask word of a P register in a frame (R368). -/
def Group.predWord (g : Group) (k : Nat) : Nat := (maskOf fun l => (g.lane l).p.getLsbD k).toNat

/-- The first 1,024 bytes of a frame (R368), with the PC that the frame holds for each lane. DEDUCED (log 157): R173 calls LR readable in
frames, but R368 gives it no place and has zero in the bytes it leaves, so no frame holds it. -/
def Group.frameHead (g : Group) (t : TrapInfo) (nrep : Nat) (pcOf : Nat → W32) : List Byte :=
  leBytes 64 (g.frameHeader t nrep) ++ laneNos.flatMap (fun l => leBytes 8 ((g.lane l).pcvWord (pcOf l))) ++
  (List.range 32).flatMap (fun r => leBytes 8 (g.rs r).toNat) ++ (List.range 7).flatMap (fun k => leBytes 4 (g.predWord k)) ++
  leBytes 4 0 ++ ((g.rgn.flatMap fun (e : RgnEntry) => leBytes 8 e.word) ++ List.replicate 64 0).take 64 ++ List.replicate 352 0

/-- Whether everything a group has sent has come back (R367 step 2): no read of it is in flight and no unit owes it a result,
AMSG statuses apart. -/
def State.allBack (s : State) (g : Group) : Bool :=
  !(s.mem.accs.any fun a => a.gid == g.gid && a.oid.isSome) &&
  !(g.outs.any fun o => o.sent && !o.isAmsg && !(o.kind == .fixed) && !(o.kind == .divide))

/-- Entry to the handler (R367 steps 3 to 5): the frame is written at TFP, S30 and S31 are set and every lane becomes ACTIVE
at the handler PC. A frame write that faults is a kernel fault with the trap's code. -/
def State.trapEnter (s : State) (gid : Nat) : State :=
  match s.group? gid with
  | none => s
  | some g =>
    match g.trapping, s.handlerPc g with
    | some t, some h =>
      let reps := g.outs.map fun o => { state := o.replayState, out := o : Replay }
      let head := g.frameHead t reps.length (fun l => (g.lane l).pc)
      let body := reps.flatMap Replay.bytes
      match s.writeGlb g.die g.core (s.ctxOf g) g.tfp.toNat (head ++ body) with
      | (s1, some _) => s1.groupKernelFault g t.code t.fpc t.lanes t.va.toNat
      | (s1, none) =>
        let s2 := s1.emitGroup g 0x09 (t.fpc.toNat * 256 + t.code.toNat)
        let s31 := BitVec.ofNat 64 (t.code.toNat + t.tcode.toNat * 256)
        s2.modGroup gid fun g =>
          { ((g.ws 30 g.tfp).ws 31 s31) with
            entrySt := g.lanes.map (fun l => l.st.code), entryPark := g.lanes.map (fun l => l.park), entryRgn := g.rgn.map (fun e => e.at_),
            lanes := g.lanes.map (fun l => { l with st := .active, pc := h, park := none }),
            rgn := [], outs := [], replay := reps, trapping := none, handler := true,
            sched := { g.sched with switched := false } }
    | _, _ => s

/-- A precise fault of the member that executes (R82, R365, R367, R372): the group's trap begins, and ends at once when
nothing it has sent is in flight; without a handler, or in a handler, it is a kernel fault. -/
def State.takeTrap (s : State) (c : Issue) (g : Group) (code : Byte) (tcode : BitVec 18) (va : W64) : State :=
  let s0 := { s with trapNow := some { code := code, tcode := tcode, va := va } }
  match (if g.handler then none else s.handlerPc g) with
  | none => s0.groupKernelFault g code c.pc c.mask va.toNat
  | some _ =>
    let t : TrapInfo := { code := code, tcode := tcode, va := va, fpc := c.pc, lanes := c.mask,
                          time := BitVec.ofNat 64 s.timeNs }
    let s1 := (s0.traceFault g code c.pc).modGroup c.gid fun g => { g with trapping := some t }
    if s1.allBack g then s1.trapEnter c.gid else s1

/-! ## Issue of an instruction -/

/-- A meaning of an instruction of a program: the issue latch names the group; an ill-formed instruction raises ILLEGAL
(R71, R81); otherwise it has the effect given. -/
def issue (i : Instr) (s : State) (k : Issue → Group → State) : Out :=
  match s.cur with
  | none => .fault .noIssue
  | some c =>
    match s.group? c.gid with
    | none => .fault .noIssue
    | some g => .next (if i.wf (s.regsOf g) then k c g else s.takeTrap c g fcIllegal 0 0)

/-- A meaning of an instruction of firmware mode: elsewhere it raises PRIV (R81). -/
def issuePriv (i : Instr) (s : State) (k : Issue → Group → State) : Out :=
  issue i s fun c g => if g.firmware then k c g else s.takeTrap c g fcPriv 0 0

/-- The latch changed. -/
def State.modCur (s : State) (f : Issue → Issue) : State := { s with cur := s.cur.map f }

/-! ## Control transfer (R169, R170) -/

/-- The PCs of the lanes of the mask set, and the latch told so (R62, R169). -/
def State.transfer (s : State) (c : Issue) (f : Nat → W32) : State :=
  (s.modGroup c.gid fun g => (lanesOf c.mask).foldl (fun g l => g.modLane l fun x => { x with pc := f l }) g).modCur
    fun c => { c with moved := true }

/-- The lanes of the mask stay where the instruction has put them. -/
def State.stay (s : State) : State := s.modCur fun c => { c with moved := true }

/-- Bits [1:0] of a PC that no transfer may have (R40). -/
def badPc (p : W32) : Bool := p.toNat % 4 == 3

/-! ## Return from a trap (R371) -/

/-- A lane as a frame restores it (R109, R368). -/
def Lane.restore (l : Lane) (w : Nat) (st : LaneState) (pw : Nat → Nat) (no : Nat) : Lane :=
  { l with pc := BitVec.ofNat 32 (bits w 0 32), st := st, jsel := BitVec.ofNat 2 (bits w 35 2),
           p := (maskOf fun k => k == 7 || (k < 7 && bits (pw k) no 1 == 1)).setWidth 8 }

/-- A group with PCV, S, P, GST, JC, EJT and region stack as a frame's first 672 bytes give them (R371). -/
def Group.restore (g : Group) (f : List Byte) : Group :=
  let pw := fun k => fieldAt f ((0x240 + 4 * k) * 8) 32
  let lane := fun (no : Nat) (l0 : Lane) =>
    let l := { l0 with park := g.entryPark.getD no none }
    let w := fieldAt f ((0x40 + 8 * no) * 8) 64
    match LaneState.ofCode (bits w 32 3) with
    | some st => l.restore w st pw no
    | none => l
  let rgn := fun i =>
    let w := fieldAt f ((0x260 + 8 * i) * 8) 64
    { id := BitVec.ofNat 12 (bits w 0 12), pc := BitVec.ofNat 32 (bits w 32 32), idem := bits w 12 1 == 1,
      at_ := g.entryRgn.getD i 0 : RgnEntry }
  { g with lanes := laneNos.map (fun l => lane l (g.lane l)),
           s := (List.range 32).map (fun r => if r = 0 then 0 else BitVec.ofNat 64 (fieldAt f ((0x140 + 8 * r) * 8) 64)),
           gst := BitVec.ofNat 32 (fieldAt f 96 32) &&& 0x71F#32,
           jc := (List.range 4).map (fun n => fieldAt f (42 + 6 * n) 6), ejt := fieldAt f 38 4,
           rgn := (List.range (fieldAt f 34 4)).map rgn }

/-- The values of a frame that ERET does not accept (R371). -/
def frameBad (f : List Byte) : Bool :=
  laneNos.any (fun l => decide (4 < fieldAt f ((0x40 + 8 * l) * 8 + 32) 3)) ||
  fieldAt f 38 4 == 0 || decide (8 < fieldAt f 38 4) || (List.range 4).any (fun n => decide (32 < fieldAt f (42 + 6 * n) 6)) ||
  decide (8 < fieldAt f 34 4)

/-- One replay entry applied for the lanes of a mask (R371): a DONE result is written, a PENDING one is issued again, an AWAITED one
is outstanding again. -/
def Group.replayOne (cycle : Nat) (same : BitVec 32) (g : Group) (r : Replay) : Group :=
  let o := { r.out with mask := r.out.mask &&& same }
  match r.state with
  | .done => g.land o
  | .pending => { g with outs := g.outs ++ [{ o with due := cycle + o.lat }] }
  | .awaited =>
    let g1 := o.writes.foldl (fun g w => g.apply o.mask w) g
    if o.sent then { g1 with outs := g1.outs ++ [{ o with writes := [] }] } else g1

/-- The replay entries applied at ERET (R371), for the lanes whose state is what it was at entry. A divide that is issued again takes its
place behind those accepted before (R128), under a name from `next` on. -/
def Group.replayAll (g : Group) (cycle next : Nat) : Group :=
  let same := maskOf fun l => (g.lane l).st.code == g.entrySt.getD l 4
  let again := fun (i : Nat) (r : Replay) =>
    if r.out.kind = .divide ∧ r.state = .pending then { r with out := { r.out with oid := next + i } } else r
  { (g.replay.mapIdx again).foldl (Group.replayOne cycle same) g with replay := [] }

/-- The divider of a group's quadrant occupied by `n` divides that are issued again (R69, R128). -/
def State.holdDivider (s : State) (g : Group) (n : Nat) : State :=
  if n = 0 then s
  else
    let mine := fun (b : Busy) => b.die == g.die && b.core == g.core && b.quad == g.quad && b.pipe == .none
    let from_ := (s.busy.filter mine).foldl (fun m b => max m b.until_) (s.cycleOn g.die)
    { s with busy := { die := g.die, core := g.core, quad := g.quad, pipe := .none, until_ := from_ + 8 * n } :: s.busy }

/-- Whether a group has stores that are not yet performed. -/
def State.frameStores (s : State) (g : Group) : Bool := s.mem.accs.any fun a => a.gid == g.gid && a.kind.isStore

/-- ERET (R371), in the handler. -/
def State.eret (s : State) (c : Issue) (g : Group) : State :=
  match s.readOwn g g.tfp.toNat 672 with
    | (s1, .error f) =>
      if parkCode f.1 then
        ((lanesOf c.mask).foldl (fun s l => s.parkLane c.gid l c.pc f.1 (s.ctxOf g) f.2) s1).stay
      else s1.groupKernelFault g f.1 c.pc c.mask f.2
    | (s1, .ok f) =>
      let act := fieldAt f 8 2
      if act = 1 then
        ((s1.modGroup c.gid fun g =>
          { g with lanes := g.lanes.map (fun l => { l with st := .exited }), handler := false, replay := [], outs := [], held := [] }).stay
          ).retire c.gid
      else if 2 ≤ act then s1.stay.groupKernelFault g (BitVec.ofNat 8 (fieldAt f 0 8)) c.pc c.mask 0
      else if frameBad f then s1.takeTrap c g fcIllegal 0 0
      else
        let n := (g.replay.filter fun r => r.out.kind == .divide && r.state == .pending).length
        let s2 := { s1 with nextId := s1.nextId + g.replay.length }.holdDivider g n
        (s2.modGroup c.gid fun g =>
          { (((g.restore f).replayAll (s.cycleOn g.die) s1.nextId).applyHeld.renewWait s.out.elapsed) with
            handler := false, entrySt := [], entryPark := [], entryRgn := [] }).stay.retire c.gid

end Sys2Proof.Machine
end

