-- ==== Sys2Proof/Machine/Chain.lean ====
section
/-!
DEFINITION. Issue selection: fetch (R58 to R60), eligibility (R41, R47, R316), the order and its guard (R317, R318), the stall
codes (R319, R435), the events CHAIN_ISSUE, GUARD_PROMOTE, GAP_EXPIRE and SWITCH_RELEASE.
-/
namespace Sys2Proof.Machine

/-! ## Fetch -/

/-- The next PC of an instruction of `n` words at PC `p` (R169). -/
def nextPc (p n : Nat) : Nat := if p % 4 + n ≤ 2 then p + n else 4 * (p / 4 + 1)

/-- A member of a packet as the latch holds it: its PC, its next PC and its words. -/
def memberOf (k : Nat) (w0 w1 w2 : W32) (m : Member) : W32 × W32 × W32 × W32 :=
  let wd := fun (s : Nat) => if s = 0 then w0 else if s = 1 then w1 else w2
  (BitVec.ofNat 32 (4 * k + m.slot), BitVec.ofNat 32 (nextPc (4 * k + m.slot) m.words), wd m.slot,
   if m.words = 2 then wd (m.slot + 1) else 0)

/-- The chain that stands at an address of a code object, from the member there onward (R59, R60, R62), or the fault that its
fetch raises. -/
def CodeObj.chainAt (c : CodeObj) (a : Nat) : Except Byte (List (W32 × W32 × W32 × W32)) :=
  let k := a / 4
  if c.words.length < 3 * (k + 1) then .error fcSegLimit
  else
    let w0 := c.words.getD (3 * k) 0
    let w1 := c.words.getD (3 * k + 1) 0
    let w2 := c.words.getD (3 * k + 2) 0
    match checkPacket w0.toNat w1.toNat w2.toNat with
    | none => .error fcIllegalPacket
    | some ms =>
      match (chainsOf ms).find? (fun ch => ch.any fun m => m.slot == a % 4) with
      | none => .error fcIllegalPacket
      | some ch => .ok ((ch.dropWhile fun m => !(m.slot == a % 4)).map (memberOf k w0 w1 w2))

/-- The chain that a group would issue next, with its address. -/
def State.nextChain (s : State) (g : Group) : Option (Nat × Except Byte (List (W32 × W32 × W32 × W32))) :=
  match g.issueAddr with
  | none => none
  | some a => match s.codeOf g with
    | none => some (a, .error fcSegLimit)
    | some c => some (a, c.chainAt a)

/-! ## What a chain needs -/

/-- The first words of a chain's members. -/
def chainWords (ms : List (W32 × W32 × W32 × W32)) : List Nat := ms.map fun m => m.2.2.1.toNat

/-- Whether an instruction adds an outstanding register result (R78, R370). -/
def addsResult (w : Nat) : Bool :=
  let m := bits w 21 6
  let f := bits w 0 3
  (decide (1 ≤ m) && decide (m ≤ 0x1E)) || m == 0x20 || m == 0x21 || m == 0x22 || m == 0x25 || m == 0x28 || m == 0x2A ||
  m == 0x2B || m == 0x2C || m == 0x2F || (m == 0x27 && f == 3) || (m == 0x2E && (f == 1 || f == 2)) || (m == 0x32 && f == 2) ||
  (decide (0x33 ≤ m) && decide (m ≤ 0x38)) || (m == 0x3A && f == 3) || (m == 0x3D && !(f == 0 || f == 2)) || m == 0x3E

/-- Whether an instruction takes a store-queue entry (R299, R323). -/
def takesStore (w : Nat) : Bool :=
  let m := bits w 21 6
  m == 0x29 || m == 0x2B || m == 0x2C || (m == 0x2E && (bits w 0 3 == 3 || bits w 0 3 == 5))

/-- The store-queue entries in use of a group: one for each issue with a write not yet performed (R323). -/
def State.storeEntries (s : State) (gid : Nat) : Nat :=
  ((s.mem.accs.filter fun a => a.gid == gid && (a.kind.isStore || a.kind.isAtom || a.kind == .cwb || a.kind == .cwbinv)).map
    fun a => a.iss).eraseDups.length

/-- A pipe of a group's quadrant that an earlier issue still occupies (R69). The divider is entered under its own pipe
`none`. DESIGN CHOICE (log 158): R45 and R316 give the helper unit quadrant 0's matrix unit and name no SFU pipe or divider for it; a
helper entry, which stands in quadrant 0 here, shares that quadrant's. -/
def State.pipeBusy (s : State) (g : Group) (p : Pipe) : Bool :=
  s.busy.any fun b => b.die == g.die && b.core == g.core && b.quad == g.quad && b.pipe == p && decide (s.cycleOn g.die < b.until_)

/-- An instruction of the divider (R69): minors 4 to 7 of IMUL. -/
def isDivide (w : Nat) : Bool := bits w 21 6 == 2 && decide (4 ≤ bits w 0 3)

/-- The quadrant's matrix unit that a group uses; the helper unit uses quadrant 0's (R45). -/
def Group.matQuad (g : Group) : Nat := if g.helper.isSome then 0 else g.quad

def State.mat? (s : State) (g : Group) : Option MatUnit :=
  s.mats.find? fun u => u.die == g.die && u.core == g.core && u.quad == g.matQuad

/-- The quarters of a mask: those that hold at least one of its lanes (R263). -/
def quartersOf (mask : BitVec 32) : List Nat := (List.range 4).filter fun q => bits mask.toNat (8 * q) 8 != 0

/-- Whether an MQ's quarter operations join the open pass of a unit's queue (R264): it opened at most 7 cycles ago, its key is the
MQ's, and it holds at most 16 of them then. -/
def MatUnit.joins (u : MatUnit) (cycle : Nat) (m : MatWord) (n : Nat) : Bool :=
  match u.queue.getLast? with
  | some (.pass o false qs) => decide (cycle ≤ o + 7) && decide (qs.length + n ≤ 16) && qs.length != 0 &&
      qs.all fun q => q.word.bid == m.bid && q.word.afmt == m.afmt && q.word.kb == m.kb
  | _ => false

/-- Whether the quadrant's matrix queue has room for what an instruction adds (R264, R299). -/
def State.matRoom (s : State) (g : Group) (m : W32 × W32 × W32 × W32) : Bool :=
  match s.mat? g with
  | some u => decide (u.queue.length < 8) ||
      (bits m.2.2.1.toNat 21 6 == 0x39 && u.joins (s.cycleOn g.die) (matWord m.2.2.2.toNat) (quartersOf (g.activeAt (BitVec.ofNat 32 (g.issueAddr.getD 0)))).length)
  | none => true

/-- JOIN and RECONV (R47). -/
def isJoinRec (w : Nat) : Bool := bits w 21 6 == 0x27 && (bits w 0 3 == 0 || bits w 0 3 == 1)

/-- Instructions that read memory for the group as they issue, with its earlier stores (R215, R297, R357, R371): CREC, the privileged ones with
an operand record, and ERET. -/
def readsStores (w : Nat) : Bool :=
  let m := bits w 21 6
  (m == 0x38 && decide (bits w 0 3 ≤ 2)) || m == 0x3E || (m == 0 && bits w 0 3 == 2)

/-- Whether an instruction makes accesses that are translated. -/
def translates (w : Nat) : Bool := decide (0x28 ≤ bits w 21 6) && decide (bits w 21 6 ≤ 0x2E)

/-- Whether the miss queue of a die is full (R299, R347). -/
def State.missFull (s : State) (die : Nat) : Bool := decide (1024 ≤ (s.mem.walks.filter fun w => w.die == die && !w.walking).length)

/-- Whether what a chain needs is free (R47, R69, R264, R323, R347, R370), and the stores that it must follow have been performed (R215).
DESIGN CHOICE (log 159): R47 names an issue address that is a JOIN or a RECONV; a chain that begins with another instruction and ends in one
stalls as a whole, so that its JOIN is not issued while a lane is PARKED. DESIGN CHOICE (log 160): while the miss queue is full, every chain
of the die with an access to translate waits, whether it would miss or not. -/
def State.chainFree (s : State) (g : Group) (ms : List (W32 × W32 × W32 × W32)) : Bool :=
  let ws := chainWords ms
  ws.all (fun w => !(pipeOf w == .sfu && s.pipeBusy g .sfu) && !(isDivide w && s.pipeBusy g .none) &&
    !(takesStore w && decide (32 ≤ s.storeEntries g.gid)) && !(readsStores w && s.frameStores g) && !(translates w && s.missFull g.die) &&
    !(isJoinRec w && (g.maskSt fun x => x == .parked) != 0)) &&
  (ms.all fun m => !(pipeOf m.2.2.1.toNat == .mat) || s.matRoom g m) &&
  decide (g.outs.length + (ws.filter addsResult).length ≤ 16)

/-! ## Eligibility (R316) -/

/-- Whether the clocks of a die run and are not changing (R459, R460). -/
def State.clockRuns (s : State) (die : Nat) : Bool :=
  !s.out.tripped && s.out.dies.any (fun d => d.die == die && !(d.clock == .c3) && d.change.isNone)

/-- Whether the group's band is on its core; firmware has no band. -/
def State.resident (s : State) (g : Group) : Bool :=
  match s.band? g.band with
  | some b => b.st == .resident
  | none => g.firmware

/-- A breakpoint of the context's debug session at an address (R437). -/
def State.breakAt (s : State) (g : Group) (a : Nat) : Bool :=
  s.obs.dbg.any fun d => d.ctx == s.ctxOf g && d.bps.any fun b => b.1 == (s.launchOf g).code && b.2.toNat == a

/-- Whether a group is held by nothing of its own (R316). -/
def State.unheld (s : State) (g : Group) : Bool :=
  !(g.sched.switched && !g.outs.isEmpty) && decide (g.sched.gapUntil ≤ s.cycleOn g.die) && g.blocked.isNone && g.trapping.isNone &&
  (!g.dbgHalt || g.dbgStep) && !g.saved &&
  (g.handler || g.held.isEmpty) && s.resident g && s.clockRuns g.die && !(g.firmware && s.updating g.die)

/-- Fixed results that are due and not yet written (R66). -/
def State.dueResult (s : State) (g : Group) : Bool := g.outs.any fun o => o.kind == .fixed && decide (o.due ≤ s.cycleOn g.die)

/-- Eligibility (R316). -/
def State.eligible (s : State) (g : Group) : Bool :=
  s.unheld g &&
  match s.nextChain g with
  | none => false
  | some (_, .error _) => true
  | some (a, .ok ms) => (g.dbgStep || !(s.breakAt g a)) && s.chainFree g ms

/-- The quadrant that a group issues on; the helper unit's rotation stands as a fifth (R316). -/
def Group.issueQuad (g : Group) : Nat := if g.helper.isSome then 4 else g.quad

/-- The groups of a quadrant in its order (R317). -/
def State.quadOrder (s : State) (die core quad : Nat) : List Group :=
  s.order.filterMap fun i => match s.group? i with
    | some g => if g.die == die && g.core == core && g.issueQuad == quad then some g else none
    | none => none

/-- The group that a quadrant issues (R317): promoted groups first, then the first eligible one. -/
def State.choose (s : State) (die core quad : Nat) : Option Group :=
  let gs := s.quadOrder die core quad
  match gs.find? (fun g => g.sched.promoted && s.eligible g) with
  | some g => some g
  | none => gs.find? fun g => s.eligible g

/-- Whether a quadrant may choose in this cycle: it has not issued, every result that is due has been written (R66), and every group whose
guard count has come to 224 has been promoted (R318). A group that is entering its handler or is saved writes none. The quadrants of a core issue
in ascending order within a cycle, so that what they send in one cycle stands in the order of their quadrants (R251, R314, R320, R327). -/
def State.mayChoose (s : State) (die core quad : Nat) : Bool :=
  !(s.issued.contains (die, core, quad)) &&
  (List.range quad).all (fun q => s.issued.contains (die, core, q) || (s.choose die core q).isNone) &&
  !((s.quadOrder die core quad).any fun g => (s.dueResult g && !g.frozen) || (decide (224 ≤ g.sched.guard) && !g.sched.promoted))

/-! ## Stall codes (R435) -/

/-- A group's stall code: the first row of R435 that applies. -/
def State.stallCode (s : State) (g : Group) : Nat :=
  let act := g.issueAddr.isSome
  if g.dbgHalt || g.blocked == some .halt then 15
  else if g.trapping.isSome || g.blocked == some .fwcall then 14
  else match g.blocked with
    | some (.barWait _ _ true) => 12
    | some (.barArrive _ true _) => 12
    | some (.barWait _ _ false) => 3
    | some (.barArrive _ false _) => 3
    | some (.redfOrd _ _) => 3
    | some (.sem _) => 7
    | some (.semWord _ _ _) => 7
    | some (.semFree _) => 7
    | some (.qpop _) => 5
    | some (.wqDeq _) => 5
    | some .idle => 5
    | some (.qpush _) => 6
    | some (.wqEnqw _ _) => 6
    | some .storeFull => 6
    | some .bufferFull => 6
    | some (.crecWait _) => 13
    | some .walk => 11
    | _ =>
      let ms := match s.nextChain g with
        | some (_, .ok ms) => ms
        | _ => []
      let ws := chainWords ms
      if !act && (g.maskSt fun x => x == .joinwait) != 0 then 4
      else if !act && (g.maskSt fun x => x == .parked) != 0 then 8
      else if ws.any isJoinRec && (g.maskSt fun x => x == .parked) != 0 then 8
      else if ws.any translates && s.missFull g.die then 11
      else if ms.any (fun m => pipeOf m.2.2.1.toNat == .mat && !(s.matRoom g m)) then 9
      else if (g.sched.switched && !g.outs.isEmpty) || decide (16 < g.outs.length + (ws.filter addsResult).length) then 0
      else if s.cycleOn g.die < g.sched.gapUntil || ws.any (fun w => (pipeOf w == .sfu && s.pipeBusy g .sfu) || (isDivide w && s.pipeBusy g .none)) then 1
      else if ws.any (fun w => (takesStore w && decide (32 ≤ s.storeEntries g.gid)) || (readsStores w && s.frameStores g)) then 6
      else if g.sched.gaveWay then 2
      else 10

/-! ## The events of issue -/

/-- The pipes that an issue occupies beyond its cycle (R69); a helper entry's are quadrant 0's (log 158). -/
def busyOf (cycle : Nat) (g : Group) (w : Nat) : List Busy :=
  let at_ := fun (p : Pipe) (n : Nat) => [{ die := g.die, core := g.core, quad := g.quad, pipe := p, until_ := cycle + n : Busy }]
  if bits w 21 6 == 0x19 then at_ .sfu 2 else if bits w 21 6 == 0x1A then at_ .sfu 4 else if isDivide w then at_ .none 8 else []

/-- A group's standing when it issues (R318): the guard count is cleared, and a promoted group goes to the back. DESIGN CHOICE (log 161): the
helper unit's own rotation (R316) takes its entries in turn, so that one that issues goes to the back. -/
def State.issuedBy (s : State) (g : Group) : State :=
  let s1 := s.modGroup g.gid fun g => { g with sched := { g.sched with guard := 0, promoted := false, gaveWay := false, switched := false, gapUntil := 0 } }
  if g.sched.promoted || g.helper.isSome then { s1 with order := s1.order.filter (fun x => !(x == g.gid)) ++ [g.gid] } else s1

/-- CHAIN_ISSUE (R41, R59 to R62, R316, R317): quadrant `ev.quad` of core `ev.core` of die `ev.die`, if it has not issued in
this cycle, issues the first eligible group in its order. The chain is put into the issue latch, or the fault of its fetch is
raised. The groups that stood eligible are kept for the guard and the counters (R318, R319). -/
def execChainIssue (s : State) : Out :=
  let d := s.ev.die
  let c := s.ev.core
  let q := s.ev.quad
  if !(s.mayChoose d c q) then .next s
  else match s.choose d c q with
    | none => .next s
    | some g =>
      match s.nextChain g with
      | none => .next s
      | some (a, ch) =>
        let ready := ((s.quadOrder d c q).filter fun g => s.eligible g).map fun g => ((d, c, q), g.gid)
        let s1 := { (s.issuedBy g) with issued := (d, c, q) :: s.issued, issuers := g.gid :: s.issuers, waited := s.waited ++ ready }
        let latch : Issue := { gid := g.gid, mask := g.activeAt (BitVec.ofNat 32 a), addr := BitVec.ofNat 32 a,
                               pc := BitVec.ofNat 32 a, npc := BitVec.ofNat 32 a, w0 := 0, w1 := 0, cause := g.cause,
                               moved := true, members := [] }
        match ch with
        | .error f => .next (({ s1 with cur := some latch }).takeTrap latch g f 0 0)
        | .ok ms =>
          .next { s1 with cur := some { latch with moved := false, members := ms } }

/-- GUARD_PROMOTE (R318): group `ev.id`, whose guard count has reached 224, stands ahead of all groups that are not promoted,
behind those that are; those of one cycle in the order in which they stand. -/
def execGuardPromote (s : State) : Out :=
  match s.group? s.ev.id with
  | none => .next s
  | some g =>
    let first := (s.quadOrder g.die g.core g.issueQuad).find? fun x => decide (224 ≤ x.sched.guard) && !x.sched.promoted
    if 224 ≤ g.sched.guard ∧ g.sched.promoted = false ∧ first.map (fun x => x.gid) = some g.gid then
      let s1 := s.modGroup g.gid fun g => { g with sched := { g.sched with promoted := true } }
      let isP := fun (i : Nat) => match s1.group? i with
        | some x => x.sched.promoted && !(i == g.gid)
        | none => false
      .next { s1 with order := s.order.filter isP ++ [g.gid] ++ s.order.filter (fun i => !(isP i) && !(i == g.gid)) }
    else .next s

/-- GAP_EXPIRE (R64): the gap of group `ev.id` has run out. -/
def execGapExpire (s : State) : Out :=
  .next (s.modGroup s.ev.id fun g =>
    if g.sched.gapUntil ≤ s.cycleOn g.die then { g with sched := { g.sched with gapUntil := 0 } } else g)

/-- SWITCH_RELEASE (R64): group `ev.id`, parked by a switch marker, has no register result outstanding. -/
def execSwitchRelease (s : State) : Out :=
  .next (s.modGroup s.ev.id fun g => if g.outs.isEmpty then { g with sched := { g.sched with switched := false } } else g)

/-- Whether an outstanding result may be written now: a fixed one that is due, or one whose value has come (R66, R67). -/
def Outst.ready (o : Outst) (cycle : Nat) : Bool :=
  match o.kind with
  | .fixed => decide (o.due ≤ cycle)
  | .divide => false
  | _ => !o.sent && decide (o.due ≤ cycle)

/-! ## The end of a chain and the end of a cycle -/

/-- The pipes that a chain occupies from its issue on (R69). -/
def State.occupy (s : State) (g : Group) (ws : List Nat) : State :=
  { s with busy := ws.flatMap (busyOf (s.cycleOn g.die) g) ++
      s.busy.filter fun b => !(b.die == g.die) || decide (s.cycleOn g.die < b.until_) }

/-- Whether a debugger's step over an instruction ends at its issue (R438): LAUNCH, CHAN.POST and CHAN.COLL. -/
def endsStep (w : Nat) : Bool := bits w 21 6 == 0x36 && bits w 0 3 == 0 || bits w 21 6 == 0x37 && (bits w 0 3 == 0 || bits w 0 3 == 3)

/-- A debugger's step after its chain has issued (R438): it ends at once where the chain blocks or starts other work, and otherwise when its
fixed results have been written. -/
def State.afterStep (s : State) (c : Issue) : State :=
  match s.group? c.gid with
  | none => s
  | some g =>
    if g.blocked.isSome || (chainWords c.members).any endsStep then s.emitGroup g 0x31 c.pc.toNat
    else s.modGroup c.gid fun g => { g with stepPc := some c.pc }

/-- The steps of a debugger that have ended on some dies (R438). -/
def State.endSteps (s : State) (ds : List Nat) : State :=
  let done := s.groups.filter fun g => ds.contains g.die && g.stepPc.isSome && !(g.outs.any fun o => o.kind == .fixed)
  done.foldl (fun s g => (s.modGroup g.gid fun g => { g with stepPc := none }).emitGroup g 0x31 (g.stepPc.getD 0).toNat) s

/-- The end of a chain (R62, R64): the lanes of the mask that no member moved go to the PC after the last member, and S, G and
Y take effect once. -/
def State.endChain (s : State) (ctls : List Ctl) : State :=
  match s.cur with
  | none => s
  | some c =>
    if s.trapNow.isSome then { s with cur := none, trapNow := none }
    else
      let s0 := { (s.group? c.gid).elim s (fun g => s.occupy g (chainWords c.members)) with cur := none }
      let sw := ctls.any fun x => x.s == 1
      let gap := (ctls.map fun x => x.g.toNat).foldl max 0
      let y := ctls.any fun x => x.y == 1
      let go := fun (l : Lane) => if l.st == .active && l.pc == c.addr then { l with pc := c.npc } else l
      let s1 := s0.modGroup c.gid fun g =>
        { (if c.moved then g else (lanesOf c.mask).foldl (fun g l => g.modLane l go) g) with
          dbgStep := false, waitAt := s.timeNs,
          sched := { g.sched with switched := sw && !g.outs.isEmpty, gapUntil := if gap = 0 then 0 else s.cycleOn g.die + gap + 1,
                                  gaveWay := y } }
      let s2 := match s.group? c.gid with
        | some g => if g.dbgHalt && g.dbgStep then s1.afterStep c else s1
        | none => s1
      if y then { s2 with order := s2.order.filter (fun x => !(x == c.gid)) ++ s2.order.filter (fun x => x == c.gid) } else s2

/-- One counter of a quadrant raised (R434). -/
def State.countElig (s : State) (die core quad idx : Nat) : State :=
  let is := fun (e : EligCount) => e.die == die && e.core == core && e.quad == quad && e.idx == idx
  s.modObs fun o =>
    if o.elig.any is then { o with elig := mapIf is (fun e => { e with n := (e.n + 1) % 2 ^ 64 }) o.elig }
    else { o with elig := { die := die, core := core, quad := quad, idx := idx, n := 1 } :: o.elig }

/-- The cycles in which no group was resident on a quadrant since its counters were last cleared (R434), of which `held` is the number with one. -/
def State.emptyCycles (s : State) (die held : Nat) : Nat := s.cycleOn die - assoc die 0 s.obs.eligFrom - held

/-- The groups of a quadrant that were eligible in the cycle that ends: those that stood so when it chose, or those that stand so now
where it has issued nothing (R318, R319). -/
def State.wereEligible (s : State) (q : Nat × Nat × Nat) : List Nat :=
  if s.issued.contains q then (s.waited.filter fun x => x.1 == q).map fun x => x.2
  else ((s.groups.filter fun g => (g.die, g.core, g.issueQuad) == q).filter fun g => s.eligible g).map fun g => g.gid

/-- A quadrant's counters at the end of a cycle (R319, R434): the eligible groups, what issued, and the stall code of the oldest
group. Index 50 counts the cycles in which a group is resident, from which EMPTY follows. -/
def State.countQuad (s : State) (q : Nat × Nat × Nat) : State :=
  let gs := s.groups.filter fun g => g.die == q.1 && g.core == q.2.1 && g.issueQuad == q.2.2
  let n := (s.wereEligible q).length
  let did := s.issued.contains q
  let old := gs.foldl (fun (r : Option Group) g => match r with
    | none => some g
    | some x => if g.sched.formed < x.sched.formed then some g else some x) none
  let s1 := (s.countElig q.1 q.2.1 q.2.2 (min n 8)).countElig q.1 q.2.1 q.2.2 50
  let s2 := if did then s1.countElig q.1 q.2.1 q.2.2 49 else s1
  match old with
  | none => s2
  | some g =>
    let k := s.stallCode g
    if s.issuers.contains g.gid then s2
    else if did then s2.countElig q.1 q.2.1 q.2.2 (32 + k)
    else (if k = 2 then s2 else s2.countElig q.1 q.2.1 q.2.2 (16 + k)).countElig q.1 q.2.1 q.2.2 (32 + k)

/-- The quadrants on which a group is resident. -/
def State.quads (s : State) : List (Nat × Nat × Nat) :=
  (s.groups.map fun g => (g.die, g.core, g.issueQuad)).eraseDups

/-! ## The end of a cycle and the passage of time -/

/-- One advance of a band's reuse clock (R398). -/
def Band.advance (b : Band) (now : Nat) : Band :=
  { b with rclk := b.rclk + 1, rrate := BitVec.ofNat 32 (max 1 ((7 * b.rrate.toNat + (now - b.rateAt)) / 8)), rateAt := now, adv := 0 }

/-- A band's advances of the cycle that ends (R398, R399): those asked for, the automatic one merged with them. -/
def Band.advances (b : Band) (now : Nat) : Band :=
  let n := max b.advReq (if 1024 ≤ b.adv then 1 else 0)
  { (List.range n).foldl (fun b _ => b.advance now) b with advReq := 0 }

/-- The advances of the cycle of some dies take effect at its end (R399). -/
def State.advanceBands (s : State) (ds : List Nat) : State :=
  { s with bands := s.bands.map fun b => if ds.contains b.die then b.advances (s.cycleOn b.die) else b }

/-- Every TLB entry of a context removed (R342). -/
def State.tlbDrop (s : State) (ctx : Nat) : State :=
  s.modMem fun m => { m with tlb := m.tlb.filter fun e => !(e.ctx == ctx) }

/-- Whether the clock of a die pair runs and is not changing (R459). -/
def DiePair.runs (d : DiePair) : Bool := !(d.clock == .c3) && d.change.isNone

/-- The time that passes as `n` twenty-firsts of a nanosecond do (R394): whole units of 2^-16 ns at a rate `r` parts per million off, and
what is left over. -/
def passUnits (n rem : Nat) (r : Int) : Nat × Nat :=
  let x := rem + n * 65536 * (1000000 + r).toNat
  (x / 21000000, x % 21000000)

/-- Time-outs counted on by `n` units: the time they are measured in, and the watchdogs of queues with a submission in progress (R382). -/
def State.passElapsed (s : State) (n : Nat) : State :=
  let count := fun (h : HostQ) => if h.running && h.st == .open_ then { h with wdRemain := h.wdRemain - n } else h
  { s with hqs := s.hqs.map count }.modOut fun o => { o with elapsed := o.elapsed + n }

/-- `n` twenty-firsts of a nanosecond pass (R4, R394, R396): TIME at its disciplined rate, and with it every time-out, which is not
disciplined in locked-clock mode. -/
def State.passTime (s : State) (n : Nat) : State :=
  let t := passUnits n s.out.rem s.out.rate
  let e := if s.out.locked then passUnits n s.out.remE 0 else (t.1, s.out.remE)
  (s.passElapsed e.1).modOut fun o => { o with time := o.time + t.1, rem := t.2, remE := e.2 }

/-- One cycle of the clock of some dies ends; on every other running die `n` twenty-firsts of its cycle have passed. -/
def State.turnDies (s : State) (ds : List Nat) (n : Nat) : State :=
  let turn := fun (d : DiePair) =>
    if ds.contains d.die then { d with cycle := d.cycle + 1, left := d.clock.period, now := s.out.time }
    else if d.runs then { d with left := d.left - n } else d
  s.modOut fun o => { o with dies := o.dies.map turn }

end Sys2Proof.Machine
end

