-- ==== Sys2Proof/Machine/Operands.lean ====
section
/-!
DEFINITION. The operand forms: lanes of an issue, V, P and S operands, immediates, pairs, predicates (R62, R70, R71, R122,
R144, R164, R170), and the results each form posts.
-/
namespace Sys2Proof.Machine

/-- The writes that each lane of the mask makes, in ascending lane order. -/
def lanesDo (mask : BitVec 32) (f : Nat → List RegWrite) : List RegWrite := (lanesOf mask).flatMap f

/-- A sign-extended immediate as a 32-bit operand. -/
def immS {n : Nat} (i : BitVec n) : W32 := i.signExtend 32

/-- A zero-extended immediate as a 32-bit operand. -/
def immZ {n : Nat} (i : BitVec n) : W32 := i.setWidth 32

/-- The pair V[r + 1]:V[r] of a lane, the low word in V[r] (R74). -/
def Lane.pair (l : Lane) (r : Nat) : Nat := (l.rv r).toNat + (l.rv (r + 1)).toNat * 2 ^ 32

/-- The predicate of a format B or BJ word in a lane (R170). -/
def Lane.cond (l : Lane) (k : BitVec 4) : Bool := (l.rp (k.toNat % 8)) != k.getLsbD 3

/-- A form that writes V[D] of each lane from V[A], V[B] and V[D], all as they stand before the chain (R122). -/
def formVVV (i : Instr) (lat : Nat) (d a b : BitVec 6) (f : W32 → W32 → W32 → W32) (s : State) : Out :=
  issue i s fun c g => s.postFixed c g lat <| lanesDo c.mask fun l =>
    [.v l d.toNat (f ((g.lane l).rv a.toNat) ((g.lane l).rv b.toNat) ((g.lane l).rv d.toNat))]

/-- A form that writes V[D] of each lane from V[A] (R122). -/
def formVV (i : Instr) (lat : Nat) (d a : BitVec 6) (f : W32 → W32) (s : State) : Out :=
  issue i s fun c g => s.postFixed c g lat <| lanesDo c.mask fun l => [.v l d.toNat (f ((g.lane l).rv a.toNat))]

/-- A form that writes V[D] of each lane with a value of its own (R122). -/
def formV (i : Instr) (lat : Nat) (d : BitVec 6) (f : Issue → Group → Nat → W32) (s : State) : Out :=
  issue i s fun c g => s.postFixed c g lat <| lanesDo c.mask fun l => [.v l d.toNat (f c g l)]

/-- A form that writes P[D] of each lane with a value of its own (R136). -/
def formP (i : Instr) (lat : Nat) (d : Nat) (f : Issue → Group → Nat → Bool) (s : State) : Out :=
  issue i s fun c g => s.postFixed c g lat <| lanesDo c.mask fun l => [.p l d (f c g l)]

/-- A form that writes S[D] once per issue (R122, R144). -/
def formS (i : Instr) (lat : Nat) (d : BitVec 6) (f : Issue → Group → W64) (s : State) : Out :=
  issue i s fun c g => s.postFixed c g lat [.s d.toNat (f c g)]

end Sys2Proof.Machine
end

