-- ==== Sys2Proof/Machine/Bins.lean ====
section
/-!
DEFINITION. The continuation pool, the bins and the scalar helper unit (R42 to R45, R48, R314): records, their bins, and the
groups that run them.
-/
namespace Sys2Proof.Machine

/-! ## The pool -/

/-- A lane that still runs a record: one that is not home and has not exited. In a handler its state is that of the frame. -/
def Group.runs (g : Group) (l : Nat) : Bool :=
  !((g.lane l).origin == .home) && !(if g.handler then g.entrySt.getD l 4 == 4 else (g.lane l).st == .exited)

/-- A held effect of a continuation, which keeps its pool record (R181). -/
def Held.keepsRecord : Held → Bool
  | .serve _ _ _ => false
  | _ => true

/-- The pool records of a core in use (R14, R42, R181): waiting ones, the threads that run, and those whose effects are held. -/
def State.poolUsed (s : State) (die core : Nat) : Nat :=
  (s.pool.filter fun r => r.die == die && r.core == core && !r.saved).length +
  ((s.groups.filter fun g => g.die == die && g.core == core && !(s.bandSt g.band == some .saved)).map fun g =>
    (laneNos.filter g.runs).length + (g.held.filter Held.keepsRecord).length).sum

/-- Whether a core's pool has `n` free records of its 2,048 (R14). -/
def State.poolHas (s : State) (die core n : Nat) : Bool := decide (s.poolUsed die core + n ≤ 2048)

/-! ## Bins (R43) -/

def State.binAt (s : State) (die core b : Nat) : Option Bin :=
  s.bins.find? fun x => x.die == die && x.core == core && x.bin == b

/-- Whether a bin takes a record of a band: it is empty, or holds the band with fewer than 32 records and does not fire. -/
def State.binTakes (s : State) (die core band b : Nat) : Bool :=
  match s.binAt die core b with
  | none => true
  | some x => x.recs.isEmpty || (x.band == band && decide (x.recs.length < 32) && !x.firing)

/-- The bin that a record of a PC and band enters: its key bin, or the next in ascending order that takes it. -/
def State.binFor (s : State) (die core band : Nat) (pc : W32) : Option Nat :=
  ((List.range 64).map fun i => (pc.toNat / 4 + i) % 64).find? fun b => s.binTakes die core band b

/-- A record put into a bin; a bin that was empty starts its timer. -/
def State.binPut (s : State) (die core band b rid : Nat) : State :=
  let s1 := { s with pool := mapIf (fun r => r.rid == rid) (fun r => { r with place := .bin b }) s.pool }
  let is := fun (x : Bin) => x.die == die && x.core == core && x.bin == b
  let put := fun (x : Bin) =>
    if x.recs.isEmpty then { x with recs := [rid], band := band, timerFrom := s.cycleOn die, firing := false }
    else { x with recs := x.recs ++ [rid] }
  match s.binAt die core b with
  | some _ => { s1 with bins := mapIf is put s1.bins }
  | none =>
    { s1 with bins := s1.bins ++
        [{ die := die, core := core, bin := b, band := band, recs := [rid], timerFrom := s.cycleOn die, firing := false }] }

/-- A record that enters a bin if one takes it, and waits in the pool otherwise (R43). -/
def State.enterBin (s : State) (r : PoolRec) : State :=
  match s.binFor r.die r.core r.band r.pc with
  | some b => s.binPut r.die r.core r.band b r.rid
  | none => s

/-- A new record in the pool. It enters a bin at the end of its cycle (R314). -/
def State.newRecord (s : State) (r : PoolRec) : State :=
  { s with pool := s.pool ++ [{ r with rid := s.nextId, place := .waiting, saved := false }], nextId := s.nextId + 1 }

/-- A record that waits for a bin, of an earlier cycle than the present one. -/
def PoolRec.waits (r : PoolRec) : Bool := r.place == .waiting && !r.saved && r.at_.isNone

/-- POOL_RECORD_ENTER_BIN (R43): the first record of core `ev.core` of die `ev.die`, in arrival order, that waits and for which
a bin qualifies enters it. -/
def execPoolRecordEnterBin (s : State) : Out :=
  let can := fun (r : PoolRec) => r.die == s.ev.die && r.core == s.ev.core && r.waits && (s.binFor r.die r.core r.band r.pc).isSome
  match s.pool.find? can with
  | some r => .next (s.enterBin r)
  | none => .next s

/-- The records of the present cycle of some dies enter their bins, those of groups by quadrant, slot and lane and the others behind them, after
the records that wait (R314). -/
def State.enterBins (s : State) (ds : List Nat) : State :=
  let new := fun (r : PoolRec) => ds.contains r.die && r.at_.isSome
  let come := (sortBy (fun r => r.at_.getD 0) (s.pool.filter new)).map fun r => { r with at_ := none }
  let s1 := { s with pool := s.pool.filter (fun r => !(new r)) ++ come }
  (s1.pool.filter fun r => ds.contains r.die && r.waits).foldl (fun s r => s.enterBin r) s1

/-! ## Groups that run records (R44, R45) -/

/-- A lane that runs a record (R44, R48, R49). -/
def PoolRec.lane (r : PoolRec) : Lane :=
  { v := r.v, p := r.p ||| 0x80, lr := 0, pc := r.pc, st := .active, jsel := 0, origin := r.origin, coord := r.coord, pq := r.pq,
    pl := r.pl, park := none }

/-- An unused lane of such a group. -/
def unusedLane (regs : Nat) : Lane := { Lane.empty with v := List.replicate regs 0 }

/-- EJT and GST of a group that runs a record (R44): those of its home group, or 4 and 0. DESIGN CHOICE (log 164): of a record that goes to
the helper unit they are read when the unit starts it. -/
def State.homeCtl (s : State) (r : PoolRec) : Nat × W32 :=
  match r.origin with
  | .cont h _ _ => match s.group? h with
    | some g => (g.ejt, g.gst)
    | none => (4, 0)
  | _ => (4, 0)

/-- The initial standing of a group in issue. -/
def Sched.new (cycle : Nat) : Sched :=
  { switched := false, gapUntil := 0, gaveWay := false, guard := 0, promoted := false, formed := cycle }

/-- The group that runs records `rs`, the oldest first, at a quadrant and slot or helper entry, with a frame of its band
(R44, R45, R368, R427). -/
def State.recGroup (s : State) (b : Band) (rs : List PoolRec) (quad slot frame : Nat) (helper : Option Nat) : Group :=
  let regs := match s.kernel? b.kid with
    | some k => k.launch.regs
    | none => 0
  let lanes := rs.map PoolRec.lane
  let (ejt, gst) := match rs.head? with
    | some r => s.homeCtl r
    | none => (4, 0)
  { gid := s.nextId, band := b.bid, die := b.die, core := b.core, quad := quad, slot := slot, helper := helper, idx := none,
    frame := frame, lanes := lanes ++ List.replicate (32 - lanes.length) (unusedLane regs), s := List.replicate 32 0,
    jc := [0, 0, 0, 0], ejt := ejt, gst := gst, rgn := [],
    cause := match rs.head? with
      | some r => r.cause
      | none => 0,
    tfp := BitVec.ofNat 64 (b.frameBase + 33792 * frame), timeLatch := none, outs := [], reds := [],
    fences := rs.map (fun r => handOff r.needs 0 r.scp), pathNeeds := rs.foldl (fun l r => addPaths l r.needs) [],
    sched := Sched.new (s.cycleOn b.die), blocked := none, trapping := none, handler := false, replay := [], entrySt := [], entryPark := [],
    entryRgn := [], held := [], dbgHalt := false, dbgStep := false, stepPc := none, saved := false, redRound := [], waitAt := s.timeNs, dbgFrom := none }

/-- A group added at the back of its quadrant's order (R317), its records taken from the pool. -/
def State.addRecGroup (s : State) (g : Group) (rids : List Nat) : State :=
  { s with groups := s.groups ++ [g], order := s.order ++ [g.gid], nextId := s.nextId + 1,
           pool := s.pool.filter fun r => !(rids.contains r.rid) }

/-- The records of a bin in arrival order. -/
def State.binRecs (s : State) (x : Bin) : List PoolRec := x.recs.filterMap fun i => s.pool.find? fun r => r.rid == i

/-- A bin emptied; its timer stops. -/
def State.binClear (s : State) (x : Bin) : State :=
  { s with bins := s.bins.filter fun y => !(y.die == x.die && y.core == x.core && y.bin == x.bin) }

/-- The continuation slot that a firing bin takes: the lowest free one of its quadrant (R37). DESIGN CHOICE (log 165): the spec does not say
which quadrant; it is that of the slot that has been free the longest. -/
def Band.contSlot (b : Band) : Option (Nat × Nat × Nat) :=
  match b.freeCont with
  | [] => none
  | f :: _ => (sortBy (fun x => x.2.1) (b.freeCont.filter fun x => x.1 == f.1)).head?

/-- A bin fires as a group (R44) when a continuation slot of its band, which must be on its core, is free. -/
def State.binFire (s : State) (x : Bin) : State :=
  match s.band? x.band with
  | none => s
  | some b =>
    match b.st, b.contSlot with
    | .resident, some f =>
      let rs := s.binRecs x
      let s1 := (s.addRecGroup (s.recGroup b rs f.1 f.2.1 f.2.2 none) x.recs).binClear x
      s1.modBand b.bid fun b => { b with freeCont := b.freeCont.erase f }
    | _, _ => s

/-- Whether a bin waits only for a slot: it is full, or its timer has expired. -/
def Bin.full (x : Bin) : Bool := decide (32 ≤ x.recs.length) || (x.firing && !x.recs.isEmpty)

/-- The length of the timer of a bin (R43, R314). -/
def State.binTimer (s : State) (x : Bin) : Nat :=
  match (s.band? x.band).bind fun b => s.ctx? b.ctx with
  | some c => c.binTimer
  | none => 2048

/-- Whether a bin's timer has run its length and it has not yet fired for that. -/
def State.binExpired (s : State) (x : Bin) : Bool :=
  !x.recs.isEmpty && !x.full && decide (x.timerFrom + s.binTimer x ≤ s.cycleOn x.die)

/-- Whether a bin fires now: its timer has expired, or it is full and its band has a free slot. -/
def State.binGoes (s : State) (x : Bin) : Bool :=
  s.binExpired x || (x.full && (s.band? x.band).any fun b => b.st == .resident && !b.freeCont.isEmpty)

/-- Whether a bin of lower index of the same core fires before a bin (R314). -/
def State.binAfter (s : State) (x : Bin) : Bool :=
  s.bins.any fun y => y.die == x.die && y.core == x.core && decide (y.bin < x.bin) && s.binGoes y

/-- BIN_FIRE (R44): bin `ev.sub` of core `ev.core`, which is full or whose timer has expired, fires once a slot is free and no bin of lower
index fires before it. -/
def execBinFire (s : State) : Out :=
  match s.binAt s.ev.die s.ev.core s.ev.sub with
  | some x => .next (if x.full && !(s.binAfter x) then s.binFire x else s)
  | none => .next s

/-- The helper entries of a core in use. -/
def State.helperBusy (s : State) (die core : Nat) : List Nat :=
  s.groups.filterMap fun g => 
    if g.die == die && g.core == core && !(s.bandSt g.band == some .saved || s.bandSt g.band == some .restored) &&
      !(g.saved && s.bandSt g.band == some .resident) then g.helper else none

/-- The records that a helper unit holds (R45). -/
def State.helperHeld (s : State) (die core : Nat) : Nat :=
  (s.pool.filter fun r => r.die == die && r.core == core && r.place == .helperQueue && !r.saved).length +
  (s.helperBusy die core).length

/-- The records of a bin handed to the helper unit, behind those that wait there (R44, R314). -/
def State.binHelp (s : State) (x : Bin) : State :=
  let mine := fun (r : PoolRec) => x.recs.contains r.rid
  let sent := (s.pool.filter mine).map fun r => { r with place := .helperQueue }
  { s with pool := s.pool.filter (fun r => !(mine r)) ++ sent }.binClear x

/-- A bin whose timer has run its length fires (R44): to the helper unit when it holds no more than 4 records and there is room, and otherwise
as a group. -/
def State.binExpire (s : State) (x : Bin) : State :=
  if decide (x.recs.length ≤ 4) && decide (s.helperHeld x.die x.core + x.recs.length ≤ 256) then s.binHelp x
  else
    let is := fun (y : Bin) => y.die == x.die && y.core == x.core && y.bin == x.bin
    let x1 := { x with firing := true }
    { s with bins := mapIf is (fun _ => x1) s.bins }.binFire x1

/-- BIN_TIMER_EXPIRE (R44, R314): bin `ev.sub` of core `ev.core`, whose timer has run its length, fires, unless one of lower index fires
before it. -/
def execBinTimerExpire (s : State) : Out :=
  match s.binAt s.ev.die s.ev.core s.ev.sub with
  | none => .next s
  | some x => .next (if s.binExpired x && !(s.binAfter x) then s.binExpire x else s)

/-- The bins of some dies that fire in the cycle that ends do so, in ascending index (R314). -/
def State.fireBins (s : State) (ds : List Nat) : State :=
  let one := fun (s : State) (x : Bin) => match s.binAt x.die x.core x.bin with
    | some x => if s.binExpired x then s.binExpire x else if x.full then s.binFire x else s
    | none => s
  (sortBy (fun x => x.bin) (s.bins.filter fun x => ds.contains x.die)).foldl one s

/-- A saved helper entry given an entry (R376): its GSLOT and its frame follow, and the frame's content moves if the entry is another. -/
def State.rehome (s : State) (g : Group) (b : Band) (e : Nat) : State :=
  let l := match s.kernel? b.kid with
    | some k => k.launch
    | none => Launch.empty
  let f := l.bandGroups + l.cont + e
  let tfp := BitVec.ofNat 64 (b.frameBase + 33792 * f)
  let s1 := if g.tfp = tfp then s
    else match s.readGlb b.die b.core b.ctx g.tfp.toNat 33792 with
      | (s1, .ok bs) => (s1.writeGlb b.die b.core b.ctx tfp.toNat bs).1
      | (s1, .error _) => s1
  s1.modGroup g.gid fun g => { g with helper := some e, frame := f, tfp := tfp }

/-- The end of a save for a group (R371, R375, R391): results that came are written, those of the pipes and the divider are issued again, the
divides under names from `next` on, and effects held meanwhile are applied unless its handler or a halt still holds them. -/
def Group.thaw (g : Group) (cycle next : Nat) : Group :=
  let reps := g.outs.map fun o => { state := o.replayState, out := o : Replay }
  let again := fun (i : Nat) (r : Replay) =>
    if r.out.kind = .divide ∧ r.state = .pending then { r with out := { r.out with oid := next + i } } else r
  let g1 := { (reps.mapIdx again).foldl (Group.replayOne cycle 0xFFFFFFFF#32) { g with outs := [] } with saved := false, sched := { g.sched with gapUntil := 0 } }
  if g1.holds then g1 else g1.applyHeld

/-- A saved group goes on (R391), at the back of its quadrant's order (R317). -/
def State.thaw (s : State) (gid : Nat) : State :=
  match s.group? gid with
  | none => s
  | some g =>
    let n := (g.outs.filter fun o => o.kind == .divide && o.replayState == .pending).length
    let s1 := ({ s with nextId := s.nextId + g.outs.length }.modGroup gid fun g => (g.thaw (s.cycleOn g.die) s.nextId).renewWait s.out.elapsed).holdDivider g n
    { s1 with order := s1.order.filter (fun i => !(i == gid)) ++ [gid] }.retire gid

/-- HELPER_START (R45, R376): the helper unit of core `ev.core` starts, in its lowest free entry of 8, a resumed entry that waits for one,
or else its oldest queued record. -/
def execHelperStart (s : State) : Out :=
  let d := s.ev.die
  let c := s.ev.core
  let up := fun (r : PoolRec) => r.die == d && r.core == c && r.place == .helperQueue && !r.saved &&
    (match s.band? r.band with
      | some b => b.st == .resident
      | none => false)
  let back := s.groups.find? fun g => g.die == d && g.core == c && g.helper.isSome && g.saved && s.bandSt g.band == some .resident
  match back, s.pool.find? up, (List.range 8).find? (fun e => !((s.helperBusy d c).contains e)) with
  | some g, _, some e => match s.band? g.band with
    | some b => .next ((s.rehome g b e).thaw g.gid)
    | none => .next s
  | none, some r, some e =>
    match s.band? r.band with
    | none => .next s
    | some b =>
      let l := match s.kernel? b.kid with
        | some k => k.launch
        | none => Launch.empty
      .next (s.addRecGroup (s.recGroup b [r] 0 0 (l.bandGroups + l.cont + e) (some e)) [r.rid])
  | _, _, _ => .next s

end Sys2Proof.Machine
end

