-- ==== Sys2Proof/Machine/Slice.lean ====
section
/-!
DEFINITION. Line metadata and the slices (R192, R197 to R211): declared reuse, lapse, victims, trials, pins, the service of a
slice's requests, and the fill of L1.
-/
namespace Sys2Proof.Machine

/-! ## Declared reuse (R76, R204, R205) -/

/-- The declaration of an access put into a line's metadata (R204). -/
def LineMeta.declare (m : LineMeta) (now : Nat) (d : Option Nat) : LineMeta :=
  match d with
  | some x => { m with dl := (now + x) % 4096, delta := x, nr := false, lap := false }
  | none => { m with dl := now, delta := 0, nr := true, lap := false }

/-- p of R205. -/
def LineMeta.past (m : LineMeta) (now : Nat) : Nat := (now + 4096 - m.dl) % 4096
/-- Whether a line is lapsed (R205). -/
def LineMeta.lapsed (m : LineMeta) (now : Nat) : Bool :=
  !m.nr && (m.lap || (decide (m.delta < m.past now) && decide (m.past now < 2048)))
/-- The lapse age a (R205). -/
def LineMeta.lapseAge (m : LineMeta) (now : Nat) : Nat := min 1024 ((m.past now + 4096 - m.delta) % 4096)
/-- The remaining time r (R205). -/
def LineMeta.remaining (m : LineMeta) (now : Nat) : Nat :=
  let r := (m.dl + 4096 - now) % 4096
  if r < 2048 then r else 0

/-- The sweep of one line (R205): LAP records its lapse, and DL is kept from wrapping. -/
def LineMeta.sweep (m : LineMeta) (now : Nat) : LineMeta :=
  if m.lapsed now then
    if 1024 ≤ m.lapseAge now then { m with lap := true, dl := (now + 8192 - m.delta - 1024) % 4096 } else { m with lap := true }
  else m

/-! ## Victims (R206, R209) -/

/-- The rank of a candidate for eviction (R206): lapsed lines by age, then NR lines, then by remaining time; ties to the
greatest AGE, then to the lowest way. -/
def CacheLine.rank (l : CacheLine) (now : Nat) : Nat :=
  let m := l.md
  let step := if m.lapsed now then 2 else if m.nr then 1 else 0
  let x := if m.lapsed now then m.lapseAge now else if m.nr then 0 else m.remaining now
  ((step * 4096 + x) * 16 + m.age) * 16 + (15 - l.way)

/-- The lines of one set. -/
def MemState.setLines (m : MemState) (level : Level) (die unit set : Nat) : List CacheLine :=
  m.lines.filter fun l => l.level == level && l.die == die && l.unit == unit && l.set == set

/-- The lowest way of a set that no line holds. -/
def freeWay (ls : List CacheLine) (ways : Nat) : Option Nat :=
  (List.range ways).find? fun w => !(ls.any fun l => l.way == w)

/-- The candidate that ranks first. -/
def bestVictim (ls : List CacheLine) (now : Nat) : Option CacheLine :=
  ls.foldl (fun r l => match r with
    | none => some l
    | some x => if x.rank now < l.rank now then some l else some x) none

/-- A context's residency quota (R209). -/
def State.quotaOf (s : State) (ctx : Nat) : Nat :=
  match s.ctx? ctx with
  | some c => c.quota
  | none => 16

/-- The candidates of R209 in a set of a slice. -/
def State.candidates (s : State) (ls : List CacheLine) (ctx : Nat) : List CacheLine :=
  let held := fun (c : Nat) => (ls.filter fun l => l.md.ctx == c).length
  ls.filter fun l => !l.md.pin && (l.md.ctx == ctx || decide (s.quotaOf l.md.ctx < held l.md.ctx))

/-! ## Lines -/

/-- Whether two records are one line. -/
def CacheLine.same (l k : CacheLine) : Bool :=
  l.level == k.level && l.die == k.die && l.unit == k.unit && l.set == k.set && l.way == k.way

/-- A line changed. -/
def State.modLine (s : State) (l : CacheLine) (f : CacheLine → CacheLine) : State :=
  s.modMem fun m => { m with lines := mapIf (fun k => k.same l) f m.lines }

/-- A line removed. -/
def State.dropCacheLine (s : State) (l : CacheLine) : State :=
  s.modMem fun m => { m with lines := m.lines.filter fun k => !(k.same l) }

/-- A line that holds line number `line` at a slice. -/
def MemState.slLine (m : MemState) (level : Level) (die site line : Nat) : Option CacheLine :=
  m.lines.find? fun l => l.level == level && l.die == die && l.unit == site && l.line == line

/-- A counter of a cache raised: bypass, or refused pins (R185, R210, R211). -/
def State.countCache (s : State) (level : Level) (die unit : Nat) (refused : Bool) : State :=
  let is := fun (c : CacheCount) => c.level == level && c.die == die && c.unit == unit
  let up := fun (c : CacheCount) => if refused then { c with refused := c.refused + 1 } else { c with bypass := c.bypass + 1 }
  s.modMem fun m =>
    if m.counts.any is then { m with counts := mapIf is up m.counts }
    else { m with counts := up { level := level, die := die, unit := unit, bypass := 0, refused := 0 } :: m.counts }

/-! ## Trials (R208) -/

/-- The window of a context on a die, if 2^20 of its trials have closed there: τ changes by the kept fraction unless locked-clock mode
is on, and the count restarts. -/
def State.tauWindow (s : State) (ctx die : Nat) : State :=
  match s.ctx? ctx with
  | none => s
  | some c =>
    let t := c.trials.getD die (0, 0)
    if t.1 < 2 ^ 20 then s
    else
      let tau := c.trust.getD die 1
      let tau' := if s.out.locked then tau else if 2 * t.2 < t.1 then min 16 (2 * tau) else if 3 * t.1 ≤ 4 * t.2 then max 1 (tau / 2) else tau
      s.modCtx ctx fun c => { c with trust := c.trust.set die tau', trials := c.trials.set die (0, 0) }

/-- A trial of a context closed on a die; a window that is full is taken first. -/
def State.closeTrial (s : State) (ctx die : Nat) (kept : Bool) : State :=
  (s.tauWindow ctx die).modCtx ctx fun c =>
    { c with trials := c.trials.modify die fun t => (t.1 + 1, if kept then t.2 + 1 else t.2) }

/-- The open trials of lapsed lines in an L2 set closed as missed: the lines found lapsed (R208). -/
def State.findLapsed (s : State) (die site set : Nat) : State :=
  (s.mem.setLines .l2 die site set).foldl (fun s l =>
    if l.md.trial == 1 && l.md.lapsed (s.sliceClock die) then
      (s.modLine l fun l => { l with md := { l.md with trial := 3 } }).closeTrial l.md.ctx die false
    else s) s

/-- TAU_WINDOW (R208): the window of context `ev.id` on die `ev.die` is taken. -/
def execTauWindow (s : State) : Out := .next (s.tauWindow s.ev.id s.ev.die)

/-! ## Fills and hits of a slice -/

/-- What a request brings to a fill (R204): the sectors that it brings and those of them that are dirty (R198). -/
structure FillInfo where
  ctx : Nat
  delta : Option Nat
  trial : Bool
  secs : BitVec 4
  dirty : BitVec 4
  mscOk : Bool
  data : List Byte
deriving DecidableEq, Repr

/-- A line put into a way: the metadata of a fill, the others of its set aged (R204). Only fills of L2 open trials (R208). -/
def State.putLine (s : State) (level : Level) (die unit set way line : Nat) (f : FillInfo) : State :=
  let md : LineMeta := { ctx := f.ctx, pin := false, nr := false, lap := false, age := 0, trial := if f.trial && level == .l2 then 1 else 0,
                         delta := 0, dl := 0 }
  let l : CacheLine := { level := level, die := die, unit := unit, set := set, way := way, line := line, data := f.data,
                         filledAt := s.cycleOn die, hitAt := none, secs := f.secs, dirtySecs := f.dirty, redres := false, mscOk := f.mscOk,
                         lock := none, md := md.declare (s.sliceClock die) f.delta }
  let old := fun (k : CacheLine) => k.level == level && k.die == die && k.unit == unit && k.set == set
  let age := fun (k : CacheLine) => { k with md := { k.md with age := if k.md.age < 15 then k.md.age + 1 else k.md.age } }
  s.modMem fun m => { m with lines := l :: mapIf old age (m.lines.filter fun k => !(k.same l)) }

/-- A hit on a line (R204, R208, R211): its trial closes, the access's declaration governs it, and the sectors that the access needs or
writes are there (R198). DESIGN CHOICE (log 151): a line's CP history, which the spec names and does not define, is whether any access to
it since its fill had CP 3 (`noMsc`), which forbids its write-back to the memory-side cache. -/
def State.hitLine (s : State) (l : CacheLine) (delta : Option Nat) (secs dirty : BitVec 4) (noMsc : Bool) : State :=
  let now := s.sliceClock l.die
  let lapsed := l.md.lapsed now
  let s1 := if l.md.trial = 1 then s.closeTrial l.md.ctx l.die (!lapsed) else s
  s1.modLine l fun l =>
    { l with md := { (l.md.declare now delta) with trial := if l.md.trial = 1 then (if lapsed then 3 else 2) else l.md.trial },
             hitAt := some (s.cycleOn l.die), secs := l.secs ||| secs, dirtySecs := l.dirtySecs ||| dirty, mscOk := l.mscOk && !noMsc }

/-- A fill of the memory-side cache (R197, R206, R209); without a candidate the bypass counter rises (R211). The line, if it was
allocated, is the last component. -/
def State.fillMsc (s : State) (die site line : Nat) (f : FillInfo) : State :=
  let set := mscSet line
  let ls := s.mem.setLines .msc die site set
  match freeWay ls 16 with
  | some w => s.putLine .msc die site set w line f
  | none => match bestVictim (s.candidates ls f.ctx) (s.sliceClock die) with
    | some v => (s.dropCacheLine v).putLine .msc die site set v.way line f
    | none => s.countCache .msc die site false

/-- A request reaching the memory-side cache of a site (R197). -/
def State.atMsc (s : State) (die site line : Nat) (alloc : Bool) (f : FillInfo) : State :=
  match s.mem.slLine .msc die site line with
  | some l => s.hitLine l f.delta f.secs f.dirty false
  | none => if alloc then s.fillMsc die site line f else s

/-- Whether a line belongs to HBM (R190). -/
def hbmLine (line : Nat) : Bool := decide (line * 128 < 2 ^ 40)

/-- An L2 line evicted (R198, R208): an open trial closes as missed, dirty data goes to the memory-side cache where its history
allowed that, and to memory otherwise. DESIGN CHOICE (log 152): the spec gives no metadata for a line that a write-back puts there; it
keeps the L2 line's context, with whose candidates it is filled, and its declared distance, counted anew from the write-back. -/
def State.evictL2 (s : State) (l : CacheLine) : State :=
  let s1 := if l.md.trial = 1 then s.closeTrial l.md.ctx l.die false else s
  let s2 := s1.dropCacheLine l
  if l.dirtySecs ≠ 0 ∧ hbmLine l.line ∧ l.mscOk then
    s2.atMsc l.die l.unit l.line true
      { ctx := l.md.ctx, delta := if l.md.nr then none else some l.md.delta, trial := false, secs := l.dirtySecs, dirty := l.dirtySecs,
        mscOk := true, data := [] }
  else s2

/-- A fill of an L2 slice (R206, R209, R211), and whether it was allocated. -/
def State.fillL2 (s : State) (die site line : Nat) (f : FillInfo) : State × Bool :=
  let set := l2Set line
  let ls := s.mem.setLines .l2 die site set
  match freeWay ls 16 with
  | some w => (s.putLine .l2 die site set w line f, true)
  | none => match bestVictim (s.candidates ls f.ctx) (s.sliceClock die) with
    | some v => ((s.evictL2 v).putLine .l2 die site set v.way line f, true)
    | none => (s.countCache .l2 die site false, false)

/-! ## Pins (R210) -/

/-- A context's pinned-line quotas on a die (R210). -/
def State.pinQuotas (s : State) (ctx : Nat) : Nat × Nat :=
  match s.ctx? ctx with
  | some c => (c.pinQuota, c.redQuota)
  | none => (4096, 65536)

/-- Whether one more pin of a context in a set is refused (R210). -/
def State.pinRefused (s : State) (level : Level) (die site set ctx : Nat) : Bool :=
  let ls := (s.mem.setLines level die site set).filter fun l => l.md.pin
  let all := (s.mem.lines.filter fun l => l.level == level && l.die == die && l.md.pin && l.lock == some ctx).length
  decide (12 ≤ ls.length + 1) ||
  decide (s.quotaOf ctx ≤ (ls.filter fun l => l.lock == some ctx).length + 1) ||
  decide ((if level == .msc then (s.pinQuotas ctx).2 else (s.pinQuotas ctx).1) < all + 1)

/-- The L2 line of a context pinned (R210): the state and whether the pin stands. DESIGN CHOICE (log 153): a line that another context has
pinned is refused a second pin, a case that R210 does not name. -/
def State.pinL2 (s : State) (die site line ctx : Nat) : State × Bool :=
  match s.mem.slLine .l2 die site line with
  | none => (s, false)
  | some l =>
    if l.md.pin then (s, l.lock == some ctx)
    else if s.pinRefused .l2 die site l.set ctx then (s, false)
    else (s.modLine l fun l => { l with md := { l.md with pin := true }, lock := some ctx }, true)

/-- The L2 pin of a context cleared (R197, R250): the state and whether no other context's pin stood in the way. -/
def State.unpinL2 (s : State) (die site line ctx : Nat) : State × Bool :=
  match s.mem.slLine .l2 die site line with
  | none => (s, true)
  | some l =>
    if l.md.pin && !(l.lock == some ctx) then (s, false)
    else (s.modLine l fun l => { l with md := { l.md with pin := false }, lock := none }, true)

/-- The application of a CP 6 entry (R197, R210, R214, R322): the line becomes reduction-resident in the memory-side cache, or
the refused-pin counter rises and the home L2 takes it as CP 0. -/
def State.redResident (s : State) (die site line : Nat) (f : FillInfo) : State × Bool :=
  let held := s.mem.slLine .msc die site line
  match held with
  | some l =>
    if l.redres then (s.hitLine l f.delta f.secs f.dirty false, true)
    else if s.pinRefused .msc die site (mscSet line) f.ctx then (s.countCache .msc die site true, false)
    else
      let s1 := match s.mem.slLine .l2 die site line with
        | some k => if k.md.pin then s else s.evictL2 k
        | none => s
      ((s1.hitLine l f.delta f.secs f.dirty false).modLine l fun l =>
        { l with redres := true, md := { l.md with pin := true }, lock := some f.ctx }, true)
  | none =>
    if s.pinRefused .msc die site (mscSet line) f.ctx then (s.countCache .msc die site true, false)
    else
      let s1 := match s.mem.slLine .l2 die site line with
        | some k => if k.md.pin then s else s.evictL2 k
        | none => s
      let s2 := match s1.mem.slLine .msc die site line with
        | some _ => s1
        | none => s1.fillMsc die site line f
      match s2.mem.slLine .msc die site line with
      | some l => (s2.modLine l fun l =>
          { l with redres := true, secs := l.secs ||| f.secs, dirtySecs := l.dirtySecs ||| f.dirty, md := { l.md with pin := true }, lock := some f.ctx }, true)
      | none => (s2.countCache .msc die site true, false)

/-! ## The service of requests (R192, R197) -/

/-- A read or write at a slice by its cache policy (R197). A line of L2 is filled whole, from all of its sectors; what passes L2 needs only
those of the request (R198). -/
def State.sliceAccess (s : State) (r : SliceReq) (cp : Nat) (write walk : Bool) : State :=
  let set := l2Set r.line
  let s0 := s.findLapsed r.die r.site set
  let f : FillInfo := { ctx := r.ctx, delta := r.delta, trial := r.trial, secs := r.secs, dirty := if write then r.secs else 0, mscOk := true,
                        data := [] }
  let inMsc := s0.mem.slLine .msc r.die r.site r.line
  if inMsc.any (fun l => l.redres) then s0.atMsc r.die r.site r.line false f
  else
    let alloc2 := cp == 0 || cp == 1 || cp == 4 || cp == 5
    let allocM := hbmLine r.line && !walk && (alloc2 || cp == 2)
    let s1 := match s0.mem.slLine .l2 r.die r.site r.line with
      | some l => s0.hitLine l r.delta 0xF#4 f.dirty (cp == 3)
      | none =>
        if alloc2 then
          let (s2, ok) := s0.fillL2 r.die r.site r.line { f with secs := 0xF#4 }
          if walk then s2
          else s2.atMsc r.die r.site r.line allocM (if ok then { f with secs := 0xF#4, dirty := 0 } else f)
        else s0.atMsc r.die r.site r.line allocM f
    if cp = 4 then
      let (s2, ok) := s1.pinL2 r.die r.site r.line r.ctx
      if ok then s2 else s2.countCache .l2 r.die r.site true
    else if cp = 5 then (s1.unpinL2 r.die r.site r.line r.ctx).1
    else if cp = 8 then s1.countCache .l2 r.die r.site true
    else s1

/-- One request served. -/
def State.serveReq (s : State) (r : SliceReq) : State :=
  match r.op with
  | .read => s.sliceAccess r r.cp false false
  | .write => s.sliceAccess r r.cp true false
  | .walk => s.sliceAccess r 0 false true
  | .red =>
    if r.cp = 9 then (s.countCache .msc r.die r.site true).sliceAccess r 0 true false
    else if !(hbmLine r.line) then s.sliceAccess r 0 true false
    else
      let f : FillInfo := { ctx := r.ctx, delta := r.delta, trial := false, secs := r.secs, dirty := r.secs, mscOk := true, data := [] }
      let (s1, ok) := s.redResident r.die r.site r.line f
      if ok then s1 else s1.sliceAccess r 0 true false

/-- Whether two requests go to one set of the L2 slice or of the memory-side cache slice of a site (R192). -/
def SliceReq.sameSet (r q : SliceReq) : Bool :=
  r.die == q.die && r.site == q.site && (l2Set r.line == l2Set q.line || mscSet r.line == mscSet q.line)

/-- SLICE_SERVE_REQUEST (R192): request `ev.id` is served, if it stands first among those that wait for its sets. -/
def execSliceServeRequest (s : State) : Out :=
  match s.mem.reqs.find? (fun r => r.rid == s.ev.id) with
  | none => .next s
  | some r =>
    if s.mem.reqs.find? (fun q => q.sameSet r) = some r then
      .next ((s.modMem fun m => { m with reqs := m.reqs.filter fun x => !(x.rid == r.rid) }).serveReq r)
    else .next s

/-- The requests that wait at the site of a line served in order, before one whose answer is needed at once. -/
def State.drainSet (s : State) (line : Nat) : State :=
  let here := fun (q : SliceReq) => q.die == homeDie (line * 128) && q.site == homeSite line
  (s.mem.reqs.filter here).foldl (fun s q => s.serveReq q) (s.modMem fun m => { m with reqs := m.reqs.filter fun q => !(here q) })

/-- The lines of a die that `p` picks swept (R205): one that has been hit in this cycle was swept before the hit, which undid it (R192). -/
def State.sweepLines (s : State) (die : Nat) (p : CacheLine → Bool) : State :=
  let is := fun (l : CacheLine) => l.die == die && p l && !(l.hitAt == some (s.cycleOn die))
  s.modMem fun m => { m with lines := mapIf is (fun l => { l with md := l.md.sweep (s.sliceClock die) }) m.lines }

/-- SLICE_SWEEP (R205, R208): set `ev.sub` of site `ev.core` of die `ev.die` is swept; `ev.quad` is 1 for its memory-side cache. -/
def execSliceSweep (s : State) : Out :=
  let level := if s.ev.quad = 1 then Level.msc else Level.l2
  let s1 := if s.ev.quad = 1 then s else s.findLapsed s.ev.die s.ev.core s.ev.sub
  .next (s1.sweepLines s.ev.die fun l => l.level == level && l.unit == s.ev.core && l.set == s.ev.sub)

/-- Every set of the slices of a die swept (R205, R208). -/
def State.sweepDie (s : State) (die : Nat) : State :=
  let sets := ((s.mem.lines.filter fun l => l.level == .l2 && l.die == die && l.md.trial == 1).map fun l => (l.unit, l.set)).eraseDups
  (sets.foldl (fun s x => s.findLapsed die x.1 x.2) s).sweepLines die fun l => !(l.level == .l1)

/-! ## L1 -/

/-- The L1 set of a line (R185). -/
def l1Set (line : Nat) : Nat := line % 128

/-- A usable L1 copy for a context: present with contents and not older than 65,536 cycles (R215). -/
def State.l1Hit (s : State) (die core ctx line : Nat) : Option CacheLine :=
  match s.mem.l1Find die core line with
  | some l => if l.data.isEmpty || !(l.md.ctx == ctx) || decide (l.filledAt + 65536 ≤ s.cycleOn die) then none else some l
  | none => none

/-- The 128 bytes of a line as a context reads them at their point of coherence. -/
def State.lineBytes (s : State) (ctx line : Nat) : List Byte := (List.range 128).map fun i => s.readPa ctx (line * 128 + i)

/-- A line filled into L1 (R197, R206, R211): the state, and whether it was allocated. A locked line without contents is fetched
again in its way (R222). -/
def State.l1Fill (s : State) (die core ctx line : Nat) (delta : Option Nat) : State × Bool :=
  let data := s.lineBytes ctx line
  let f : FillInfo := { ctx := ctx, delta := delta, trial := false, secs := 0xF#4, dirty := 0, mscOk := true, data := data }
  match s.mem.l1Find die core line with
  | some l =>
    let t := (s.dropCacheLine l).putLine .l1 die core (l1Set line) l.way line f
    (if l.lock.isSome then t.modLine l fun x => { x with lock := l.lock, md := { x.md with pin := true } } else t, true)
  | none =>
    let ls := s.mem.setLines .l1 die core (l1Set line)
    match freeWay ls 8 with
    | some w => (s.putLine .l1 die core (l1Set line) w line f, true)
    | none => match bestVictim (ls.filter fun l => l.lock.isNone) (s.sliceClock die) with
      | some v => ((s.dropCacheLine v).putLine .l1 die core (l1Set line) v.way line f, true)
      | none => (s.countCache .l1 die core false, false)

/-- L1_LINE_DROP (R215): the copy of line `ev.id` in the L1 of core `ev.core` of die `ev.die` is dropped; a lock stays. -/
def execL1LineDrop (s : State) : Out := .next (s.l1DropLine s.ev.die s.ev.core s.ev.id)

end Sys2Proof.Machine
end

