-- ==== Sys2Proof/Machine/Sem.lean ====
section
/-!
DEFINITION. Semaphore slots and memory-word semaphores (R409 to R417).
-/
namespace Sys2Proof.Machine

/-! ## Semaphore slots (R409 to R414) -/

/-- The slot that a handle names for a band and context, if the handle is valid (R411). -/
def State.semOf (s : State) (band ctx : Nat) (h : W32) : Option SemSlot :=
  let x := h.toNat
  if bits x 27 4 ≠ 0 then none
  else if bits x 31 1 = 1 then
    if bits x 16 11 ≠ 0 then none
    else (sortBy (fun y => y.slot) (s.sync.sems.filter fun y => y.st == .declared && y.band == band))[bits x 0 16]?
  else s.sync.sems.find? fun y => y.st == .allocated && y.ctx == ctx && y.die == bits x 16 3 && y.slot == bits x 0 16 &&
    y.gen.toNat == bits x 19 8

def State.modSem (s : State) (key : Nat) (f : SemSlot → SemSlot) : State :=
  s.modSync fun y => { y with sems := mapIf (fun x => x.key == key) f y.sems }

/-- HOLDER of a group (R410). -/
def Group.holder (g : Group) : Nat × Nat × Nat := (g.die, g.core, g.gslot)

/-- An acquire on every stream at a scope (R222, R414). -/
def State.acquireAt (s : State) (g : Group) (scope : Nat) : State := if 2 ≤ scope then s.l1Invalidate g.die g.core else s

/-- LSTAT of a group written (R121), in a later cycle when the group's own chain is the one that executes (R118). -/
def State.setStat (s : State) (gid code : Nat) : State :=
  match s.cur.filter (fun c => c.gid == gid), s.group? gid with
  | some c, some g => s.postUnit c g [.lstat (BitVec.ofNat 3 code)]
  | _, _ => s.modGroup gid fun g => { g with gst := setLstat g.gst (BitVec.ofNat 3 code) }

/-- A unit taken or granted to a group (R412, R414). -/
def State.semGive (s : State) (x : SemSlot) (g : Group) : State :=
  (((s.modSem x.key fun y => { y with holder := some g.holder }).acquireAt g x.scope).setStat g.gid stOk)

/-- A slot freed for a group that waited in SYNCA.FREE for its waiters to go (R417): another that waits for it finds it invalid. -/
def State.semDrained (s : State) (key : Nat) : State :=
  match s.sync.sems.find? (fun x => x.key == key) with
  | some x =>
    if x.waiters.isEmpty then
      match x.freer with
      | some f =>
        let s1 := s.modSem key SemSlot.release
        let here := fun (g : Group) => g.blocked == some (.semFree key) && !(s.sync.semMsgs.any fun m => m.gid == g.gid && m.op == .free)
        let waits := (s1.groups.filter here).map fun g => g.gid
        waits.foldl (fun s i => (s.setStat i (if i = f then stOk else stRefused)).modGroup i fun g => { g with blocked := none }) s1
      | none => s
    else s
  | none => s

/-- SEM.REL at its slot (R412): the oldest waiter is granted the unit, or COUNT rises; the status. -/
def State.semRelease (s : State) (x : SemSlot) : State × Nat :=
  match x.waiters with
  | w :: ws =>
    let s1 := s.modSem x.key fun y => { y with waiters := ws }
    let s2 := match s1.group? w with
      | some g => (s1.semGive x g).modGroup w fun g => { g with blocked := none }
      | none => s1.modSem x.key fun y => { y with count := y.count + 1 }
    (s2.semDrained x.key, stOk)
  | [] => if x.count = 0xFFFFFFFF#32 then (s, stFull) else (s.modSem x.key fun y => { y with count := y.count + 1 }, stOk)

/-! ## Slots taken (R410, R417) -/

/-- The lowest FREE slot of a die (R417). -/
def State.freeSem (s : State) (die : Nat) : Option Nat :=
  let used := s.sync.sems.filter fun x => x.die == die && !(x.st == .free)
  (List.range (min 65536 (used.length + 1))).find? fun i => !(used.any fun x => x.slot == i)

/-- A slot of a die reserved (R410): its generation is what its last release left. -/
def State.takeSem (s : State) (die slot : Nat) (st : SemState) (ctx band : Nat) (count : W32) (scope : Nat) : State :=
  let old := s.sync.sems.find? fun x => x.die == die && x.slot == slot
  let x : SemSlot := { die := die, slot := slot, st := st, gen := (old.map fun x => x.gen).getD 0, ctx := ctx, band := band, count := count,
                       holder := none, waiters := [], freer := none, scope := scope }
  s.modSync fun y => { y with sems := y.sems.filter (fun z => !(z.die == die && z.slot == slot)) ++ [x] }

/-- The handle of an allocated slot (R411). -/
def semHandle (gen : BitVec 8) (die slot : Nat) : W32 := BitVec.ofNat 32 (gen.toNat * 2 ^ 19 + die * 2 ^ 16 + slot)

/-! ## What an operation does (R412, R417) -/

/-- A unit taken by a group (R412). -/
def State.semTake (s : State) (x : SemSlot) : State := s.modSem x.key fun y => { y with count := y.count - 1 }

/-- A group put last among the waiters of a slot, where it waits (R412). -/
def State.semWait (s : State) (x : SemSlot) (gid : Nat) : State :=
  (s.modSem x.key fun y => { y with waiters := y.waiters ++ [gid] }).modGroup gid fun g => { g with blocked := some (.sem x.key) }

/-- A slot freed (R417), at once or, while it has waiters, once they have gone: the group waits for that. The status, where it comes now. -/
def State.semFreed (s : State) (x : SemSlot) (gid : Nat) : State × Option Nat :=
  if x.waiters.isEmpty then (s.modSem x.key SemSlot.release, some stOk)
  else ((s.modSem x.key fun y => { y with freer := y.freer.orElse fun _ => some gid }).modGroup gid fun g =>
    { g with blocked := some (.semFree x.key) }, none)

/-- The lowest FREE slot of the pool of an operation's die taken for its context (R417): the register writes of ALLOC. -/
def State.semAlloc (s : State) (m : SemMsg) (count : W32) (d a : Nat) : State × List RegWrite :=
  match s.freeSem m.die with
  | none => (s, statusWrites m.mask a stNoslot)
  | some i =>
    let s1 := s.takeSem m.die i .allocated m.ctx 0 count 4
    let gen := ((s1.sync.sems.find? fun x => x.die == m.die && x.slot == i).map fun x => x.gen).getD 0
    (s1, (lanesOf m.mask).map (fun l => .v l d (semHandle gen m.die i)) ++ statusWrites m.mask a stOk)

/-- The slot that an operation's handle names, if it is valid. -/
def State.semSlot (s : State) (m : SemMsg) : Option SemSlot := s.semOf m.band m.ctx m.handle

/-- TRYACQ at its slot (R412): a unit taken and OK, or BUSY. -/
def State.semTry (s : State) (m : SemMsg) (x : SemSlot) : State × Nat :=
  if x.count ≠ 0 then
    let s1 := (s.semTake x).modSem x.key fun y => { y with holder := some (m.die, m.core, m.gslot) }
    (if 2 ≤ x.scope then s1.l1Invalidate m.die m.core else s1, stOk)
  else (s, stBusy)

/-! ## Turns at slots and pools (R413, R417) -/

/-- The unit that serves an operation, with its die: the pool of a die, or the slot that the handle names, if it is valid. -/
def State.semUnit (s : State) (m : SemMsg) : Option (ServedUnit × Nat) :=
  match m.op with
  | .alloc _ _ _ => some (.pool m.die, m.die)
  | .free => (s.semSlot m).map fun x => (.pool x.die, x.die)
  | _ => (s.semSlot m).map fun x => (.slot x.key, x.die)

/-- The rank of an operation at its unit. -/
def State.semRank (s : State) (m : SemMsg) : Nat := ((s.semUnit m).map fun x => rankOf m.die m.core x.2).getD 0

/-- Whether the turn of an operation has come. -/
def State.semInTurn (s : State) (m : SemMsg) : Bool :=
  match s.semUnit m with
  | some (u, die) => s.inTurn u die (s.semRank m)
  | none => true

/-- The turn of an operation taken. -/
def State.semTurn (s : State) (m : SemMsg) : State :=
  match s.semUnit m with
  | some (u, die) => s.takeTurn u die (s.semRank m)
  | none => s

/-- A group that waits for its operation to be served goes on. -/
def State.semGoes (s : State) (gid : Nat) : State :=
  s.modGroup gid fun g => match g.blocked with
    | some (.sem _) => { g with blocked := none }
    | some (.semFree _) => { g with blocked := none }
    | _ => g

/-- A unit given to a group that is there, and otherwise a group put last among the waiters (R412). -/
def State.semAcquire (s : State) (m : SemMsg) (x : SemSlot) : State :=
  match s.group? m.gid with
  | none => s
  | some g => if x.count ≠ 0 then ((s.semTake x).semGive x g).semGoes m.gid else s.semWait x m.gid

/-- An operation on its way served (R412, R417): the slot is found by the handle as it then stands. -/
def State.semServe (s0 : State) (m : SemMsg) : State :=
  let s := s0.semTurn m
  let refused := (s.setStat m.gid stRefused).semGoes m.gid
  match m.op, s.semSlot m with
  | .alloc n d a, _ => let r := s.semAlloc m n d a; r.1.deliver m.gid m.oid r.2
  | .rel, none => s.setStat m.gid stRefused
  | .rel, some x => let r := s.semRelease x; r.1.setStat m.gid r.2
  | .acq, none => refused
  | .acq, some x => s.semAcquire m x
  | .tryAcq d, none => s.deliver m.gid m.oid (statusWrites m.mask d stRefused)
  | .tryAcq d, some x => let r := s.semTry m x; r.1.deliver m.gid m.oid (statusWrites m.mask d r.2)
  | .free, none => refused
  | .free, some x =>
    if m.handle.getLsbD 31 then refused
    else match s.semFreed x m.gid with
      | (s1, some c) => (s1.setStat m.gid c).semGoes m.gid
      | (s1, none) => s1

/-- The slots that a group in SYNCA.FREE waits for and that no group waits for any more are freed (R413, R417). -/
def State.semDrains (s : State) : State :=
  (s.sync.sems.filter fun x => x.freer.isSome).foldl (fun s x => s.semDrained x.key) s

/-- Whether an operation on its way can be served: its turn has come, and, for a release, its group's accesses have been performed (R413, R414). -/
def State.semReady (s : State) (m : SemMsg) : Bool := !(m.op == .rel && s.pendingBelow m.gid m.after) && s.semInTurn m

/-- The operations on their way that can be served are served, in the order of their ranks (R413, R414); `fuel` bounds their number. -/
def State.semServes : Nat → State → State
  | 0, s => s
  | n + 1, s =>
    match sortBy s.semRank (s.sync.semMsgs.filter s.semReady) with
    | [] => s
    | m :: _ => State.semServes n ((s.modSync fun y => { y with semMsgs := y.semMsgs.erase m }).semServe m)

/-- The operations on their way that can be served are served. -/
def State.semReleases (s : State) : State := State.semServes s.sync.semMsgs.length s

/-! ## Memory words (R415) -/

/-- HOLDER as a word holds it (R415). -/
def Group.holderWord (g : Group) : Nat := g.die * 2 ^ 29 + g.core * 2 ^ 22 + g.gslot * 2 ^ 14

/-- The number under which a group is registered in a word-waiter table, later ones larger; 0 where it is not (R415). -/
def Group.wordReg (g : Group) : Nat :=
  match g.blocked with
  | some (.semWord _ _ n) => n
  | _ => 0

/-- The groups of a die registered in its word-waiter table (R415). -/
def State.wordWaiters (s : State) (die : Nat) : List Nat :=
  (s.groups.filter fun g => g.die == die && g.wordReg != 0).map fun g => g.gid

/-- Whether a waiter for a memory word retries now (R415): its time has come, or, the oldest registered on the word, it finds a unit there. -/
def State.wordDue (s : State) (g : Group) : Bool :=
  match g.blocked with
  | some (.semWord pa t n) =>
    pa != 0 && (decide (t ≤ s.cycleOn g.die) ||
      (n != 0 && s.readPaN (s.ctxOf g) pa 4 != 0 &&
        !(s.groups.any fun h => match h.blocked with
          | some (.semWord p _ m) => p == pa && m != 0 && decide (m < n)
          | _ => false)))
  | _ => false

/-- One attempt of ACQ.M on the word at a physical address (R415): the unit is taken, or the group waits, to retry within 4,096 cycles
if the die's table has room for it and within 1,024 otherwise. -/
def State.wordTry (s : State) (g : Group) (ps : List Place) : State :=
  let ctx := s.ctxOf g
  let w := leNat (ps.map fun p => s.readPlace ctx p)
  let pa := match ps.head? with
    | some (.mem pa) => pa
    | _ => 0
  if w % 2 ^ 32 ≠ 0 then
    let s1 := s.writePlaces ctx ps (leBytes 8 (w % 2 ^ 32 - 1 + g.holderWord * 2 ^ 32))
    (((s1.l1DropLine g.die g.core (pa / 128)).acquireAt g 4).setStat g.gid stOk).modGroup g.gid fun g => { g with blocked := none }
  else
    let room := (s.wordWaiters g.die).length < 1024
    let reg := if g.wordReg ≠ 0 then g.wordReg else if room then s.nextId + 1 else 0
    ({ s with nextId := s.nextId + 1 }.probeLoad (pa / 128)).modGroup g.gid fun g =>
      { g with blocked := some (.semWord pa (s.cycleOn g.die + if reg = 0 then 1024 else 4096) reg) }

end Sys2Proof.Machine
end

