-- ==== Sys2Proof/Machine/Launch.lean ====
section
/-!
DEFINITION. Launch records (R30 to R34, R305), the reservation of a band on a core (R15, R35, R37, R193, R368), the choice of a core
(R312) and a placed band with its groups (R36, R38, R112, R359).
-/
namespace Sys2Proof.Machine

/-! ## Launch records (R305) -/

/-- Tier t of a launch record (R305). -/
def tierAt (bs : List Byte) (t : Nat) : Tier :=
  let x := fieldAt bs (768 + 32 * t) 32
  { count := bits x 0 16, domain := bits x 16 3, scope := bits x 19 3 }

/-- The fields of a launch record (R305). -/
def parseLaunch (bs : List Byte) : Launch :=
  { tiers := (List.range (fieldAt bs 0 4)).map (tierAt bs), bars := (List.range 8).map (fun t => fieldAt bs (416 + 8 * t) 8),
    arglen := fieldAt bs 384 32, arg := fieldAt bs 320 64, clen := fieldAt bs 288 32, traph := fieldAt bs 256 32, code := fieldAt bs 192 64,
    entry := fieldAt bs 160 32, launches := fieldAt bs 112 16, sems := fieldAt bs 96 16, stash := fieldAt bs 32 32, nq := fieldAt bs 23 5,
    cont := fieldAt bs 18 5, strdef := fieldAt bs 14 4, rudef := fieldAt bs 9 5, census := fieldAt bs 8 1 == 1, regs := 8 * fieldAt bs 4 4 }

/-- The reserved fields of a launch record are 0 (R305). -/
def launchZeros (bs : List Byte) : Bool :=
  fieldAt bs 28 4 == 0 && fieldAt bs 64 32 == 0 && fieldAt bs 128 32 == 0 && fieldAt bs 480 288 == 0 &&
  (List.range 8).all fun t =>
    let x := fieldAt bs (768 + 32 * t) 32
    bits x 22 10 == 0 && (decide (t < fieldAt bs 0 4) || x == 0)

/-- The groups that a quadrant can hold at a register count (R15). -/
def quadLimit (regs : Nat) : Nat := min 32 (196608 / (regs * 128))

/-- The natural scope of a domain (R30). -/
def naturalScope (tier domain : Nat) : Nat := if tier = 0 then 0 else if domain ≤ 1 then 1 else domain

/-- Whether the tiers of a launch record are valid (R30). -/
def Launch.tiersOk (l : Launch) : Bool :=
  let ts := l.tiers
  let at_ := fun t => ts.getD t { count := 0, domain := 0, scope := 0 }
  let b := l.bandTier
  decide (2 ≤ ts.length) && decide (ts.length ≤ 8) &&
  decide (1 ≤ (at_ 0).count) && decide ((at_ 0).count ≤ 32) && (at_ 0).domain == 0 && !((at_ 0).scope == 6) &&
  ((List.range ts.length).all fun t =>
    let x := at_ t
    (t == 0 || decide (1 ≤ x.count)) && decide (x.domain ≤ 5) && decide (x.scope ≤ 6) && decide (naturalScope t x.domain ≤ x.scope) &&
    (t == 0 || decide ((at_ (t - 1)).domain ≤ x.domain)) &&
    (!(x.domain == 0) || decide (l.countProd 1 (t + 1) ≤ quadLimit l.regs))) &&
  (ts.filter fun x => x.domain == 1).length == 1 && decide (1 ≤ b) &&
  decide (l.bandGroups + l.cont ≤ 4 * quadLimit l.regs) && decide (l.countProd 1 ts.length ≤ 2 ^ 32)

/-- Whether the other declarations are valid (R32, R305). -/
def Launch.fieldsOk (l : Launch) : Bool :=
  decide (8 ≤ l.regs) && decide (l.regs ≤ 64) && l.stash % 128 == 0 && decide (l.stash ≤ 524288) &&
  l.bars.getD 0 0 == 0 && l.bars.all (fun n => decide (n ≤ 16)) && (l.bars.drop l.tiers.length).all (fun n => n == 0) &&
  decide (l.arglen ≤ 65536) && l.arg % 16 == 0 && decide (1 ≤ l.clen) && l.traph % 4 == 0 && l.code % 64 == 0 && l.entry % 4 == 0 &&
  decide (l.entry < 4 * l.clen) && decide (l.launches ≤ 4096) && decide (l.sems ≤ 1024) && decide (l.nq ≤ 16) && decide (l.cont ≤ 16)

/-- A launch record that keeps R30, R32 and R305. -/
def launchOk (bs : List Byte) : Option Launch :=
  let l := parseLaunch bs
  if launchZeros bs && l.fieldsOk && l.tiersOk then some l else none

/-! ## Gangs (R33) -/

/-- The highest gang tier of a launch record, if it has one (R33). -/
def Launch.gangTier (l : Launch) : Option Nat :=
  (List.range l.tiers.length).reverse.find? fun t => decide (l.bandTier < t) && !(l.bars.getD t 0 == 0)

/-- The bands that are placed together: those of one unit of the highest gang tier, or one (R33). -/
def Launch.gangBands (l : Launch) : Nat :=
  match l.gangTier with
  | some t => l.countProd (l.bandTier + 1) (t + 1)
  | none => 1

/-! ## What a band reserves (R35) -/

/-- The quadrant of a group by its band-local index (R37). -/
def Launch.groupQuad (l : Launch) (g : Nat) : Nat :=
  match (List.range l.bandTier).reverse.find? (fun t => decide (1 ≤ t) && (l.tiers.getD t { count := 0, domain := 9, scope := 0 }).domain == 0) with
  | none => g % 4
  | some q => g / l.countProd 1 (q + 1) % 4

/-- The quadrants of a band's group slots: its groups, then its continuation slots (R37). -/
def Launch.slotQuads (l : Launch) : List Nat :=
  (List.range l.bandGroups).map l.groupQuad ++ (List.range l.cont).map (fun i => i % 4)

/-- The stash lines of a band, those of its named queues included (R193). -/
def Launch.lines (l : Launch) : Nat := l.stash / 128 + 8 * l.nq

/-- The slots taken on a core: quadrant, slot and register count, 64 in firmware mode (R13, R15); those of groups that have ended with their kernel
while stores of them are pending among them (R234). -/
def State.slotsTaken (s : State) (die core : Nat) : List (Nat × Nat × Nat) :=
  let on := s.bands.filter fun b => b.die == die && b.core == core && !(b.st == .saved)
  on.flatMap fun b =>
    let r := if b.core = 96 then 64 else ((s.kernel? b.kid).map fun k => k.launch.regs).getD 64
    (b.ghosts.map fun x => (x.2.1, x.2.2.1, x.2.2.2)) ++ ((s.groups.filter fun g => g.band == b.bid && g.helper.isNone).map fun g => (g.quad, g.slot, r)) ++
    b.freeCont.map fun f => (f.1, f.2.1, r)

/-- Whether a quadrant has slots and registers for `n` more groups of a register count (R15). -/
def quadRoom (taken : List (Nat × Nat × Nat)) (quad n regs : Nat) : Bool :=
  let mine := taken.filter fun t => t.1 == quad
  decide (mine.length + n ≤ 32) && decide ((mine.map fun t => t.2.2 * 128).sum + n * regs * 128 ≤ 196608)

/-- The lowest free slots of a quadrant for each of a list of quadrants in turn (R37). -/
def slotsFor : List (Nat × Nat × Nat) → List Nat → List (Nat × Nat)
  | _, [] => []
  | taken, q :: qs =>
    let i := ((List.range 32).find? fun i => !(taken.any fun t => t.1 == q && t.2.1 == i)).getD 0
    (q, i) :: slotsFor ((q, i, 0) :: taken) qs

/-- The lowest place of a free run of `n` units below `top`, given the runs taken (first unit, length). -/
def freeRun (taken : List (Nat × Nat)) (lo top n : Nat) : Option Nat :=
  let ok := fun a => decide (lo ≤ a) && decide (a + n ≤ top) && taken.all fun r => decide (a + n ≤ r.1) || decide (r.1 + r.2 ≤ a)
  leastOf ((lo :: taken.map fun r => r.1 + r.2).filter ok)

/-- The first stash line of a free run on a core (R193). -/
def State.stashRun (s : State) (die core n : Nat) : Option Nat :=
  freeRun ((s.bands.filter fun b => b.die == die && b.core == core && !(b.st == .saved) && decide (0 < b.stashLines)).map fun b =>
    (b.stashBase, b.stashLines)) 0 4096 n

/-- The frames of a band (R368). -/
def Launch.frames (l : Launch) : Nat := l.bandGroups + l.cont + 8

/-- The address of a free frame block in a context's frame region (R368). -/
def State.frameRun (s : State) (ctx : Nat) (l : Launch) : Option Nat :=
  match s.ctx? ctx with
  | some c => freeRun c.frameUse c.frames.1 (c.frames.1 + c.frames.2) (33792 * l.frames)
  | none => none

/-- The lowest free entries of a die's pending-launch store (R35, R299), as 4,096 × die + index. -/
def State.freePend (s : State) (die n : Nat) : List Nat :=
  let used := s.bands.flatMap fun b => b.pend
  ((List.range 4096).filterMap fun i => if used.contains (4096 * die + i) then none else some (4096 * die + i)).take n

/-- Whether a band of a kernel can be reserved in full on a core (R35, R258). -/
def State.fits (s : State) (k : Kernel) (die core : Nat) : Bool :=
  let l := k.launch
  let taken := s.slotsTaken die core
  ((List.range 4).all fun q => quadRoom taken q ((l.slotQuads.filter fun x => x == q).length) l.regs) &&
  (s.stashRun die core l.lines).isSome &&
  decide ((s.sync.sems.filter fun x => x.die == die && !(x.st == .free)).length + l.sems ≤ 65536) &&
  decide (((s.bands.flatMap fun b => b.pend).filter fun x => x / 4096 == die).length + l.launches ≤ 4096) &&
  (s.frameRun k.ctx l).isSome &&
  !(s.isMatrix k && s.mats.any fun u => u.die == die && u.core == core)

/-! ## The core of a band (R312) -/

/-- Whether a core may hold a band of the tiers' domain instances, given where other bands of the kernel stand (R30, R312). -/
def Launch.coreOk (l : Launch) (sites : List (Nat × Nat × Nat)) (band die core : Nat) : Bool :=
  (List.range l.tiers.length).all fun t =>
    let d := (l.tiers.getD t { count := 1, domain := 4, scope := 0 }).domain
    let n := l.countProd (l.bandTier + 1) (t + 1)
    decide (t ≤ l.bandTier) || sites.all fun x => !(x.1 / n == band / n) ||
      (if d = 2 then x.2.1 == die && x.2.2 / 8 == core / 8 else if d = 3 then x.2.1 == die else true)

/-- The cores of a partition that can hold bands, in ascending (DIE, CORE) order. -/
def State.coresOf (s : State) (p : Partition) : List (Nat × Nat) :=
  let cs := p.cores.filter fun c => !(s.out.retired.contains c)
  sortBy (fun c => c.1 * 97 + c.2) cs

/-- A list turned so that it starts after the core numbered `last` and wraps round (R312). -/
def scanFrom (last : Nat) (cs : List (Nat × Nat)) : List (Nat × Nat) :=
  cs.filter (fun c => decide (last < c.1 * 97 + c.2)) ++ cs.filter (fun c => decide (c.1 * 97 + c.2 ≤ last))

/-! ## A placed band -/

/-- The special coordinates of a lane of group `q` of the kernel (R31). -/
def Launch.coords (l : Launch) (q lane : Nat) : List Nat :=
  (List.range 8).map fun t =>
    if t = 0 then lane
    else if t < l.tiers.length then q / l.countProd 1 t % (l.tiers.getD t { count := 1, domain := 0, scope := 0 }).count
    else 0

/-- A lane of an initial group (R38). -/
def Launch.lane (l : Launch) (q lane : Nat) : Lane :=
  { v := List.replicate l.regs 0, p := 0x80, lr := 0, pc := BitVec.ofNat 32 l.entry,
    st := if lane < (l.tiers.getD 0 { count := 32, domain := 0, scope := 0 }).count then .active else .exited,
    jsel := 0, origin := .home, coord := l.coords q lane, pq := q, pl := lane, park := none }

/-- An initial group (R38, R427). -/
def State.initGroup (s : State) (k : Kernel) (b : Band) (gid i : Nat) (slot : Nat × Nat) : Group :=
  let q := b.index * k.launch.bandGroups + i
  { gid := gid, band := b.bid, die := b.die, core := b.core, quad := slot.1, slot := slot.2, helper := none, idx := some i, frame := i,
    lanes := laneNos.map (fun l => k.launch.lane q l), s := List.replicate 32 0, jc := [0, 0, 0, 0], ejt := 4, gst := 0, rgn := [],
    cause := k.signet, tfp := BitVec.ofNat 64 (b.frameBase + 33792 * i), timeLatch := none, outs := [], reds := [],
    fences := match k.after with
      | some n => [handOff n 0 4]
      | none => [],
    pathNeeds := match k.after with
      | some n => addPaths [] n
      | none => [], sched := Sched.new (s.cycleOn b.die), blocked := none, trapping := none, handler := false, replay := [], entrySt := [], entryPark := [],
    entryRgn := [], held := [], dbgHalt := k.captured && s.debugged k.ctx, dbgStep := false, stepPc := none, saved := false, redRound := [], waitAt := s.timeNs, dbgFrom := none }

/-- The groups of one unit of tier t - 1, and the tier-(t - 1) units that a member slot covers (R401). -/
def Launch.slotCover (l : Launch) (t : Nat) : Nat × Nat :=
  (l.countProd 1 t, ((l.tiers.getD t { count := 1, domain := 0, scope := 0 }).count + 63) / 64)

/-- A barrier record as it is reserved (R403, R513). -/
def Launch.barRec (l : Launch) (bar kid bid tier index u : Nat) : BarRec :=
  { bar := bar, kid := kid, band := bid, tier := tier, index := index, u := u, nmem := l.countProd 1 (tier + 1), narr := 0, mask := 0,
    per := (l.slotCover tier).2, unitGroups := (l.slotCover tier).1, counts := List.replicate 64 0, ebytes := 0, cbytes := 0, phase := false,
    stepf := false, overBytes := false, retired := [], credited := false, shadow := false }

/-- The barriers whose records a band holds (R401): those of its tiers up to the band's in every unit, and of each gang tier of
whose unit it is the first band. -/
def Launch.barsOf (l : Launch) (index : Nat) : List (Nat × Nat × Nat) :=
  ((List.range l.tiers.length).drop 1).flatMap fun t =>
    let n := l.bars.getD t 0
    if t ≤ l.bandTier then
      (List.range n).flatMap fun i => (List.range (l.bandGroups / l.countProd 1 (t + 1))).map fun u => (t, i, u)
    else
      let w := l.countProd (l.bandTier + 1) (t + 1)
      if index % w = 0 then (List.range n).map fun i => (t, i, index / w) else []

/-- An empty bank of a matrix unit (R257). -/
def Bank.empty : Bank := { loaded := false, tag := 0, fmt := 0, kb := 0, poisoned := false, img := [] }

/-- Matrix state of a quadrant as R257 sets it at placement. -/
def MatUnit.new (die core quad : Nat) : MatUnit :=
  let v : BankView := { loaded := false, tag := 0, fmt := 0, kb := 0 }
  { die := die, core := core, quad := quad, active := Bank.empty, shadow := Bank.empty, viewA := v, viewS := v, acc := [], scale := [],
    queue := [], running := none }

/-- The matrix state of a quadrant (R257). DESIGN CHOICE (log 171): `State.mats` lists it while a matrix band holds it; a quadrant that
none holds, which no instruction reaches, stands as R257 has it at reset. -/
def State.matState (s : State) (die core quad : Nat) : MatUnit :=
  (s.mats.find? fun u => u.die == die && u.core == core && u.quad == quad).getD (MatUnit.new die core quad)

/-- A band placed on a core that can reserve it (R35 to R38). -/
def State.placeBand (s : State) (k : Kernel) (index die core : Nat) : State :=
  let l := k.launch
  let bid := s.nextId
  let slots := slotsFor (s.slotsTaken die core) l.slotQuads
  let frame := (s.frameRun k.ctx l).getD 0
  let stash := (s.stashRun die core l.lines).getD 0
  let segs := match s.ctx? k.ctx with
    | some c => c.segs
    | none => []
  let segs' := if l.arglen = 0 then segs else segs.modify 3 fun x => { x with base := l.arg, limit := l.arglen }
  let b : Band :=
    { bid := bid, kid := k.kid, index := index, ctx := k.ctx, die := die, core := core, st := .resident, rclk := 0, rrate := 2048,
      rateAt := s.cycleOn die, adv := 0, advReq := 0, maps := List.replicate 16 none, stashBase := stash, stashLines := l.lines, segs := segs',
      freeCont := (List.range l.cont).map (fun i =>
        let p := slots.getD (l.bandGroups + i) (0, 0)
        (p.1, p.2, l.bandGroups + i)),
      contEver := decide (0 < l.cont), frameBase := frame, budget := List.replicate l.launches none, saveArea := 0, savedBins := [], savedOrder := [],
      savedMats := [], ghosts := [], matrix := s.isMatrix k, pend := s.freePend die l.launches }
  let gs : List Group := (List.range l.bandGroups).map fun i => s.initGroup k b (bid + 1 + i) i (slots.getD i (0, 0))
  let bn := bid + 1 + l.bandGroups
  let ids := l.barsOf index
  let bars := (List.range ids.length).map fun j =>
    let x := ids.getD j (0, 0, 0)
    l.barRec (bn + j) k.kid bid x.1 x.2.1 x.2.2
  let s1 := { s with
    bands := s.bands ++ [b], groups := s.groups ++ gs, order := s.order ++ gs.map (fun (g : Group) => g.gid), nextId := bn + ids.length,
    sync := { s.sync with bars := s.sync.bars ++ bars },
    mats := if s.isMatrix k then s.mats ++ (List.range 4).map (MatUnit.new die core) else s.mats }
  let scope := (l.tiers.getD l.bandTier { count := 1, domain := 1, scope := 1 }).scope
  let s2 := (List.range l.sems).foldl (fun s _ => match s.freeSem die with
    | some i => s.takeSem die i .declared k.ctx bid 0 scope
    | none => s) s1
  let s3 := s2.modCtx k.ctx fun c => { c with frameUse := (frame, 33792 * l.frames) :: c.frameUse }
  s3.emitUnit die 3 0 0 k.ctx k.signet 0x01 index

/-- The state as it would be with no band resident: what R34 asks about. -/
def State.emptied (s : State) : State :=
  { s with bands := [], groups := [], mats := [], sync := { s.sync with sems := [] },
           ctxs := s.ctxs.map fun c => { c with frameUse := [] } }

/-- Places for `n` bands from index `i` on (R33, R312), or none: each on the first core of the scan from which those after it find theirs. -/
def State.placesFor (s : State) (k : Kernel) (cs : List (Nat × Nat)) : Nat → Nat → List (Nat × Nat × Nat) → Option (List (Nat × Nat × Nat))
  | 0, _, sites => some sites
  | n + 1, i, sites =>
    let last := ((sites.getLast?).map fun x => x.2.1 * 97 + x.2.2).getD k.lastCore
    (scanFrom last cs).findSome? fun c =>
      if k.launch.coreOk sites i c.1 c.2 && s.fits k c.1 c.2 then
        (s.placeBand k i c.1 c.2).placesFor k cs n (i + 1) (sites ++ [(i, c.1, c.2)])
      else none

/-- Places for a kernel's next bands among some cores (R33, R312): all that are placed together. -/
def State.gangPlaces (s : State) (k : Kernel) (cs : List (Nat × Nat)) : Option (List (Nat × Nat × Nat)) :=
  s.placesFor k cs k.launch.gangBands k.placed k.sites

/-- Whether the next bands of a kernel could ever be resident in its context's partition (R34). -/
def State.everFits (s : State) (k : Kernel) : Bool :=
  match (s.ctx? k.ctx).bind fun c => s.part? c.part with
  | some p => (s.emptied.gangPlaces k (s.coresOf p)).isSome
  | none => false

/-- R34 for a kernel: a gang tier's unit must be able to be resident at once. -/
def State.gangOk (s : State) (k : Kernel) : Bool := k.launch.gangTier.isNone || s.everFits k

/-! ## Kernels -/

/-- A kernel that has become ready (R309, R427): its signet is fresh from its die's launcher. -/
def State.newKernel (s : State) (ctx die queue prio : Nat) (parent : Parent) (l : Launch) (filler : Bool) (args : List Byte)
    (after : Option Needs) : State × Kernel :=
  let k : Kernel :=
    { kid := s.nextId, ctx := ctx, die := die, parent := parent, queue := queue, prio := prio, signet := s.freshSignet die 3 0, launch := l,
      loaded := s.codes.any (fun c => c.die == die && c.ctx == ctx && c.addr == l.code), placed := 0, released := 0, startCycle := none,
      readyAt := s.out.elapsed, blocking := false, lastCore := 8 * 97, filler := filler, failed := none, diverged := false, raised := [], args := args,
      sites := [], passedAt := none, after := after, captured := false, pend := 0 }
  ({ (s.bumpSeq die 3 0) with kernels := s.kernels ++ [k], nextId := s.nextId + 1 }, k)

/-- A launch record read in a context and validated (R34, R305), with the kernel that it would start. -/
def State.readLaunch (s : State) (die ctx addr : Nat) : State × Option Launch :=
  if addr = 0 ∨ addr % 128 ≠ 0 then (s, none)
  else match s.readGlb die unitLauncher ctx addr 128 with
    | (s1, .error _) => (s1, none)
    | (s1, .ok bs) => (s1, launchOk bs)

end Sys2Proof.Machine
end

