-- ==== Sys2Proof/Machine/Flags.lean ====
section
/-!
DEFINITION. Carry and comparison (R126, R136, R143), and the five sticky flags of GST (R98, R110).
-/
namespace Sys2Proof.Machine

/-- The condition codes of R136 over two operands of one width. -/
def condHolds {n : Nat} (k : BitVec 3) (x y : BitVec n) : Bool :=
  match k.toNat with
  | 0 => x == y
  | 1 => x != y
  | 2 => BitVec.slt x y
  | 3 => BitVec.sle x y
  | 4 => BitVec.ult x y
  | 5 => BitVec.ule x y
  | _ => false

/-- The 33-bit sum of IADDC (R126). -/
def addCarry (a b : W32) (c : Bool) : BitVec 33 := a.setWidth 33 + b.setWidth 33 + (if c then 1 else 0)

/-- The flags of GST bits [4:0] (R110): inexact, underflow, overflow, divide by zero, invalid. -/
def flagNX : BitVec 5 := 1
def flagUF : BitVec 5 := 2
def flagOF : BitVec 5 := 4
def flagDZ : BitVec 5 := 8
def flagNV : BitVec 5 := 16

/-- A flag when a condition holds. -/
def flagIf (b : Bool) (f : BitVec 5) : BitVec 5 := if b then f else 0

/-- A form whose lanes each give writes and flags (R98). -/
def formFlags (i : Instr) (lat : Nat) (f : Issue → Group → Nat → List RegWrite × BitVec 5) (s : State) : Out :=
  issue i s fun c g => s.postFlags c g lat (lanesDo c.mask fun l => (f c g l).1)
    ((lanesOf c.mask).map fun l => (l, (f c g l).2)) 0

end Sys2Proof.Machine
end

