-- ==== Sys2Proof/Machine/Softfloat.lean ====
section
/-!
DEFINITION. Floating-point values and rounding (R88 to R98): decoding a pattern, the exact sum and product of two values, one
rounding of an exact value to a format, and the values and flags of the instructions that round once.
-/
namespace Sys2Proof.Machine

/-! ## Formats and values -/

/-- A floating-point format (R88): exponent and fraction widths, bias, whether it has infinities, and its NaN patterns: 0 as
IEEE 754, 1 all ones only, 2 none. -/
structure Fmt where
  eb : Nat
  mb : Nat
  bias : Nat
  hasInf : Bool
  nans : Nat
deriving DecidableEq, Repr

def fp32 : Fmt := { eb := 8, mb := 23, bias := 127, hasInf := true, nans := 0 }
def fp16 : Fmt := { eb := 5, mb := 10, bias := 15, hasInf := true, nans := 0 }
def bf16 : Fmt := { eb := 8, mb := 7, bias := 127, hasInf := true, nans := 0 }
def e4m3 : Fmt := { eb := 4, mb := 3, bias := 7, hasInf := false, nans := 1 }
def e5m2 : Fmt := { eb := 5, mb := 2, bias := 15, hasInf := true, nans := 0 }
def e2m1 : Fmt := { eb := 2, mb := 1, bias := 1, hasInf := false, nans := 2 }

/-- The format of a conversion code (R79). -/
def fmtOf : Nat → Fmt
  | 0 => fp32 | 1 => fp16 | 2 => bf16 | 3 => e4m3 | 4 => e5m2 | _ => e2m1

/-- The width of a format in bits. -/
def Fmt.width (f : Fmt) : Nat := 1 + f.eb + f.mb

/-- A value: a NaN with its quiet mark missing or not, an infinity, or (-1)^s m 2^e. -/
inductive FV where
  | nan (sig : Bool)
  | inf (s : Bool)
  | fin (s : Bool) (m : Nat) (e : Int)
deriving DecidableEq, Repr

/-- The least exponent of a normal value (R88). -/
def Fmt.emin (f : Fmt) : Int := 1 - (f.bias : Int)

/-- The value of a pattern (R88). -/
def Fmt.decode (f : Fmt) (x : Nat) : FV :=
  let s := bits x (f.eb + f.mb) 1 == 1
  let e := bits x f.mb f.eb
  let m := bits x 0 f.mb
  let top := 2 ^ f.eb - 1
  if f.nans = 0 ∧ e = top then (if m = 0 then .inf s else .nan (bits x (f.mb - 1) 1 == 0))
  else if f.nans = 1 ∧ e = top ∧ m = 2 ^ f.mb - 1 then .nan false
  else if e = 0 then .fin s m (f.emin - f.mb)
  else .fin s (2 ^ f.mb + m) ((e : Int) - f.bias - f.mb)

/-- The canonical NaN of a format (R94); +0 for the format without one (R95). -/
def Fmt.canon (f : Fmt) : Nat :=
  match f.nans with
  | 0 => (2 ^ f.eb - 1) * 2 ^ f.mb + 2 ^ (f.mb - 1)
  | 1 => 2 ^ (f.eb + f.mb) - 1
  | _ => 0

/-- The pattern of the largest finite magnitude (R89). -/
def Fmt.maxCode (f : Fmt) : Nat :=
  match f.nans with
  | 0 => (2 ^ f.eb - 1) * 2 ^ f.mb - 1
  | 1 => 2 ^ (f.eb + f.mb) - 2
  | _ => 2 ^ (f.eb + f.mb) - 1

/-- The pattern of an infinity. -/
def Fmt.infCode (f : Fmt) : Nat := (2 ^ f.eb - 1) * 2 ^ f.mb

/-- A sign put before a magnitude's pattern. -/
def Fmt.signed (f : Fmt) (s : Bool) (mag : Nat) : Nat := if s then 2 ^ (f.eb + f.mb) + mag else mag

/-! ## Rounding (R95, R96, R98) -/

/-- A rounding mode (R95), in the order of its codes. -/
inductive RMode where
  | rne | rtz | rup | rdn | rna | rneSat | rtzSat | sr
deriving DecidableEq, Repr

def RMode.ofCode : Nat → RMode
  | 0 => .rne | 1 => .rtz | 2 => .rup | 3 => .rdn | 4 => .rna | 5 => .rneSat | 6 => .rtzSat | _ => .sr

/-- Whether the magnitude `lo + r / d` rounds away from zero, `u` being the draw of SR (R96). -/
def RMode.up (m : RMode) (u : Nat) (s : Bool) (lo r d : Nat) : Bool :=
  match m with
  | .rne | .rneSat => decide (d < 2 * r) || (2 * r == d && lo % 2 == 1)
  | .rtz | .rtzSat => false
  | .rup => decide (0 < r) && !s
  | .rdn => decide (0 < r) && s
  | .rna => decide (d ≤ 2 * r)
  | .sr => decide (u < 65536 * r / d)

/-- Whether an overflow saturates at M (R95). -/
def RMode.saturates (m : RMode) (s : Bool) : Bool :=
  match m with
  | .rneSat | .rtzSat | .rtz => true
  | .rup => s
  | .rdn => !s
  | _ => false

/-- The numerator and denominator of `n / d` times 2^e, for e of either sign. -/
def scaled (n d : Nat) (e : Int) : Nat × Nat :=
  if 0 ≤ e then (n * 2 ^ e.toNat, d) else (n, d * 2 ^ (-e).toNat)

/-- The exponent of the leading bit of `n / d`, both above 0. -/
def leadExp (n d : Nat) : Int :=
  let l : Int := (n.log2 : Int) - (d.log2 : Int)
  let (a, b) := scaled n d (-l)
  if b ≤ a then l else l - 1

/-- The magnitude `n / d` times 2^e in units of 2^q, rounded, and whether it was exact. -/
def roundAt (m : RMode) (u : Nat) (s : Bool) (n d : Nat) (e q : Int) : Nat × Bool :=
  let (a, b) := scaled n d (e - q)
  (a / b + (if m.up u s (a / b) (a % b) b then 1 else 0), a % b == 0)

/-- A nonzero magnitude `n / d` times 2^e with a sign, rounded once to a format, with its flags (R93, R95, R96, R98). Tininess is
detected after rounding. -/
def Fmt.round (f : Fmt) (m : RMode) (u : Nat) (s : Bool) (n d : Nat) (e : Int) : Nat × BitVec 5 :=
  let le := leadExp n d + e
  let q := max (le - f.mb) (f.emin - f.mb)
  let (x, exact) := roundAt m u s n d e q
  let mag := (q - (f.emin - f.mb)).toNat * 2 ^ f.mb + x
  if f.maxCode < mag then
    (f.signed s (if f.hasInf && !(m.saturates s) then f.infCode else f.maxCode), flagOF ||| flagNX)
  else
    let (y, _) := roundAt m u s n d e (le - f.mb)
    let tiny := decide (le < f.emin) && !(decide (y = 2 ^ (f.mb + 1)) && decide (le + 1 = f.emin))
    (f.signed s mag, if exact then 0 else flagIf tiny flagUF ||| flagNX)

/-- A value rounded once to a format (R93, R95, R98). -/
def Fmt.ofFV (f : Fmt) (m : RMode) (u : Nat) : FV → Nat × BitVec 5
  | .nan sig => (f.canon, flagIf sig flagNV)
  | .inf s =>
    if f.hasInf && !(m == .rneSat || m == .rtzSat) then (f.signed s f.infCode, 0) else (f.signed s f.maxCode, flagNX)
  | .fin s n e => if n = 0 then (f.signed s 0, 0) else f.round m u s n 1 e

/-! ## Exact operations (R93, R150) -/

/-- A value with its sign reversed. -/
def FV.neg : FV → FV
  | .nan g => .nan g
  | .inf s => .inf (!s)
  | .fin s m e => .fin (!s) m e

def FV.isNan : FV → Bool
  | .nan _ => true
  | _ => false

/-- A signalling NaN: its fraction MSB is 0 (R94). -/
def FV.isSig : FV → Bool
  | .nan g => g
  | _ => false

/-- The exact product and whether it is an invalid operation. -/
def FV.mul (a b : FV) : FV × Bool :=
  match a, b with
  | .nan g, y => (.nan false, g || y.isSig)
  | x, .nan g => (.nan false, g || x.isSig)
  | .inf s, .inf t => (.inf (s != t), false)
  | .inf s, .fin t m _ => if m = 0 then (.nan false, true) else (.inf (s != t), false)
  | .fin s m _, .inf t => if m = 0 then (.nan false, true) else (.inf (s != t), false)
  | .fin s m e, .fin t n k => (.fin (s != t) (m * n) (e + k), false)

/-- The signed integer of a finite value in units of 2^q, q at most its exponent. -/
def unitsAt (s : Bool) (m : Nat) (e q : Int) : Int :=
  let x : Int := ((m * 2 ^ (e - q).toNat : Nat) : Int)
  if s then -x else x

/-- The exact sum and whether it is an invalid operation; the zero rules are those of R93. -/
def FV.add (a b : FV) : FV × Bool :=
  match a, b with
  | .nan g, y => (.nan false, g || y.isSig)
  | x, .nan g => (.nan false, g || x.isSig)
  | .inf s, .inf t => if s = t then (.inf s, false) else (.nan false, true)
  | .inf s, _ => (.inf s, false)
  | _, .inf t => (.inf t, false)
  | .fin s m e, .fin t n k =>
    let q := min e k
    let x := unitsAt s m e q + unitsAt t n k q
    if x = 0 then (.fin (m == 0 && n == 0 && s && t) 0 q, false) else (.fin (decide (x < 0)) x.natAbs q, false)

/-- Whether a value lies below another; neither is a NaN. -/
def FV.lt (a b : FV) : Bool :=
  match a, b with
  | .inf s, .inf t => s && !t
  | .inf s, _ => s
  | _, .inf t => !t
  | .fin s m e, .fin t n k =>
    let q := min e k
    decide (unitsAt s m e q < unitsAt t n k q)
  | _, _ => false

/-- Equality of values, the zeros being equal; no NaN equals anything. -/
def FV.eq (a b : FV) : Bool :=
  match a, b with
  | .inf s, .inf t => s == t
  | .fin s m e, .fin t n k =>
    let q := min e k
    decide (unitsAt s m e q = unitsAt t n k q)
  | _, _ => false

def FV.isNeg : FV → Bool
  | .nan _ => false
  | .inf s => s
  | .fin s _ _ => s

/-- The order of the minimum and maximum operations: -0 below +0 (R94). -/
def FV.below (a b : FV) : Bool := a.lt b || (a.eq b && a.isNeg && !b.isNeg)

/-! ## Operations that round once -/

/-- An exact result rounded by RNE, with NV of an invalid operation. -/
def Fmt.rneOf (f : Fmt) (x : FV × Bool) : Nat × BitVec 5 :=
  let r := f.ofFV .rne 0 x.1
  (r.1, r.2 ||| flagIf x.2 flagNV)

def Fmt.add (f : Fmt) (a b : Nat) : Nat × BitVec 5 := f.rneOf ((f.decode a).add (f.decode b))
def Fmt.sub (f : Fmt) (a b : Nat) : Nat × BitVec 5 := f.rneOf ((f.decode a).add (f.decode b).neg)
def Fmt.mul (f : Fmt) (a b : Nat) : Nat × BitVec 5 := f.rneOf ((f.decode a).mul (f.decode b))

/-- One exact sum of a product and a third operand, either negated, rounded once (R150). -/
def Fmt.fma (f : Fmt) (np nq : Bool) (a b d : Nat) : Nat × BitVec 5 :=
  let p := (f.decode a).mul (f.decode b)
  let x := if np then p.1.neg else p.1
  let y := if nq then (f.decode d).neg else f.decode d
  let r := x.add y
  f.rneOf (r.1, r.2 || p.2)

/-- FABSD (R149): zero results are +0. -/
def Fmt.absd (f : Fmt) (a b : Nat) : Nat × BitVec 5 :=
  let r := f.sub a b
  (r.1 % 2 ^ (f.eb + f.mb), r.2)

/-- Minimum and maximum (R94): `num` makes one NaN operand give way to the other. -/
def Fmt.minMax (f : Fmt) (num max_ : Bool) (a b : Nat) : Nat × BitVec 5 :=
  let x := f.decode a
  let y := f.decode b
  let nv := flagIf (x.isSig || y.isSig) flagNV
  if x.isNan && y.isNan then (f.canon, nv)
  else if x.isNan then (if num then b else f.canon, nv)
  else if y.isNan then (if num then a else f.canon, nv)
  else ((if max_ then (if x.below y then b else a) else (if y.below x then b else a)), nv)

/-- FDIV (R161). -/
def fdiv32 (a b : Nat) : Nat × BitVec 5 :=
  let x := fp32.decode a
  let y := fp32.decode b
  let s := x.isNeg != y.isNeg
  match x, y with
  | .nan g, _ => (fp32.canon, flagIf (g || y.isSig) flagNV)
  | _, .nan g => (fp32.canon, flagIf g flagNV)
  | .inf _, .inf _ => (fp32.canon, flagNV)
  | .inf _, .fin _ _ _ => (fp32.signed s fp32.infCode, 0)
  | .fin _ _ _, .inf _ => (fp32.signed s 0, 0)
  | .fin _ m e, .fin _ n k =>
    if n = 0 then (if m = 0 then (fp32.canon, flagNV) else (fp32.signed s fp32.infCode, flagDZ))
    else if m = 0 then (fp32.signed s 0, 0)
    else fp32.round .rne 0 s m n (e - k)

/-- The integer square root of `n`, decided bit by bit from bit `k - 1`. -/
def isqrt (n : Nat) : Nat → Nat → Nat
  | 0, r => r
  | k + 1, r => isqrt n k (if (r + 2 ^ k) * (r + 2 ^ k) ≤ n then r + 2 ^ k else r)

/-- FSQRT (R100, R160): correctly rounded. A half below the last bit stands for an inexact root's tail. -/
def fsqrt32 (a : Nat) : Nat × BitVec 5 :=
  match fp32.decode a with
  | .nan g => (fp32.canon, flagIf g flagNV)
  | .inf s => if s then (fp32.canon, flagNV) else (fp32.infCode, 0)
  | .fin s m e =>
    if m = 0 then (fp32.signed s 0, 0)
    else if s then (fp32.canon, flagNV)
    else
      let odd := e % 2 == 1
      let n := m * 2 ^ (if odd then 65 else 64)
      let k : Int := if odd then (e - 65) / 2 else (e - 64) / 2
      let r := isqrt n 46 0
      if r * r = n then fp32.round .rne 0 false r 1 k else fp32.round .rne 0 false (2 * r + 1) 1 (k - 1)

/-- FSCALEB (R158): the scale is bounded where every larger one gives the same result. -/
def fscaleb32 (a : Nat) (n : Int) : Nat × BitVec 5 :=
  match fp32.decode a with
  | .nan _ => (fp32.canon, 0)
  | .inf _ => (a, 0)
  | .fin s m e => if m = 0 then (a, 0) else fp32.round .rne 0 s m 1 (e + max (-600) (min 600 n))

/-- FREXPE and FREXPM (R158). -/
def frexpe32 (a : Nat) : W32 :=
  match fp32.decode a with
  | .fin _ m e => if m = 0 then 0x80000000#32 else BitVec.ofInt 32 ((m.log2 : Int) + e)
  | _ => 0x7FFFFFFF#32

def frexpm32 (a : Nat) : Nat :=
  match fp32.decode a with
  | .nan _ => fp32.canon
  | .inf _ => a
  | .fin s m _ => if m = 0 then a else (fp32.ofFV .rne 0 (.fin s m (-(m.log2 : Int)))).1

/-- The bit of FCLASS (R159). -/
def fclassBit (a : Nat) : Nat :=
  let s := bits a 31 1
  let e := bits a 23 8
  let m := bits a 0 23
  if e = 255 ∧ m ≠ 0 then (if bits a 22 1 = 1 then 8 else 9)
  else if e = 255 then 6 + s
  else if e = 0 ∧ m = 0 then s
  else if e = 0 then 2 + s
  else 4 + s

/-- A finite magnitude rounded to an integer by a mode (R155, R97), and whether it was exact. -/
def toIntegral (m : RMode) (s : Bool) (n : Nat) (e : Int) : Nat × Bool := roundAt m 0 s n 1 e 0

/-- FRND (R155). -/
def frnd32 (m : RMode) (a : Nat) : Nat × BitVec 5 :=
  match fp32.decode a with
  | .nan g => (fp32.canon, flagIf g flagNV)
  | .inf _ => (a, 0)
  | .fin s n e => if 0 ≤ e ∨ n = 0 then (a, 0) else ((fp32.ofFV .rne 0 (.fin s (toIntegral m s n e).1 0)).1, 0)

/-- The least and greatest value of an integer type (R79, R90). -/
def intRange : Nat → Int × Int
  | 0 => (-2147483648, 2147483647)
  | 1 => (0, 4294967295)
  | 2 => (-32768, 32767)
  | 3 => (0, 65535)
  | 4 => (-128, 127)
  | _ => (0, 255)

/-- FCVTI (R97, R156). A 32-bit value that bounds every type stands for a huge operand. -/
def fcvti32 (t : Nat) (m : RMode) (a : Nat) : W32 × BitVec 5 :=
  let r := intRange t
  match fp32.decode a with
  | .nan _ => (0, flagNV)
  | .inf s => (BitVec.ofInt 32 (if s then r.1 else r.2), flagNV)
  | .fin s n e =>
    let x := toIntegral m s n e
    let v : Int := if s then -(x.1 : Int) else x.1
    if r.2 < v then (BitVec.ofInt 32 r.2, flagNV)
    else if v < r.1 then (BitVec.ofInt 32 r.1, flagNV)
    else (BitVec.ofInt 32 v, flagIf (!x.2) flagNX)

/-- The integer that ICVTF reads (R157). -/
def icvtfOperand (t : Nat) (a : W32) : Int :=
  match t with
  | 0 => a.toInt
  | 1 => a.toNat
  | 2 => sx a.toNat 16
  | 3 => bits a.toNat 0 16
  | 4 => sx a.toNat 8
  | _ => bits a.toNat 0 8

/-- ICVTF (R157). -/
def icvtf32 (t : Nat) (m : RMode) (a : W32) : Nat × BitVec 5 :=
  let v := icvtfOperand t a
  fp32.ofFV m 0 (.fin (decide (v < 0)) v.natAbs 0)

/-- FCVT of a source pattern (R153, R154). -/
def fcvt (src dst : Nat) (m : RMode) (u : Nat) (a : W32) : Nat × BitVec 5 :=
  let f := fmtOf src
  (fmtOf dst).ofFV m u (f.decode (a.toNat % 2 ^ f.width))

/-- The u of an SR conversion (R96). -/
def srDraw (cycle gslot lane : Nat) : Nat :=
  let h0 : W32 := BitVec.ofNat 32 cycle ^^^ BitVec.ofNat 32 (gslot * 0x9E3779B9) ^^^ BitVec.ofNat 32 (lane * 0x85EBCA6B)
  let h1 := h0 ^^^ (h0 <<< 13)
  let h2 := h1 ^^^ (h1 >>> 17)
  let h3 := h2 ^^^ (h2 <<< 5)
  h3.toNat / 65536

/-- FCMP (R152). -/
def fcmpHolds (k : Nat) (a b : Nat) : Bool × BitVec 5 :=
  let x := fp32.decode a
  let y := fp32.decode b
  let un := x.isNan || y.isNan
  (match k with
    | 0 => x.eq y
    | 1 => !(x.eq y)
    | 2 => !un && x.lt y
    | 3 => !un && (x.lt y || x.eq y)
    | 4 => !un
    | _ => un,
   flagIf (x.isSig || y.isSig) flagNV)

end Sys2Proof.Machine
end

