-- ==== Sys2Proof/Machine/MemIssue.lean ====
section
/-!
DEFINITION. The issue of a memory access: addresses, segment and alignment checks (R186 to R188, R235 to R238), the parts of an
access (R216), its translation and late faults (R238, R347), the entry of a RED into the atomic buffer (R248, R249).
-/
namespace Sys2Proof.Machine

/-! ## Addresses (R236) -/

/-- The bytes of a width code (R73). -/
def widthBytes (f : Nat) : Nat := [1, 1, 2, 2, 4, 8, 16].getD f 1

/-- EA of a lane (R236). -/
def Lane.ea (l : Lane) (m : Attr) (a b scale : Nat) : Int :=
  let base := if m.seg = 0 ∨ m.seg = 4 then l.pair a else (l.rv a).toNat
  (base : Int) + (if b = 0 then 0 else (l.rv b).toInt) + m.off.toInt * scale

/-- The declared stash bytes of a group's band (R186). -/
def State.stashBytes (s : State) (g : Group) : Nat := (s.launchOf g).stash

/-- The segment check of `n` bytes (R186, R188, R358); `wr` marks a store, atomic or RED. -/
def State.segOk (s : State) (g : Group) (l : Lane) (seg : Nat) (va : Int) (n : Nat) (wr : Bool) : Bool :=
  let x := s.segOf g seg
  let hi := va + n
  x.valid && (x.wr || !wr) && decide (0 ≤ va) &&
  match seg with
  | 0 => decide ((x.base : Int) ≤ va) && decide (hi ≤ x.limit) && decide (hi ≤ 2 ^ 56)
  | 1 => decide (hi ≤ s.stashBytes g)
  | 2 => !(l.origin == .detached) && decide (hi ≤ x.limit)
  | 3 => decide (hi ≤ x.limit)
  | _ => decide (hi ≤ 2 ^ 56)

/-- The virtual address of byte `b` of a segment: a PRV byte lies by R188, a KON byte after its base. -/
def Segment.place (x : Segment) (l : Lane) (seg b : Nat) : Nat :=
  if seg = 2 then x.base + l.pq * 32 * x.limit + b / 4 * 128 + l.pl * 4 + b % 4
  else if seg = 3 then x.base + b
  else b

/-- The parts of an access of `n` bytes (R188, R216, R237): its first byte and length, one part unless it is not naturally aligned
or a PRV access of 8 or 16 bytes. -/
def partsOf (seg va n : Nat) : List (Nat × Nat) :=
  if va % n ≠ 0 then (List.range n).map fun i => (i, 1)
  else if seg = 2 ∧ 4 < n then (List.range (n / 4)).map fun i => (4 * i, 4)
  else [(0, n)]

/-! ## Checks (R237, R238) -/

/-- The first lane of the mask that a check of its address finds at fault, with the address. -/
def badLane (mask : BitVec 32) (va : Nat → Int) (bad : Nat → Int → Bool) : Option Int :=
  ((lanesOf mask).find? fun l => bad l (va l)).map va

/-- The issue-time checks of an access of every lane: ALIGN before SEG_LIMIT (R238). -/
def State.memCheck (s : State) (g : Group) (mask : BitVec 32) (m : Attr) (n : Nat) (strict wr : Bool) (va : Nat → Int) :
    Option (Byte × Int) :=
  match badLane mask va (fun _ v => strict && v % n != 0) with
  | some v => some (fcAlign, v)
  | none => match badLane mask va (fun l v => !(s.segOk g (g.lane l) m.seg.toNat v n wr)) with
    | some v => some (fcSegLimit, v)
    | none => none

/-- Whether an LD or ST needs natural alignment (R237). -/
def strictAlign (m : Attr) (n : Nat) : Bool := n == 16 || m.seg == 4 || !(m.ord == 0)

/-! ## Making accesses -/

/-- RRATE of a group's band (R204, R399). -/
def State.rrateOf (s : State) (g : Group) : Nat :=
  match s.band? g.band with
  | some b => b.rrate.toNat
  | none => 2048

/-- One part of a lane's access. -/
def State.mkAcc (s : State) (c : Issue) (g : Group) (m : Attr) (oid : Option Nat) (iss lane : Nat) (mask : BitVec 32) (d va : Nat)
    (kind : AccKind) (part n : Nat) : Acc :=
  let seg := m.seg.toNat
  let x := s.segOf g seg
  let places := if seg = 1 then
      match s.band? g.band with
      | some b => some ((List.range n).map fun i => .stash g.die g.core (128 * b.stashBase + va + part + i))
      | none => none
    else none
  { aid := 0, gid := g.gid, iss := iss, oid := oid, lane := lane, part := part, kind := kind, pc := c.pc, seg := seg,
    va := x.place (g.lane lane) seg (va + part), n := n, places := places, stream := s.streamOf g m.str.toNat, ord := m.ord.toNat,
    scp := m.scp.toNat, cp := if seg = 1 then 0 else m.cp.toNat, ru := if seg = 1 then 30 else s.ruOf g m.ru.toNat, rr := s.rrateOf g, d := d, mask := mask,
    ctx := s.ctxOf g, die := g.die, core := g.core, turn := s.arrival g false }

/-- The parts of a lane's access of `n` bytes, the kind of each given by its first byte and length. -/
def State.laneAccs (s : State) (c : Issue) (g : Group) (m : Attr) (oid : Option Nat) (iss lane : Nat) (mask : BitVec 32) (d va n : Nat)
    (kind : Nat → Nat → AccKind) : List Acc :=
  (partsOf m.seg.toNat va n).map fun p => s.mkAcc c g m oid iss lane mask d va (kind p.1 p.2) p.1 p.2

/-! ## Late faults (R238, R239) -/

/-- The context in which an access is translated (R189, R340). -/
def State.accCtx (s : State) (a : Acc) : Nat := if a.seg = 4 then (s.exporterOf a.ctx).getD a.ctx else a.ctx

/-- The address at which an access begins in the context that translates it. -/
def Acc.start (a : Acc) : Nat := if a.seg = 4 then a.va % 2 ^ 47 else a.va

/-- Whether an access may use the heap triple: GLB and PEER (R187, R189). -/
def Acc.heap (a : Acc) : Bool := a.seg == 0 || a.seg == 4

/-- The first address of an access that a lookup without a walk does not find. -/
def State.firstBad (s : State) (a : Acc) : Nat :=
  let need := a.kind.needs
  match (List.range a.n).find? (fun i => match s.lookup a.die a.core (s.accCtx a) (a.start + i) a.heap need.1 need.2 with
    | .hit _ _ => false
    | _ => true) with
  | some i => a.start + i
  | none => a.start

/-- Bytes of a value written to the registers of a load (R239, R241, R243). -/
def loadWrites (kind : AccKind) (lane d : Nat) (bs : List Byte) : List RegWrite :=
  let x := leNat bs
  match kind with
  | .lds f => [.s d (match f with
      | 0 => BitVec.ofInt 64 (sx x 8) | 2 => BitVec.ofInt 64 (sx x 16) | _ => BitVec.ofNat 64 x)]
  | .load f => match f with
    | 0 => [.v lane d (BitVec.ofInt 32 (sx x 8))]
    | 2 => [.v lane d (BitVec.ofInt 32 (sx x 16))]
    | _ => (List.range ((bs.length + 3) / 4)).map fun k => .v lane (d + k) (wordAt bs k)
  | _ => (List.range ((bs.length + 3) / 4)).map fun k => .v lane (d + k) (wordAt bs k)

/-- Register writes of a result that comes lane by lane: made at once, or kept while the group enters or runs its trap handler, or while the
chain that brings them executes (R62, R239, R367, R370). -/
def State.bring (s : State) (gid oid : Nat) (ws : List RegWrite) : State :=
  let keep := fun (o : Outst) => { o with writes := o.writes ++ ws }
  s.modGroup gid fun g =>
    match g.out? oid with
    | none => { g with replay := mapIf (fun r => r.out.oid == oid) (fun r => { r with out := keep r.out }) g.replay }
    | some o =>
      if g.frozen || s.inChain gid then { g with outs := mapIf (fun x => x.oid == oid) keep g.outs }
      else ws.foldl (fun g w => g.apply o.mask w) g

/-- A result ended once no access of its issue is left (R239): it is no longer outstanding, or it is DONE for the frame, or, in the chain
that made it, to be written in a later cycle. -/
def State.endResult (s : State) (gid oid : Nat) : State :=
  if s.mem.accs.any (fun a => a.gid == gid && a.oid == some oid) then s
  else s.modGroup gid fun g =>
    let back := fun (o : Outst) => { o with sent := false, due := s.cycleOn g.die + 1 }
    if (g.out? oid).isNone then
      { g with replay := mapIf (fun r => r.out.oid == oid) (fun r => { r with out := back r.out }) g.replay }
    else if g.frozen || s.inChain gid then { g with outs := mapIf (fun x => x.oid == oid) back g.outs }
    else { ((g.out? oid).elim g g.land) with outs := g.outs.filter fun x => !(x.oid == oid) }

/-- Lanes of a mask parked on a late fault of an access; they get none of its results (R238, R239). -/
def State.parkLanes (s : State) (a : Acc) (code : Byte) (va : Nat) : State :=
  let drop := fun (o : Outst) => if some o.oid = a.oid then { o with mask := clearMask o.mask a.mask } else o
  let s1 := (lanesOf a.mask).foldl (fun s l => s.parkLane a.gid l a.pc code (s.accCtx a) va) s
  s1.modGroup a.gid fun g => { g with outs := g.outs.map drop }

/-- The accesses of one lane's issue removed. -/
def State.dropLane (s : State) (a : Acc) : State :=
  s.modMem fun m => { m with accs := m.accs.filter fun e => !(e.gid == a.gid && e.iss == a.iss && e.lane == a.lane) }

/-- A late fault of a lane's access (R51, R238, R250): park, kernel fault, or, for the line operations that raise none, no effect
but their status. -/
def State.lateFault (s : State) (a : Acc) (code : Byte) (va : Nat) : State :=
  let s1 := s.dropLane a
  let fin := fun (s : State) => match a.oid with
    | some o => s.endResult a.gid o
    | none => s
  match a.kind with
  | .pref => s1
  | .cinv => s1
  | .cwb => s1
  | .cwbinv => s1
  | .unlock => fin (s1.bring a.gid (a.oid.getD 0) (statusWrites a.mask a.d stOk))
  | _ =>
    if parkCode code then fin (s1.parkLanes a code va)
    else match s1.group? a.gid with
      | some g => s1.groupKernelFault g code a.pc a.mask va
      | none => s1

/-! ## Walks (R347) -/

/-- The region and page of an address in a context (R342, R343). -/
def State.pageOf (s : State) (ctx va : Nat) : Nat × Nat :=
  match s.ctx? ctx with
  | none => (64, va / 4096)
  | some c => match s.region? c va with
    | some e => (e.idx, (va - e.vbase) / 2 ^ pageShift e.pgsz)
    | none => (64, va / 4096)

/-- A miss joins the walk for its page on the die, or adds one: in order of arrival, those of one mesh cycle by requester (R192, R347). -/
def State.addWalk (s : State) (die core ctx va : Nat) (rd wr : Bool) : State :=
  let p := s.pageOf ctx va
  if s.mem.walks.any fun w => w.die == die && w.ctx == ctx && w.region == p.1 && w.page == p.2 then s
  else
    let w : Walk := { wid := s.nextId, die := die, core := core, ctx := ctx, region := p.1, page := p.2, va := va, rd := rd, wr := wr,
                      walking := false, at_ := s.meshOn die }
    ({ s with nextId := s.nextId + 1 }).modMem fun m => { m with walks := insertBy (fun x => 256 * x.at_ + rankOf die x.core die) w m.walks }

/-- The miss of an access put to the walk units. -/
def State.missWalk (s : State) (a : Acc) : State :=
  s.addWalk a.die a.core (s.accCtx a) (s.firstBad a) a.kind.needs.1 a.kind.needs.2

/-! ## The entry of a RED (R105, R248, R249) -/

/-- One combining or applying step of a RED (R105, R247): minor and operands as words. -/
def redStep (minor : Nat) (a b : List W32) : List W32 :=
  let x := (a.getD 0 0)
  let y := (b.getD 0 0)
  let f := fun (r : Nat × BitVec 5) => [BitVec.ofNat 32 r.1]
  match minor with
  | 0 => [x + y]
  | 1 => f (fp32.add x.toNat y.toNat)
  | 2 => [BitVec.ofNat 32 ((bf16.add (x.toNat % 65536) (y.toNat % 65536)).1 + 65536 * (bf16.add (x.toNat / 65536) (y.toNat / 65536)).1)]
  | 3 => f (fp32.minMax true false x.toNat y.toNat)
  | 4 => f (fp32.minMax true true x.toNat y.toNat)
  | _ =>
    let p := x.toNat + 2 ^ 32 * (a.getD 1 0).toNat + y.toNat + 2 ^ 32 * (b.getD 1 0).toNat
    [BitVec.ofNat 32 p, BitVec.ofNat 32 (p / 2 ^ 32)]

/-- Whether an access of a RED lies under a held entry's key (R248). -/
def RedEntry.keyOf (e : RedEntry) (a : Acc) : Bool :=
  match a.kind with
  | .redIn k _ _ => !e.rel && e.minor == k && e.seg == a.seg && e.va == a.va && e.scp == a.scp && e.stream == a.stream && e.cp == a.cp
  | _ => false

/-- The operand of a RED's access. -/
def AccKind.operand : AccKind → List W32
  | .redIn _ ops _ => ops
  | _ => []

def AccKind.redMinor : AccKind → Nat
  | .redIn k _ _ => k
  | _ => 0

/-- The operands of one RED grouped by address and combined in ascending lane order (R248 steps 1 and 2), addresses in the order
of their lowest lanes. -/
def combineReds (as : List Acc) : List (Acc × List W32) :=
  let one := fun (r : List (Acc × List W32)) (a : Acc) =>
    if r.any (fun x => x.1.va == a.va) then
      mapIf (fun x => x.1.va == a.va) (fun x => (x.1, redStep a.kind.redMinor x.2 a.kind.operand)) r
    else r ++ [(a, a.kind.operand)]
  as.foldl one []

/-- One combined operand put into the atomic buffer (R248 step 3, R249): merged, or a new entry after an early drain of the
oldest when all 8 are held. -/
def State.enterRed (s : State) (gid : Nat) (x : Acc × List W32) : State :=
  let a := x.1
  let merge := fun (e : RedEntry) => { e with val := redStep e.minor e.val x.2 }
  match s.group? gid with
  | none => s
  | some g =>
    if g.reds.any fun e => e.keyOf a then s.modGroup gid fun g => { g with reds := mapIf (fun e => e.keyOf a) merge g.reds }
    else
      let s1 := if 8 ≤ g.reds.length then s.applyReds gid 1 true else s
      let e : RedEntry := { minor := a.kind.redMinor, seg := a.seg, va := a.va, scp := a.scp, stream := a.stream, cp := a.cp,
                            ru := a.ru, rr := a.rr, val := x.2, places := a.places.getD [], created := a.aid, rel := a.ord == 2 }
      s1.modGroup gid fun g => { g with reds := g.reds ++ [e] }

/-- Every held entry of a group applied (R249). -/
def State.flushAll (s : State) (gid : Nat) : State := s.flushReds gid (((s.group? gid).map fun g => g.reds.length).getD 0)

/-- The lanes of a RED whose addresses are all translated enter the buffer (R248). One with ord=rel is a flush point (R224, R249). DEDUCED
(log 162): the entries held before it are applied first and its own are new ones, applied after them, since R224 has it applied after the
earlier entries, and a merge would not move an entry (R320). -/
def State.enterReds (s : State) (gid iss : Nat) : State :=
  let mine := fun (a : Acc) => a.gid == gid && a.iss == iss && a.kind.isRedIn
  let as := sortBy (fun a => a.lane) (s.mem.accs.filter mine)
  if as.isEmpty then s
  else
    let s1 := s.modMem fun m => { m with accs := m.accs.filter fun a => !(mine a) }
    let rel := as.any fun a => a.ord == 2
    let s2 := (combineReds as).foldl (fun s x => s.enterRed gid x) (if rel then s1.flushAll gid else s1)
    if rel then s2.flushAll gid else s2

/-! ## Early drain (R249) and the end of translation -/

/-- How many of a group's held entries an access forces out: those up to the newest that overlaps it (R249). -/
def State.drainCount (s : State) (g : Group) (a : Acc) : Nat :=
  let meets := fun (e : RedEntry) => s.overlaps a (e.toAcc g a.ctx 0)
  match (List.range g.reds.length).reverse.find? (fun i => (g.reds[i]?).any meets) with
  | some i => i + 1
  | none => 0

/-- Whether an access makes overlapping entries drain (R249). -/
def AccKind.drains : AccKind → Bool
  | .load _ => true | .lds _ => true | .store _ => true | .atom _ _ _ _ => true | _ => false

/-- The translation of an issue's accesses is complete: overlapping entries are applied before them (R249), REDs enter the
buffer. -/
def State.settle (s : State) (gid iss : Nat) : State :=
  match s.group? gid with
  | none => s
  | some g =>
    let mine := fun (a : Acc) => a.gid == gid && a.iss == iss
    let as := s.mem.accs.filter mine
    if as.any fun a => !a.found then s.modGroup gid fun g => { g with blocked := some .walk }
    else
      let n := (as.filter fun a => a.kind.drains).foldl (fun n a => max n (s.drainCount g a)) 0
      let s1 := if n = 0 then s
        else ((s.modMem fun m => { m with accs := m.accs.filter fun a => !(mine a) }).applyReds gid n true).addAccs as
      let after := if as.any fun a => a.kind == .semAcq then some (Block.semWord 0 0 0) else none
      let s2 := if g.blocked = some .walk || after.isSome then s1.modGroup gid fun g => { g with blocked := after } else s1
      s2.enterReds gid iss

/-! ## The issue of a memory instruction -/

/-- One lane's parts translated without a walk, added, or faulted (R238). A lane whose parts meet a fault adds none. -/
def State.startLane (s : State) (as : List Acc) : State :=
  let tried := as.map fun a => (a, s.tryAcc a)
  let bad := tried.findSome? fun t => match t.2 with
    | .fault f => some (t.1, f)
    | _ => none
  match bad with
  | some (a, f) => s.lateFault a f (s.firstBad a)
  | none =>
    let got := tried.map fun t => match t.2 with
      | .done a => a
      | _ => t.1
    let s1 := s.addAccs got
    (got.filter fun a => a.places.isNone).foldl (fun s a => s.missWalk a) s1

/-- The band's advance count raised by a memory instruction (R399). -/
def State.countAdvance (s : State) (g : Group) : State := s.modBand g.band fun b => { b with adv := b.adv + 1 }

/-- The lanes' accesses of one issue started, lane after lane, and settled. `iss` names the issue. -/
def State.startAll (s : State) (c : Issue) (g : Group) (iss : Nat) (lanes : List (List Acc)) : State :=
  let go := fun (s : State) (as : List Acc) => if (s.group? c.gid).isNone then s else s.startLane as
  (lanes.foldl go (s.countAdvance g)).settle c.gid iss

/-- A memory instruction of every lane: its checks, then its accesses (R235 to R238). `kind` gives a part's kind from lane, first
byte and length, `res` says whether it has a result. -/
def State.memIssue (s : State) (c : Issue) (g : Group) (m : Attr) (d a b n : Nat) (strict wr res : Bool)
    (kind : Nat → Nat → Nat → AccKind) : State :=
  let va := fun l => (g.lane l).ea m a b n
  match s.memCheck g c.mask m n strict wr va with
  | some (f, v) => s.takeTrap c g f 0 (BitVec.ofInt 64 v)
  | none =>
    let iss := s.nextId
    let s0 := { s with nextId := s.nextId + 1 }
    let oid := if res then some s0.nextId else none
    let s1 := if res then s0.postAwait c g .memory else s0
    let lanes := (lanesOf c.mask).map fun l =>
      s1.laneAccs c g m oid iss l (1#32 <<< l) d (va l).toNat n (kind l)
    let s2 := s1.startAll c g iss lanes
    match oid with
    | some o => s2.endResult c.gid o
    | none => s2

/-- Bytes of a lane's registers from V[d] (R239). -/
def Lane.regBytes (l : Lane) (d n : Nat) : List Byte :=
  (wordBytes ((List.range ((n + 3) / 4)).map fun k => l.rv (d + k))).take n

end Sys2Proof.Machine
end

