-- ==== Sys2Proof/Machine/Queues.lean ====
section
/-!
DEFINITION. Named queues (R325 to R328) and work queues (R329 to R332): service, waiters, and the instructions QOP and WQ.
-/
namespace Sys2Proof.Machine

/-! ## Named queues (R325 to R327) -/

/-- A named queue as a band starts with it (R325). -/
def NamedQ.new (band q : Nat) : NamedQ :=
  { band := band, q := q, slots := List.replicate 256 0, head := 0, occ := 0, allow := 0, pushW := [], popW := [] }

def State.namedQ (s : State) (band q : Nat) : NamedQ :=
  (s.named.find? fun x => x.band == band && x.q == q).getD (NamedQ.new band q)

def State.modNamed (s : State) (band q : Nat) (f : NamedQ → NamedQ) : State :=
  { s with named := f (s.namedQ band q) :: s.named.filter fun x => !(x.band == band && x.q == q) }

/-- Words appended, one unit of allowance used for each (R326). -/
def NamedQ.put (x : NamedQ) (vs : List W32) : NamedQ :=
  let at_ := fun (sl : List W32) (i : Nat) => sl.set ((x.head + x.occ + i) % 256) (vs.getD i 0)
  { x with slots := (List.range vs.length).foldl at_ x.slots, occ := x.occ + vs.length, allow := x.allow - vs.length }

/-- The `k` oldest words (R326). -/
def NamedQ.front (x : NamedQ) (k : Nat) : List W32 := (List.range k).map fun i => x.slots.getD ((x.head + i) % 256) 0

/-- The `k` oldest words removed (R326). -/
def NamedQ.take (x : NamedQ) (k : Nat) : NamedQ := { x with head := (x.head + k) % 256, occ := x.occ - k }

/-- A grant of allowance, its excess discarded (R326). -/
def NamedQ.grant (x : NamedQ) (n : Nat) : NamedQ := { x with allow := min (x.allow + n) (256 - x.occ) }

/-- The lanes' words of a push. -/
def QOp.pushed (o : QOp) : List W32 := o.vals.map fun v => v.getD 0 0

/-- A group that waits in a queue operation goes on. -/
def State.wakeQueue (s : State) (gid : Nat) : State :=
  s.modGroup gid fun g => match g.blocked with
    | some (.qpush _) => { g with blocked := none }
    | some (.qpop _) => { g with blocked := none }
    | some (.wqDeq _) => { g with blocked := none }
    | some (.wqEnqw _ _) => { g with blocked := none }
    | _ => g

/-- A queue operation that ends: its result, if it has one, comes, and a group that it holds goes on. -/
def State.endQueue (s : State) (o : QOp) (ws : List RegWrite) : State :=
  let s1 := match o.oid with
    | some i => s.deliver o.gid i ws
    | none => s
  if o.kind.blocks then s1.wakeQueue o.gid else s1

/-- Whether effects on the group of a waiter are held: then its operation is not served (R324). -/
def State.waiterHeld (s : State) (o : QOp) : Bool :=
  match s.group? o.gid with
  | some g => g.holds
  | none => false

/-- The words that a pop gives its lanes, the lowest lane first (R326). -/
def QOp.popWrites (o : QOp) (vs : List W32) : List RegWrite :=
  (List.range o.lanes.length).map fun i => .v (o.lanes.getD i 0) o.d (vs.getD i 0)

/-- The status of an operation in every lane of Active(g) (R121, R324). -/
def QOp.status (o : QOp) (code : Nat) : List RegWrite := statusWrites o.mask o.st code

/-- Waiting POPs served in order while the queue holds enough (R327). -/
def State.popExam (s : State) (band q : Nat) : Nat → State
  | 0 => s
  | n + 1 =>
    let x := s.namedQ band q
    match x.popW with
    | [] => s
    | o :: r =>
      if o.lanes.length ≤ x.occ ∧ s.waiterHeld o = false then
        let s1 := s.modNamed band q fun x => { x.take o.lanes.length with popW := r }
        (s1.endQueue o (o.popWrites (x.front o.lanes.length))).popExam band q n
      else s

/-- A push served (R326, R327). -/
def State.doPush (s : State) (o : QOp) : State :=
  let s1 := s.modNamed o.band o.q fun x => x.put o.pushed
  let s2 := s1.endQueue o (if o.kind = .tryPush then o.status stOk else [])
  s2.popExam o.band o.q ((s2.namedQ o.band o.q).popW.length)

/-- Waiting PUSHes served in order while the allowance suffices (R327). -/
def State.pushExam (s : State) (band q : Nat) : Nat → State
  | 0 => s
  | n + 1 =>
    let x := s.namedQ band q
    match x.pushW with
    | [] => s
    | o :: r =>
      if o.lanes.length ≤ x.allow ∧ s.waiterHeld o = false then
        ((s.modNamed band q fun x => { x with pushW := r }).doPush o).pushExam band q n
      else s

/-- One operation served at its named queue (R326, R327). -/
def State.serveNamed (s : State) (o : QOp) : State :=
  let x := s.namedQ o.band o.q
  let k := o.lanes.length
  match o.kind with
  | .push =>
    if x.pushW.isEmpty ∧ k ≤ x.allow then s.doPush o else s.modNamed o.band o.q fun x => { x with pushW := x.pushW ++ [o] }
  | .tryPush => if x.pushW.isEmpty ∧ k ≤ x.allow then s.doPush o else s.endQueue o (o.status stFull)
  | .pop =>
    if x.popW.isEmpty ∧ k ≤ x.occ then
      (s.modNamed o.band o.q fun x => x.take k).endQueue o (o.popWrites (x.front k))
    else s.modNamed o.band o.q fun x => { x with popW := x.popW ++ [o] }
  | .tryPop =>
    if x.popW.isEmpty ∧ k ≤ x.occ then
      (s.modNamed o.band o.q fun x => x.take k).endQueue o (o.popWrites (x.front k) ++ o.status stOk)
    else s.endQueue o (o.status stEmpty)
  | .peek =>
    if x.popW.isEmpty ∧ k ≤ x.occ then s.endQueue o (o.popWrites (x.front k) ++ o.status stOk)
    else s.endQueue o (o.status stEmpty)
  | .allow =>
    let s1 := s.modNamed o.band o.q fun x => x.grant ((o.pushed.getD 0 0).toNat)
    s1.pushExam o.band o.q x.pushW.length
  | _ => s

/-! ## Work queues (R329, R330) -/

def State.work? (s : State) (w : Nat) : Option WorkQ := s.work.find? fun x => x.wid == w

def State.modWork (s : State) (w : Nat) (f : WorkQ → WorkQ) : State :=
  { s with work := mapIf (fun x => x.wid == w) f s.work }

/-- The queue that a handle names for a context, if the handle is valid (R329). -/
def State.workOf (s : State) (ctx : Nat) (h : W64) : Option WorkQ :=
  let x := h.toNat
  if bits x 27 5 ≠ 0 ∨ bits x 8 12 ≠ 0 then none
  else s.work.find? fun q => q.die == bits x 24 3 && q.unit == bits x 20 4 && q.queue == bits x 0 8 && q.ctx == ctx && q.key == bits x 32 32

/-- Whether an entry finds room: in the window while the ring is empty, or at the ring's tail (R330). -/
def WorkQ.room (x : WorkQ) : Bool :=
  (decide (x.window.length < 64) && x.rocc == 0) || (decide (x.rocc < x.count) && x.stuck.isNone)

/-- A translation fault of a unit's ring access (R330): an entry of the context's fault queue and a firmware event; the ring waits
for its service. -/
def State.ringStuck (s : State) (x : WorkQ) (code : Byte) (va : Nat) : State :=
  let f : FaultInfo := { ctx := x.ctx, die := x.die, core := 96, gslot := 255, node := 0, lanes := 0, pc := 0, addr := va, signet := 0,
                         orig := 0, code := code, eng := false }
  let s1 := (s.emitUnit x.die 4 x.unit 0 x.ctx 0 0x08 code.toNat).faultRecord f
  (s1.fwEvent x.die code.toNat [BitVec.ofNat 64 x.ctx, BitVec.ofNat 64 va, 96, 255]).modWork x.wid fun x => { x with stuck := some va }

/-- One entry enqueued (R330), if it finds room. -/
def State.workPut (s : State) (w : Nat) (e : List W32) : State × Bool :=
  match s.work? w with
  | none => (s, false)
  | some x =>
    if x.window.length < 64 ∧ x.rocc = 0 then (s.modWork w fun x => { x with window := x.window ++ [e] }, true)
    else if x.room then
      match s.writeGlb x.die unitQueues x.ctx (x.base + 16 * ((x.rhead + x.rocc) % x.count)) (wordBytes e) with
      | (s1, some f) => (s1.ringStuck x f.1 f.2, false)
      | (s1, none) => (s1.modWork w fun x => { x with rocc := x.rocc + 1, ring := x.ring ++ [e] }, true)
    else (s, false)

/-- An entry of the ring as the unit takes it (R330): each 8-byte half is what was enqueued or what stands in memory, a free choice where a store
has changed it. -/
def State.ringEntry (s : State) (was now : List W32) : State × List W32 :=
  if was = now then (s, now)
  else
    let half := fun (i : Nat) => if (Config.freeWord s.free).getLsbD i then (was.drop (2 * i)).take 2 else (now.drop (2 * i)).take 2
    (s.nextFree, half 0 ++ half 1)

/-- Entries moved in order from the ring's head into the window while it has room (R330). -/
def State.workRefill (s : State) (w : Nat) : Nat → State
  | 0 => s
  | n + 1 =>
    match s.work? w with
    | none => s
    | some x =>
      if x.rocc = 0 ∨ 64 ≤ x.window.length ∨ x.stuck.isSome then s
      else match s.readGlb x.die unitQueues x.ctx (x.base + 16 * x.rhead) 16 with
        | (s1, .error f) => s1.ringStuck x f.1 f.2
        | (s1, .ok bs) =>
          let (s2, e) := s1.ringEntry (x.ring.headD []) ((List.range 4).map (wordAt bs))
          (s2.modWork w fun x =>
            { x with window := x.window ++ [e], rhead := (x.rhead + 1) % x.count, rocc := x.rocc - 1, ring := x.ring.drop 1 }).workRefill w n

/-- The head of the window taken, and the window refilled (R330). -/
def State.workTake (s : State) (w : Nat) : State × Option (List W32) :=
  match s.work? w with
  | none => (s, none)
  | some x => match x.window with
    | [] => (s, none)
    | e :: r => ((s.modWork w fun x => { x with window := r }).workRefill w 64, some e)

/-- An entry's words in V[D] to V[D + 3] of a lane (R331, R239). -/
def QOp.entryWrites (o : QOp) (lane : Nat) (e : List W32) : List RegWrite :=
  (List.range 4).map fun i => .v lane (o.d + i) (e.getD i 0)

/-- One lane's status; the lowest lane's is that of LSTAT (R324). -/
def QOp.laneStatus (o : QOp) (lane code : Nat) : List RegWrite :=
  .v lane o.st (BitVec.ofNat 32 code) :: (if lane = lowLane o.mask then [.lstat (BitVec.ofNat 3 code)] else [])

/-- Register writes of a lane that has been served. -/
def State.bringQ (s : State) (o : QOp) (ws : List RegWrite) : State :=
  match o.oid with
  | some i => s.bring o.gid i ws
  | none => s

/-- The acquire of a dequeue, at PACKAGE scope (R332). -/
def State.workAcquire (s : State) (gid : Nat) : State :=
  match s.group? gid with
  | some g => s.l1Invalidate g.die g.core
  | none => s

/-- The end of a lane-wise operation: no lane is left to serve. -/
def State.endWork (s : State) (o : QOp) : State :=
  (match o.oid with
    | some i => s.endResult o.gid i
    | none => s).wakeQueue o.gid

/-- The first waiter that is not held. -/
def State.waiter (s : State) (l : List QOp) : Option QOp := l.find? fun o => !(s.waiterHeld o)

/-- The next lane of a waiting DEQ given an entry (R331). -/
def State.deqLane (s : State) (w : Nat) (o : QOp) : State :=
  match s.workTake w, o.lanes with
  | (s1, some e), l :: ls =>
    let s2 := (s1.workAcquire o.gid).bringQ o (o.entryWrites l e)
    let same := fun (y : QOp) => y.gid == o.gid
    if ls.isEmpty then (s2.modWork w fun x => { x with deqW := x.deqW.filter fun y => !(same y) }).endWork o
    else s2.modWork w fun x => { x with deqW := mapIf same (fun y => { y with lanes := ls }) x.deqW }
  | (s1, _), _ => s1

/-- The next lane of a waiting ENQW enqueued (R331). -/
def State.enqLane (s : State) (w : Nat) (o : QOp) : State :=
  match o.lanes, o.vals with
  | l :: ls, e :: es =>
    let (s1, ok) := s.workPut w e
    if ok then
      let s2 := s1.bringQ o (o.laneStatus l stOk)
      let same := fun (y : QOp) => y.gid == o.gid
      if ls.isEmpty then (s2.modWork w fun x => { x with enqW := x.enqW.filter fun y => !(same y) }).endWork o
      else s2.modWork w fun x => { x with enqW := mapIf same (fun y => { y with lanes := ls, vals := es }) x.enqW }
    else s1
  | _, _ => s

/-- Waiting operations of a work queue served, one lane at a time, the longest waiting first, while they can be (R331, R332); `fuel`
bounds the lanes. -/
def State.workSettle (s : State) (w : Nat) : Nat → State
  | 0 => s
  | n + 1 =>
    match s.work? w with
    | none => s
    | some x =>
      match (if x.window.isEmpty then none else s.waiter x.deqW), (if x.room then s.waiter x.enqW else none) with
      | some o, _ => (s.deqLane w o).workSettle w n
      | none, some o => (s.enqLane w o).workSettle w n
      | none, none => s

/-- Everything that waits at a work queue looked at again. -/
def State.workExam (s : State) (w : Nat) : State :=
  match s.work? w with
  | none => s
  | some x => s.workSettle w ((x.deqW ++ x.enqW).foldl (fun n o => n + o.lanes.length + 1) 1)

/-- The lanes of an ENQ in ascending order: each that finds room enqueues, and the first that does not and every higher lane
receive FULL (R331). -/
def State.enqAll (s : State) (o : QOp) : Bool → List Nat → List (List W32) → State × List RegWrite
  | full, l :: ls, e :: es =>
    let (s1, ok) := if full then (s, false) else s.workPut o.q e
    let (s2, ws) := s1.enqAll o (!ok) ls es
    (s2, o.laneStatus l (if ok then stOk else stFull) ++ ws)
  | _, _, _ => (s, [])

/-- The lanes of a TRYDEQ in ascending order (R331). -/
def State.tryDeqAll (s : State) (o : QOp) : List Nat → State × List RegWrite
  | l :: ls =>
    match s.workTake o.q with
    | (s1, some e) =>
      let (s2, ws) := (s1.workAcquire o.gid).tryDeqAll o ls
      (s2, o.entryWrites l e ++ o.laneStatus l stOk ++ ws)
    | (s1, none) =>
      let (s2, ws) := s1.tryDeqAll o ls
      (s2, o.laneStatus l stEmpty ++ ws)
  | [] => (s, [])

/-- One operation served at its work queue (R331). -/
def State.serveWork (s : State) (o : QOp) : State :=
  match o.kind with
  | .enq =>
    let (s1, ws) := s.enqAll o false o.lanes o.vals
    (s1.endQueue o ws).workExam o.q
  | .tryDeq =>
    let (s1, ws) := s.tryDeqAll o o.lanes
    (s1.endQueue o ws).workExam o.q
  | .deq => (s.modWork o.q fun x => { x with deqW := x.deqW ++ [o] }).workExam o.q
  | .enqw => (s.modWork o.q fun x => { x with enqW := x.enqW ++ [o] }).workExam o.q
  | _ => s

/-! ## LAUNCH at the launcher (R333, R334) -/

/-- An entry of a band's child-launch budget set (R333, R334). -/
def State.setBudget (s : State) (bid entry : Nat) (x : Option Nat) : State :=
  s.modBand bid fun b => { b with budget := b.budget.set entry x }

/-- The argument block of a launch record read once (R333). -/
def State.readArgs (s : State) (die ctx : Nat) (l : Launch) : State × Option (List Byte) :=
  if l.arglen = 0 then (s, some [])
  else match s.readGlb die unitLauncher ctx l.arg l.arglen with
    | (s1, .error _) => (s1, none)
    | (s1, .ok bs) => (s1, some bs)

/-- A LAUNCH at its launcher (R333): the record and its argument block are read and validated, and the child kernel is ready, as from the instant
of the LAUNCH (R309), or the budget entry is released. -/
def State.serveLaunch (s : State) (o : QOp) : State :=
  match s.group? o.gid, s.band? o.band with
  | some g, some b =>
    let refuse := fun (s : State) => (s.setBudget b.bid o.st none).endQueue o (statusWrites o.mask o.d stRefused)
    match s.readLaunch b.die b.ctx o.q with
    | (s1, none) => refuse s1
    | (s1, some l) =>
      match s1.readArgs b.die b.ctx l, s1.kernel? b.kid with
      | (s2, some args), some pk =>
        let needs : Needs := { accs := [(o.gid, o.at_)], mats := o.mats, recs := [] }
        let parent : Parent := .launch pk.kid b.bid o.st o.until_ o.q o.cause
        let (s3, k) := s2.newKernel b.ctx b.die pk.queue pk.prio parent l false args (some needs)
        if s3.gangOk k then
          let held := !o.vals.isEmpty && s3.obs.dbg.any fun d => d.ctx == b.ctx && d.capture
          let s4 := ((s3.modKernel k.kid fun k =>
            { k with captured := held, readyAt := o.since, pend := b.pend.getD o.st 0 % 4096 }).setBudget b.bid o.st
              (some k.kid)).emitGroup g 0x04 (k.signet.toNat % 2 ^ 40)
          s4.endQueue o (statusWrites o.mask o.d stOk)
        else refuse s2
      | (s2, _), _ => refuse s2
  | _, _ => s

/-! ## Operations on their way (R328, R332, R333) -/

/-- A queue operation that releases its group's earlier accesses. -/
def QKind.releases : QKind → Bool
  | .push => true | .tryPush => true | .allow => true | .enq => true | .enqw => true | .launch => true | _ => false

/-- The unit that serves an operation, its die, and the rank of the operation's group there: quadrant, then slot, at a named queue (R327), the
requester order of R192 at a work-queue unit (R332). -/
def State.qopTurn (s : State) (o : QOp) : Option (ServedUnit × Nat × Nat) :=
  if o.kind = .launch then none
  else if o.work then (s.work? o.q).map fun x => (.workUnit x.die x.unit, x.die, rankOf o.die o.core x.die)
  else some (.named o.band o.q, o.die, 65536 * o.quad + o.gslot)

/-- Whether an operation's turn has come at its unit. -/
def State.qopInTurn (s : State) (o : QOp) : Bool :=
  match s.qopTurn o with
  | some (u, die, rank) => s.inTurn u die rank
  | none => true

/-- The turn of an operation taken. -/
def State.qopTake (s : State) (o : QOp) : State :=
  match s.qopTurn o with
  | some (u, die, rank) => s.takeTurn u die rank
  | none => s

/-- The rank of an operation among those that can be served. -/
def State.qopRank (s : State) (o : QOp) : Nat := ((s.qopTurn o).map fun x => x.2.2).getD 0

/-- Whether an operation can be served: those of its group on the same queue have been, its turn has come, and, for a release, its group's
earlier accesses have been performed. -/
def State.queueReady (s : State) (before : List QOp) (o : QOp) : Bool :=
  !(before.any fun x => x.gid == o.gid && x.work == o.work && x.band == o.band && x.q == o.q) &&
  !(o.kind.releases && s.pendingBelow o.gid o.at_) && s.qopInTurn o

/-- The first operation of the lowest rank, of a list, that can be served. -/
def State.firstReady (s : State) : List QOp → List QOp → Option QOp
  | _, [] => none
  | before, o :: r =>
    let later := s.firstReady (before ++ [o]) r
    if s.queueReady before o then
      if later.any fun p => decide (s.qopRank p < s.qopRank o) then later else some o
    else later

/-- The operations on their way that can be served reach their queues, in the order of their ranks and of their issue; `fuel` bounds their
number. -/
def State.queueReleases : Nat → State → State
  | 0, s => s
  | n + 1, s =>
    match s.firstReady [] s.qops with
    | none => s
    | some o =>
      let s1 := ({ s with qops := s.qops.erase o }).qopTake o
      queueReleases n (if o.kind = .launch then s1.serveLaunch o else if o.work then s1.serveWork o else s1.serveNamed o)

/-- A queue operation sent. -/
def State.sendQueue (s : State) (o : QOp) : State := queueReleases (s.qops.length + 1) { s with qops := s.qops ++ [o] }

/-- The queues at which a group waits looked at again, when the group goes on after a halt or a save (R324). -/
def State.examQueues (s : State) (gid : Nat) : State :=
  match s.group? gid with
  | none => s
  | some g =>
    match g.blocked with
    | some (.qpush q) => s.pushExam g.band q ((s.namedQ g.band q).pushW.length)
    | some (.qpop q) => s.popExam g.band q ((s.namedQ g.band q).popW.length)
    | some (.wqDeq w) => s.workExam w
    | some (.wqEnqw w _) => s.workExam w
    | _ => s

/-! ## QOP (R326) -/

/-- A QOP of a declared queue; another raises ILLEGAL. `res` says whether it has a result, `block` what it waits as. -/
def qopIssue (i : Instr) (kind : QKind) (q d st : Nat) (res : Bool) (block : Option Block) (push : Bool) (s : State) : Out :=
  issue i s fun c g =>
    if (s.launchOf g).nq ≤ q then s.takeTrap c g fcIllegal 0 0
    else
      let o : QOp := { gid := g.gid, die := g.die, core := g.core, quad := g.quad, gslot := g.gslot,
                       oid := if res then some s.nextId else none, kind := kind, work := false, band := g.band, q := q,
                       mask := c.mask, lanes := lanesOf c.mask,
                       vals := if push then (lanesOf c.mask).map (fun l => [(g.lane l).rv d]) else [], d := d, st := st,
                       at_ := s.mem.nextAid, mats := [], until_ := 0, since := s.out.elapsed, cause := g.cause }
      let s1 := if res then s.postAwait c g .unit else s
      (match block with
        | some b => s1.modGroup g.gid fun g => { g with blocked := some b }
        | none => s1).sendQueue o

def execQopPush (d b : BitVec 6) (s : State) : Out :=
  qopIssue (.qopPush d b) .push b.toNat d.toNat 0 false (some (.qpush b.toNat)) true s
def execQopPop (d b : BitVec 6) (s : State) : Out :=
  qopIssue (.qopPop d b) .pop b.toNat d.toNat 0 true (some (.qpop b.toNat)) false s
def execQopTrypush (d a b : BitVec 6) (s : State) : Out :=
  qopIssue (.qopTrypush d a b) .tryPush b.toNat d.toNat a.toNat true none true s
def execQopTrypop (d a b : BitVec 6) (s : State) : Out :=
  qopIssue (.qopTrypop d a b) .tryPop b.toNat d.toNat a.toNat true none false s
def execQopAllow (d b : BitVec 6) (s : State) : Out :=
  qopIssue (.qopAllow d b) .allow b.toNat d.toNat 0 false none true s
def execQopPeek (d a b : BitVec 6) (s : State) : Out :=
  qopIssue (.qopPeek d a b) .peek b.toNat d.toNat a.toNat true none false s

/-! ## WQ (R331) -/

/-- The words V[d] to V[d + 3] of a lane. -/
def Lane.quad (l : Lane) (d : Nat) : List W32 := (List.range 4).map fun i => l.rv (d + i)

/-- The statuses REFUSED of a WQ whose handle is not valid. -/
def State.workRefused (s : State) (c : Issue) (g : Group) (st : Nat) : State := s.postUnit c g (statusWrites c.mask st stRefused)

/-- A WQ operation on a queue sent. -/
def State.workSend (s : State) (c : Issue) (g : Group) (x : WorkQ) (kind : QKind) (d st : Nat) (block : Option Block) : State :=
  let o : QOp := { gid := g.gid, die := g.die, core := g.core, quad := g.quad, gslot := g.gslot,
                   oid := some s.nextId, kind := kind, work := true, band := 0, q := x.wid, mask := c.mask,
                   lanes := lanesOf c.mask, vals := (lanesOf c.mask).map (fun l => (g.lane l).quad d), d := d, st := st,
                   at_ := s.mem.nextAid, mats := [], until_ := s.out.elapsed + usToUnits 64,
                   since := s.out.elapsed, cause := g.cause }
  let s1 := s.postAwait c g .unit
  (match block with
    | some b => s1.modGroup g.gid fun g => { g with blocked := some b }
    | none => s1).sendQueue o

def execWqEnq (d a b : BitVec 6) (s : State) : Out :=
  issue (.wqEnq d a b) s fun c g => match s.workOf (s.ctxOf g) (g.rs a.toNat) with
    | none => s.workRefused c g b.toNat
    | some x => s.workSend c g x .enq d.toNat b.toNat none

def execWqDeq (d a : BitVec 6) (s : State) : Out :=
  issue (.wqDeq d a) s fun c g => match s.workOf (s.ctxOf g) (g.rs a.toNat) with
    | none => s.takeTrap c g fcIllegal 0 0
    | some x => s.workSend c g x .deq d.toNat 0 (some (.wqDeq x.wid))

def execWqTrydeq (d a b : BitVec 6) (s : State) : Out :=
  issue (.wqTrydeq d a b) s fun c g => match s.workOf (s.ctxOf g) (g.rs a.toNat) with
    | none => s.workRefused c g b.toNat
    | some x => s.workSend c g x .tryDeq d.toNat b.toNat none

def execWqEnqw (d a b : BitVec 6) (s : State) : Out :=
  issue (.wqEnqw d a b) s fun c g => match s.workOf (s.ctxOf g) (g.rs a.toNat) with
    | none => s.workRefused c g b.toNat
    | some x => s.workSend c g x .enqw d.toNat b.toNat (some (.wqEnqw x.wid (s.out.elapsed + usToUnits 64)))

/-- ENQW_TIMEOUT (R331): the ENQW for which group `ev.id` waits has reached its bound of 64 µs; the lanes still unserved receive
TIMEOUT. -/
def execEnqwTimeout (s : State) : Out :=
  match s.group? s.ev.id with
  | none => .next s
  | some g =>
    match g.blocked with
    | some (.wqEnqw w t) =>
      let mine := fun (o : QOp) => o.gid == g.gid && o.kind == .enqw
      let op := (s.qops.find? mine).orElse fun _ => (s.work? w).bind fun x => x.enqW.find? mine
      match op with
      | some o =>
        if t ≤ s.out.elapsed ∧ g.holds = false then
          let s1 := { s with qops := s.qops.filter fun x => !(mine x) }
          let s2 := s1.modWork w fun x => { x with enqW := x.enqW.filter fun y => !(mine y) }
          .next ((s2.bringQ o (o.lanes.flatMap fun l => o.laneStatus l stTimeout)).endWork o)
        else .next s
      | none => .next s
    | _ => .next s

/-- WQ_REFILL (R330): work queue `ev.id` moves entries from its ring into its window, and its waiters are looked at again. -/
def execWqRefill (s : State) : Out := .next ((s.workRefill s.ev.id 64).workExam s.ev.id)

end Sys2Proof.Machine
end

