-- ==== Sys2Proof/Machine/Stash.lean ====
section
/-!
DEFINITION. Mapped stash ranges (R194 to R196) and the STASH instructions (R251 to R253).
-/
namespace Sys2Proof.Machine

/-- A line of a mapped range filled as a coherent holder: the bytes of physical line `pline` are put into stash line `sline`
(R195). -/
def State.fillStashLine (s : State) (die core sline band ctx pline : Nat) : State :=
  let s1 := s.probeLoad pline
  let data := s1.lineBytes ctx pline
  let l : StashLine := { die := die, core := core, sline := sline, band := band, pline := pline, dirty := false }
  s1.modMem fun m => { m with stash := cellsPut m.stash (stashKey die core (sline * 128)) data, stashLines := m.stashLines ++ [l] }

/-- Whether an access touches a stash line. -/
def Acc.onStashLine (a : Acc) (die core sline : Nat) : Bool :=
  (a.places.getD []).any fun p => match p with
    | .stash d c off => d == die && c == core && off / 128 == sline
    | _ => false

/-- A mapping of a band by its index. -/
def Band.mapAt (b : Band) (i : Nat) : Option Mapping := (b.maps.getD i none)

/-- The index of the mapping that holds a GLB address, and the mapping. -/
def Band.mapOf (b : Band) (g : Nat) : Option (Nat × Mapping) :=
  (List.range 16).findSome? fun i => match b.mapAt i with
    | some m => if m.g ≤ g ∧ g < m.g + m.len then some (i, m) else none
    | none => none

/-- The stash line, within the core, to which a mapping takes a GLB line. -/
def Band.slineOf (b : Band) (m : Mapping) (g : Nat) : Nat := b.stashBase + (m.t + (g - m.g)) / 128

/-- The directory's record of a stash line, if it is not INVALID. -/
def MemState.stashAt (m : MemState) (die core sline : Nat) : Option StashLine :=
  m.stashLines.find? fun l => l.die == die && l.core == core && l.sline == sline

/-- Whether two ranges meet. -/
def rangesMeet (a n b k : Nat) : Bool := decide (a < b + k) && decide (b < a + n)

/-- Whether a range lies in SEG.GLB (R194, R251). -/
def State.inGlb (s : State) (g : Group) (lo : Int) (n : Nat) : Bool :=
  let x := s.segOf g 0
  x.valid && decide ((x.base : Int) ≤ lo) && decide (lo + n ≤ x.limit)

/-- The mapped GLB lines of a band in `[lo, lo + n)`, with their mappings. -/
def Band.mappedIn (b : Band) (lo n : Nat) : List (Nat × Mapping) :=
  (List.range (n / 128)).filterMap fun i => match b.mapOf (lo + 128 * i) with
    | some (_, m) => some (lo + 128 * i, m)
    | none => none

/-- STASH.MAP (R194, R252): the state and the status. -/
def State.stashMapOp (s : State) (g : Group) (b : Band) (lo : Int) (t len : Nat) : State × Nat :=
  match (List.range 16).find? fun i => (b.mapAt i).isNone with
  | none => (s, stNoslot)
  | some i =>
    let n := lo.toNat
    let bad := decide (t % 128 ≠ 0) || decide (len % 128 ≠ 0) || len == 0 || decide (s.stashBytes g < t + len) ||
      !(s.inGlb g lo len) ||
      b.maps.any fun m => match m with
        | some m => rangesMeet m.t m.len t len || rangesMeet m.g m.len n len
        | none => false
    if bad then (s, stRefused)
    else (s.modBand b.bid fun b => { b with maps := b.maps.set i (some { g := n, t := t, len := len }) }, stOk)

/-- A line written back if DIRTY (R196); `stay` keeps it CLEAN in the directory. -/
def State.writeBackLine (s : State) (l : StashLine) (stay : Bool) : State :=
  let same := fun (x : StashLine) => x.die == l.die && x.core == l.core && x.sline == l.sline
  (s.writeBack l).modMem fun m =>
    { m with stashLines := if stay then mapIf same (fun x => { x with dirty := false }) m.stashLines
                           else m.stashLines.filter fun x => !(same x) }

/-- STASH.UNMAP (R196, R252). -/
def State.stashUnmapOp (s : State) (g : Group) (b : Band) (lo : Int) : State × Nat :=
  match (List.range 16).find? (fun i => (b.mapAt i).any fun m => (m.g : Int) == lo) with
  | none => (s, stEmpty)
  | some i =>
    match b.mapAt i with
    | none => (s, stEmpty)
    | some m =>
      if !(s.inGlb g lo 128) then (s, stEmpty)
      else
        let first := b.stashBase + m.t / 128
        let ls := s.mem.stashLines.filter fun l => l.die == b.die && l.core == b.core && decide (first ≤ l.sline) &&
          decide (l.sline < first + m.len / 128)
        let s1 := ls.foldl (fun s l => s.writeBackLine l false) s
        (s1.modBand b.bid fun b => { b with maps := b.maps.set i none }, stOk)

/-- STASH.FLUSH (R252). -/
def State.stashFlushOp (s : State) (b : Band) (lo n : Nat) : State × Nat :=
  let ms := b.mappedIn lo n
  let one := fun (s : State) (x : Nat × Mapping) => match s.mem.stashAt b.die b.core (b.slineOf x.2 x.1) with
    | some l => s.writeBackLine l true
    | none => s
  (ms.foldl one s, if ms.isEmpty then stEmpty else stOk)

/-- STASH.FILL (R252): the state and the status. -/
def State.stashFillOp (s : State) (a : Acc) (b : Band) (lo n : Nat) : State × Nat :=
  let ms := b.mappedIn lo n
  let one := fun (r : State × Nat) (x : Nat × Mapping) =>
    let sl := b.slineOf x.2 x.1
    match r.1.mem.stashAt b.die b.core sl with
    | some _ => r
    | none => match r.1.translate b.die b.core b.ctx x.1 true true false with
      | (s1, .ok pa) => ((s1.fillStashLine b.die b.core sl b.bid b.ctx (pa / 128)).askSlice b.die b.core 0xF#4 (pa / 128) .read b.ctx 0 a.ru
          a.rr, r.2)
      | (s1, .error _) => (s1, stRefused)
  ms.foldl one (s, if ms.isEmpty then stEmpty else stOk)

/-- The word that QUERY writes (R253). -/
def State.stashQueryWord (s : State) (b : Band) (lo : Nat) : W32 :=
  match b.mapOf lo with
  | none => 0xFFFFFF83#32
  | some (i, m) =>
    let st := match s.mem.stashAt b.die b.core (b.slineOf m lo) with
      | none => 0
      | some l => if l.dirty then 2 else 1
    BitVec.ofNat 32 ((m.t + (lo - m.g)) / 128 * 128 + i * 4 + st)

/-- Whether a STASH operation may be served (R195, R251, R252): in the cycles after its arrival, after the STH accesses of its band that
arrived in cycles before, whose fills are in flight, and after the band's STASH operations that arrived before it, those of one cycle by
quadrant and slot. -/
def State.stashReady (s : State) (a : Acc) : Bool :=
  let band := fun (gid : Nat) => (s.group? gid).map fun g => g.band
  let first := fun (e : Acc) => decide (e.turn < a.turn) || (e.turn == a.turn && decide (e.aid < a.aid))
  decide (a.turn / 512 < s.cycleOn a.die) &&
  !(s.mem.accs.any fun e => band e.gid == band a.gid &&
      ((e.kind.isStash && first e) || (e.seg == 1 && decide (e.turn / 512 < a.turn / 512))))

/-- A STASH operation served by the core's stash (R251 to R253). -/
def State.performStash (s : State) (a : Acc) : State :=
  match a.kind, s.group? a.gid with
  | .stashOp k lo t len, some g =>
    let n := (len.toNat + 127) / 128 * 128
    let s0 := s.modMem fun m => { m with accs := m.accs.filter fun x => !(x.aid == a.aid) }
    let (s1, st, extra) := match s.band? g.band with
      | none => (s0, if k = 0 then stRefused else stEmpty, if k = 4 then some 0xFFFFFF83#32 else none)
      | some b =>
        match k with
        | 0 => let r := s0.stashMapOp g b lo t.toNat len.toNat; (r.1, r.2, none)
        | 1 => let r := s0.stashUnmapOp g b lo; (r.1, r.2, none)
        | 2 => if s.inGlb g lo n then let r := s0.stashFlushOp b lo.toNat n; (r.1, r.2, none) else (s0, stEmpty, none)
        | 3 => if s.inGlb g lo n then let r := s0.stashFillOp a b lo.toNat n; (r.1, r.2, none) else (s0, stEmpty, none)
        | _ =>
          if s.inGlb g lo 128 && (b.mapOf lo.toNat).isSome then (s0, stOk, some (s.stashQueryWord b lo.toNat))
          else (s0, stEmpty, some 0xFFFFFF83#32)
    let ws := (match extra with
      | some w => (lanesOf a.mask).map fun l => RegWrite.v l (a.d + 1) w
      | none => []) ++ statusWrites a.mask a.d st
    match a.oid with
    | some o => (s1.bring a.gid o ws).endResult a.gid o
    | none => s1
  | _, _ => s

/-- The issue of a STASH instruction (R251): the lowest active lane acts for the group. -/
def stashIssue (i : Instr) (minor : Nat) (d a b : BitVec 6) (m : Attr) (s : State) : Out :=
  issue i s fun c g =>
    let l := lowLane c.mask
    let ea := (g.lane l).ea m a.toNat b.toNat 128
    let lo := ea - ea % 128
    let oid := s.nextId
    let s1 := (s.countAdvance g).postAwait c g .memory
    let acc := s1.mkAcc c g m (some oid) s1.nextId l c.mask d.toNat 0
      (.stashOp minor lo ((g.lane l).rv d.toNat) ((g.lane l).rv (d.toNat + 1))) 0 0
    ({ s1 with nextId := s1.nextId + 1 }).addAccs [{ acc with places := some [] }]

def execStashMap (d a b : BitVec 6) (m : Attr) (s : State) : Out := stashIssue (.stashMap d a b m) 0 d a b m s
def execStashUnmap (d a b : BitVec 6) (m : Attr) (s : State) : Out := stashIssue (.stashUnmap d a b m) 1 d a b m s
def execStashFlush (d a b : BitVec 6) (m : Attr) (s : State) : Out := stashIssue (.stashFlush d a b m) 2 d a b m s
def execStashFill (d a b : BitVec 6) (m : Attr) (s : State) : Out := stashIssue (.stashFill d a b m) 3 d a b m s
def execStashQuery (d a b : BitVec 6) (m : Attr) (s : State) : Out := stashIssue (.stashQuery d a b m) 4 d a b m s

end Sys2Proof.Machine
end

