-- ==== Sys2Proof/Machine/MemEvents.lean ====
section
/-!
DEFINITION. The events that perform accesses: loads (R197, R215, R239), stores and buffer entries (R214, R224, R322), atomics
(R223, R244 to R246), the line operations (R250), walks (R343, R347), fills and probes of the stash (R195), and memory errors
(R200, R321).
-/
namespace Sys2Proof.Machine

/-! ## After an access -/

/-- What follows when accesses of a group have been performed: an ERET that waited for its frame's stores goes on, supersteps may
complete (R229), SEM.RELs and queue operations reach their slots and queues (R328, R332, R414), and a group that has exited may retire (R234). -/
def State.performed (s : State) (gid : Nat) : State :=
  let s1 := s.modGroup gid fun g =>
    if g.blocked = some .storeFull && !(s.frameStores g) then { g with blocked := none } else g
  let s2 := State.queueReleases s1.qops.length s1.semReleases
  ((s2.sync.bars.filter fun r => r.stepf).foldl (fun s r => s.barTest 2 r.bar) s2).retire gid

/-- The context in which an access reads and writes memory. -/
def State.dataCtx (s : State) (a : Acc) : Nat := s.accCtx a

/-- The physical addresses of an access. -/
def Acc.pas (a : Acc) : List Nat :=
  (a.places.getD []).filterMap fun p => match p with
    | .mem pa => some pa
    | _ => none

/-- The physical lines that an access touches. -/
def Acc.memLines (a : Acc) : List Nat := (a.pas.map fun pa => pa / 128).eraseDups

/-- The request of an access for a line, with its attributes (R197, R204). -/
def State.askFor (s : State) (a : Acc) (line : Nat) (op : SliceOp) (cp : Nat) : State :=
  s.askSlice a.die a.core (if a.kind.isLine then 0xF#4 else secsOf a.pas line) line op (s.dataCtx a) cp a.ru a.rr

/-- Δ of an access at a line's home (R204). -/
def State.deltaFor (s : State) (a : Acc) (line : Nat) : Option Nat := deltaOf a.ru a.rr (s.tau (s.dataCtx a) (homeDie (line * 128)))

/-- The L1 copies of lines that a stash place of an access maps are dropped: the stash holds the line from then on (R195, R215). -/
def State.dropMapped (s : State) (a : Acc) : State :=
  (a.places.getD []).foldl (fun s p => match p, s.locOf p with
    | .stash _ _ _, .mem pa => s.l1DropLine a.die a.core (pa / 128)
    | _, _ => s) s

/-! ## Loads -/

/-- Whether a fence still owes an invalidation of L1 before an access (R222). -/
def Fence.owes (f : Fence) (a : Acc) : Bool := decide (f.at_ ≤ a.aid) && f.inv.getLsbD a.stream

/-- A fence whose invalidation is made before an access: it is owed again while an access that the fence orders before it is not yet
performed, and, where the fence orders each stream on its own, to the other streams (R221, R222). -/
def State.invMade (s : State) (a : Acc) (f : Fence) : Fence :=
  if s.mem.accs.any fun e => !(e.aid == a.aid) && f.orders e a then f
  else { f with inv := if f.each then f.inv &&& ~~~(1#16 <<< a.stream) else 0 }

/-- The invalidation of L1 that an acquire or a fence still owes before an access (R222). -/
def State.invalidateFor (s : State) (a : Acc) : State :=
  if (a.acquires && decide (2 ≤ a.scp)) || (s.fencesOf a.gid).any (fun f => f.owes a) then
    (s.l1Invalidate a.die a.core).modGroup a.gid fun g => { g with fences := mapIf (fun f => f.owes a) (s.invMade a) g.fences }
  else s

/-- Whether a load of a cache policy allocates in L1 (R197); PEER data never does (R189). -/
def Acc.allocL1 (a : Acc) : Bool := (a.cp == 0 || a.cp == 4 || a.cp == 5) && !(a.seg == 4)

/-- One line fetched for a load (R197): from L1, or from its point of coherence with the requests and fills that its policy
makes. What a PEER access reads there, a GLB access does not read older from L1 afterwards (R215). -/
def State.fetchLine (s : State) (a : Acc) (line : Nat) : State :=
  let ctx := s.dataCtx a
  match (if a.seg = 4 then none else s.l1Hit a.die a.core ctx line) with
  | some l =>
    let s1 := s.modLine l fun l => { l with md := l.md.declare (s.sliceClock a.die) (s.deltaFor a line) }
    if a.cp = 4 ∨ a.cp = 5 then s1.askFor a line .read a.cp else s1
  | none =>
    let s1 := (s.probeLoad line).askFor a line .read a.cp
    if a.seg = 4 then s1.l1DropLine a.die a.core line
    else if a.allocL1 then (s1.l1Fill a.die a.core ctx line (s.deltaFor a line)).1 else s1

/-- The byte that a load reads (R215): its group's own store, the core's L1 copy, or the point of coherence. -/
def State.loadByte (s : State) (a : Acc) (p : Place) : Byte :=
  match s.ownStore a.gid a.aid p with
  | some b => b
  | none =>
    let ctx := s.dataCtx a
    match p with
    | .mem pa =>
      match (if a.seg = 4 then none else s.l1Hit a.die a.core ctx (pa / 128)) with
      | some l => l.data.getD (pa % 128) 0
      | none => s.readPlace ctx p
    | _ => s.readPlace ctx p

/-- Bytes that have come for a lane of a result, and its register writes once all have (R239). -/
def State.giveBytes (s : State) (a : Acc) (bs : List Byte) (total : Nat) : State :=
  match a.oid with
  | none => s
  | some o =>
    let put := fun (x : Outst) => { x with got := x.got ++ (List.range bs.length).map fun i => ((a.lane, a.part + i), bs.getD i 0) }
    let s1 := s.modGroup a.gid fun g => { g with outs := mapIf (fun x => x.oid == o) put g.outs }
    if s1.mem.accs.any fun e => e.gid == a.gid && e.oid == some o && e.lane == a.lane then s1
    else
      match (s1.group? a.gid).bind (fun g => g.out? o) with
      | none => s1
      | some x => s1.bring a.gid o (loadWrites a.kind a.lane a.d ((List.range total).map fun i => assoc (a.lane, i) 0 x.got))

/-- The bytes of a load's register access. -/
def AccKind.total : AccKind → Nat
  | .load f => widthBytes f
  | .lds f => widthBytes f
  | .atom _ _ _ n => n
  | _ => 0

/-- Accesses of one issue that return together: `a` and those that read a location that one of them reads (R216); `fuel` bounds
the links. -/
def State.together (s : State) : Nat → List Acc → List Acc
  | 0, as => as
  | fuel + 1, as =>
    let more := s.mem.accs.filter fun e => !(as.any fun x => x.aid == e.aid) && as.any fun x =>
      x.gid == e.gid && x.iss == e.iss && e.kind.isLoad && s.overlaps x e
    if more.isEmpty then as else s.together fuel (as ++ more)

/-- The bytes of a KON access as a launched kernel sees them: those of its argument block are as its LAUNCH read them (R333). -/
def State.argBytes (s : State) (a : Acc) (bs : List Byte) : List Byte :=
  match (s.group? a.gid).bind s.kernelOf? with
  | some k =>
    if a.seg = 3 ∧ k.args.isEmpty = false then
      (List.range bs.length).map fun i =>
        if k.launch.arg ≤ a.va + i ∧ a.va + i < k.launch.arg + k.args.length then k.args.getD (a.va + i - k.launch.arg) 0 else bs.getD i 0
    else bs
  | none => bs

/-- A write to KON as the launched kernel sees it afterwards. -/
def State.argWrite (s : State) (a : Acc) (bs : List Byte) : State :=
  match (s.group? a.gid).bind s.kernelOf? with
  | some k =>
    if a.seg = 3 ∧ k.args.isEmpty = false then
      let put := fun (as : List Byte) (i : Nat) => if k.launch.arg ≤ a.va + i then as.set (a.va + i - k.launch.arg) (bs.getD i 0) else as
      s.modKernel k.kid fun k => { k with args := (List.range bs.length).foldl put k.args }
    else s
  | none => s

/-- The loads of a list performed at one instant. -/
def State.performLoads (s : State) (as : List Acc) : State :=
  let s1 := as.foldl (fun s a => (a.memLines.foldl (fun s l => s.fetchLine a l) (s.invalidateFor a)).dropMapped a) s
  let got := as.map fun a => (a, s1.argBytes a ((a.places.getD []).map fun p => s1.loadByte a p))
  let s2 := s1.dropAccs (as.map fun a => a.aid)
  let s3 := got.foldl (fun s x => s.giveBytes x.1 x.2 x.1.kind.total) s2
  as.foldl (fun s a => (match a.oid with
    | some o => s.endResult a.gid o
    | none => s).performed a.gid) s3

/-- The answer of another module to an access (R189, R238): `ev.bytes`, or the fault `ev.sub`. -/
def State.peerAnswer (s : State) (a : Acc) (k : State → List Byte → State) : State :=
  if s.ev.sub = 0 then k s s.ev.bytes
  else (s.lateFault a (BitVec.ofNat 8 s.ev.sub) (a.va % 2 ^ 47)).performed a.gid

/-! ## Line operations (R250) -/

/-- Dirty copies of a line written to memory and clean afterwards: in the slices, once they have served what waits there, and in the
band's mapped stash (R250). -/
def State.cleanLine (s : State) (band line : Nat) : State :=
  let s1 := match s.mem.stashLines.find? fun l => l.pline == line && l.band == band && l.dirty with
    | some l => s.writeBack l
    | none => s
  let mine := fun (x : StashLine) => x.pline == line && x.band == band
  (s1.drainSet line).modMem fun m => { m with
    stashLines := mapIf mine (fun x => { x with dirty := false }) m.stashLines,
    lines := mapIf (fun l => l.line == line && !(l.level == .l1)) (fun l => { l with dirtySecs := 0 }) m.lines }

/-- CWBINV's invalidation (R250): L1, and the lines of the slices that are neither pinned nor reduction-resident. -/
def State.invalidateLine (s : State) (die core line : Nat) : State :=
  let s1 := s.l1DropLine die core line
  let go := s1.mem.lines.filter fun l => l.line == line && !(l.level == .l1) && !l.md.pin && !l.redres
  go.foldl (fun s l => (if l.level = .l2 ∧ l.md.trial = 1 then s.closeTrial l.md.ctx l.die false else s).dropCacheLine l) s1

/-- CACHE.LOCK of a line (R210, R250), and its status. DESIGN CHOICE (log 153): a line that another band has locked, or another context
pinned, is refused, a case that R210 does not name. -/
def State.lockLine (s : State) (a : Acc) (band line : Nat) : State × Nat :=
  let ctx := s.dataCtx a
  let delta := s.deltaFor a line
  let now := s.sliceClock a.die
  if a.cp = 3 then (s, stRefused)
  else if 2 ≤ a.scp then
    let s1 := s.drainSet line
    let r : SliceReq := { rid := 0, die := homeDie (line * 128), site := homeSite line, at_ := 0, rank := 0, line := line, secs := 0xF#4,
                          op := .read, ctx := ctx, cp := 0, delta := delta, trial := decide (1 ≤ a.ru) && decide (a.ru ≤ 19) }
    let (s2, ok) := (((s1.probeLoad line).drainSet line).sliceAccess r 0 false false).pinL2 r.die r.site line ctx
    (s2, if ok then stOk else stRefused)
  else
    match s.mem.l1Find a.die a.core line with
    | some l =>
      if l.lock = some band then
        (if l.data.isEmpty then (s.l1Fill a.die a.core ctx line delta).1 else s.modLine l fun l => { l with md := l.md.declare now delta }, stOk)
      else if l.lock.isSome then (s, stRefused)
      else
        let s1 := if l.data.isEmpty || !(l.md.ctx == ctx) then (s.l1Fill a.die a.core ctx line delta).1 else s
        (s1.modLine l fun l => { l with lock := some band, md := { (l.md.declare now delta) with pin := true } }, stOk)
    | none =>
      let (s1, ok) := ((s.probeLoad line).askFor a line .read 0).l1Fill a.die a.core ctx line delta
      if ok then
        match s1.mem.l1Find a.die a.core line with
        | some l => (s1.modLine l fun l => { l with lock := some band, md := { l.md with pin := true } }, stOk)
        | none => (s1, stRefused)
      else (s1, stRefused)

/-- CACHE.UNLOCK of a line (R250, R322), and its status. -/
def State.unlockLine (s : State) (a : Acc) (band line : Nat) : State × Nat :=
  if 2 ≤ a.scp then
    let ctx := s.dataCtx a
    let die := homeDie (line * 128)
    let s1 := s.drainSet line
    let (s2, ok) := s1.unpinL2 die (homeSite line) line ctx
    match s2.mem.slLine .msc die (homeSite line) line with
    | some l =>
      if l.redres then
        if l.lock = some ctx then
          (s2.modLine l fun l => { l with redres := false, lock := none, md := { l.md with pin := false } }, if ok then stOk else stRefused)
        else (s2, stRefused)
      else (s2, if ok then stOk else stRefused)
    | none => (s2, if ok then stOk else stRefused)
  else
    match s.mem.l1Find a.die a.core line with
    | some l =>
      if l.lock.isNone then (s, stOk)
      else if l.lock = some band then (s.modLine l fun l => { l with lock := none, md := { l.md with pin := false } }, stOk)
      else (s, stRefused)
    | none => (s, stOk)

/-- A line operation performed (R250). -/
def State.performLineOp (s : State) (a : Acc) : State :=
  let band := ((s.group? a.gid).map fun g => g.band).getD 0
  let line := (a.memLines.head?).getD 0
  let s0 := s.dropAccs [a.aid]
  let status := fun (r : State × Nat) => match a.oid with
    | some o => (r.1.bring a.gid o (statusWrites a.mask a.d r.2)).endResult a.gid o
    | none => r.1
  (match a.kind with
  | .pref => if a.cp = 3 then s0 else s0.fetchLine a line
  | .lock => status (s0.lockLine a band line)
  | .unlock => status (s0.unlockLine a band line)
  | .cinv => s0.l1DropLine a.die a.core line
  | .cwb => s0.cleanLine band line
  | .cwbinv => (s0.cleanLine band line).invalidateLine a.die a.core line
  | _ => s0).performed a.gid

/-! ## The events -/

/-- LOAD_RETURN (R239): access `ev.id` of a load, LDS, prefetch, lock, unlock or STASH operation is performed, and its lane's registers are written
once all its parts have come. Data of another module is the answer `ev.bytes`; that to a RED there, whose address it translates, comes before
the RED enters the buffer (R189, R248). -/
def execLoadReturn (s : State) : Out :=
  match s.mem.accs.find? (fun a => a.aid == s.ev.id) with
  | none => .next s
  | some a =>
    match a.kind with
    | .load _ | .lds _ =>
      if a.elsewhere then
        .next (if s.canPerform a then
          s.peerAnswer a fun s bs =>
            let s1 := ((s.dropAccs [a.aid]).invalidateFor a).giveBytes a ((List.range a.n).map fun i => bs.getD i 0) a.kind.total
            (match a.oid with
              | some o => s1.endResult a.gid o
              | none => s1).performed a.gid
        else s)
      else
        let as := s.together 32 [a]
        .next (if as.all fun x => s.canPerform x then s.performLoads as else s)
    | .redIn k ops false =>
      .next (if a.elsewhere then
        (s.peerAnswer a fun s _ => s.modMem fun m =>
          { m with accs := mapIf (fun x => x.aid == a.aid) (fun x => { x with kind := .redIn k ops true }) m.accs }).settle a.gid a.iss
      else s)
    | .pref | .lock | .unlock => .next (if s.canPerform a then s.performLineOp a else s)
    | .stashOp _ _ _ _ => .next (if s.canPerform a && s.stashReady a then (s.performStash a).performed a.gid else s)
    | _ => .next s

/-- A write's effect on its core's L1 copy (R197, R204): updated under CP 0, 4 and 5, invalidated under the others. -/
def State.l1Written (s : State) (a : Acc) (ws : List (Place × Byte)) (upd : Bool) : State :=
  let ctx := s.dataCtx a
  ws.foldl (fun s w => match w.1 with
    | .mem pa => match s.mem.l1Find a.die a.core (pa / 128) with
      | some l =>
        if upd && a.allocL1 && l.md.ctx == ctx && !l.data.isEmpty then
          s.modLine l fun l => { l with data := l.data.set (pa % 128) w.2, md := l.md.declare (s.sliceClock a.die) (s.deltaFor a (pa / 128)) }
        else s.l1DropLine a.die a.core (pa / 128)
      | none => s
    | _ => s) s

/-- A write performed at its point of coherence (R214): memory or stash, the core's L1, the slices' metadata. -/
def State.performWrite (s : State) (a : Acc) (bs : List Byte) (op : SliceOp) (upd : Bool) : State :=
  let ctx := s.dataCtx a
  let ps := a.places.getD []
  let s1 := ((s.invalidateFor a).writePlaces ctx ps bs).argWrite a bs
  let s2 := (s1.l1Written a (ps.zip bs) upd).dropMapped a
  a.memLines.foldl (fun s l => s.askFor a l op a.cp) s2

/-- STORE_PERFORM (R214, R224, R323): access `ev.id`, a store's, a buffer entry's application or a CWB, CINV or CWBINV, is
performed. -/
def execStorePerform (s : State) : Out :=
  match s.mem.accs.find? (fun a => a.aid == s.ev.id) with
  | none => .next s
  | some a =>
    .next (if s.canPerform a then
      match a.kind with
      | .store bs =>
        if a.elsewhere then s.peerAnswer a fun s _ => (s.dropAccs [a.aid]).performed a.gid
        else ((s.dropAccs [a.aid]).performWrite a bs .write true).performed a.gid
      | .red k v =>
        if a.elsewhere then s.peerAnswer a fun s _ => (s.dropAccs [a.aid]).performed a.gid
        else
          let old := s.argBytes a ((a.places.getD []).map fun p => s.readPlace (s.dataCtx a) p)
          let w := redStep k ((List.range ((a.n + 3) / 4)).map fun i => wordAt old i) v
          ((s.dropAccs [a.aid]).performWrite a (wordBytes w) (if a.cp = 6 ∨ a.cp = 9 then .red else .write) false).performed a.gid
      | .cwb | .cwbinv | .cinv => s.performLineOp a
      | _ => s
    else s)

/-! ## Atomics (R244 to R246) -/

/-- The new value of an atomic (R245, R246), or none where a compare-and-swap fails: major 0x2C or not, minor, operands, old value. -/
def atomNew (x : Bool) (minor : Nat) (ops : List W32) (n w : Nat) : Option Nat :=
  let v := (ops.getD 0 0).toNat
  let val := fun (k : Nat) => leNat (wordBytes ((ops.drop k).take (n / 4)))
  if x then
    match minor with
    | 0 => some v
    | 1 | 2 | 3 => if w = val 0 then some (val (n / 4)) else none
    | 4 => some (fp32.add w v).1
    | 5 => some (fp32.minMax true false w v).1
    | _ => some (fp32.minMax true true w v).1
  else
    match minor with
    | 0 => some ((w + v) % 2 ^ 32)
    | 1 => some (if sx w 32 ≤ sx v 32 then w else v)
    | 2 => some (if sx w 32 ≤ sx v 32 then v else w)
    | 3 => some (min w v)
    | 4 => some (max w v)
    | 5 => some (Nat.land w v)
    | 6 => some (Nat.lor w v)
    | _ => some (Nat.xor w v)

/-- One lane's atomic performed: its read and write adjacent (R214, R223), the old value returned. -/
def State.performAtom (s : State) (a : Acc) : State :=
  match a.kind with
  | .atom x k ops n =>
    let old := s.argBytes a ((a.places.getD []).map fun p => s.readPlace (s.dataCtx a) p)
    let s0 := s.dropAccs [a.aid]
    let s1 := match atomNew x k ops n (leNat old) with
      | some w => s0.performWrite a (leBytes n w) .write false
      | none => a.memLines.foldl (fun s l => (s.probeStore l).askFor a l .read a.cp)
          (((s0.invalidateFor a).l1Written a ((a.places.getD []).zip old) false).dropMapped a)
    s1.giveBytes a old n
  | _ => s

/-- The access of a memory-word semaphore performed (R415). -/
def State.performWord (s : State) (a : Acc) : State :=
  let s0 := s.dropAccs [a.aid]
  let ps := a.places.getD []
  match s0.group? a.gid with
  | none => s0
  | some g =>
    let s1 := match a.kind with
      | .semAcq => s0.wordTry g ps
      | _ =>
        let w := leNat (ps.map fun p => s0.readPlace a.ctx p)
        if w % 2 ^ 32 = 2 ^ 32 - 1 then s0.setStat a.gid stFull
        else
          let s1 := (s0.writePlaces a.ctx ps (leBytes 8 (w + 1))).setStat a.gid stOk
          a.memLines.foldl (fun s l => s.l1DropLine a.die a.core l) s1
    (a.memLines.foldl (fun s l => s.askFor a l .write 0) s1).performed a.gid

/-- ATOM_PERFORM (R223, R244): atomic `ev.id` is performed with those of its issue that lie in its 128-byte line, in ascending lane
order. -/
def execAtomPerform (s : State) : Out :=
  match s.mem.accs.find? (fun a => a.aid == s.ev.id) with
  | none => .next s
  | some a =>
    match a.kind with
    | .atom _ _ _ n =>
      if a.elsewhere then
        .next (if s.canPerform a then
          s.peerAnswer a fun s bs =>
            let s1 := ((s.dropAccs [a.aid]).invalidateFor a).giveBytes a ((List.range n).map fun i => bs.getD i 0) n
            (match a.oid with
              | some o => s1.endResult a.gid o
              | none => s1).performed a.gid
        else s)
      else
        let line := fun (x : Acc) => ((x.places.getD []).map fun p => (s.locOf p).line).head?
        let as := sortBy (fun x => x.lane)
          (s.mem.accs.filter fun e => e.gid == a.gid && e.iss == a.iss && e.kind.isAtom && line e == line a)
        .next (if (s.mem.accs.any fun e => e.gid == a.gid && e.iss == a.iss && e.places.isNone) || !(as.all fun x => s.canFollow x) then s
        else
          let s1 := as.foldl (fun s x => s.performAtom x) s
          (match a.oid with
            | some o => s1.endResult a.gid o
            | none => s1).performed a.gid)
    | .semAcq | .semRel => .next (if s.canPerform a then s.performWord a else s)
    | _ => .next s

/-! ## Walks (R343, R347) -/

/-- WALK_START (R347): the oldest miss waiting on the die of walk `ev.id` takes one of its 32 walk units. -/
def execWalkStart (s : State) : Out :=
  match s.mem.walks.find? (fun w => w.wid == s.ev.id) with
  | none => .next s
  | some w =>
    match s.mem.walks.find? (fun x => x.die == w.die && !x.walking) with
    | none => .next s
    | some x =>
      if 32 ≤ (s.mem.walks.filter fun y => y.die == w.die && y.walking).length then .next s
      else .next (s.modMem fun m => { m with walks := mapIf (fun y => y.wid == x.wid) (fun y => { y with walking := true }) m.walks })

/-- The walk's outcome taken by one waiting access (R343, R347). -/
def State.walkFor (s : State) (w : Walk) (aid : Nat) : State :=
  match s.mem.accs.find? (fun a => a.aid == aid) with
  | none => s
  | some a =>
    let ctx := s.accCtx a
    let va := s.firstBad a
    if a.places.isSome || !(a.die == w.die) || !(ctx == w.ctx) || !(s.pageOf ctx va == (w.region, w.page)) then s
    else
      let need := a.kind.needs
      let r := match s.lookup a.die a.core ctx va a.heap need.1 need.2 with
        | .miss => match s.walkEnd a.die a.core ctx va need.1 need.2 with
          | (s1, .ok _) => (s1, none)
          | (s1, .error f) => (s1, some f)
        | .fault f => (s, some f)
        | .hit _ _ => (s, none)
      match r with
      | (s1, some f) => s1.lateFault a f va
      | (s1, none) => match s1.tryAcc a with
        | .done a' => s1.modMem fun m => { m with accs := mapIf (fun x => x.aid == aid) (fun _ => a') m.accs }
        | .wait => s1
        | .fault f => s1.lateFault a f (s1.firstBad a)

/-- WALK_COMPLETE (R343, R345 to R347): walk `ev.id` ends. Every access that waits for its page receives the outcome by its own
needs; groups whose accesses are all translated go on. -/
def execWalkComplete (s : State) : Out :=
  match s.mem.walks.find? (fun w => w.wid == s.ev.id && w.walking) with
  | none => .next s
  | some w =>
    let waiting := s.mem.accs.filter fun a => a.places.isNone && a.die == w.die
    let s0 := s.modMem fun m => { m with walks := m.walks.filter fun x => !(x.wid == w.wid) }
    let s2 := waiting.foldl (fun s a => s.walkFor w a.aid) s0
    let left := s2.mem.accs.filter fun a => a.places.isNone && a.die == w.die
    let s3 := left.foldl (fun s a => s.missWalk a) s2
    .next (((waiting.map fun a => (a.gid, a.iss)).eraseDups).foldl (fun s x => s.settle x.1 x.2) s3)

/-! ## The stash (R195) -/

/-- STASH_FILL_COMPLETE (R195, R343): stash line `ev.id` of core `ev.core` of die `ev.die`, INVALID and waited for, is filled from
its GLB address; a fill that faults parks the touching lanes. -/
def execStashFillComplete (s : State) : Out :=
  let d := s.ev.die
  let c := s.ev.core
  let touch := s.mem.accs.filter fun a => a.onStashLine d c s.ev.id
  match s.mappedLine d c (128 * s.ev.id), touch.head? with
  | some (bid, g, false), some a =>
    let ctx := a.ctx
    match s.translate d c ctx g true true a.kind.writes with
    | (s1, .ok pa) => .next ((s1.fillStashLine d c s.ev.id bid ctx (pa / 128)).askSlice d c 0xF#4 (pa / 128) .read ctx 0 30
        a.rr)
    | (s1, .error f) =>
      let all := match (s1.translate d c ctx g true true false).2 with
        | .error _ => true
        | .ok _ => false
      let hit := touch.filter fun x => all || x.kind.writes
      .next (hit.foldl (fun s x =>
        if s.mem.accs.any fun e => e.aid == x.aid then (s.lateFault { x with seg := 0 } f g).performed x.gid else s) s1)
  | _, _ => .next s

/-- STASH_PROBE (R195): a probe reaches stash line `ev.id` of core `ev.core` of die `ev.die`: one that a load causes (`ev.sub` 0)
leaves it CLEAN, one that a write causes leaves it INVALID; a DIRTY line is first written back. -/
def execStashProbe (s : State) : Out :=
  match s.mem.stashLines.find? (fun l => l.die == s.ev.die && l.core == s.ev.core && l.sline == s.ev.id) with
  | none => .next s
  | some l => .next (if s.ev.sub = 0 then s.probeLoad l.pline else s.probeStore l.pline)

/-! ## Errors (R200, R321) -/

/-- ATOMBUF_PARITY (R321): entry `ev.sub` of the atomic buffer of group `ev.id` fails its parity and is discarded, and the group rolls
back, its newer entries discarded with it. -/
def execAtombufParity (s : State) : Out :=
  match s.group? s.ev.id with
  | none => .next s
  | some g =>
    match g.reds[s.ev.sub]? with
    | none => .next s
    | some e => .next ((s.modGroup g.gid fun g => { g with reds := g.reds.eraseIdx s.ev.sub }).rollback g.gid fcAtombufParity e.va)

end Sys2Proof.Machine
end

