-- ==== Sys2Proof/Machine/Channel.lean ====
section
/-!
DEFINITION. Channels and their handles (R275 to R277), CHAN (R292, R294, R295) and CREC (R296, R297).
-/
namespace Sys2Proof.Machine

/-! ## CHAN (R277, R295) -/

/-- The channel that a handle names for a context, if the handle is valid (R276, R277). -/
def State.chanOf (s : State) (ctx : Nat) (h : W64) : Option Channel :=
  let x := h.toNat
  let coll := bits x 15 1 == 1
  if bits x 16 16 ≠ 0 ∨ bits x 11 4 ≠ 0 ∨ (if coll then 2 else 12) ≤ bits x 4 4 then none
  else s.chans.find? fun c => c.coll == coll && c.die == bits x 8 3 && c.eng == bits x 4 4 && c.chn == bits x 0 4 &&
    c.bound == some (ctx, bits x 32 32)

/-- A head put to a channel's post queue (R295): the state and the status. -/
def State.chanPost (s : State) (c : Channel) (p : Post) : State × Nat :=
  if p.head = 0 ∨ p.head % 64 ≠ 0 then (s, stRefused)
  else if 4 ≤ c.posts.length then (s, stFull)
  else (s.modChan c.cid fun c => { c with posts := c.posts ++ [p] }, stOk)

/-- What comes before the work that a group posts (R225, R226): its own accesses, and what a FENCE.P to the path has named. -/
def State.postNeeds (s : State) (g : Group) (coll : Bool) : Needs :=
  let cls := if coll then 3 else 1
  let own : Needs := { accs := [(g.gid, s.mem.nextAid)], mats := [], recs := [] }
  match g.pathNeeds.find? fun n => n.1 == cls with
  | some n => n.2.join own
  | none => own

/-- The post of a group (R275, R402): a poster that is no initial group names the units of its home group. -/
def State.postOf (s : State) (c : Issue) (g : Group) (coll : Bool) (head : Nat) : Post :=
  { head := head, coll := coll, signet := g.cause, ctx := s.ctxOf g, kid := match s.kernelOf? g with
      | some k => k.kid
      | none => 0,
    band := g.band, gid := g.gid, q := (s.groupQ g).getD (g.lane (lowLane c.mask)).pq, node := none, needs := s.postNeeds g coll }

/-- The barrier record that a handle names for a post (R402), or none. -/
def State.postBar (s : State) (p : Post) (h : Nat) : Option BarRec :=
  let l := match s.kernel? p.kid with
    | some k => k.launch
    | none => Launch.empty
  let t := bits h 4 3
  if bits h 7 57 ≠ 0 ∨ t = 0 ∨ l.tiers.length ≤ t ∨ l.bars.getD t 0 ≤ bits h 0 4 then none
  else match s.band? p.band with
    | some b => s.barFind b l p.q t (bits h 0 4)
    | none => none

/-- The barrier credit of a record whose writes have been performed (R290), if it names a barrier. -/
def State.creditFor (s : State) (r : EngRec) : State :=
  match s.postBar r.post (fieldAt r.raw (if r.coll then 384 else 320) 64) with
  | some b => ({ s with nextId := s.nextId + 1 }).modSync fun y =>
      { y with barMsgs := y.barMsgs ++ [BarMsg.credit s.nextId b.bar r.moved] }
  | none => s

/-- A channel's work that `p` picks cancelled with a fault code (R292): records that stop credit what they wrote. -/
def State.cancelChan (s : State) (cid : Nat) (p : Post → Bool) (code : Byte) : State :=
  match s.chan? cid with
  | none => s
  | some c =>
    let live := c.recs.filter fun r => p r.post && !r.phase.ended
    let ids := live.map fun r => r.rid
    let s1 := live.foldl (fun s r => s.creditFor r) s
    let s2 := s1.modTab fun t => { t with arrivals := t.arrivals.filter fun a => !(ids.contains a.rid) }
    s2.modChan cid fun c => c.cancel p code

/-! ## Turns at an engine (R298) -/

/-- The engine of a channel as a unit that serves requests. -/
def Channel.engine (c : Channel) : ServedUnit := .engine c.coll c.die c.eng

/-- A CHAN served at its channel (R292, R295): the state and the status. -/
def State.chanServe (s : State) (c : Channel) (op : ChanOp) : State × Nat :=
  match op with
  | .post p => if c.coll = p.coll then s.chanPost c p else (s, stRefused)
  | .stat => (s, if c.st == .idle && c.posts.isEmpty then stOk else stBusy)
  | .cancel => (s.cancelChan c.cid (fun _ => true) 0, stOk)

/-- Whether the turn of a CHAN has come at its engine. -/
def State.chanInTurn (s : State) (m : ChanMsg) (c : Channel) : Bool := s.inTurn c.engine c.die (rankOf m.die m.core c.die)

/-- The turn of a CHAN taken. -/
def State.chanTurn (s : State) (m : ChanMsg) (c : Channel) : State := s.takeTurn c.engine c.die (rankOf m.die m.core c.die)

/-- The CHANs on their way that can be served are served, in the order of their ranks (R298); `fuel` bounds their number. -/
def State.chanServes : Nat → State → State
  | 0, s => s
  | n + 1, s =>
    let rank := fun (m : ChanMsg) => ((s.chanOf m.ctx m.handle).map fun c => rankOf m.die m.core c.die).getD 0
    match sortBy rank (s.chanMsgs.filter fun m => (s.chanOf m.ctx m.handle).all (s.chanInTurn m)) with
    | [] => s
    | m :: _ =>
      let s1 := { s with chanMsgs := s.chanMsgs.erase m }
      let r := match s1.chanOf m.ctx m.handle with
        | some c => (s1.chanTurn m c).chanServe c m.op
        | none => (s1, stRefused)
      State.chanServes n (r.1.deliver m.gid m.oid (statusWrites m.mask m.d r.2))

/-- A CHAN (R295, R298): served at once where its turn has come, and otherwise on its way. -/
def chanIssue (i : Instr) (d a : BitVec 6) (op : State → Issue → Group → ChanOp) (s : State) : Out :=
  issue i s fun c g =>
    let fin := fun (s : State) (code : Nat) => s.postUnit c g (statusWrites c.mask d.toNat code)
    let m : ChanMsg := { gid := g.gid, die := g.die, core := g.core, ctx := s.ctxOf g, handle := g.rs a.toNat, op := op s c g, oid := s.nextId,
                         d := d.toNat, mask := c.mask }
    match s.chanOf (s.ctxOf g) (g.rs a.toNat) with
    | none => fin s stRefused
    | some x =>
      if s.chanInTurn m x then
        let r := (s.chanTurn m x).chanServe x m.op
        fin r.1 r.2
      else { (s.postAwait c g .unit) with chanMsgs := s.chanMsgs ++ [m] }

def execChanPost (d a b : BitVec 6) (s : State) : Out :=
  chanIssue (.chanPost d a b) d a (fun s c g => .post (s.postOf c g false (g.rs b.toNat).toNat)) s
def execChanColl (d a b : BitVec 6) (s : State) : Out :=
  chanIssue (.chanColl d a b) d a (fun s c g => .post (s.postOf c g true (g.rs b.toNat).toNat)) s
def execChanStat (d a : BitVec 6) (s : State) : Out := chanIssue (.chanStat d a) d a (fun _ _ _ => .stat) s
def execChanCancel (d a : BitVec 6) (s : State) : Out := chanIssue (.chanCancel d a) d a (fun _ _ _ => .cancel) s

/-! ## CREC (R296, R297) -/

/-- What a look at a ring gives (R297). -/
inductive CrecRes where
  | refused
  | absent
  | present (tail : Nat) (slot : List Byte)
  | fault (code : Byte) (va : Nat)
deriving DecidableEq, Repr

/-- The slot at the TAIL of a ring (R288, R289, R297). -/
def State.crecLook (s : State) (g : Group) (d : Nat) : State × CrecRes :=
  if d % 64 ≠ 0 then (s, .refused)
  else match s.readOwn g d 64 with
    | (s1, .error f) => (s1, .fault f.1 f.2)
    | (s1, .ok bs) =>
      let count := fieldAt bs 64 32
      let tail := fieldAt bs 192 64
      if !(ringCount count) then (s1, .refused)
      else match s1.readOwn g (fieldAt bs 0 64 + 32 * (tail % count)) 32 with
        | (s2, .error f) => (s2, .fault f.1 f.2)
        | (s2, .ok slot) => (s2, if fieldAt slot 255 1 = ringPhase tail count then .present tail slot else .absent)

/-- The copy of a slot to V[d] to V[d + 7] of every lane, and the status (R297). -/
def crecWrites (mask : BitVec 32) (d st : Nat) (slot : List Byte) : List RegWrite :=
  (lanesOf mask).flatMap (fun l => (List.range 8).map fun k => RegWrite.v l (d + k) (wordAt slot k)) ++ statusWrites mask st stOk

/-- The acquire of a POLL or WAIT that returns a record (R226): later accesses see what its transfer wrote. -/
def State.crecAcquire (s : State) (g : Group) : State := s.l1Invalidate g.die g.core

/-- A fault of a CREC (R297): lanes park as for LDS, or a kernel fault. -/
def State.crecFault (s : State) (g : Group) (mask : BitVec 32) (pc : W32) (code : Byte) (va : Nat) : State :=
  if parkCode code then (lanesOf mask).foldl (fun s l => s.parkLane g.gid l pc code (s.ctxOf g) va) s
  else s.groupKernelFault g code pc mask va

/-- A CREC, which issues once the group's earlier stores have been performed (R215); `k` takes what its look at the ring gives. -/
def crecIssue (i : Instr) (a : BitVec 6) (k : Issue → Group → Nat → State → CrecRes → State) (s : State) : Out :=
  issue i s fun c g =>
    let d := (g.rs a.toNat).toNat
    match s.crecLook g d with
    | (s1, .fault f va) => (s1.crecFault g c.mask c.pc f va).stay
    | (s1, r) => k c g d s1 r

/-- CREC.POLL (R297). -/
def execCrecPoll (d a b : BitVec 6) (s : State) : Out :=
  crecIssue (.crecPoll d a b) a (fun c g _ s r => match r with
    | .present _ slot => (s.crecAcquire g).postUnit c g (crecWrites c.mask d.toNat b.toNat slot)
    | .absent => s.postUnit c g (statusWrites c.mask b.toNat stEmpty)
    | _ => s.postUnit c g (statusWrites c.mask b.toNat stRefused)) s

/-- CREC.WAIT (R297): with no slot present the group parks for up to 64 µs. -/
def execCrecWait (d a b : BitVec 6) (s : State) : Out :=
  crecIssue (.crecWait d a b) a (fun c g _ s r => match r with
    | .present _ slot => (s.crecAcquire g).postUnit c g (crecWrites c.mask d.toNat b.toNat slot)
    | .absent => (s.postAwait c g .unit).modGroup g.gid fun g => { g with blocked := some (.crecWait (s.out.elapsed + usToUnits 64)) }
    | _ => s.postUnit c g (statusWrites c.mask b.toNat stRefused)) s

/-- CREC.ACK (R297): TAIL advanced by an atomic at the descriptor. -/
def execCrecAck (a b : BitVec 6) (s : State) : Out :=
  crecIssue (.crecAck a b) a (fun c g d s r => match r with
    | .present tail _ => match s.writeGlb g.die g.core (s.ctxOf g) (d + 24) (leBytes 8 (tail + 1)) with
      | (s1, some f) => (s1.crecFault g c.mask c.pc f.1 f.2).stay
      | (s1, none) => s1.postUnit c g (statusWrites c.mask b.toNat stOk)
    | .absent => s.postUnit c g (statusWrites c.mask b.toNat stEmpty)
    | _ => s.postUnit c g (statusWrites c.mask b.toNat stRefused)) s

/-- The outstanding CREC.WAIT of a group (R297). -/
def Group.crecOut (g : Group) : Option Outst :=
  g.outs.reverse.find? fun o => bits o.w0.toNat 21 6 == 0x38 && bits o.w0.toNat 0 3 == 1 && o.sent

/-- A group's CREC.WAIT looked at again (R297): it returns the slot if it is present, and, when `late` is set, TIMEOUT otherwise. -/
def State.crecExam (s : State) (gid : Nat) (late : Bool) : State :=
  match s.group? gid with
  | none => s
  | some g =>
    match g.blocked, g.crecOut with
    | some (.crecWait _), some o =>
      if g.holds then s
      else
        let w := o.w0.toNat
        let go := fun (s : State) => s.modGroup gid fun g => { g with blocked := none }
        match s.crecLook g (g.rs (bits w 9 6)).toNat with
        | (s1, .present _ slot) => go ((s1.crecAcquire g).deliver gid o.oid (crecWrites o.mask (bits w 15 6) (bits w 3 6) slot))
        | (s1, .fault f va) =>
          (go (s1.modGroup gid fun g => { g with outs := g.outs.filter fun x => !(x.oid == o.oid) })).crecFault g o.mask o.pc f va
        | (s1, .refused) => go (s1.deliver gid o.oid (statusWrites o.mask (bits w 3 6) stRefused))
        | (s1, .absent) => if late then go (s1.deliver gid o.oid (statusWrites o.mask (bits w 3 6) stTimeout)) else s1
    | _, _ => s

/-- Every waiting CREC.WAIT looked at again. -/
def State.crecAll (s : State) : State :=
  let ws := (s.groups.filter fun g => match g.blocked with
    | some (.crecWait _) => true
    | _ => false).map fun g => g.gid
  ws.foldl (fun s i => s.crecExam i false) s

/-- CREC_WAIT_TIMEOUT (R297): group `ev.id` has waited 64 µs in its CREC.WAIT. -/
def execCrecWaitTimeout (s : State) : Out :=
  match (s.group? s.ev.id).bind fun g => g.blocked with
  | some (.crecWait t) => .next (s.crecExam s.ev.id (decide (t ≤ s.out.elapsed)))
  | _ => .next s

end Sys2Proof.Machine
end

