-- ==== Sys2Proof/Machine/Spawn.lean ====
section
/-!
DEFINITION. LAUNCH (R333, R334) and AMSG (R49, R335, R336).
-/
namespace Sys2Proof.Machine

/-! ## LAUNCH (R333) -/

/-- The lowest budget entry of a band that no child holds. -/
def Band.freeEntry (b : Band) : Option Nat := (List.range b.budget.length).find? fun i => (b.budget.getD i none).isNone

/-- LAUNCH (R333): refused or FULL at once, or an entry of the band's budget taken and the launch sent to its launcher. -/
def execLaunch (d a b : BitVec 6) (s : State) : Out :=
  issue (.launch d a b) s fun c g =>
    let r := (g.rs a.toNat).toNat
    let ring := (g.rs b.toNat).toNat
    let fin := fun (code : Nat) => s.postUnit c g (statusWrites c.mask d.toNat code)
    if r = 0 ∨ r % 128 ≠ 0 ∨ ring % 64 ≠ 0 then fin stRefused
    else match s.band? g.band with
      | none => fin stRefused
      | some x =>
        if x.budget.isEmpty then fin stRefused
        else match x.freeEntry with
          | none => fin stFull
          | some e =>
            let o : QOp := { gid := g.gid, die := g.die, core := g.core, quad := g.quad, gslot := g.gslot,
                             oid := some s.nextId, kind := .launch, work := false, band := g.band, q := r, mask := c.mask,
                             lanes := [], vals := if g.dbgHalt then [[1]] else [], d := d.toNat, st := e, at_ := s.mem.nextAid,
                              mats := s.matsOf g.gid, until_ := ring, since := s.out.elapsed, cause := g.cause }
            ((s.postAwait c g .unit).setBudget x.bid e (some 0)).sendQueue o

/-! ## AMSG (R335, R336) -/

/-- The kernel that KSEL selects (R335): the sender's own, or the one whose LAUNCH created it. -/
def State.amsgKernel (s : State) (g : Group) (ksel : Nat) : Option Nat :=
  match ksel, s.kernelOf? g with
  | 0, some k => some k.kid
  | 1, some k => match k.parent with
    | .launch p _ _ _ _ _ => some p
    | _ => none
  | _, _ => none

/-- The message that one lane sends (R335). -/
def State.amsgOf (s : State) (c : Issue) (g : Group) (oid : Nat) (h : Nat) (d b l : Nat) : Msg :=
  { mid := s.nextId, kid := s.amsgKernel g (bits h 40 2), band := bits h 0 32, hidx := bits h 32 8, bad := bits h 42 22 != 0,
    payload := (List.range 16).map (fun i => (g.lane l).rv (b + i)), inb := none, gid := g.gid, die := g.die, core := g.core, sband := g.band, oid := oid,
    d := d, lane := l, low := l == lowLane c.mask, cause := g.cause, needs := s.needsOf g.gid }

/-- AMSG (R335): each lane's message is handed to the sending path, in ascending lane order. -/
def execAmsg (d a b : BitVec 6) (s : State) : Out :=
  issue (.amsg d a b) s fun c g =>
    let oid := s.nextId
    let h := (g.rs a.toNat).toNat
    let send := fun (s : State) (l : Nat) =>
      { s with msgs := s.msgs ++ [s.amsgOf c g oid h d.toNat b.toNat l], nextId := s.nextId + 1 }
    (lanesOf c.mask).foldl send (s.postAwait c g .unit)

/-- A message's status returned to its lane (R335). -/
def State.amsgStatus (s : State) (m : Msg) (code : Nat) : State :=
  let s1 := { s with msgs := s.msgs.filter fun x => !(x.mid == m.mid) }
  let ws : List RegWrite := .v m.lane m.d (BitVec.ofNat 32 code) :: (if m.low then [.lstat (BitVec.ofNat 3 code)] else [])
  let s2 := s1.bring m.gid m.oid ws
  (if s2.msgs.any (fun x => x.oid == m.oid) then s2 else s2.endResult m.gid m.oid).performed m.gid

/-- A handler PC of a kernel's code object, if the code is loaded (R335). -/
def State.handlerOf (s : State) (k : Kernel) (i : Nat) : Option W32 :=
  (s.codeOfKernel k).map fun c => c.handlers.getD i 0xFFFFFFFF

/-- What a message finds at its destination (R335). -/
inductive AmsgDest where
  | refused | absent | suspended (b : Band) | resident (b : Band) (pc : W32)
deriving DecidableEq, Repr

/-- The destination of a message as it is delivered (R335). -/
def State.amsgDest (s : State) (m : Msg) : AmsgDest :=
  if m.bad then .refused
  else match m.kid with
    | none => .refused
    | some i => match s.kernel? i with
      | none => .absent
      | some k =>
        if k.launch.bandCount ≤ m.band then .refused
        else match s.handlerOf k m.hidx with
          | none => .absent
          | some pc =>
            if badPc pc then .refused
            else match s.bands.find? fun b => b.kid == k.kid && b.index == m.band with
              | none => .absent
              | some b =>
                if b.st == .saving || s.tab.divs.any fun x => x.bid == b.bid then .suspended b
                else if b.st == .saved then .suspended b else .resident b pc

/-- A message delivered as a detached record of a resident band (R49). The thread's coordinates below the tier count, which the spec does not
give, are free values; the others are 0 (R31). -/
def State.amsgRecord (s : State) (m : Msg) (b : Band) (pc : W32) : State :=
  let l := ((s.kernel? b.kid).map fun k => k.launch).getD Launch.empty
  let coord := fun (t : Nat) => if t < l.tiers.length then (Config.freeWord (s.free + t)).toNat else 0
  let r : PoolRec :=
    { rid := 0, die := b.die, core := b.core, band := b.bid, pc := pc, v := (m.payload ++ List.replicate 48 (0 : W32)).take l.regs,
      p := 0x80, origin := .detached, coord := (List.range 8).map coord, pq := 0, pl := 0, cause := m.cause, place := .waiting,
      needs := m.needs, scp := scopeBetween m.die m.core b.die b.core, at_ := some 8192, saved := false }
  ({ s with free := s.free + 8 }).newRecord r

/-- Whether a message lies in the inbound buffer of a core (R315). -/
def Msg.inBuffer (m : Msg) (die core : Nat) : Bool := m.inb.any fun x => x.1 == die && x.2.1 == core

/-- A message that arrives in the inbound buffer of a band's core, if one of its 64 places is free (R315). -/
def State.amsgArrive (s : State) (m : Msg) (b : Band) : State :=
  if 64 ≤ (s.msgs.filter fun x => x.inBuffer b.die b.core).length then s
  else { s with msgs := mapIf (fun x => x.mid == m.mid) (fun x => { x with inb := some (b.die, b.core, s.nextId) }) s.msgs, nextId := s.nextId + 1 }

/-- The first message of the inbound buffer of a core, in order of arrival, that can be delivered there (R315). -/
def State.amsgFirst (s : State) (die core : Nat) : Option Nat :=
  let here := fun (m : Msg) => m.inBuffer die core && (match s.amsgDest m with
    | .resident b _ => b.die == die && b.core == core
    | _ => false)
  ((sortBy (fun m => (m.inb.getD (0, 0, 0)).2.2) (s.msgs.filter here)).head?).map fun m => m.mid

/-- Whether no earlier message of the same group to the same band has still to arrive in a buffer before a message (R315). -/
def State.amsgNext (s : State) (m : Msg) : Bool :=
  (s.msgs.find? fun x => x.gid == m.gid && x.kid == m.kid && x.band == m.band && (x.inb.isNone || x.mid == m.mid)) == some m

/-- AMSG_DELIVER (R49, R315, R335, R336): message `ev.id` goes a step on, after the earlier messages of its group to the same band: it arrives in
the inbound buffer of its band's core; the first message there is delivered, once the pool has a free record; one that finds no band is
refused. One for a suspended band waits for its append. -/
def execAmsgDeliver (s : State) : Out :=
  match s.msgs.find? (fun m => m.mid == s.ev.id) with
  | none => .next s
  | some m =>
    if !(s.amsgNext m) then .next s
    else match s.amsgDest m with
      | .refused => .next (s.amsgStatus m stRefused)
      | .absent => .next (s.amsgStatus m stAbsent)
      | .suspended _ => .next s
      | .resident b pc =>
        if !(m.inBuffer b.die b.core) then .next (s.amsgArrive m b)
        else if s.amsgFirst b.die b.core == some m.mid && s.poolHas b.die b.core 1 then .next ((s.amsgRecord m b pc).amsgStatus m stOk)
        else .next s

end Sys2Proof.Machine
end

