-- ==== Sys2Proof/Machine/Launcher.lean ====
section
/-!
DEFINITION. The launcher of a die: submissions and graph nodes (R301 to R304), code objects (R306), buffer handles (R307, R308), the choice
among candidates (R309 to R313), placement and release of bands (R35, R36, R39), completion of tasks (R54).
-/
namespace Sys2Proof.Machine

/-! ## Node records (R303, R307) -/

/-- A handle-use entry (R307): its range, or none when it or its handle is invalid. -/
def State.handleUse (s : State) (die : Nat) (c : Context) (va : Nat) : State × Option (Nat × Nat) :=
  match s.readGlb die unitLauncher c.ctx va 8 with
  | (s1, .error _) => (s1, none)
  | (s1, .ok bs) =>
    let x := leNat bs
    if bits x 26 38 ≠ 0 ∨ bits x 24 2 = 3 ∨ c.handleCount ≤ bits x 0 24 then (s1, none)
    else match s1.readGlb die unitLauncher c.ctx (c.handleTable + 32 * bits x 0 24) 32 with
      | (s2, .error _) => (s2, none)
      | (s2, .ok es) =>
        let base := fieldAt es 0 64
        let len := fieldAt es 64 64
        (s2, if base % 128 = 0 ∧ len % 128 = 0 ∧ fieldAt es 128 128 = 0 then some (base, len) else none)

/-- A node's handle-use list, or none where an entry is invalid. -/
def State.handleUses (s : State) (die : Nat) (c : Context) (va : Nat) : Nat → State × Option (List (Nat × Nat))
  | 0 => (s, some [])
  | n + 1 =>
    match s.handleUse die c va with
    | (s1, none) => (s1, none)
    | (s1, some h) => match s1.handleUses die c (va + 8) n with
      | (s2, none) => (s2, none)
      | (s2, some hs) => (s2, some (h :: hs))

/-- The successor indices of a node that are below the node count, and whether all of them could be read and are. -/
def State.successors (s : State) (die ctx va n count : Nat) : State × List Nat × Bool :=
  match s.readGlb die unitLauncher ctx va (4 * n) with
  | (s1, .error _) => (s1, [], false)
  | (s1, .ok bs) =>
    let xs := (List.range n).map fun i => (wordAt bs i).toNat
    (s1, xs.filter (fun x => decide (x < count)), xs.all fun x => decide (x < count))

/-- Whether a node record's own fields are valid (R303). -/
def nodeOk (bs : List Byte) : Bool :=
  let kind := fieldAt bs 0 4
  fieldAt bs 448 64 == 0 && fieldAt bs 40 24 == 0 && fieldAt bs 11 5 == 0 && fieldAt bs 4 3 == 0 && decide (kind ≤ 4) &&
  (kind == 3 || fieldAt bs 7 1 == 0) && (kind == 1 || kind == 2 || fieldAt bs 320 64 == 0) && decide (fieldAt bs 208 16 ≤ 64) &&
  fieldAt bs 256 64 % 8 == 0 && fieldAt bs 128 64 % 4 == 0 &&
  fieldAt bs 64 64 % (if kind = 0 ∨ kind = 4 then 128 else if kind = 3 then 8 else 64) == 0

/-- A node as its record gives it (R303), with whether it is valid. -/
def State.readNode (s : State) (h : HostQ) (c : Context) (count i : Nat) : State × Node × Bool :=
  let die := h.q % 8
  let blank : Node := { idx := i, kind := 0, evop := false, body := 0, chan := 0, succ := [], preds := 0, st := .waiting, fault := 0, failIdx := 0,
                        handles := [], signet := 0, kid := none, outstanding := 0, readyAt := 0 }
  match s.readGlb die unitLauncher h.ctx (h.base + 64 * i) 64 with
  | (s1, .error _) => (s1, blank, false)
  | (s1, .ok bs) =>
    let n := { blank with kind := fieldAt bs 0 4, evop := fieldAt bs 7 1 == 1, body := fieldAt bs 64 64, chan := BitVec.ofNat 64 (fieldAt bs 320 64),
                          preds := fieldAt bs 16 16 }
    let (s2, succ) := s1.successors die h.ctx (fieldAt bs 128 64) (fieldAt bs 192 16) count
    let (s3, uses) := if fieldAt bs 256 64 = 0 then (s2, some []) else s2.handleUses die c (fieldAt bs 256 64) (fieldAt bs 208 16)
    (s3, { n with succ := succ.1, handles := uses.getD [] }, succ.2 && uses.isSome && nodeOk bs)

/-! ## Nodes that start (R304) -/

/-- Whether a node has ended. -/
def Node.ended (n : Node) : Bool := n.st == .done || n.st == .failed

/-- Submissions of which every node has ended are complete (R301): the queue is free for the next one, and the host is told. -/
def State.settleQueues (s : State) : State :=
  let fin := s.hqs.filter fun h => h.running && h.nodes.all Node.ended
  fin.foldl (fun s h => (s.modHq h.q fun h => { h with running := false }).modOut fun o =>
    { o with sent := o.sent ++ [HostMsg.event 0x102 [BitVec.ofNat 64 h.q]] }) s

/-- A kernel or filler node taken up (R304, R309): its launch record is read and validated, and its kernel is a candidate. -/
def State.startKernel (s : State) (h : HostQ) (n : Node) : State :=
  match s.readLaunch (h.q % 8) h.ctx n.body with
  | (s1, none) => s1.failNode h.q n.idx fcIllegal
  | (s1, some l) =>
    let (s2, k) := s1.newKernel h.ctx (h.q % 8) h.q h.prio (.node h.q n.idx) l (n.kind == 4) [] none
    if s2.gangOk k then s2.setNode h.q n.idx fun n => { n with kid := some k.kid }
    else s1.failNode h.q n.idx fcIllegal

/-- A copy or collective node's chain posted (R304); a FULL queue leaves the node READY, as does an engine whose turn for the
launcher has passed in this cycle (R298). -/
def State.startCopy (s : State) (h : HostQ) (n : Node) : State :=
  match s.chanOf h.ctx n.chan with
  | none => s.failNode h.q n.idx fcIllegal
  | some c =>
    if c.coll != (n.kind == 2) then s.failNode h.q n.idx fcIllegal
    else
      let p : Post := { head := n.body, coll := c.coll, signet := s.freshSignet (h.q % 8) 3 0, ctx := h.ctx, kid := 0, band := 0, gid := 0, q := 0,
                        node := some (h.q, n.idx), needs := Needs.none }
      let rank := rankOf (h.q % 8) unitLauncher c.die
      match (if s.inTurn c.engine c.die rank then (s.takeTurn c.engine c.die rank).chanPost c p else (s, stFull)) with
      | (s1, code) =>
        if code = stOk then (s1.bumpSeq (h.q % 8) 3 0).setNode h.q n.idx fun n => { n with st := .running, outstanding := 1 }
        else if code = stFull then s
        else s.failNode h.q n.idx fcIllegal

/-- Where an event word lies: on this module, at an address of a context, or on another module. -/
inductive EventAt where
  | here (ctx va : Nat)
  | away
  | bad (code : Byte)
deriving DecidableEq, Repr

/-- The place of an event word (R189, R304). DESIGN CHOICE (log 57): a node record does not say whether BODY is a GLB or a PEER address; one in the
context's SEG.GLB is a GLB address, and another a PEER address. -/
def State.eventAt (s : State) (ctx va : Nat) (wr : Bool) : EventAt :=
  let inSeg := fun (c : Context) (a : Nat) =>
    let g := c.segs.getD 0 Segment.zero
    g.valid && decide (g.base ≤ a) && decide (a + 8 ≤ g.limit) && (g.wr || !wr)
  if (s.ctx? ctx).any (fun c => inSeg c va) then .here ctx va
  else if va / 2 ^ 47 % 512 ≠ s.out.device then .away
  else match (s.exporterOf ctx).bind s.ctx? with
    | none => .bad fcPeerUnreachable
    | some e => if inSeg e (va % 2 ^ 47) then .here e.ctx (va % 2 ^ 47) else .bad fcNoMapping

/-- An event node taken up (R304): a wait watches its word; a signal writes 1 to it, and is done when the write is performed, which another
module answers. -/
def State.startEvent (s : State) (h : HostQ) (n : Node) : State :=
  if !n.evop then s.setNode h.q n.idx fun n => { n with st := .running, outstanding := 1 }
  else
    let away := fun (s : State) => s.setNode h.q n.idx fun n => { n with st := .running, outstanding := 1 }
    let fault := fun (s : State) (code : Byte) (ctx va : Nat) =>
      if parkCode code then s.fwEvent (h.q % 8) code.toNat [BitVec.ofNat 64 ctx, BitVec.ofNat 64 va, BitVec.ofNat 64 unitLauncher, 255]
      else s.failNode h.q n.idx code
    match s.eventAt h.ctx n.body true with
    | .away => away s
    | .bad f => fault s f h.ctx n.body
    | .here ctx va => match s.writeGlb (h.q % 8) unitLauncher ctx va (leBytes 8 1) with
      | (s1, none) => s1.doneNode h.q n.idx
      | (s1, some f) => fault s1 f.1 ctx f.2

/-- A READY node that has not been taken up, other than those already tried. -/
def State.readyNode (s : State) (tried : List (Nat × Nat)) : Option (HostQ × Node) :=
  s.hqs.findSome? fun h => (h.nodes.find? fun n => n.st == .ready && n.kid.isNone && n.outstanding == 0 && !(tried.contains (h.q, n.idx))).map
    fun n => (h, n)

/-- The READY nodes of every queue taken up (R304), those that this makes READY among them; `fuel` bounds their number. -/
def State.startReady : Nat → List (Nat × Nat) → State → State
  | 0, _, s => s.settleQueues
  | fuel + 1, tried, s =>
    match s.readyNode tried with
    | none => s.settleQueues
    | some (h, n) =>
      let s1 := match n.kind with
        | 0 => s.startKernel h n
        | 1 => s.startCopy h n
        | 2 => s.startCopy h n
        | 3 => s.startEvent h n
        | _ => s.startKernel h n
      State.startReady fuel ((h.q, n.idx) :: tried) s1

/-- What the launchers take up at once. -/
def State.launchers (s : State) : State := State.startReady ((s.hqs.map fun h => h.nodes.length).sum + 1) [] s

/-! ## Submissions (R301) -/

/-- SUBMISSION_START (R301, R303): queue `ev.id`, OPEN with no submission in progress, starts its next one. Every record is read; invalid
nodes fail, and nodes without predecessors become READY. -/
def execSubmissionStart (s : State) : Out :=
  let s0 := s.settleQueues
  match s0.hq? s.ev.id with
  | none => .next s0
  | some h =>
    match h.waiting, s0.ctx? h.ctx with
    | (base, count) :: rest, some c =>
      if h.running || !(h.st == .open_) then .next s0
      else
        let h1 := { h with base := base, waiting := rest, running := true, nodes := [], signet := s0.freshSignet (h.q % 8) 3 0,
                           wdRemain := h.wdPeriod * 65536000 }
        let s1 := (s0.modHq h.q fun _ => h1).bumpSeq (h.q % 8) 3 0
        let read := fun (r : State × List Nat) (i : Nat) =>
          let (s2, n, ok) := r.1.readNode h1 c count i
          (s2.modHq h.q fun h => { h with nodes := h.nodes ++ [n] }, if ok then r.2 else r.2 ++ [i])
        let (s2, bad) := (List.range count).foldl read (s1, [])
        let s3 := bad.foldl (fun s i => s.failNode h.q i fcIllegal) s2
        let up := fun (s : State) (i : Nat) => s.setNode h.q i fun n =>
          if n.st == .waiting && n.preds == 0 then { n with st := .ready, readyAt := s.out.elapsed } else n
        .next ((List.range count).foldl up s3).launchers
    | _, _ => .next s0

/-- EVENT_WAIT_SATISFIED (R304): the word of the event node `ev.sub` of queue `ev.id` is read for a wait, and a nonzero one completes the node.
Another module's answer is `ev.bytes`, or the fault `ev.lane`, which fails a signal. -/
def execEventWaitSatisfied (s : State) : Out :=
  match s.hq? s.ev.id with
  | none => .next s
  | some h => match h.nodes.find? (fun n => n.idx == s.ev.sub && n.kind == 3 && n.st == .running) with
    | none => .next s
    | some n =>
      let code : Byte := BitVec.ofNat 8 s.ev.lane
      .next (match s.eventAt h.ctx n.body n.evop with
      | .bad _ => s
      | .away =>
        if n.evop then
          if code = fcNoMapping ∨ code = fcPeerUnreachable then (s.failNode h.q n.idx code).launchers
          else if code = 0 then (s.doneNode h.q n.idx).launchers else s
        else if code ≠ 0 ∨ leNat s.ev.bytes = 0 then s
        else (s.doneNode h.q n.idx).launchers
      | .here ctx va =>
        if n.evop then s
        else match s.readGlb (h.q % 8) unitLauncher ctx va 8 with
          | (s1, .error _) => s1
          | (s1, .ok bs) => if leNat bs = 0 then s1 else (s1.doneNode h.q n.idx).launchers)

/-! ## Code objects (R258, R306) -/

/-- Whether code words hold a matrix instruction (R258): a word of major 0x39 or 0x3A that starts an instruction of a legal packet. -/
def codeIsMatrix (ws : List W32) : Bool :=
  (List.range (ws.length / 3)).any fun k =>
    let w := fun i => (ws.getD (3 * k + i) 0).toNat
    match checkPacket (w 0) (w 1) (w 2) with
    | none => false
    | some ms => ms.any fun m =>
      let x := bits (w m.slot) 21 6
      x == 0x39 || x == 0x3A

/-- CODE_OBJECT_LOAD (R306, R335): the code object of kernel `ev.id` and its handler table are read, once for its address and context on the
kernel's die. A page fault waits for firmware; another fault ends the kernel. -/
def execCodeObjectLoad (s : State) : Out :=
  match s.kernel? s.ev.id with
  | none => .next s
  | some k =>
    let mark := fun (s : State) => { s with kernels := mapIf (fun (x : Kernel) => x.die == k.die && x.ctx == k.ctx && x.launch.code == k.launch.code)
                                              (fun x => { x with loaded := true }) s.kernels }
    if k.loaded then .next s
    else match s.readGlb k.die unitLauncher k.ctx k.launch.code (12 * k.launch.clen) with
      | (s1, .error f) =>
        if parkCode f.1 then .next (s1.fwEvent k.die f.1.toNat [BitVec.ofNat 64 k.ctx, BitVec.ofNat 64 f.2, BitVec.ofNat 64 unitLauncher, 255])
        else .next (s1.kernelFault k.kid f.1).settleQueues
      | (s1, .ok bs) =>
        let ws := (List.range (3 * k.launch.clen)).map (wordAt bs)
        let (s2, hs) := match s1.readGlb k.die unitLauncher k.ctx (k.launch.code - 1024) 1024 with
          | (s2, .ok hb) => (s2, (List.range 256).map (wordAt hb))
          | (s2, .error _) => (s2, List.replicate 256 0xFFFFFFFF#32)
        let c : CodeObj := { die := k.die, ctx := k.ctx, addr := k.launch.code, words := ws, handlers := hs, matrix := codeIsMatrix ws }
        .next (mark { s2 with codes := s2.codes ++ [c] })

/-! ## Candidates (R309 to R313) -/

/-- Whether a queue has an outstanding collective (R313). -/
def State.collOutstanding (s : State) (h : HostQ) : Bool :=
  h.nodes.any (fun n => n.kind == 2 && n.st == .running) ||
  s.chans.any fun c => c.coll &&
    let mine := fun (p : Post) => (s.kernel? p.kid).any fun k => k.queue == h.q
    c.posts.any mine || c.cur.any (fun x => mine x.2) || c.doomed.any (fun x => mine x.2.1) || c.recs.any fun r => mine r.post

/-- Whether a filler kernel may be placed, and whether it is an ordinary candidate (R313). -/
def State.fillerOk (s : State) (k : Kernel) : Bool × Bool :=
  match s.hq? k.queue with
  | none => (true, true)
  | some h =>
    let ordinary := !(h.nodes.any fun n => n.kind == 2 && !n.ended)
    (ordinary || s.collOutstanding h, ordinary)

/-- A kernel's place in the launcher's order (R310): fillers last, then priority, age, queue and node or pending-launch entry. -/
def State.candKey (s : State) (k : Kernel) : Nat :=
  let fill := if k.filler && !(s.fillerOk k).2 then 1 else 0
  let idx := match k.parent with
    | .node _ n => n
    | .launch _ _ _ _ _ _ => k.pend
    | .host t => t
    | .boot => 0
  ((((fill * 8 + (7 - k.prio % 8)) * 2 ^ 64 + k.readyAt) * 4096 + k.queue % 4096) * 2 ^ 40 + idx)

/-- The candidates of a die's launcher in its order (R310, R374): loaded kernels with unplaced bands, of contexts that are not held. -/
def State.launchCands (s : State) (die : Nat) : List Kernel :=
  let ok := fun (k : Kernel) => k.die == die && k.loaded && decide (k.placed < k.launch.bandCount) && k.failed.isNone &&
    (!k.filler || (s.fillerOk k).1) &&
    (match s.ctx? k.ctx with
      | some c => !c.held && (match s.part? c.part with
        | some p => !p.resetting
        | none => false)
      | none => false)
  sortBy (fun k => s.candKey k) (s.kernels.filter ok)

/-- Those that a blocking candidate of the die leaves (R311). -/
def State.unblocked (s : State) (die : Nat) (ks : List Kernel) : List Kernel :=
  match s.kernels.find? fun k => k.die == die && k.blocking with
  | none => ks
  | some b => ks.filter fun k => k.kid == b.kid || decide (b.prio < k.prio)

/-- Whether a die's launcher, which would reserve a band of a kernel (R309), places none of its priority, because a candidate blocks there
(R311). -/
def State.closedTo (s : State) (k : Kernel) (die : Nat) : Bool :=
  s.kernels.any fun b => b.die == die && b.blocking && !(b.kid == k.kid) && decide (k.prio ≤ b.prio)

/-- A kernel's next bands' places, if all can be reserved now (R33, R35, R311, R312). -/
def State.placesNow (s : State) (k : Kernel) : Option (List (Nat × Nat × Nat)) :=
  match (s.ctx? k.ctx).bind fun c => s.part? c.part with
  | some p => (s.gangPlaces k ((s.coresOf p).filter fun c => !(s.closedTo k c.1))).map fun l => l.drop k.sites.length
  | none => none

/-- The L1 invalidation before the first band of a node on a core (R308): the lines within its handles, or all of them. -/
def State.nodeInvalidate (s : State) (k : Kernel) (die core : Nat) : State :=
  if k.sites.any fun x => x.2.1 == die && x.2.2 == core then s
  else
    let hs := match k.parent with
      | .node q n => ((s.hq? q).bind fun h => h.nodes.find? fun (x : Node) => x.idx == n).map fun (x : Node) => x.handles
      | _ => none
    match (hs : Option (List (Nat × Nat))) with
    | some (h :: t) =>
      (h :: t).foldl (fun s r => (List.range (r.2 / 128)).foldl (fun s i =>
        match s.translate die core k.ctx (r.1 + 128 * i) true true false with
        | (s1, .ok pa) => s1.l1DropLine die core (pa / 128)
        | (s1, .error _) => s1) s) s
    | _ => s.l1Invalidate die core

/-- A kernel's bands placed (R36): a node's kernel starts running, and a child whose last band is placed returns its budget entry
(R334). -/
def State.placeAll (s : State) (k : Kernel) (places : List (Nat × Nat × Nat)) : State :=
  let one := fun (s : State) (x : Nat × Nat × Nat) =>
    match s.kernel? k.kid with
    | some k => ((s.nodeInvalidate k x.2.1 x.2.2).placeBand k x.1 x.2.1 x.2.2).modKernel k.kid fun k =>
        { k with placed := k.placed + 1, sites := k.sites ++ [x], lastCore := x.2.1 * 97 + x.2.2, blocking := false, passedAt := none,
                 startCycle := k.startCycle.orElse fun _ => some (dieList.map s.cycleOn) }
    | none => s
  let s1 := places.foldl one s
  match k.parent, s1.kernel? k.kid with
  | .node q n, _ => if k.placed = 0 then s1.setNode q n fun n => { n with st := .running } else s1
  | .launch _ b e _ _ _, some k' => if k'.placed = k'.launch.bandCount then s1.setBudget b e none else s1
  | _, _ => s1

/-- The first candidate that can be reserved is placed; those before it are passed over (R36, R310, R311). -/
def State.placeFirst (s : State) : List Kernel → State
  | [] => s
  | k :: ks =>
    match s.placesNow k with
    | some ps => s.placeAll k ps
    | none => (s.modKernel k.kid fun k => { k with passedAt := k.passedAt.orElse fun _ => some s.out.elapsed }).placeFirst ks

/-- BAND_PLACE (R35 to R38, R310): the launcher of die `ev.die` places the bands of the first candidate that it can reserve in full. -/
def execBandPlace (s : State) : Out := .next (s.placeFirst (s.unblocked s.ev.die (s.launchCands s.ev.die)))

/-- BLOCKING_CANDIDATE (R311): on die `ev.die`, with none blocking, the oldest candidate passed over for 100 µs becomes blocking; one that
can never be resident is rejected. -/
def execBlockingCandidate (s : State) : Out :=
  let late := fun (k : Kernel) => match k.passedAt with
    | some t => decide (t + usToUnits 100 ≤ s.out.elapsed)
    | none => false
  if s.kernels.any fun k => k.die == s.ev.die && k.blocking then .next s
  else match (sortBy (fun k => k.readyAt) ((s.launchCands s.ev.die).filter late)).head? with
    | none => .next s
    | some k =>
      if s.everFits k then .next (s.modKernel k.kid fun k => { k with blocking := true })
      else .next (s.kernelFault k.kid fcIllegal).settleQueues

/-! ## Release and completion (R39, R54) -/

/-- Whether everything of a band has ended (R39). -/
def State.bandDone (s : State) (b : Band) : Bool :=
  let mine := fun (p : Post) => p.band == b.bid && p.node.isNone
  b.st == .resident && !(s.groups.any fun g => g.band == b.bid) && !(s.pool.any fun r => r.band == b.bid) &&
  !(s.msgs.any fun m => m.sband == b.bid) && !(s.qops.any fun o => o.band == b.bid && !o.work) &&
  !(s.kernels.any fun k => match k.parent with
    | .launch _ x _ _ _ _ => x == b.bid
    | _ => false) &&
  !(s.chans.any fun c => c.posts.any mine || c.cur.any (fun x => mine x.2) || c.doomed.any (fun x => mine x.2.1) ||
    c.recs.any fun r => mine r.post) &&
  ((s.mats.filter fun u => u.die == b.die && u.core == b.core).all fun u => u.queue.isEmpty || !((s.kernel? b.kid).any fun k => s.isMatrix k))

/-- BAND_RELEASE (R39): the reservation of band `ev.id` is released once everything of the band has ended; of one that has ended with its kernel,
the slots and the stash, once its groups' stores have been performed (R55, R234). -/
def execBandRelease (s : State) : Out :=
  match s.band? s.ev.id with
  | none => .next s
  | some b => .next (if b.st = .dying then (if s.ghostsQuiet b then s.freeBand b else s) else if s.bandDone b then s.releaseBand b else s)

/-- TASK_COMPLETE (R54, R304, R334): kernel `ev.id`, whose bands have all been placed and released and whose children have completed, ends. Its
node is DONE, or its child completion is written. -/
def execTaskComplete (s : State) : Out :=
  match s.kernel? s.ev.id with
  | none => .next s
  | some k =>
    let open_ := s.kernels.any fun x => match x.parent with
      | .launch p _ _ _ _ _ => p == k.kid
      | _ => false
    if decide (k.placed < k.launch.bandCount) || decide (k.released < k.launch.bandCount) || !k.raised.isEmpty || open_ then .next s
    else
      let s1 := s.childRecord k 0 0
      let s2 := { s1 with kernels := s1.kernels.filter fun x => !(x.kid == k.kid) }.dropCodes
      match k.parent with
      | .node q n => .next (((s2.modHq q HostQ.reload).doneNode q n).launchers)
      | .launch _ _ _ _ _ _ => .next s2.crecAll
      | .host t => .next (s2.modOut fun o => { o with sent := o.sent ++ [HostMsg.event 0x101 [BitVec.ofNat 64 t]] })
      | .boot => .next s2

end Sys2Proof.Machine
end

