-- ==== Sys2Proof/Machine/Special.lean ====
section
/-!
DEFINITION. Special and system registers: SREAD and SWRITE (R80, R113 to R120).
-/
namespace Sys2Proof.Machine

/-! ## Values -/

/-- RGNTOP (R111). -/
def Group.rgnTop (g : Group) : Nat :=
  match g.rgn.getLast? with
  | none => 0
  | some e => e.pc.toNat * 2 ^ 32 + (if e.idem then 2 ^ 31 else 0) + g.rgn.length * 2 ^ 27 + e.id.toNat

/-- A host command queue that no QBIND has named (R119, R301). -/
def HostQ.fresh (q : Nat) : HostQ :=
  { q := q, st := .unbound, ctx := 0, prio := 0, wdPeriod := 2000000, wdAction := false, wdRemain := usToUnits 2000000,
    wdHeld := false, dumpFlag := false, dumpBuf := 0, dumpLen := 0, waiting := [], base := 0, nodes := [], signet := 0,
    running := false }

/-- The queue that WDSEL selects (R120). -/
def State.wdQueue (s : State) : HostQ := (s.hq? s.tab.wdsel).getD (HostQ.fresh s.tab.wdsel)

/-- The segment of a context that a system register belongs to. A context that does not exist shows reset values (R119). -/
def State.ctxSeg (s : State) (seg : Nat) : Segment :=
  match s.ctx? s.tab.tgtctx with
  | some c => c.segs.getD seg Segment.zero
  | none => if seg = 1 then { base := 0, limit := 0, valid := true, wr := true } else Segment.zero

/-- The flags register of a segment (R358). -/
def Segment.flags (x : Segment) : Nat := (if x.valid then 1 else 0) + (if x.wr then 2 else 0)

/-- A field of the context that TGTCTX names; 0 where it does not exist. -/
def State.ofTarget (s : State) (f : Context → Nat) : Nat :=
  match s.ctx? s.tab.tgtctx with
  | some c => f c
  | none => 0

/-- The value of a system register (R119, R120). -/
def State.sysReg (s : State) (g : Group) (n : Nat) : Nat :=
  if 0x100 ≤ n ∧ n ≤ 0x112 then
    let x := s.ctxSeg ((n - 0x100) / 4)
    if n % 4 = 0 then (if n = 0x104 then 0 else x.base) else if n % 4 = 1 then (if n = 0x105 then 0 else x.limit) else x.flags
  else if n = 0x118 then s.ofTarget fun c => c.heapBase
  else if n = 0x119 then s.ofTarget fun c => c.heapLim
  else if n = 0x11A then s.ofTarget fun c => c.heapOff
  else if n = 0x120 then s.ofTarget fun c => c.rafbase.toNat
  else if n = 0x121 then s.ofTarget fun c => c.trapvec.toNat
  else if n = 0x122 then s.ofTarget fun c => c.keyslot.getD 0
  else if n = 0x123 then g.tfp.toNat
  else if n = 0x128 then assoc g.die 0 s.tab.divwin
  else if n = 0x129 then (assoc g.die 0 s.tab.rtwin).toNat
  else if n = 0x130 then s.tab.wdsel
  else if n = 0x131 then s.wdQueue.wdPeriod
  else if n = 0x132 then (if s.wdQueue.wdAction then 1 else 0)
  else if n = 0x133 then s.wdQueue.wdRemain / usToUnits 1
  else if n = 0x138 then (if s.out.locked then 1 else 0)
  else if n = 0x13F then s.tab.tgtctx
  else 0

/-- CYCLE (R113, R114): cycles since band 0 of the kernel was placed. -/
def State.cycleOf (s : State) (g : Group) : Nat :=
  match s.kernelOf? g with
  | some k => match k.startCycle with
    | some c => s.cycleOn g.die - c.getD g.die 0
    | none => 0
  | none => s.cycleOn g.die

/-- A field of the group's band; 0 for a group of none. -/
def State.ofBand (s : State) (g : Group) (f : Band → Nat) : Nat :=
  match s.band? g.band with
  | some b => f b
  | none => 0

/-- The value of a special register in a lane, as a number (R31, R113). -/
def State.special (s : State) (g : Group) (l n : Nat) : Nat :=
  if n = 0 then l
  else if n = 1 then g.gslot
  else if 8 ≤ n ∧ n < 16 then (g.lane l).coord.getD (n - 8) 0 % 2 ^ 16
  else if 16 ≤ n ∧ n < 24 then
    match (s.launchOf g).tiers[n - 16]? with
    | some t => t.count % 2 ^ 16
    | none => 1
  else if n = 0x18 then g.core
  else if n = 0x19 then g.die
  else if n = 0x1A then s.out.device
  else if n = 0x1B then s.ctxOf g
  else if n = 0x1C then (match s.ctx? (s.ctxOf g) with | some c => c.part | none => 0)
  else if n = 0x20 then s.ofBand g fun b => b.rclk.toNat
  else if n = 0x21 then s.ofBand g fun b => b.rrate.toNat
  else if n = 0x2A then s.cycleOf g
  else if n = 0x30 then g.cause.toNat
  else if n = 0x31 then g.rgnTop
  else if n = 0x32 then g.gst.toNat
  else if n = 0x33 then g.ejt
  else s.sysReg g n

/-- The special registers that differ between lanes (R113). -/
def perLane (n : Nat) : Bool := n == 0 || (decide (8 ≤ n) && decide (n < 16))

/-- The writes of an SREAD from the value in each lane (R116). -/
def sreadWrites (d : BitVec 6) (k h : BitVec 1) (mask : BitVec 32) (f : Nat → Nat) : List RegWrite :=
  if k = 1 then [.s d.toNat (BitVec.ofNat 64 (f (lowLane mask)))]
  else lanesDo mask fun l => [.v l d.toNat (BitVec.ofNat 32 (if h = 1 then f l / 2 ^ 32 else f l))]

/-! ## SREAD -/

/-- SREAD (R116); a system register raises PRIV outside firmware mode (R80). -/
def execSread (d : BitVec 6) (k h : BitVec 1) (n : BitVec 9) (s : State) : Out :=
  issue (.sread d k h n) s fun c g =>
    if 0x100 ≤ n.toNat ∧ g.firmware = false then s.takeTrap c g fcPriv 0 0
    else s.postFixed c g 4 (sreadWrites d k h c.mask fun l => s.special g l n.toNat)

/-- SREAD of TIME (R114): the fraction of the sample is latched. -/
def execSreadTime (d : BitVec 6) (k h : BitVec 1) (s : State) : Out :=
  issue (.sreadTime d k h) s fun c g =>
    (s.postFixed c g 4 (sreadWrites d k h c.mask fun _ => s.timeOn g.die / 65536)).modGroup c.gid fun g =>
      { g with timeLatch := some (BitVec.ofNat 16 (s.timeOn g.die)) }

/-- SREAD of TIMEF (R114): the latched fraction, which clears the latch, or that of a fresh sample. -/
def execSreadTimef (d : BitVec 6) (k h : BitVec 1) (s : State) : Out :=
  issue (.sreadTimef d k h) s fun c g =>
    let f := match g.timeLatch with
      | some x => x.toNat
      | none => s.timeOn g.die % 65536
    (s.postFixed c g 4 (sreadWrites d k h c.mask fun _ => f)).modGroup c.gid fun g => { g with timeLatch := none }

/-! ## SWRITE -/

/-- The value that an SWRITE brings to a register that holds `old` (R80, R117). -/
def Group.swriteValue (g : Group) (mask : BitVec 32) (d : BitVec 6) (k h : BitVec 1) (wide : Bool) (old : Nat) : Nat :=
  if k = 1 then (g.rs d.toNat).toNat
  else
    let v := ((g.lane (lowLane mask)).rv d.toNat).toNat
    if wide then (if h = 1 then v * 2 ^ 32 + old % 2 ^ 32 else old / 2 ^ 32 * 2 ^ 32 + v) else v

/-- The queue that WDSEL selects changed; an unbound queue gets a record. -/
def State.modWd (s : State) (f : HostQ → HostQ) : State :=
  match s.hq? s.tab.wdsel with
  | some _ => s.modHq s.tab.wdsel f
  | none => { s with hqs := s.hqs ++ [f (HostQ.fresh s.tab.wdsel)] }

/-- A value clamped to the range of WDPERIOD (R119, R120). -/
def clampPeriod (v : Nat) : Nat := min (max v 1000) 60000000

/-- A write of a system register other than RAFBASE and CLKMODE (R119, R120). -/
def State.sysWrite (s : State) (g : Group) (n v : Nat) : State :=
  if n = 0x121 then s.modCtx s.tab.tgtctx fun c => { c with trapvec := BitVec.ofNat 64 v }
  else if n = 0x123 then s.modGroup g.gid fun g => { g with tfp := BitVec.ofNat 64 v }
  else if n = 0x128 then s.modTab fun t => { t with divwin := assocSet g.die (v % 16) t.divwin }
  else if n = 0x129 then s.modTab fun t =>
    { t with rtwin := assocSet g.die (BitVec.ofNat 32 v &&& 0xC07F007F#32) t.rtwin }
  else if n = 0x130 then s.modTab fun t => { t with wdsel := v % 4096 }
  else if n = 0x131 then s.modWd fun q => { q with wdPeriod := clampPeriod (v % 2 ^ 32) }
  else if n = 0x132 then s.modWd fun q => { q with wdAction := v % 2 == 1 }
  else if n = 0x13F then s.modTab fun t => { t with tgtctx := v % 256 }
  else s

/-- The number under which CAUSE is written late (R447); no SWRITE names it. -/
def causeReg : Nat := 512

/-- An SWRITE that will take effect at the end of its issue cycle (R115). -/
def State.postLate (s : State) (g : Group) (reg val : Nat) : State :=
  { s with late := s.late ++ [{ gid := g.gid, die := g.die, reg := reg, val := val }] }

/-- SWRITE of a system register (R117): PRIV outside firmware mode. -/
def execSwrite (d : BitVec 6) (k h : BitVec 1) (n : BitVec 9) (s : State) : Out :=
  issue (.swrite d k h n) s fun c g =>
    if g.firmware = false then s.takeTrap c g fcPriv 0 0
    else s.postLate g n.toNat (g.swriteValue c.mask d k h (swriteWide n.toNat) (s.sysReg g n.toNat))

/-- SWRITE of GST (R117, R118): the reserved fields are ignored; what is written with it or later is applied to it. -/
def execSwriteGst (d : BitVec 6) (k h : BitVec 1) (s : State) : Out :=
  issue (.swriteGst d k h) s fun c g => s.postLate g 0x32 (g.swriteValue c.mask d k h false 0)

/-- SWRITE of RAFBASE (R342). -/
def execSwriteRafbase (d : BitVec 6) (k h : BitVec 1) (s : State) : Out :=
  issue (.swriteRafbase d k h) s fun c g =>
    if g.firmware = false then s.takeTrap c g fcPriv 0 0
    else s.postLate g 0x120 (g.swriteValue c.mask d k h true (s.sysReg g 0x120))

/-- SWRITE of CLKMODE (R396). -/
def execSwriteClkmode (d : BitVec 6) (k h : BitVec 1) (s : State) : Out :=
  issue (.swriteClkmode d k h) s fun c g =>
    if g.firmware = false then s.takeTrap c g fcPriv 0 0
    else s.postLate g 0x138 (g.swriteValue c.mask d k h false 0)

/-- RAFBASE of the target context written, whose TLB entries go with it (R342). -/
def State.writeRafbase (s : State) (v : Nat) : State :=
  (s.modCtx s.tab.tgtctx fun x => { x with rafbase := BitVec.ofNat 64 v &&& 0xFFFFFFFFFFFFF07F#64 }).tlbDrop s.tab.tgtctx

/-- Locked-clock mode entered or left (R396): while it is set the clocks stand at 1.05 and 1.4 GHz. -/
def State.writeClkmode (s : State) (v : Nat) : State :=
  let on := v % 2 == 1
  let fix := fun (x : DiePair) => { x with clock := .c0, change := none, left := if x.clock = .c0 then x.left else ClockState.c0.period }
  s.modOut fun o => { o with locked := on, dies := if on then o.dies.map fix else o.dies }

/-- An SWRITE takes effect (R115), or a CAUSESET (R447). -/
def State.applyLate (s : State) (w : LateWrite) : State :=
  if w.reg = causeReg then s.modGroup w.gid fun g => { g with cause := BitVec.ofNat 64 w.val }
  else if w.reg = 0x32 then s.modGroup w.gid fun g => { g with gst := BitVec.ofNat 32 w.val &&& 0x71F#32 }
  else if w.reg = 0x120 then s.writeRafbase w.val
  else if w.reg = 0x138 then s.writeClkmode w.val
  else match s.group? w.gid with
    | some g => s.sysWrite g w.reg w.val
    | none => s

/-- The SWRITEs of the cycle that ends on some dies take effect, in the order of their issue (R115). -/
def State.applyLates (s : State) (ds : List Nat) : State :=
  let t := { s with late := s.late.filter fun w => !(ds.contains w.die) }
  (s.late.filter fun w => ds.contains w.die).foldl (fun s w => s.applyLate w) t

end Sys2Proof.Machine
end

