-- ==== Sys2Proof/Machine/Clock.lean ====
section
/-!
DEFINITION. The end of an arithmetic cycle (R4, R22, R459): what takes effect then on the dies whose cycle ends.
-/
namespace Sys2Proof.Machine

/-- Whether a quadrant lies on one of some dies. -/
def onDies (ds : List Nat) (q : Nat × Nat × Nat) : Bool := ds.contains q.1

/-- The guard counts of the groups that were eligible and have not issued rise (R318). -/
def State.raiseGuards (s : State) (ds : List Nat) : State :=
  let up := ((s.quads.filter (onDies ds)).flatMap s.wereEligible).filter fun i => !(s.issuers.contains i)
  { s with groups := mapIf (fun g => up.contains g.gid) (fun g => { g with sched := { g.sched with guard := g.sched.guard + 1 } }) s.groups }

/-- The cycle of some dies ends: steps of a debugger end (R438), SWRITEs and advances of reuse clocks take effect (R115, R399), counters and guard
counts rise (R318, R434), their quadrants have not issued in the next, slots that nothing waits for any more are freed (R417), bins fire, and records
enter bins (R314). -/
def State.closeCycle (s : State) (ds : List Nat) : State :=
  let s1 := ((s.applyLates ds).endSteps ds).advanceBands ds
  let s2 := ((s1.quads.filter (onDies ds)).foldl (fun s q => s.countQuad q) s1).raiseGuards ds
  let away := fun (i : Nat) => (s2.group? i).any fun g => !(ds.contains g.die)
  ({ s2 with issued := s2.issued.filter (fun q => !(onDies ds q)), issuers := s2.issuers.filter away,
             waited := s2.waited.filter fun x => !(onDies ds x.1) }.semDrains.fireBins ds).enterBins ds

/-- The slices of the dies whose slice clock has come 512 ticks further swept (R205). -/
def State.sweepDies (s : State) (ds : List Nat) : State :=
  (ds.filter fun d => s.cycleOn d % 131072 == 0).foldl (fun s d => s.sweepDie d) s

/-- Operations whose turn had not come reach their units in a later cycle (R298, R327, R332, R413, R417), and the launchers try their posts
again. -/
def State.reachUnits (s : State) : State :=
  let s1 := s.oldTurns.semReleases
  let s2 := State.queueReleases s1.qops.length s1
  (State.chanServes s2.chanMsgs.length s2).launchers

/-- The end of an arithmetic cycle (R4, R22, R459), before which the divergences raised at the present TIME are settled (R432): of every die whose
present cycle ends next, dies in different clock states at their own rates. A trip has stopped every clock (R460). -/
def State.tick (s : State) : State :=
  if s.out.tripped then s
  else
    let run := s.out.dies.filter DiePair.runs
    let n := (leastOf (run.map fun d => d.left)).getD 40
    let ds := (run.filter fun d => d.left == n).map fun d => d.die
    ((((s.settleRaises.closeCycle ds).passTime n).turnDies ds n).sweepDies ds).reachUnits

end Sys2Proof.Machine
end

