-- ==== Sys2Proof/Machine/Control.lean ====
section
/-!
DEFINITION. Control flow (R169 to R183) and the SYS minors (R387, R388).
-/
namespace Sys2Proof.Machine

/-! ## Shared -/

/-- A control instruction whose transfer may be misaligned: PC_ALIGN ranks above every other fault (R82, R170). -/
def issueAlign (i : Instr) (bad : Issue → Group → Bool) (s : State) (k : Issue → Group → State) : Out :=
  match s.cur with
  | none => .fault .noIssue
  | some c =>
    match s.group? c.gid with
    | none => .fault .noIssue
    | some g =>
      .next (if bad c g then s.takeTrap c g fcPcAlign 0 0
             else if i.wf (s.regsOf g) then k c g else s.takeTrap c g fcIllegal 0 0)

/-- The target of a branch: its PC plus a signed offset (R171, R174). -/
def target {n : Nat} (c : Issue) (o : BitVec n) : W32 := c.pc + o.signExtend 32

/-- The lanes of the mask in which a predicate holds (R170). -/
def taken (c : Issue) (g : Group) (k : BitVec 4) : List Nat := (lanesOf c.mask).filter fun l => (g.lane l).cond k

/-- Each lane of the mask to the target if it takes the branch, and to the next PC otherwise. -/
def State.branch (s : State) (c : Issue) (g : Group) (k : BitVec 4) (t : W32) : State :=
  s.transfer c fun l => if (g.lane l).cond k then t else c.npc

/-! ## Branches and calls (R171, R172) -/

def execBr (k : BitVec 4) (o : BitVec 17) (s : State) : Out :=
  issueAlign (.br k o) (fun c g => !(taken c g k).isEmpty && badPc (target c o)) s fun c g => s.branch c g k (target c o)

def execBru (k : BitVec 4) (o : BitVec 17) (s : State) : Out :=
  issueAlign (.bru k o) (fun c g => (g.lane (lowLane c.mask)).cond k && badPc (target c o)) s fun c g =>
    s.transfer c fun _ => if (g.lane (lowLane c.mask)).cond k then target c o else c.npc

def execCall (k : BitVec 4) (o : BitVec 17) (s : State) : Out :=
  issueAlign (.call k o) (fun c g => !(taken c g k).isEmpty && badPc (target c o)) s fun c g =>
    (s.postFixed c g 4 ((taken c g k).map fun l => .lr l c.npc)).branch c g k (target c o)

def execJmpx (a : BitVec 6) (s : State) : Out :=
  issueAlign (.jmpx a) (fun c g => vOk (s.regsOf g) a && (lanesOf c.mask).any fun l => badPc ((g.lane l).rv a.toNat)) s
    fun c g => s.transfer c fun l => (g.lane l).rv a.toNat

def execRet (s : State) : Out :=
  issueAlign .ret (fun c g => (lanesOf c.mask).any fun l => badPc (g.lane l).lr) s fun c g =>
    s.transfer c fun l => (g.lane l).lr

/-! ## BRJ (R42, R174) -/

/-- A lane placed in the group initially (R42). -/
def Group.isHome (g : Group) (l : Nat) : Bool := g.idx.isSome && (g.lane l).origin == .home

/-- Whether a BRJ ejects the lanes that take it (R42). -/
def State.ejects (s : State) (g : Group) (ls : List Nat) : Bool :=
  !ls.isEmpty && decide (ls.length ≤ g.ejt) && ls.all g.isHome && !(g.rgn.any fun e => e.idem) &&
  (match s.band? g.band with
    | some b => b.contEver
    | none => false) && s.poolHas g.die g.core ls.length

/-- The record of a thread that lane `l` of a group starts (R42, R48, R427). -/
def State.recordOf (s : State) (g : Group) (l : Nat) (pc : W32) (v : List W32) (p : BitVec 8) (o : Origin) : PoolRec :=
  { rid := 0, die := g.die, core := g.core, band := g.band, pc := pc, v := v, p := p, origin := o, coord := (g.lane l).coord,
    pq := (g.lane l).pq, pl := (g.lane l).pl, cause := g.cause, place := .waiting, needs := s.needsOf g.gid, scp := 1,
    at_ := some ((if g.helper.isSome then 4 else g.quad) * 1024 + g.slot % 32 * 32 + l), saved := false }

/-- The lanes `ls` ejected to a target with join counter `j`, their PC the BRJ's own; the others go on (R42, R174). -/
def State.eject (s : State) (c : Issue) (g : Group) (ls : List Nat) (t : W32) (j : Nat) : State :=
  let out := fun (g : Group) (l : Nat) => g.modLane l fun x => { x with pc := c.pc, st := .ejected }
  let go := fun (g : Group) (l : Nat) => if ls.contains l then g else g.modLane l fun x => { x with pc := c.npc }
  let s1 := s.modGroup c.gid fun g =>
    let g1 := (lanesOf c.mask).foldl go (ls.foldl out g)
    { (g1.dropLanes (maskOf fun l => ls.contains l)) with jc := g1.jc.set j (g1.jc.getD j 0 + ls.length) }
  (ls.foldl (fun s l => s.newRecord (s.recordOf g l t (g.lane l).v (g.lane l).p (.cont c.gid l j))) s1).stay

def execBrj (k : BitVec 4) (j : BitVec 2) (o : BitVec 15) (s : State) : Out :=
  issueAlign (.brj k j o) (fun c g => !(taken c g k).isEmpty && badPc (target c o)) s fun c g =>
    if s.ejects g (taken c g k) then s.eject c g (taken c g k) (target c o) j.toNat
    else s.branch c g k (target c o)

/-! ## FLOW (R175 to R179) -/

/-- JOIN in one lane (R46). -/
def State.joinLane (s : State) (c : Issue) (n l : Nat) : State :=
  match s.group? c.gid with
  | none => s
  | some g =>
    let x := g.lane l
    match x.origin with
    | .home =>
      if g.jc.getD n 0 = 0 then s.modGroup c.gid fun g => (g.modLane l fun x => { x with pc := c.npc }).wake n
      else s.modGroup c.gid fun g =>
        g.modLane l fun x => { x with pc := c.npc, st := .joinwait, jsel := BitVec.ofNat 2 n }
    | .cont h k _ =>
      let s1 := (s.addHandOff c.gid h).modGroup c.gid fun g =>
        (g.modLane l fun x => { x with st := .exited }).dropLanes (1#32 <<< l)
      s1.sendHome h (.join k x.v x.p c.npc n)
    | .detached => s.modGroup c.gid fun g => g.modLane l fun x => { x with pc := c.npc }

/-- JOIN (R46, R176): the lanes of the mask in ascending order. -/
def execJoin (n : BitVec 6) (s : State) : Out :=
  issue (.join n) s fun c _ => (((lanesOf c.mask).foldl (fun s l => s.joinLane c n.toNat l) s).stay).retire c.gid

/-- RECONV (R176): no effect of its own. -/
def execReconv (s : State) : Out := issue .reconv s fun _ _ => s

/-- EXIT in one lane (R177). -/
def State.exitLane (s : State) (c : Issue) (l : Nat) : State :=
  match s.group? c.gid with
  | none => s
  | some g =>
    let s1 := s.modGroup c.gid fun g => (g.modLane l fun x => { x with st := .exited }).dropLanes (1#32 <<< l)
    match (g.lane l).origin with
    | .cont h k j => (s1.addHandOff c.gid h).sendHome h (.exit k j)
    | _ => s1

/-- EXIT (R177): a flush point of the atomic buffer (R249), then each lane exits; the last one retires the group (R39). -/
def execExit (s : State) : Out :=
  issue .exit s fun c g =>
    (((lanesOf c.mask).foldl (fun s l => s.exitLane c l) (s.flushReds c.gid g.reds.length)).stay).retire c.gid

/-- The first `k` registers kept and the rest zero (R48). -/
def prefixOf (k : Nat) (v : List W32) : List W32 := v.take k ++ List.replicate (v.length - k) 0

/-- SPAWN (R48, R178): one detached record for each lane, or none with the reason as status. -/
def execSpawn (d a b : BitVec 6) (s : State) : Out :=
  issueAlign (.spawn d a b)
    (fun c g => vOk (s.regsOf g) a && (lanesOf c.mask).any fun l => badPc ((g.lane l).rv a.toNat)) s fun c g =>
    let ls := lanesOf c.mask
    let has := match s.band? g.band with
      | some x => x.contEver
      | none => false
    if !has then s.postUnit c g (statusWrites c.mask d.toNat stRefused)
    else if !(s.poolHas g.die g.core ls.length) then s.postUnit c g (statusWrites c.mask d.toNat stNoslot)
    else
      let s1 := s.postUnit c g (statusWrites c.mask d.toNat stOk)
      ls.foldl (fun s l =>
        s.newRecord (s.recordOf g l ((g.lane l).rv a.toNat) (prefixOf b.toNat (g.lane l).v) 0x80 .detached)) s1

/-- SETEJT (R179). -/
def execSetejt (m : BitVec 6) (s : State) : Out :=
  issue (.setejt m) s fun c _ => s.modGroup c.gid fun g => { g with ejt := m.toNat }

/-! ## SYS (R183, R387, R388) -/

def execNop (s : State) : Out := issue .nop s fun _ _ => s

/-- HALT (R387): the group stops issuing until HALT_RESTART. -/
def execHalt (s : State) : Out :=
  issuePriv .halt s fun c _ => s.modGroup c.gid fun g => { g with blocked := some .halt }

/-- HALT_RESTART (R387): the host restarts group `ev.id`. -/
def execHaltRestart (s : State) : Out :=
  .next (s.modGroup s.ev.id fun g => if g.blocked == some .halt then { g with blocked := none } else g)

/-- ERET (R371, R387): ILLEGAL outside handler mode. -/
def execEret (s : State) : Out :=
  issue .eret s fun c g => if g.handler then s.eret c g else s.takeTrap c g fcIllegal 0 0

/-- IDLE (R387): the group parks until its die's firmware event queue is non-empty; it goes on at once when it is so. -/
def execIdle (s : State) : Out :=
  issuePriv .idle s fun c g =>
    if s.tab.fwq.any fun e => e.die == g.die then s
    else s.modGroup c.gid fun g => { g with blocked := some .idle }

/-- The kind under which an FWCALL stands in a firmware event queue. -/
def fwKindCall : Nat := 0x60

/-- FWCALL (R388): an event to the die's firmware core; the group waits for CTXCTL FWRET. In firmware mode, ILLEGAL. -/
def execFwcall (k : BitVec 18) (s : State) : Out :=
  issue (.fwcall k) s fun c g =>
    if g.firmware then s.takeTrap c g fcIllegal 0 0
    else
      (s.fwEvent g.die fwKindCall [BitVec.ofNat 64 (s.ctxOf g), BitVec.ofNat 64 g.core, BitVec.ofNat 64 g.gslot,
        k.setWidth 64, g.rs 1, g.rs 2, g.rs 3, g.rs 4]).modGroup c.gid fun g => { g with blocked := some .fwcall }

/-- TRAP (R367, R387): a precise fault whose frame holds the next PC. -/
def execTrap (k : BitVec 18) (s : State) : Out :=
  issue (.trap k) s fun c g =>
    let at_ := fun (g : Group) => (lanesOf c.mask).foldl (fun g l => g.modLane l fun x => { x with pc := c.npc }) g
    (s.modGroup c.gid at_).takeTrap c g fcTrap k 0

/-- BKPT (R365, R387, R437): a precise fault; with a debug session attached the group halts past the BKPT instead. -/
def execBkpt (k : BitVec 18) (s : State) : Out :=
  issue (.bkpt k) s fun c g =>
    if s.debugged (s.ctxOf g) then
      let t : TrapInfo := { code := fcBkpt, tcode := k, va := 0, fpc := c.pc, lanes := c.mask, time := BitVec.ofNat 64 s.timeNs }
      (s.modGroup c.gid fun g => { g with dbgFrom := some t }).debugHalt g 2 c.pc
    else s.takeTrap c g fcBkpt k 0

/-- UNDEF and major 0x3F (R81, R387): ILLEGAL in every mode. -/
def execUndef (x : BitVec 18) (s : State) : Out := issue (.undef x) s fun c g => s.takeTrap c g fcIllegal 0 0
def execUndefMajor (x : BitVec 21) (s : State) : Out := issue (.undefMajor x) s fun c g => s.takeTrap c g fcIllegal 0 0

end Sys2Proof.Machine
end

