-- ==== Sys2Proof/Machine/Crypto.lean ====
section
/-!
DEFINITION. The trailers of frames (R452) and the signatures of firmware images (R27, R458): SHA-512, HMAC, and RSA-4096 signatures in the
PSS scheme of PKCS #1 v2.2. The constants and the algorithms are those standards', which the spec names and does not repeat (PRESUMED, log 174).
-/
namespace Sys2Proof.Machine

/-! ## SHA-512 -/

/-- The greatest number of `n` bits above `x` whose `k`-th power is at most `m`. -/
def rootUp (k m : Nat) : Nat → Nat → Nat
  | 0, x => x
  | n + 1, x => rootUp k m n (if (x + 2 ^ n) ^ k ≤ m then x + 2 ^ n else x)

/-- The prime numbers below a bound. -/
def primesBelow (n : Nat) : List Nat :=
  (List.range n).filter fun p => decide (2 ≤ p) && (List.range p).all fun d => decide (d < 2) || p % d != 0

/-- The first 64 bits of the fractional part of the `k`-th root of a number below 512. -/
def rootWord (k p : Nat) : W64 := BitVec.ofNat 64 (rootUp k (p * 2 ^ (64 * k)) 69 0)

/-- The 80 round constants of SHA-512: from the cube roots of the first 80 primes. -/
def shaK : List W64 := (primesBelow 410).map (rootWord 3)

/-- The initial hash value of SHA-512: from the square roots of the first eight primes. -/
def shaInit : List W64 := (primesBelow 20).map (rootWord 2)

/-- A message filled up to whole blocks of 128 bytes: a one bit, zeros, and the length in bits. -/
def shaPad (bs : List Byte) : List Byte :=
  let n := bs.length
  bs ++ [0x80#8] ++ List.replicate ((239 - n % 128) % 128) 0 ++ (leBytes 16 (8 * n)).reverse

/-- The number that a string of bytes gives, the most significant first. -/
def beNat (bs : List Byte) : Nat := bs.foldl (fun x b => 256 * x + b.toNat) 0

/-- The 16 words of a block and the 64 that follow from them, the last one first; `n` more words are made. -/
def shaSchedule : Nat → List W64 → List W64
  | 0, ws => ws
  | n + 1, ws =>
    let w := fun (i : Nat) => ws.getD i 0
    let s0 := (w 14).rotateRight 1 ^^^ (w 14).rotateRight 8 ^^^ (w 14 >>> 7)
    let s1 := (w 1).rotateRight 19 ^^^ (w 1).rotateRight 61 ^^^ (w 1 >>> 6)
    shaSchedule n ((w 15 + s0 + w 6 + s1) :: ws)

/-- One round on the eight working words. -/
def shaRound (h : List W64) (kw : W64) : List W64 :=
  let x := fun (i : Nat) => h.getD i 0
  let s1 := (x 4).rotateRight 14 ^^^ (x 4).rotateRight 18 ^^^ (x 4).rotateRight 41
  let s0 := (x 0).rotateRight 28 ^^^ (x 0).rotateRight 34 ^^^ (x 0).rotateRight 39
  let t1 := x 7 + s1 + ((x 4 &&& x 5) ^^^ (~~~(x 4) &&& x 6)) + kw
  let t2 := s0 + ((x 0 &&& x 1) ^^^ (x 0 &&& x 2) ^^^ (x 1 &&& x 2))
  (t1 + t2) :: x 0 :: x 1 :: x 2 :: (x 3 + t1) :: x 4 :: x 5 :: x 6 :: []

/-- One block of 128 bytes taken into the hash value. -/
def shaBlock (h : List W64) (bs : List Byte) : List W64 :=
  let ws := (List.range 16).map fun i => BitVec.ofNat 64 (beNat ((bs.drop (8 * i)).take 8))
  let kws := List.zipWith (fun k w => k + w) shaK (shaSchedule 64 ws.reverse).reverse
  List.zipWith (fun a b => a + b) h (kws.foldl shaRound h)

/-- SHA-512 of a string of bytes, as 64 bytes. -/
def sha512 (bs : List Byte) : List Byte :=
  let p := shaPad bs
  let h := (List.range (p.length / 128)).foldl (fun h i => shaBlock h ((p.drop (128 * i)).take 128)) shaInit
  h.flatMap fun w => (leBytes 8 w.toNat).reverse

/-- HMAC-SHA-512 under a key of 64 bytes (R452): the key is filled up to a block of 128 bytes. -/
def hmacSha512 (key msg : List Byte) : List Byte :=
  let pad := fun (x : Byte) => key.map (fun b => b ^^^ x) ++ List.replicate (128 - key.length) x
  sha512 (pad 0x5C ++ sha512 (pad 0x36 ++ msg))

/-! ## RSASSA-PSS -/

/-- b^e mod n, by the bits of the exponent; `fuel` bounds their number. -/
def powMod : Nat → Nat → Nat → Nat → Nat
  | 0, _, _, n => 1 % n
  | fuel + 1, b, e, n => (if e % 2 = 1 then b else 1) * powMod fuel (b * b % n) (e / 2) n % n

/-- The mask of MGF1 with SHA-512 for a seed, `n` hash values long. -/
def mgf1 (seed : List Byte) (n : Nat) : List Byte := (List.range n).flatMap fun i => sha512 (seed ++ (leBytes 4 i).reverse)

/-- Whether 512 bytes encode a message's digest by EMSA-PSS with a salt of 64 bytes, for a modulus of 4,096 bits. -/
def pssOk (digest em : List Byte) : Bool :=
  let h := (em.drop 447).take 64
  let db := List.zipWith (fun a b => a ^^^ b) (em.take 447) (mgf1 h 7)
  let db0 := db.set 0 (db.getD 0 0 &&& 0x7F#8)
  let salt := db0.drop 383
  (em.getD 0 0).toNat < 128 && em.getD 511 0 == 0xBC#8 && db0.take 383 == List.replicate 382 0 ++ [1#8] &&
  h == sha512 (List.replicate 8 0 ++ digest ++ salt)

/-- Whether a signature over a digest is good under an RSA-4096 key. -/
def rsaPssOk (modulus exponent sig : Nat) (digest : List Byte) : Bool :=
  decide (sig < modulus) && pssOk digest (leBytes 512 (powMod 64 sig exponent modulus)).reverse

/-- A number of `n` 64-bit words, the most significant word first. -/
def wordsNat (ws : List Nat) : Nat := ws.foldl (fun x w => x * 2 ^ 64 + w % 2 ^ 64) 0

/-- A firmware image of an UPDATE frame, checked (R458): words the entry, the key's exponent, the 64 words of its modulus and of the signature, and the
image's words, two to each 64-bit word. Its digest covers entry and words; the key's digest must be the one fused into the module. -/
def checkImage (ws : List Nat) : Option Firmware :=
  let key := (ws.drop 1).take 65
  let image := ws.take 1 ++ ws.drop 130
  let bytes := fun (l : List Nat) => l.flatMap fun w => leBytes 8 w
  let digest := sha512 (bytes image)
  if beNat (sha512 (bytes key)) = Config.fusedKey.toNat ∧ rsaPssOk (wordsNat (key.drop 1)) (key.getD 0 0) (wordsNat ((ws.drop 66).take 64)) digest then
    some { digest := BitVec.ofNat 512 (beNat digest), entry := image.getD 0 0,
           words := (image.drop 1).flatMap fun w => [BitVec.ofNat 32 w, BitVec.ofNat 32 (w / 2 ^ 32)] }
  else none

end Sys2Proof.Machine
end

