-- ==== Sys2Proof/Machine/Matrix.lean ====
section
/-!
DEFINITION. The matrix units: alignment and the dot product (R102, R103), MQ and the MLD minors (R257 to R271), their census counts
(R272, R431, R432) and the parity fault of a bank (R273).
-/
namespace Sys2Proof.Machine

/-! ## Sparse tables -/

/-- The value of a key in a table ordered by key; a key that is not listed has the default. -/
def sparseGet {α : Type} (d : α) : List (Nat × α) → Nat → α
  | [], _ => d
  | (k, x) :: r, a => if k = a then x else sparseGet d r a

/-- The table with the value of a key replaced; the default removes the entry. -/
def sparsePut {α : Type} [DecidableEq α] (d : α) : List (Nat × α) → Nat → α → List (Nat × α)
  | [], a, x => if x = d then [] else [(a, x)]
  | (k, y) :: r, a, x =>
    if a < k then (if x = d then (k, y) :: r else (a, x) :: (k, y) :: r)
    else if a = k then (if x = d then r else (a, x) :: r)
    else (k, y) :: sparsePut d r a x

/-- An accumulator element (R257). -/
def MatUnit.elem (u : MatUnit) (e : Nat) : W32 := sparseGet 0 u.acc e
/-- An accumulator element written. -/
def MatUnit.setElem (u : MatUnit) (e : Nat) (x : W32) : MatUnit := { u with acc := sparsePut 0 u.acc e x }
/-- Byte `b` of a slot of scale memory (R257). -/
def MatUnit.scaleAt (u : MatUnit) (slot b : Nat) : Nat := (sparseGet (0x7F : Byte) u.scale (4 * slot + b)).toNat

/-! ## Formats (R77, R91, R102, R260) -/

/-- The aligned width of a matrix format code (R77, R102). -/
def matWidth : Nat → Nat
  | 0 => 4 | 4 => 4 | 5 => 16 | 6 => 16 | _ => 8

/-- The floating-point format of a matrix format code; an integer code has none (R77). -/
def matFmt : Nat → Option Fmt
  | 0 => some e2m1 | 1 => some e4m3 | 2 => some e5m2 | 5 => some bf16 | 6 => some fp16 | _ => none

/-- The pairs of formats that MQ accepts (R260). -/
def matPair (a b : Nat) : Bool :=
  (decide (a ≤ 2) && decide (b ≤ 2)) || ((a == 3 || a == 4) && (b == 3 || b == 4)) || ((a == 5 || a == 6) && a == b)

/-- Element `i` of packed elements of `w` bits (R91). -/
def packedAt (w : Nat) (byte : Nat → Byte) (i : Nat) : Nat :=
  match w with
  | 4 => (byte (i / 2)).toNat / 16 ^ (i % 2) % 16
  | 8 => (byte i).toNat
  | _ => (byte (2 * i)).toNat + 256 * (byte (2 * i + 1)).toNat

/-- The value of an element's pattern. -/
def matValue (fmt x : Nat) : FV :=
  match matFmt fmt with
  | some f => f.decode x
  | none =>
    let v := sx x (matWidth fmt)
    .fin (decide (v < 0)) v.natAbs 0

/-! ## Alignment and products (R102, R103) -/

/-- The exponent of a value for its block's E; none where it does not count (R102). -/
def FV.blockExp (emin : Int) : FV → Option Int
  | .fin _ m e => if m = 0 then none else some (max ((m.log2 : Int) + e) emin)
  | _ => none

/-- E of a block (R102); w - 2 for an integer format. -/
def blockE (fmt : Nat) (vs : List FV) : Int :=
  match matFmt fmt with
  | none => (matWidth fmt : Int) - 2
  | some f => ((vs.filterMap fun v => v.blockExp f.emin).foldl (fun (r : Option Int) x => some (match r with
      | none => x
      | some y => max x y)) none).getD 0

/-- q of an element: RNE(v 2^(w - 2 - E)) (R102); an infinity or a NaN has none. -/
def alignQ (w : Nat) (e : Int) : FV → Int
  | .fin s m k =>
    let q : Int := (roundAt .rne 0 s m 1 (k + w - 2 - e) 0).1
    if s then -q else q
  | _ => 0

/-- Nonzero elements of a block that align to zero (R102, R272). -/
def underflows (w : Nat) (e : Int) (vs : List FV) : Nat :=
  vs.countP fun v => match v with
    | .fin _ m _ => m != 0 && alignQ w e v == 0
    | _ => false

/-- The value of one block of an element (R103), as FP32 bits. -/
def blockValue (afmt bfmt : Nat) (as bs : List FV) (sa sb : Nat) : Nat :=
  let ps := as.zipWith (fun a b => (a.mul b).1) bs
  let infs := fun (s : Bool) => ps.any fun p => p == .inf s
  if sa = 255 ∨ sb = 255 ∨ ps.any FV.isNan ∨ (infs true ∧ infs false) then fp32.canon
  else if infs true then fp32.signed true fp32.infCode
  else if infs false then fp32.infCode
  else
    let wa := matWidth afmt
    let wb := matWidth bfmt
    let ea := blockE afmt as
    let eb := blockE bfmt bs
    let sum : Int := (as.zipWith (fun a b => alignQ wa ea a * alignQ wb eb b) bs).foldl (fun x y => x + y) 0
    (fp32.ofFV .rne 0 (.fin (decide (sum < 0)) sum.natAbs (ea - wa + 2 + eb - wb + 2 + (sa - 127 : Int) + (sb - 127 : Int)))).1

/-- Block `b` of an A row (R261). -/
def rowBlock (afmt : Nat) (row : List Byte) (b : Nat) : List FV :=
  (List.range 32).map fun k => matValue afmt (packedAt (matWidth afmt) (fun i => row.getD i 0) (32 * b + k))

/-- The scale byte of block `b` of an A row (R261). -/
def rowScale (afmt kb : Nat) (row : List Byte) (b : Nat) : Nat := (row.getD ((kb + 1) * 4 * matWidth afmt + b) 0).toNat

/-- Block `b` of column `j` of a bank (R261, R268). -/
def Bank.colBlock (k : Bank) (b j : Nat) : List FV :=
  (List.range 32).map fun i =>
    matValue k.fmt (packedAt (matWidth k.fmt) (fun x => cellGet k.img (128 * (32 * b + i) + x)) j)

/-- The total of an A row and a B column (R103), as FP32 bits. -/
def MatUnit.total (u : MatUnit) (m : MatWord) (row : List Byte) (j : Nat) : Nat :=
  let afmt := m.afmt.toNat
  let kb := m.kb.toNat
  let bv := fun b => blockValue afmt u.active.fmt (rowBlock afmt row b) (u.active.colBlock b j) (rowScale afmt kb row b)
    (u.scaleAt (m.sco.toNat + j) b)
  ((List.range kb).map fun b => b + 1).foldl (fun t b => (fp32.add t (bv b)).1) (bv 0)

/-- Bytes of an A row (R261). -/
def rowBytes (afmt kb : Nat) : Nat := 16 * (((kb + 1) * (4 * matWidth afmt + 1) + 15) / 16)

/-! ## The unit's place, needs and stash -/

def State.modMat (s : State) (die core quad : Nat) (f : MatUnit → MatUnit) : State :=
  { s with mats := mapIf (fun u => u.die == die && u.core == core && u.quad == quad) f s.mats }

def State.matAt (s : State) (die core quad : Nat) : Option MatUnit :=
  s.mats.find? fun u => u.die == die && u.core == core && u.quad == quad

/-- What FENCE.P puts before a group's matrix accesses (R225, R266). -/
def Group.matNeeds (g : Group) : Needs := ((g.pathNeeds.find? fun n => n.1 == 2).map fun n => n.2).getD Needs.none

/-- Stash offsets within the core of `n` bytes from STH offset `off` of a band. -/
def Band.sthPlaces (b : Band) (off n : Nat) : List Place :=
  (List.range n).map fun i => .stash b.die b.core (128 * b.stashBase + off + i)

/-- The mapped lines of `n` bytes filled where they are INVALID, as an access of the band (R195, R266), and the fault of the first fill that
fails. -/
def State.fillBytes (s : State) (b : Band) (off n : Nat) (wr : Bool) : State × Option (Byte × Nat) :=
  let first := b.stashBase + off / 128
  let lines := (List.range (b.stashBase + (off + n - 1) / 128 + 1 - first)).map fun i => first + i
  lines.foldl (fun (r : State × Option (Byte × Nat)) l =>
    match r.2 with
    | some _ => r
    | none => match r.1.mappedLine b.die b.core (128 * l) with
      | some (_, g, false) => match r.1.translate b.die b.core b.ctx g true true wr with
        | (s1, .ok pa) => ((s1.fillStashLine b.die b.core l b.bid b.ctx (pa / 128)).askSlice b.die b.core 0xF#4 (pa / 128) .read b.ctx 0 30
          b.rrate.toNat, none)
        | (s1, .error f) => (s1, some (f, g))
      | _ => r) (s, none)

/-- Bytes of a band's stash. -/
def State.readSth (s : State) (b : Band) (off n : Nat) : List Byte := (b.sthPlaces off n).map fun p => s.readPlace b.ctx p

/-- Bytes of a band's stash written (R271). -/
def State.writeSth (s : State) (b : Band) (off : Nat) (bs : List Byte) : State := s.writePlaces b.ctx (b.sthPlaces off bs.length) bs

/-- A lane's failed fill (R266): it parks, if it is still ACTIVE, or its kernel faults. -/
def State.fillFault (s : State) (gid lane : Nat) (pc : W32) (ctx : Nat) (f : Byte × Nat) : State :=
  if parkCode f.1 then
    (if (s.group? gid).any fun g => (g.lane lane).st == .active then s.parkLane gid lane pc f.1 ctx f.2 else s)
  else match s.group? gid with
    | some g => s.groupKernelFault g f.1 pc (1#32 <<< lane) f.2
    | none => s

/-- The lanes of a mask whose bytes can be filled; the others park, each on its own fault (R266). -/
def State.fillLanes (s : State) (c : Issue) (b : Band) (wr : Bool) (n : Nat) (off : Nat → Nat) : State × List Nat :=
  (lanesOf c.mask).foldl (fun (r : State × List Nat) l =>
    if (r.1.group? c.gid).isNone then r
    else match r.1.fillBytes b (off l) n wr with
      | (s1, none) => (s1, r.2 ++ [l])
      | (s1, some f) => (s1.fillFault c.gid l c.pc b.ctx f, r.2)) (s, [])

/-! ## Census (R272, R431, R432) -/

/-- Whether a band counts census. -/
def State.countsCensus (s : State) (bid : Nat) : Bool :=
  match (s.band? bid).bind fun b => s.kernel? b.kid with
  | some k => k.launch.census
  | none => false

/-- A site created at the first execution of an MQ or MACCCVT at a PC (R431). -/
def State.censusSite (s : State) (g : Group) (pc : W32) : State :=
  if !(s.countsCensus g.band) || s.obs.census.any (fun c => c.band == g.band && c.pc == pc) then s
  else if (s.obs.census.filter fun c => c.die == g.die && c.core == g.core).length < 4096 then
    s.modObs fun o => { o with census := o.census ++ [{ die := g.die, core := g.core, band := g.band, pc := pc, counts := [0, 0, 0, 0] }] }
  else
    let told := s.obs.overTold.contains g.band
    let s1 := s.modObs fun o =>
      { o with censusOver := assocSet (g.die, g.core) (assoc (g.die, g.core) 0 o.censusOver + 1) o.censusOver,
               overTold := if told then o.overTold else o.overTold ++ [g.band] }
    if told then s1
    else s1.emitGroup g 0x29 (((s.band? g.band).map fun b => b.index).getD 0)

/-- The reference counts of a site (R432): zeros where the reference does not name it. -/
def State.refCounts (s : State) (b : Band) (code : Nat) (pc : W32) : Option (List Nat) :=
  match s.obs.refs.find? (fun r => r.ctx == b.ctx && r.base != 0) with
  | none => none
  | some r =>
    let hit := (List.range r.count).findSome? fun i => match s.readGlb b.die b.core b.ctx (r.base + 32 * i) 32 with
      | (_, .ok bs) =>
        if fieldAt bs 198 58 * 64 = code ∧ fieldAt bs 160 32 = b.index ∧ fieldAt bs 128 32 = pc.toNat then
          some [fieldAt bs 96 32, fieldAt bs 64 32, fieldAt bs 32 32, fieldAt bs 0 32]
        else none
      | _ => none
    some (hit.getD [0, 0, 0, 0])

/-- Counts added to a site (R431), and the divergence that one above its reference raises (R432). -/
def State.censusAdd (s : State) (bid gid : Nat) (pc : W32) (add : List Nat) : State :=
  match s.obs.census.find? (fun c => c.band == bid && c.pc == pc), s.band? bid with
  | some site, some b =>
    let new := site.counts.zipWith (fun x y => min (x + y) (2 ^ 32 - 1)) add
    let s1 := s.modObs fun o => { o with census := mapIf (fun c => c.band == bid && c.pc == pc) (fun c => { c with counts := new }) o.census }
    match s.kernel? b.kid with
    | none => s1
    | some k => match s1.refCounts b k.launch.code pc with
      | none => s1
      | some ref =>
        match (List.range 4).find? fun j => decide (ref.getD j 0 < new.getD j 0) && decide (0 < add.getD j 0) with
        | some j => s1.diverge k.kid (some gid) b.die b.core pc j true
        | none => s1
  | _, _ => s

/-! ## MQ (R262 to R264) -/

/-- What MQ's matrix word must agree with (R262, R77). -/
def mqBankOk (v : BankView) (m : MatWord) : Bool :=
  v.loaded && m.bid.toNat == v.tag && matPair m.afmt.toNat v.fmt && decide (m.kb.toNat ≤ v.kb) &&
  decide ((m.ncol.toNat + 1) * matWidth v.fmt ≤ 1024)

/-- The limit on a lane's accumulator row (R262). -/
def mqRowOk (m : MatWord) (r : Nat) : Bool := if 128 ≤ m.ncol.toNat then r % 2 == 0 && decide (r ≤ 126) else decide (r ≤ 127)

/-- The open pass closed (R264). -/
def MatUnit.close (u : MatUnit) : MatUnit :=
  { u with queue := u.queue.map fun q => match q with
      | .pass o _ qs => .pass o true qs
      | q => q }

/-- Quarter operations of one MQ added to the open pass, or to a new one (R264). -/
def MatUnit.addQuarters (u : MatUnit) (cycle : Nat) (m : MatWord) (qs : List Quarter) : MatUnit :=
  if qs.isEmpty then u
  else if u.joins cycle m qs.length then
    match u.queue.getLast? with
    | some (.pass o _ old) => { u with queue := u.queue.dropLast ++ [.pass o (decide (16 ≤ old.length + qs.length)) (old ++ qs)] }
    | _ => u
  else
    let u1 := u.close
    { u1 with queue := u1.queue ++ [.pass cycle false qs] }

/-- MQ (R262, R263, R266). -/
def execMq (d a : BitVec 6) (m : MatWord) (s : State) : Out :=
  issue (.mq d a m) s fun c g =>
    match s.mat? g, s.band? g.band with
    | some u, some b =>
      let row := fun l => ((g.lane l).rv d.toNat).toNat
      let off := fun l => ((g.lane l).rv a.toNat).toNat
      let n := rowBytes m.afmt.toNat m.kb.toNat
      if !(mqBankOk u.viewA m) || (lanesOf c.mask).any (fun l => !(mqRowOk m (row l))) then s.takeTrap c g fcIllegal 0 0
      else match badLane c.mask (fun l => (off l : Int)) (fun _ v => v % 16 != 0) with
        | some v => s.takeTrap c g fcAlign 0 (BitVec.ofInt 64 v)
        | none => match badLane c.mask (fun l => (off l : Int)) (fun l v => !(s.segOk g (g.lane l) 1 v n false)) with
          | some v => s.takeTrap c g fcSegLimit 0 (BitVec.ofInt 64 v)
          | none =>
            let (s1, ls) := (s.censusSite g c.pc).fillLanes c b false n off
            if (s1.group? c.gid).isNone then s1
            else
              let ok := maskOf fun l => ls.contains l
              let qs := (quartersOf ok).zipIdx.map fun q =>
                { qid := s1.nextId + q.2, needs := g.matNeeds, gid := c.gid, band := b.bid, pc := c.pc, quarter := q.1, word := m,
                  lanes := (ls.filter fun l => l / 8 == q.1).map fun l => { lane := l, row := row l, off := off l, bytes := [] } : Quarter }
              ({ s1 with nextId := s1.nextId + qs.length }).modMat u.die u.core u.quad fun u => u.addQuarters (s.cycleOn u.die) m qs
    | _, _ => s.takeTrap c g fcIllegal 0 0

/-! ## The MLD minors (R267 to R271) -/

/-- An MLD instruction accepted (R264): the open pass closes, and the banks as later issues see them change (R259). -/
def State.acceptMld (s : State) (c : Issue) (g : Group) (b : Band) (lanes : List Nat) (minor d bf oid av dv count : Nat)
    (view : MatUnit → MatUnit) : State :=
  let op : MldOp :=
    { mid := s.nextId, needs := g.matNeeds, gid := c.gid, band := b.bid, oid := oid, pc := c.pc, minor := minor, d := d, b := bf,
      lanes := lanes.map fun l => (l, (g.lane l).rv dv, (g.lane l).rv av), count := count }
  ({ s with nextId := s.nextId + 1 }).modMat g.die g.core g.matQuad fun u =>
    let u1 := view u.close
    { u1 with queue := u1.queue ++ [MatItem.mld op] }

/-- An MLD instruction that reads the stash once for its group (R266): checks, the fill, acceptance. A fill that faults parks every lane
of Active(g). -/
def State.mldRead (s : State) (c : Issue) (g : Group) (b : Band) (off n align : Nat) (k : State → State) : State :=
  if off % align ≠ 0 then s.takeTrap c g fcAlign 0 (BitVec.ofNat 64 off)
  else if !(s.segOk g (g.lane (lowLane c.mask)) 1 off n false) then s.takeTrap c g fcSegLimit 0 (BitVec.ofNat 64 off)
  else match s.fillBytes b off n false with
    | (s1, none) => k s1
    | (s1, some f) =>
      if parkCode f.1 then (lanesOf c.mask).foldl (fun s l => s.parkLane c.gid l c.pc f.1 b.ctx f.2) s1
      else s1.groupKernelFault g f.1 c.pc c.mask f.2

/-- A meaning over the group's matrix unit and band; a group without them cannot issue it (R258). -/
def State.withMat (s : State) (c : Issue) (g : Group) (k : MatUnit → Band → State) : State :=
  match s.mat? g, s.band? g.band with
  | some u, some b => k u b
  | _, _ => s.takeTrap c g fcIllegal 0 0

/-- MLOADB (R268). -/
def execMloadb (d a : BitVec 6) (n : BitVec 2) (t : BitVec 3) (s : State) : Out :=
  issue (.mloadb d a n t) s fun c g => s.withMat c g fun _ b =>
    let l := lowLane c.mask
    s.mldRead c g b ((g.lane l).rv a.toNat).toNat (4096 * (n.toNat + 1)) 128 fun s1 =>
      s1.acceptMld c g b (lanesOf c.mask) 0 d.toNat (n.toNat * 8 + t.toNat) 0 a.toNat 0 0 fun u =>
        { u with viewS := { loaded := true, tag := t.toNat, fmt := d.toNat, kb := n.toNat } }

/-- MSWAP (R269). -/
def execMswap (s : State) : Out :=
  issue .mswap s fun c g => s.withMat c g fun _ b =>
    s.acceptMld c g b [] 1 0 0 0 0 0 0 fun u => { u with viewA := u.viewS, viewS := u.viewA }

/-- MSCL (R270). -/
def execMscl (d a b : BitVec 6) (s : State) : Out :=
  issue (.mscl d a b) s fun c g => s.withMat c g fun _ bd =>
    let l := lowLane c.mask
    let slot := ((g.lane l).rv d.toNat).toNat
    let count := ((g.lane l).rv b.toNat).toNat
    if 1023 < slot ∨ count = 0 ∨ 1024 < slot + count then s.takeTrap c g fcIllegal 0 0
    else s.mldRead c g bd ((g.lane l).rv a.toNat).toNat (4 * count) 4 fun s1 =>
      s1.acceptMld c g bd (lanesOf c.mask) 2 0 0 0 a.toNat d.toNat count id

/-- MACCRD (R267): its result comes in quadrant order. -/
def execMaccrd (d a : BitVec 6) (s : State) : Out :=
  issue (.maccrd d a) s fun c g => s.withMat c g fun _ b =>
    if (lanesOf c.mask).any fun l => decide (16383 < ((g.lane l).rv a.toNat).toNat) then s.takeTrap c g fcIllegal 0 0
    else (s.postAwait c g .matrix).acceptMld c g b (lanesOf c.mask) 3 d.toNat 0 s.nextId a.toNat d.toNat 0 id

/-- MACCWR (R267). -/
def execMaccwr (d a : BitVec 6) (s : State) : Out :=
  issue (.maccwr d a) s fun c g => s.withMat c g fun _ b =>
    if (lanesOf c.mask).any fun l => decide (16383 < ((g.lane l).rv a.toNat).toNat) then s.takeTrap c g fcIllegal 0 0
    else s.acceptMld c g b (lanesOf c.mask) 4 0 0 0 a.toNat d.toNat 0 id

/-- MACCCLR (R267). -/
def execMaccclr (a : BitVec 6) (s : State) : Out :=
  issue (.maccclr a) s fun c g => s.withMat c g fun _ b =>
    if (lanesOf c.mask).any fun l => decide (127 < ((g.lane l).rv a.toNat).toNat) then s.takeTrap c g fcIllegal 0 0
    else s.acceptMld c g b (lanesOf c.mask) 5 0 0 0 a.toNat a.toNat 0 id

/-- Bytes of an output row of MACCCVT (R261). -/
def cvtRow (t : Nat) : Nat := 16 * (fmtOf t).width

/-- MACCCVT (R271). -/
def execMacccvt (d a : BitVec 6) (t : BitVec 3) (s : State) : Out :=
  issue (.macccvt d a t) s fun c g => s.withMat c g fun _ b =>
    let va := fun l => ((g.lane l).rv a.toNat).toNat
    let off := fun l => bits (va l) 0 19
    let n := cvtRow t.toNat
    let bad := fun l => decide (127 < ((g.lane l).rv d.toNat).toNat) || bits (va l) 24 8 == 255 || bits (va l) 19 5 != 0
    if (lanesOf c.mask).any bad then s.takeTrap c g fcIllegal 0 0
    else match badLane c.mask (fun l => (off l : Int)) (fun _ v => v % 16 != 0) with
      | some v => s.takeTrap c g fcAlign 0 (BitVec.ofInt 64 v)
      | none => match badLane c.mask (fun l => (off l : Int)) (fun l v => !(s.segOk g (g.lane l) 1 v n true)) with
        | some v => s.takeTrap c g fcSegLimit 0 (BitVec.ofInt 64 v)
        | none =>
          let (s1, ls) := (s.censusSite g c.pc).fillLanes c b true n off
          if ls.isEmpty || (s1.group? c.gid).isNone then s1
          else s1.acceptMld c g b ls 6 t.toNat 0 0 a.toNat d.toNat 0 id

/-! ## Passes -/

/-- The unit that an event names. -/
def State.evUnit (s : State) : Option MatUnit := s.matAt s.ev.die s.ev.core s.ev.quad

/-- MATRIX_PASS_CLOSE (R264): the open pass of unit `ev` closes at the end of cycle o + 7. -/
def execMatrixPassClose (s : State) : Out :=
  match s.evUnit with
  | none => .next s
  | some u => .next (match u.queue.getLast? with
    | some (.pass o false _) => if o + 7 ≤ s.cycleOn s.ev.die then s.modMat u.die u.core u.quad MatUnit.close else s
    | _ => s)

/-- A lane's A row read when its pass starts (R264, R266); a lane whose row can no longer be filled is inactive and parks. -/
def State.readRow (s : State) (q : Quarter) (x : MatLane) : State × Option MatLane :=
  match s.band? q.band with
  | none => (s, none)
  | some b =>
    let n := rowBytes q.word.afmt.toNat q.word.kb.toNat
    match s.fillBytes b x.off n false with
    | (s1, none) => (s1, some { x with bytes := s1.readSth b x.off n })
    | (s1, some f) => (s1.fillFault q.gid x.lane q.pc b.ctx f, none)

/-- The rows of a quarter operation read. -/
def State.readQuarter (s : State) (q : Quarter) : State × Quarter :=
  let (s1, ls) := q.lanes.foldl (fun (r : State × List MatLane) x => match r.1.readRow q x with
    | (s1, some y) => (s1, r.2 ++ [y])
    | (s1, none) => (s1, r.2)) (s, [])
  (s1, { q with lanes := ls })

/-- MATRIX_PASS_START (R264): the first item of unit `ev` is a closed pass, the macro is free, and what FENCE.P puts before the reads has
been performed; the A rows are read. -/
def execMatrixPassStart (s : State) : Out :=
  match s.evUnit with
  | none => .next s
  | some u => .next (match u.queue, u.running with
    | .pass o closed qs :: rest, none =>
      if (closed || decide (o + 7 < s.cycleOn u.die)) && qs.all fun q => s.needsMet q.needs then
        let (s1, qs1) := qs.foldl (fun (r : State × List Quarter) q => let x := r.1.readQuarter q; (x.1, r.2 ++ [x.2])) (s, [])
        let w := ((qs.head?).map fun q => matWidth q.word.afmt.toNat).getD 0
        s1.modMat u.die u.core u.quad fun u =>
          { u with queue := .pass o true qs1 :: rest, running := some (s.cycleOn u.die + 4 * qs.length * w + 6) }
      else s
    | _, _ => s)

/-- The writes of one lane of a quarter operation (R263, R265): the unit, and the NaNs and infinities written. -/
def MatUnit.laneWrites (u : MatUnit) (m : MatWord) (x : MatLane) : MatUnit × Nat × Nat :=
  (List.range (m.ncol.toNat + 1)).foldl (fun (r : MatUnit × Nat × Nat) j =>
    let e := (x.row + j / 128) * 128 + j % 128
    let t := u.total m x.bytes j
    let y := if m.acc = 1 then (fp32.add (r.1.elem e).toNat t).1 else t
    let v := fp32.decode y
    (r.1.setElem e (BitVec.ofNat 32 y), r.2.1 + (if v.isNan then 1 else 0),
     r.2.2 + (match v with
       | .inf _ => 1
       | _ => 0))) (u, 0, 0)

/-- A-side underflows of a lane (R272). -/
def laneUnderflows (m : MatWord) (x : MatLane) : Nat :=
  let f := m.afmt.toNat
  match matFmt f with
  | none => 0
  | some _ => (List.range (m.kb.toNat + 1)).foldl (fun n b =>
      let vs := rowBlock f x.bytes b
      n + underflows (matWidth f) (blockE f vs) vs) 0

/-- A quarter operation's writes and counts. -/
def State.quarterDone (s : State) (die core quad : Nat) (q : Quarter) : State :=
  q.lanes.foldl (fun s x => match s.matAt die core quad with
    | none => s
    | some u =>
      let r := u.laneWrites q.word x
      (s.modMat die core quad fun _ => r.1).censusAdd q.band q.gid q.pc [r.2.1, r.2.2, 0, laneUnderflows q.word x]) s

/-- MACRO_PARITY raised in every group with a quarter operation in a pass (R53, R273). -/
def State.passParity (s : State) (qs : List Quarter) : State :=
  ((qs.map fun q => (q.gid, q.band)).eraseDups).foldl (fun s x =>
    match s.group? x.1 with
    | some _ => s.rollback x.1 fcMacroParity 0
    | none => match s.band? x.2 with
      | some b => s.kernelFault b.kid fcMacroParity
      | none => s) s

/-- The first item of a unit's queue removed; what waited for it may go on. -/
def State.popMat (s : State) (die core quad : Nat) : State :=
  s.modMat die core quad fun u => { u with queue := u.queue.drop 1, running := none }

/-- MATRIX_PASS_COMPLETE (R263 to R265, R272, R273): the running pass of unit `ev` ends and writes the accumulator; against a poisoned bank
it writes nothing and raises MACRO_PARITY. -/
def execMatrixPassComplete (s : State) : Out :=
  match s.evUnit with
  | none => .next s
  | some u => .next (match u.queue, u.running with
    | .pass _ _ qs :: _, some t =>
      if t ≤ s.cycleOn u.die then
        let s1 := s.popMat u.die u.core u.quad
        if u.active.poisoned then s1.passParity qs else qs.foldl (fun s q => s.quarterDone u.die u.core u.quad q) s1
      else s
    | _, _ => s)

/-- MACRO_PARITY (R273): a parity error in the bank of the running pass of unit `ev`: the pass writes nothing and the bank is poisoned. -/
def execMacroParity (s : State) : Out :=
  match s.evUnit with
  | none => .next s
  | some u => .next (match u.queue, u.running with
    | .pass _ _ qs :: _, some _ =>
      ((s.popMat u.die u.core u.quad).modMat u.die u.core u.quad fun u => { u with active := { u.active with poisoned := true } }).passParity qs
    | _, _ => s)

/-! ## MLD instructions complete -/

/-- One element converted by MACCCVT (R95, R271): its pattern and its counts. -/
def cvtElem (f : Fmt) (osc : Nat) (x : W32) : Nat × List Nat :=
  match fp32.decode x.toNat with
  | .nan _ => (f.canon, [1, 0, 0, 0])
  | .inf s => (f.signed s f.maxCode, [0, 1, 0, 0])
  | .fin s m e =>
    let v := FV.fin s m (e + 127 - osc)
    let y := (f.ofFV .rneSat 0 v).1
    let past := (FV.fin false m (e + 127 - osc)) |> fun a => (f.decode f.maxCode).lt a
    (y, [0, 0, if past then 1 else 0, if m ≠ 0 ∧ y % 2 ^ (f.eb + f.mb) = 0 then 1 else 0])

/-- Patterns packed into bytes (R91). -/
def packElems (w : Nat) (xs : List Nat) : List Byte :=
  (leBytes (xs.length * w / 8) (xs.foldr (fun x r => x + r * 2 ^ w) 0))

/-- A lane of a MACCCVT (R271, R272). -/
def State.cvtLane (s : State) (u : MatUnit) (op : MldOp) (x : Nat × W32 × W32) : State :=
  match s.band? op.band with
  | none => s
  | some b =>
    let f := fmtOf op.d
    let rs := (List.range 128).map fun c => cvtElem f (bits x.2.2.toNat 24 8) (u.elem (x.2.1.toNat * 128 + c))
    let off := bits x.2.2.toNat 0 19
    match s.fillBytes b off (cvtRow op.d) true with
    | (s1, some e) => s1.fillFault op.gid x.1 op.pc b.ctx e
    | (s1, none) =>
      (s1.writeSth b off (packElems f.width (rs.map fun r => r.1))).censusAdd op.band op.gid op.pc
        (rs.foldl (fun n r => n.zipWith (fun a b => a + b) r.2) [0, 0, 0, 0])

/-- A bank as issues see it. -/
def Bank.view (b : Bank) : BankView := { loaded := b.loaded, tag := b.tag, fmt := b.fmt, kb := b.kb }

/-- The banks as later issues see them, behind the MLOADBs and MSWAPs that are queued (R259). -/
def MatUnit.review (u : MatUnit) : MatUnit :=
  let step := fun (v : BankView × BankView) (q : MatItem) => match q with
    | .mld op =>
      if op.minor = 0 then (v.1, { loaded := true, tag := op.b % 8, fmt := op.d, kb := op.b / 8 }) else if op.minor = 1 then (v.2, v.1) else v
    | .pass _ _ _ => v
  let v := u.queue.foldl step (u.active.view, u.shadow.view)
  { u with viewA := v.1, viewS := v.2 }

/-- An MLOADB or MSCL whose bytes must be filled again as it completes, and whose fill faults (R266): it has no effect and no place in quadrant
order, and its lanes park to issue it again. -/
def State.mldAgain (s : State) (u : MatUnit) (op : MldOp) (ctx : Nat) (f : Byte × Nat) : State :=
  op.lanes.foldl (fun s x => s.fillFault op.gid x.1 op.pc ctx f) (s.modMat u.die u.core u.quad MatUnit.review)

/-- The effect of an MLD instruction on its unit and state (R267 to R271). -/
def State.mldEffect (s : State) (u : MatUnit) (op : MldOp) : State :=
  let put := fun (s : State) (f : MatUnit → MatUnit) => s.modMat u.die u.core u.quad f
  let x := (op.lanes.headD (0, 0, 0))
  match op.minor with
  | 0 => match s.band? op.band with
    | none => s
    | some b =>
      let n := 4096 * (op.b / 8 + 1)
      match s.fillBytes b x.2.2.toNat n false with
      | (s1, some f) => s1.mldAgain u op b.ctx f
      | (s1, none) => put s1 fun u => { u with shadow :=
          { loaded := true, tag := op.b % 8, fmt := op.d, kb := op.b / 8, poisoned := false, img := cellsPut [] 0 (s1.readSth b x.2.2.toNat n) } }
  | 1 => put s fun u => { u with active := u.shadow, shadow := u.active }
  | 2 => match s.band? op.band with
    | none => s
    | some b =>
      match s.fillBytes b x.2.2.toNat (4 * op.count) false with
      | (s1, some f) => s1.mldAgain u op b.ctx f
      | (s1, none) =>
        let bs := s1.readSth b x.2.2.toNat (4 * op.count)
        put s1 fun u => { u with scale := (List.range bs.length).foldl (fun t i =>
          sparsePut (0x7F : Byte) t (4 * x.2.1.toNat + i) (bs.getD i 0)) u.scale }
  | 3 => s.deliver op.gid op.oid (op.lanes.map fun x => .v x.1 op.d (u.elem x.2.2.toNat))
  | 4 => put s fun u => op.lanes.foldl (fun u x => u.setElem x.2.2.toNat x.2.1) u
  | 5 => put s fun u => op.lanes.foldl (fun u x =>
      { u with acc := u.acc.filter fun e => !(e.1 / 128 == x.2.2.toNat) }) u
  | _ => op.lanes.foldl (fun s x => s.cvtLane u op x) s

/-- MLD_COMPLETE (R264, R267): the MLD instruction first in the queue of unit `ev` takes effect, once what FENCE.P puts before it has been
performed. -/
def execMldComplete (s : State) : Out :=
  match s.evUnit with
  | none => .next s
  | some u => .next (match u.queue, u.running with
    | .mld op :: _, none =>
      if s.needsMet op.needs then (s.popMat u.die u.core u.quad).mldEffect u op else s
    | _, _ => s)

end Sys2Proof.Machine
end

