-- ==== Sys2Proof/Machine/Engine.lean ====
section
/-!
DEFINITION. The copy and collective engines (R278 to R293, R430): the start of a record, its accesses, the exchange of a collective, its
completion, and their events.
-/
namespace Sys2Proof.Machine

/-! ## Records in flight -/

/-- The record named `rid` with its channel. -/
def State.engRec? (s : State) (rid : Nat) : Option (Channel × EngRec) :=
  s.chans.findSome? fun c => (c.recs.find? fun r => r.rid == rid).map fun r => (c, r)

def State.modRec (s : State) (rid : Nat) (f : EngRec → EngRec) : State :=
  { s with chans := s.chans.map fun c => { c with recs := mapIf (fun r => r.rid == rid) f c.recs } }

/-- A record as it starts. -/
def EngRec.new (rid addr : Nat) (raw : List Byte) (p : Post) (ring : Nat) (ph : RecPhase) : EngRec :=
  { rid := rid, addr := addr, raw := raw, coll := p.coll, post := p, ring := ring, moved := 0, phase := ph, page := none, slot := none,
    divert := none, sidx := none, didx := none, lay := [], team := [], own := [], stepAt := none, notices := [], arrivals := [], seq := 0 }

/-- The unit by which a channel's engine asks slices (R192). -/
def Channel.unit (c : Channel) : Nat := unitEngine + (if c.coll then 12 else 0) + c.eng

/-- A channel whose chain has ended becomes IDLE (R275, R292), and the chain's node, if it has one, is DONE or FAILED (R304). -/
def State.settleChan (s : State) (cid : Nat) : State :=
  match s.chan? cid with
  | none => s
  | some c =>
    if c.st = .idle ∨ c.cur.isSome ∨ !c.recs.isEmpty ∨ !c.doomed.isEmpty then s
    else
      let s1 := s.modChan cid fun c => { c with st := .idle, part := [], page := none, node := none, failed := none }
      match c.node with
      | none => s1
      | some (q, i) =>
        let live := ((s1.hq? q).bind fun h => h.nodes.find? fun n => n.idx == i).any fun n => n.st == .running
        if !live then s1
        else
          let s2 := s1.modHq q HostQ.reload
          match c.failed with
          | some f => (s2.failNode q i f).launchers
          | none => (s2.doneNode q i).launchers

/-- The band of a post is not on its core (R293, R381). -/
def State.postAway (s : State) (p : Post) : Bool :=
  match s.band? p.band with
  | some b => !(b.st == .resident)
  | none => false

/-- The fault record and trace record of an engine's record (R291, R365, R366); that of a suspended band is an absent fault (R381). -/
def State.engFault (s : State) (c : Channel) (p : Post) (addr : Nat) (code : Byte) : State :=
  let away := s.postAway p
  let f : FaultInfo :=
    { ctx := p.ctx, die := c.die, core := c.eng, gslot := 255,
      node := match p.node with
        | some (_, n) => n
        | none => s.nodeOf p.kid,
      lanes := 0, pc := 0, addr := addr, signet := p.signet, orig := if away then code else 0, code := if away then fcAbsentFault else code,
      eng := !away }
  let s1 := (s.emitUnit c.die (if c.coll then 2 else 1) c.eng c.chn p.ctx p.signet 0x08 code.toNat).faultRecord f
  if away then s1.modTab fun t => { t with absents := t.absents ++ [{ bid := p.band, orig := code, eng := true }] } else s1

/-- The rest of the chain of a record cancelled by its fault (R291, R292): the records started after it stop, and the walk goes on
only to complete them CANCELLED. -/
def State.cancelRest (s : State) (cid rid : Nat) : State :=
  match s.chan? cid with
  | none => s
  | some c =>
    let later := ((c.recs.dropWhile fun r => !(r.rid == rid)).drop 1).filter fun r => !r.phase.ended
    let ids := later.map fun r => r.rid
    let s1 := later.foldl (fun s r => s.creditFor r) s
    let s2 := s1.modTab fun t => { t with arrivals := t.arrivals.filter fun a => !(ids.contains a.rid) }
    s2.modChan cid fun c =>
      { c with recs := mapIf (fun r => ids.contains r.rid) (fun r => r.stop 0) c.recs, cur := none, part := [], page := none, st := .cancelling,
               doomed := c.doomed ++ match c.cur with
                 | some (a, p) => [(a, p, (0 : Byte))]
                 | none => [] }

/-- A record that ends with a status (R289 to R291): its credit is made, a fault is recorded and may cancel the rest of its chain. -/
def State.finishRec (s : State) (rid status : Nat) (code : Byte) : State :=
  match s.engRec? rid with
  | none => s
  | some (c, r) =>
    let s1 := (s.creditFor r).modRec rid fun r => { r with phase := .done status code, page := none, divert := none }
    if status ≠ 2 then s1
    else
      let s2 := (s1.engFault c r.post r.addr code).modChan c.cid fun c => { c with failed := c.failed.orElse fun _ => some code }
      if fieldAt r.raw 3 1 = 1 then s2.cancelRest c.cid rid else s2

/-- A fault at an address of a context, as it waits for service. -/
def pageAt (code : Byte) (ctx va : Nat) : ParkInfo := { code := code, ctx := ctx, va := va, declined := none }

/-- The fault that another module's answer carries (R189): a page fault comes back only once that module's firmware has declined it. -/
def peerFault (code ctx time : Nat) : ParkInfo := { code := BitVec.ofNat 8 code, ctx := ctx, va := 0, declined := some time }

/-- A page fault of an engine's access put to firmware's fault service (R291). -/
def State.engPage (s : State) (c : Channel) (f : ParkInfo) : State :=
  s.fwEvent c.die f.code.toNat [BitVec.ofNat 64 f.ctx, BitVec.ofNat 64 f.va, BitVec.ofNat 64 c.eng, 255]

/-- A record that waits for the service of a page fault. -/
def State.recPage (s : State) (c : Channel) (rid : Nat) (f : ParkInfo) : State :=
  (s.engPage c f).modRec rid fun r => { r with page := some f }

/-- A channel whose read of a record waits for the service of a page fault (R279). -/
def State.chanPage (s : State) (c : Channel) (f : ParkInfo) : State :=
  (s.engPage c f).modChan c.cid fun c => { c with page := some f }

/-- A fault met by a record (R291): a page fault waits for service, another ends the record. -/
def State.recFault (s : State) (c : Channel) (r : EngRec) (f : ParkInfo) : State :=
  if parkCode f.code && f.declined.isNone then s.recPage c r.rid f else s.finishRec r.rid 2 f.code

/-! ## Start of records (R279, R286) -/

/-- CHAN_CHAIN_START (R286): channel `ev.id`, IDLE, starts its next queued chain. -/
def execChanChainStart (s : State) : Out :=
  match s.chan? s.ev.id with
  | none => .next s
  | some c => match c.posts with
    | [] => .next s
    | p :: ps =>
      if c.st = .idle then
        .next (s.modChan c.cid fun c =>
          { c with posts := ps, cur := some (p.head, p), st := .running, node := p.node, failed := none, part := [], page := none }).launchers
      else .next s

/-- Whether a transfer record's own fields are valid (R279). -/
def copyFieldsOk (raw : List Byte) : Bool :=
  let seg := fun (kind s : Nat) => if kind = 1 then s == 0 else s == 0 || s == 1 || s == 4
  fieldAt raw 384 128 == 0 && fieldAt raw 15 17 == 0 && seg (fieldAt raw 4 1) (fieldAt raw 6 3) && seg (fieldAt raw 5 1) (fieldAt raw 9 3) &&
  !(fieldAt raw 12 3 == 7) && fieldAt raw 64 64 % 64 == 0 && fieldAt raw 256 64 % 64 == 0 &&
  (fieldAt raw 4 1 == 0 || fieldAt raw 128 64 % 128 == 0) && (fieldAt raw 5 1 == 0 || fieldAt raw 192 64 % 128 == 0)

/-- Whether a collective record's own fields are valid (R279, R283). -/
def collFieldsOk (raw : List Byte) : Bool :=
  let op := fieldAt raw 4 3
  fieldAt raw 496 16 == 0 && fieldAt raw 17 15 == 0 && (op == 4 || fieldAt raw 480 16 == 0) && decide (op ≤ 4) &&
  decide (fieldAt raw 10 4 ≤ 4) && (!(fieldAt raw 10 4 == 4) || decide (2 ≤ op)) && (decide (2 ≤ op) || decide (fieldAt raw 7 3 ≤ 2)) &&
  !(fieldAt raw 14 3 == 7) && fieldAt raw 64 64 % 64 == 0 && fieldAt raw 320 64 % 64 == 0 && fieldAt raw 256 64 % 8 == 0

/-- Whether a record's BAR is 0 or names a barrier of the posting band (R279, R402). -/
def State.recBarOk (s : State) (p : Post) (raw : List Byte) : Bool :=
  let h := fieldAt raw (if p.coll then 384 else 320) 64
  h == 0 || (s.postBar p h).isSome

/-- The ring that a record completes to (R278, R283). -/
def ringOf (c : Channel) (coll : Bool) (raw : List Byte) : Nat :=
  let r := fieldAt raw (if coll then 320 else 256) 64
  if r = 0 ∨ r % 64 ≠ 0 then c.ring else r

/-- What stands after a record in its chain. -/
def nextOf (raw : List Byte) : Option Nat :=
  let n := fieldAt raw 64 64
  if n = 0 ∨ n % 64 ≠ 0 then none else some n

/-- A record added to its channel. -/
def State.addRec (s : State) (cid : Nat) (r : EngRec) : State :=
  ({ s with nextId := s.nextId + 1 }).modChan cid fun c => { c with recs := c.recs ++ [r] }

/-- The fields of a 64-byte record that `mask` picks and that are not in hand, read one by one (R298), in the order of `ks`; a fault ends the
reading and keeps what has come. -/
def State.readFields (s : State) (c : Channel) (ctx a mask : Nat) : List Nat → List (Nat × List Byte) →
    State × List (Nat × List Byte) × Option (Byte × Nat)
  | [], part => (s, part, none)
  | k :: ks, part =>
    if bits mask k 1 = 0 ∨ (part.any fun x => x.1 == k) then s.readFields c ctx a mask ks part
    else match s.readGlb c.die c.unit ctx (a + 8 * k) 8 with
      | (s1, .error f) => (s1, part, some f)
      | (s1, .ok bs) => s1.readFields c ctx a mask ks (part ++ [(k, bs)])

/-- What reading a record came to: a fault, a part of its fields, or its 64 bytes. -/
inductive RecRead where
  | fault (code : Byte) (va : Nat)
  | some_
  | whole (raw : List Byte)
deriving DecidableEq, Repr

/-- The read of a channel's next record (R279, R298): each 8-byte field is read once, those of `ev.lane` now, or all that are left where it is
0. -/
def State.readRecord (s : State) (c : Channel) (ctx a : Nat) : State × RecRead :=
  let mask := if s.ev.lane % 256 = 0 then 255 else s.ev.lane % 256
  let (s1, part, e) := s.readFields c ctx a mask (List.range 8) c.part
  let keep := fun (l : List (Nat × List Byte)) => s1.modChan c.cid fun c => { c with part := l }
  match e with
  | some f => (keep part, .fault f.1 f.2)
  | none =>
    if part.length < 8 then (keep part, .some_)
    else (keep [], .whole ((List.range 8).flatMap fun k => assoc k [] part))

/-- A record that cannot be read (R279): it completes FAULTED to the default ring, its bytes untouched. -/
def State.unreadable (s : State) (c : Channel) (a : Nat) (p : Post) (code : Byte) : State :=
  let s1 := (s.addRec c.cid (EngRec.new s.nextId a [] p c.ring (.done 2 code))).modChan c.cid fun c =>
    { c with part := [], page := none, failed := c.failed.orElse fun _ => some code }
  s1.engFault c p a code

/-- A channel whose next record cannot be read (R279): the walk of its chain, or of its first cancelled chain, ends there. -/
def State.declineChan (s : State) (c : Channel) (code : Byte) : State :=
  match c.doomed, c.cur with
  | (a, p, _) :: rest, _ => (s.modChan c.cid fun c => { c with doomed := rest }).unreadable c a p code
  | [], some (a, p) => (s.modChan c.cid fun c => { c with cur := none }).unreadable c a p code
  | [], none => s

/-- The walk of a cancelled chain (R292): its next record completes CANCELLED if OWN is set. DEDUCED (log 167): a record that cannot be read
ends this walk as R279 has it end any other, a page fault waiting for service first. -/
def State.walkDoomed (s : State) (c : Channel) (a : Nat) (p : Post) (code : Byte) (rest : List (Nat × Post × Byte)) : State :=
  let dst := fun (s : State) (l : List (Nat × Post × Byte)) => s.modChan c.cid fun c => { c with doomed := l }
  match s.readRecord c p.ctx a with
  | (s1, .fault f va) => if parkCode f then s1.chanPage c (pageAt f p.ctx va) else s1.declineChan c f
  | (s1, .some_) => s1
  | (s1, .whole raw) =>
    if fieldAt raw 0 1 = 0 then (dst s1 rest).settleChan c.cid
    else
      let next := match nextOf raw with
        | some n => (n, p, code) :: rest
        | none => rest
      (dst s1 next).addRec c.cid (EngRec.new s1.nextId a raw p (ringOf c p.coll raw) (.done (p.endStatus code) code))

/-- A record that has been read starts (R279): one with OWN = 0 ends the walk, and an invalid one completes FAULTED. -/
def State.startRecord (s : State) (c : Channel) (a : Nat) (p : Post) (raw : List Byte) : State :=
  if fieldAt raw 0 1 = 0 then (s.modChan c.cid fun c => { c with cur := none }).settleChan c.cid
  else
    let rid := s.nextId
    let s2 := (s.addRec c.cid (EngRec.new rid a raw p (ringOf c p.coll raw) (if p.coll then .gather else .moving))).modChan c.cid fun c =>
      { c with cur := (nextOf raw).map fun n => (n, p) }
    let ok := (if p.coll then collFieldsOk raw else copyFieldsOk raw) && s2.recBarOk p raw
    if ok then s2 else s2.finishRec rid 2 fcCopyFault

/-- Whether a channel may read the next record of its chain now: fewer than 8 are in flight, its last read does not wait for service, and what the post
waits for has been performed (R225, R286). -/
def State.readsNext (s : State) (c : Channel) : Bool :=
  decide (c.recs.length < 8) && c.page.isNone && (!c.doomed.isEmpty || c.cur.all fun x => s.needsMet x.2.needs)

/-- ENGINE_RECORD_START (R279, R286, R292, R298): channel `ev.id`, with fewer than 8 records in flight, reads the next record of its chain, once
what its post waits for has been performed, and starts it. DEDUCED (log 168): an ordered record, which starts when the others have completed, is
read then, as R279 reads a record when it starts. -/
def execEngineRecordStart (s : State) : Out :=
  match s.chan? s.ev.id with
  | none => .next s
  | some c =>
    if !(s.readsNext c) then .next s
    else match c.doomed, c.cur with
      | (a, p, code) :: rest, _ => .next (s.walkDoomed c a p code rest)
      | [], none => .next s
      | [], some (a, p) =>
        match s.readRecord c p.ctx a with
        | (s1, .fault f va) => .next (if parkCode f then s1.chanPage c (pageAt f p.ctx va) else s1.declineChan c f)
        | (s1, .some_) => .next s1
        | (s1, .whole raw) =>
          if fieldAt raw 0 1 = 1 ∧ fieldAt raw 1 1 = 1 ∧ c.recs.isEmpty = false then
            .next (s.modChan c.cid fun c => { c with part := [] })
          else .next (s1.startRecord c a p raw)

/-! ## Layouts (R280 to R282) -/

/-- The extents and strides of a layout record by dimension. -/
def layDims (bs : List Byte) : List (Nat × Int) :=
  (List.range (fieldAt bs 67 3)).map fun i => (fieldAt bs (128 + 32 * i) 32, sx (fieldAt bs (288 + 32 * i) 32) 32)

/-- The element size of a layout record. -/
def layEsz (bs : List Byte) : Nat := 2 ^ fieldAt bs 64 3

/-- Whether a layout record is valid (R280). -/
def layOk (bs : List Byte) (index : Bool) : Bool :=
  let n := fieldAt bs 67 3
  let seg := fieldAt bs 70 3
  let esz := fieldAt bs 64 3
  fieldAt bs 448 64 == 0 && fieldAt bs 73 55 == 0 && decide (n ≤ 5) && (index || decide (1 ≤ n)) &&
  (if index then n == 0 || esz == 2 || esz == 3 else decide (esz ≤ 4)) && (seg == 0 || seg == 1 || (!index && seg == 4)) &&
  (List.range 5).all fun i =>
    if i < n then decide (1 ≤ fieldAt bs (128 + 32 * i) 32) else fieldAt bs (128 + 32 * i) 32 == 0 && fieldAt bs (288 + 32 * i) 32 == 0

/-- The number of points of a list of dimensions. -/
def dimPoints (ds : List (Nat × Int)) : Nat := ds.foldl (fun n d => n * d.1) 1

/-- The offset in elements of point `k` of a list of dimensions, dimension 0 varying fastest (R281). -/
def dimOffset : List (Nat × Int) → Nat → Int
  | [], _ => 0
  | d :: ds, k => ((k % d.1 : Nat) : Int) * d.2 + dimOffset ds (k / d.1)

/-- One side of a transfer: a plain range, or a layout with or without an index record (R278, R280). -/
structure Side where
  seg : Nat
  base : Nat
  esz : Nat
  dims : List (Nat × Int)
  idx : Option (Nat × Nat × Nat × List (Nat × Int))
deriving DecidableEq, Repr

/-- A layout pair as a side. -/
def sideOf (pair : List Byte) : Side :=
  let ix := pair.take 64
  let da := pair.drop 64
  { seg := fieldAt da 70 3, base := fieldAt da 0 64, esz := layEsz da, dims := layDims da,
    idx := if fieldAt ix 67 3 = 0 then none else some (fieldAt ix 70 3, fieldAt ix 0 64, layEsz ix, layDims ix) }

/-- The source (`dst` unset) or destination of a copy record. -/
def EngRec.side (r : EngRec) (dst : Bool) : Side :=
  let kind := fieldAt r.raw (if dst then 5 else 4) 1
  if kind = 1 then sideOf ((r.lay.drop (if dst then 128 else 0)).take 128)
  else
    { seg := fieldAt r.raw (if dst then 9 else 6) 3, base := fieldAt r.raw (if dst then 192 else 128) 64, esz := 1,
      dims := [(fieldAt r.raw 32 32, 1)], idx := none }

/-- The bytes of the data that one index point selects (R281). -/
def Side.row (x : Side) : Nat := dimPoints x.dims.dropLast * x.esz

/-- The bytes that a side produces (R282). -/
def Side.total (x : Side) : Nat :=
  match x.idx with
  | none => dimPoints x.dims * x.esz
  | some (_, _, _, ds) => dimPoints ds * x.row

/-- The address of byte `k` of a side, given the index value in hand (R281). -/
def Side.addr (x : Side) (k v : Nat) : Int :=
  match x.idx with
  | none => (x.base : Int) + x.esz * dimOffset x.dims (k / x.esz) + (k % x.esz : Nat)
  | some _ =>
    let top := (x.dims.getLast?).getD (1, 0)
    (x.base : Int) + x.esz * (dimOffset x.dims.dropLast (k % x.row / x.esz) + (v : Int) * top.2) + (k % x.esz : Nat)

/-- How many bytes from byte `k` a side gives before it needs another index value. -/
def Side.run (x : Side) (k : Nat) : Nat :=
  match x.idx with
  | none => x.total - k
  | some _ => x.row - k % x.row

/-! ## Places of engine accesses (R287, R291, R293) -/

/-- What an engine's byte finds. -/
inductive EngPlace where
  | at_ (ctx : Nat) (p : Place)
  | fault (f : ParkInfo)
  | wait
  | divert (bid off : Nat)
deriving DecidableEq, Repr

/-- A stash byte of the posting band; a mapped line is filled first (R195, R293). -/
def State.engStash (s : State) (c : Channel) (p : Post) (off : Nat) (wr : Bool) : State × EngPlace :=
  match s.band? p.band, s.kernel? p.kid with
  | some b, some k =>
    if k.launch.stash ≤ off then (s, .fault (pageAt fcSegLimit b.ctx off))
    else if !(b.st == .resident) || s.tab.divs.any (fun d => d.bid == b.bid) then (s, if wr then .divert b.bid off else .wait)
    else
      let at_ := 128 * b.stashBase + off
      match s.mappedLine b.die b.core at_ with
      | some (_, g, false) => match s.translate c.die c.unit b.ctx g true true wr with
        | (s1, .error f) => (s1, .fault (pageAt f b.ctx g))
        | (s1, .ok pa) =>
          ((s1.fillStashLine b.die b.core (at_ / 128) b.bid b.ctx (pa / 128)).askSlice b.die b.core 0xF#4 (pa / 128) .read b.ctx 0 30 2048,
            .at_ b.ctx (.stash b.die b.core at_))
      | _ => (s, .at_ b.ctx (.stash b.die b.core at_))
  | _, _ => (s, .fault (pageAt fcSegLimit p.ctx off))

/-- The place of a byte of an engine's access, translated in the posting context (R291). -/
def State.engPlace (s : State) (c : Channel) (p : Post) (seg : Nat) (a : Int) (wr : Bool) : State × EngPlace :=
  if a < 0 then (s, .fault (pageAt fcSegLimit p.ctx 0))
  else
    let va := a.toNat
    let glb := fun (x : Context) =>
      let g := x.segs.getD 0 Segment.zero
      g.valid && decide (g.base ≤ va) && decide (va < g.limit) && (g.wr || !wr)
    if seg = 1 then s.engStash c p va wr
    else if seg = 4 then
      if 2 ^ 56 ≤ va then (s, .fault (pageAt fcSegLimit p.ctx va))
      else if va / 2 ^ 47 ≠ s.out.device then (s, .at_ p.ctx (.peer (va / 2 ^ 47) (va % 2 ^ 47)))
      else match (s.exporterOf p.ctx).bind s.ctx? with
        | none => (s, .fault (pageAt fcPeerUnreachable p.ctx va))
        | some e =>
          let off := va % 2 ^ 47
          let g := e.segs.getD 0 Segment.zero
          if !g.valid || decide (off < g.base) || decide (g.limit ≤ off) || (wr && !g.wr) then
            (s, .fault (pageAt fcNoMapping e.ctx off))
          else match s.translate c.die c.unit e.ctx off true (!wr) wr with
            | (s1, .error f) => (s1, .fault (pageAt f e.ctx off))
            | (s1, .ok pa) => (s1, .at_ e.ctx (.mem pa))
    else match s.ctx? p.ctx with
      | none => (s, .fault (pageAt fcNoMapping p.ctx va))
      | some x =>
        if !(glb x) then (s, .fault (pageAt fcSegLimit p.ctx va))
        else match s.translate c.die c.unit p.ctx va true (!wr) wr with
          | (s1, .error f) => (s1, .fault (pageAt f p.ctx va))
          | (s1, .ok pa) => (s1, .at_ p.ctx (.mem pa))

/-- The byte that an engine reads at a place; of another module, what its answer holds. -/
def State.engByte (s : State) (ctx : Nat) (p : Place) (i : Nat) : Byte :=
  match p with
  | .peer _ _ => s.ev.bytes.getD i 0
  | _ => s.readPlace ctx p

/-- What an engine's access does at its end. -/
inductive EngStop where
  | none
  | fault (f : ParkInfo)
  | wait
  | divert (bid off : Nat)
deriving DecidableEq, Repr

/-- The places of the bytes of an engine's access, up to the first that has none (R291). -/
def State.engPlaces (s : State) (c : Channel) (p : Post) (seg : Nat) (addr : Nat → Int) (wr : Bool) :
    Nat → Nat → State × List (Nat × Place) × EngStop
  | 0, _ => (s, [], .none)
  | n + 1, k =>
    match s.engPlace c p seg (addr k) wr with
    | (s1, .fault f) => (s1, [], .fault f)
    | (s1, .wait) => (s1, [], .wait)
    | (s1, .divert bid off) => (s1, [], .divert bid off)
    | (s1, .at_ ctx pl) =>
      match pl, s.ev.sub with
      | .peer _ _, f + 1 => (s1, [], .fault (peerFault (f + 1) ctx s.timeNs))
      | _, _ =>
        let (s2, ps, e) := s1.engPlaces c p seg addr wr n (k + 1)
        (s2, (ctx, pl) :: ps, e)

/-- Slice requests for the lines of places that an engine has read or written, as CP 0 with reuse unknown (R287). -/
def State.engAsk (s : State) (c : Channel) (p : Post) (ps : List (Nat × Place)) (op : SliceOp) : State :=
  let pas := ps.filterMap fun x => match x.2 with
    | .mem pa => some pa
    | _ => none
  s.askLines c.die c.unit pas op p.ctx

/-- A number of bytes read from addresses, up to the first that does not come. -/
def State.engRead (s : State) (c : Channel) (p : Post) (seg : Nat) (addr : Nat → Int) (n : Nat) : State × List Byte × EngStop :=
  let (s1, ps, e) := s.engPlaces c p seg addr false n 0
  (s1.engAsk c p ps .read, ps.mapIdx fun i x => s1.engByte x.1 x.2 i, match e with
    | .divert _ _ => .wait
    | e => e)

/-- Bytes written at places (R287). -/
def State.writeAt (s : State) (l : List ((Nat × Place) × Byte)) : State := l.foldl (fun s x => s.writePlace x.1.1 x.1.2 x.2) s

/-! ## Copies (R281, R287) -/

/-- An index point read (R281). -/
def State.look (s : State) (c : Channel) (r : EngRec) (seg base esz : Nat) (ds : List (Nat × Int)) (p : Nat) (x : Side) (dst : Bool) :
    State × Except EngStop Nat :=
  let a : Int := (base : Int) + esz * dimOffset ds p
  match s.engRead c r.post seg (fun i => a + (i : Nat)) esz with
  | (s1, bs, .none) =>
    let v := leNat bs
    if ((x.dims.getLast?).getD (0, 0)).1 ≤ v then (s1, .error (.fault (pageAt fcCopyFault r.post.ctx 0)))
    else (s1.modRec r.rid fun r => if dst then { r with didx := some (p, v) } else { r with sidx := some (p, v) }, .ok v)
  | (s1, _, e) => (s1, .error e)

/-- The index value of the point that holds byte `k` of a side: in hand, or read now (R281). -/
def State.indexValue (s : State) (c : Channel) (r : EngRec) (x : Side) (dst : Bool) (k : Nat) : State × Except EngStop Nat :=
  match x.idx with
  | none => (s, .ok 0)
  | some (seg, base, esz, ds) =>
    let p := k / x.row
    match (if dst then r.didx else r.sidx) with
    | some (q, v) =>
      if q = p then (s, .ok v)
      else s.look c r seg base esz ds p x dst
    | none => s.look c r seg base esz ds p x dst

/-- What follows a stop of a record's access. -/
def State.recStop (s : State) (c : Channel) (r : EngRec) (e : EngStop) : State :=
  match e with
  | .fault f => s.recFault c r f
  | _ => s

/-- Bytes that a diverted write holds for the log (R378). -/
def State.divertWrite (s : State) (c : Channel) (r : EngRec) (bid off : Nat) (bs : List Byte) : State :=
  let a : Arrival :=
    { mid := s.nextId, rid := r.rid, cid := c.cid, bid := bid, offs := off, payload := bs, signet := r.post.signet, atom := none }
  (({ s with nextId := s.nextId + 1 }).modTab fun t => { t with arrivals := t.arrivals ++ [a] }).modRec r.rid fun r =>
    { r with divert := some (a.mid, bs.length) }

/-- The bytes in hand of a record written from its next destination byte on, whole elements of `esz` bytes so that a stop falls between two
(R292): it ends when the last has been written. An element of a diverted write that crosses a line is appended in two pieces (R378). -/
def State.writeSome (s : State) (c : Channel) (r : EngRec) (seg esz : Nat) (addr : Nat → Int) (bs : List Byte) (total : Nat) : State :=
  let (s1, ps, e) := s.engPlaces c r.post seg addr true bs.length 0
  let n := ps.length / esz * esz
  let s2 := ((s1.writeAt (ps.zip (bs.take n))).engAsk c r.post (ps.take n) .write).modRec r.rid fun r =>
    { r with moved := r.moved + n, own := r.own.drop n }
  if total ≤ r.moved + n then s2.finishRec r.rid 0 0
  else if n ≠ 0 then s2
  else match e with
    | .divert bid off =>
      let room := min bs.length (128 - off % 128)
      s2.divertWrite c r bid off (bs.take (if room < esz then room else room / esz * esz))
    | e => s2.recStop c r e

/-- The layout pairs of a copy record read and checked, before any byte moves (R279, R280, R282). -/
def State.readLayouts (s : State) (c : Channel) (r : EngRec) : State :=
  let read := fun (s : State) (dst : Bool) => if fieldAt r.raw (if dst then 5 else 4) 1 = 1
    then s.readGlb c.die c.unit r.post.ctx (fieldAt r.raw (if dst then 192 else 128) 64) 128 else (s, .ok (List.replicate 128 (0 : Byte)))
  match read s false with
  | (s1, .error f) => s1.recFault c r (pageAt f.1 r.post.ctx f.2)
  | (s1, .ok sl) => match read s1 true with
    | (s2, .error f) => s2.recFault c r (pageAt f.1 r.post.ctx f.2)
    | (s2, .ok dl) =>
      let r1 := { r with lay := sl ++ dl }
      let ok := fun (pair : List Byte) (kind : Nat) => kind == 0 || (layOk (pair.take 64) true && layOk (pair.drop 64) false)
      let s3 := s2.modRec r.rid fun _ => r1
      if !(ok sl (fieldAt r.raw 4 1)) || !(ok dl (fieldAt r.raw 5 1)) || (r1.side false).total != (r1.side true).total then
        s3.finishRec r.rid 2 fcCopyFault
      else if (r1.side true).total = 0 then s3.finishRec r.rid 0 0
      else s3

/-- The source bytes of a copy record from the next that it has not read on, `n` of them at most, read into hand (R281, R287). -/
def State.copyRead (s : State) (c : Channel) (r : EngRec) (x : Side) (n : Nat) : State × List Byte × EngStop :=
  let k := r.moved + r.own.length
  match s.indexValue c r x false k with
  | (s1, .error e) => (s1, [], e)
  | (s1, .ok v) =>
    let (s2, bs, e) := s1.engRead c r.post x.seg (fun i => x.addr (k + i) v) (min n (x.run k))
    (s2.modRec r.rid fun r => { r with own := r.own ++ bs }, bs, e)

/-- One access of a copy record (R287): source bytes are read until a destination element is in hand, and whole elements of up to 128 bytes
are written. -/
def State.copyAccess (s : State) (c : Channel) (r : EngRec) (want : Nat) : State :=
  if r.lay.isEmpty then s.readLayouts c r
  else
    let y := r.side true
    let full := min (max y.esz (want / y.esz * y.esz)) (y.run r.moved)
    let (s1, bs, e) := if r.own.length < y.esz then s.copyRead c r (r.side false) (full - r.own.length) else (s, [], .none)
    let own := r.own ++ bs
    if bs.isEmpty ∧ own.length < y.esz then s1.recStop c r e
    else if own.length < y.esz then s1
    else match s1.indexValue c r y true r.moved with
      | (s2, .error e) => s2.recStop c r e
      | (s2, .ok w) => s2.writeSome c r y.seg y.esz (fun i => y.addr (r.moved + i) w) (own.take (min full own.length / y.esz * y.esz)) y.total

/-! ## Collectives (R283 to R285, R430) -/

/-- The element size of a TYPE (R283). -/
def collEsz (t : Nat) : Nat := [4, 2, 4, 8, 1].getD t 1

/-- One combining step of a reduction (R105, R285). -/
def collStep (rop t x y : Nat) : Nat :=
  let int := fun (n : Nat) => match rop with
    | 0 => (x + y) % 2 ^ n
    | 1 => if sx x n ≤ sx y n then x else y
    | _ => if sx x n ≤ sx y n then y else x
  let flt := fun (f : Fmt) => match rop with
    | 0 => (f.add x y).1
    | 1 => (f.minMax true false x y).1
    | _ => (f.minMax true true x y).1
  match t with
  | 0 => flt fp32
  | 1 => flt bf16
  | 2 => int 32
  | _ => int 64

/-- Two buffers combined element by element (R285); `n` bounds the elements. -/
def collCombine (rop t esz : Nat) : Nat → List Byte → List Byte → List Byte
  | 0, _, _ => []
  | n + 1, a, b => leBytes esz (collStep rop t (leNat (a.take esz)) (leNat (b.take esz))) ++ collCombine rop t esz n (a.drop esz) (b.drop esz)

/-- Fields of a collective record. -/
def EngRec.op (r : EngRec) : Nat := fieldAt r.raw 4 3
def EngRec.rop (r : EngRec) : Nat := fieldAt r.raw 7 3
def EngRec.type (r : EngRec) : Nat := fieldAt r.raw 10 4
def EngRec.block (r : EngRec) : Nat := fieldAt r.raw 32 32 * collEsz r.type
def EngRec.members (r : EngRec) : Nat := fieldAt r.team 0 16
def EngRec.rank (r : EngRec) : Nat := fieldAt r.team 16 16
def EngRec.root (r : EngRec) : Nat := fieldAt r.raw 480 16

/-- The bytes that a member sends (R283). -/
def EngRec.sendBytes (r : EngRec) : Nat :=
  match r.op with
  | 1 => r.members * r.block
  | 3 => r.members * r.block
  | 4 => if r.rank = r.root then r.block else 0
  | _ => r.block

/-- What the members' records must agree in (R284). -/
def EngRec.agree (r : EngRec) : List Nat :=
  [r.op, if r.op < 2 then r.rop else 0, r.type, fieldAt r.raw 32 32, r.members, r.root]

/-- The ranks whose data a member needs (R283). -/
def EngRec.needed (r : EngRec) : List Nat :=
  (if r.op = 4 then [r.root] else List.range r.members).filter fun j => j != r.rank

/-- A member's data: the record's own, or what has arrived. -/
def EngRec.dataOf (r : EngRec) (j : Nat) : List Byte :=
  if j = r.rank then r.own else ((r.arrivals.find? fun a => a.1 == j).map fun a => a.2.2).getD []

/-- RECV of a member (R283, R285): reductions in ascending rank order. -/
def EngRec.result (r : EngRec) : List Byte :=
  let cut := fun (d : List Byte) (i : Nat) => (d.drop (i * r.block)).take r.block
  let ranks := List.range r.members
  let reduce := fun (part : Nat → List Byte) =>
    (ranks.drop 1).foldl (fun x j => collCombine r.rop r.type (collEsz r.type) (fieldAt r.raw 32 32) x (part j)) (part 0)
  match r.op with
  | 0 => reduce r.dataOf
  | 1 => reduce fun j => cut (r.dataOf j) r.rank
  | 2 => ranks.flatMap r.dataOf
  | 3 => ranks.flatMap fun j => cut (r.dataOf j) r.rank
  | _ => r.dataOf r.root

/-- Whether a team descriptor is valid for a record (R284). -/
def teamOk (r : EngRec) : Bool :=
  decide (2 ≤ r.members) && decide (r.members ≤ 4096) && decide (r.rank < r.members) && fieldAt r.team 32 32 == 0 &&
  (!(r.op == 4) || decide (r.root < r.members)) &&
  (List.range r.members).all fun j => fieldAt r.team (64 + 32 * j + 21) 11 == 0

/-- What names a team among the members of one context (R284): the entries of its descriptor, and the rank of one member. -/
def EngRec.teamKey (r : EngRec) (rank : Nat) : Nat := leNat (r.team.drop 8) * 65536 + rank

/-- The number of a record among those of its team that its engine has started as one member. DESIGN CHOICE (log 166): the spec does not say how
the records of one collective find one another; they are those that stand at the same place in each member's order. -/
def State.collSeq (s : State) (c : Channel) (r : EngRec) : State × Nat :=
  let k := (c.die, c.eng, r.post.ctx, r.teamKey r.rank)
  let n := assoc k 0 s.collSeqs
  ({ s with collSeqs := assocSet k (n + 1) s.collSeqs }, n)

/-- The team descriptor read and checked (R279, R284): its header, then its entries. -/
def State.readTeam (s : State) (c : Channel) (r : EngRec) : State :=
  let at_ := fieldAt r.raw 256 64
  match s.readGlb c.die c.unit r.post.ctx at_ 8 with
  | (s1, .error f) => s1.recFault c r (pageAt f.1 r.post.ctx f.2)
  | (s1, .ok hd) => match s1.readGlb c.die c.unit r.post.ctx at_ (8 + 4 * min 4096 (fieldAt hd 0 16)) with
    | (s2, .error f) => s2.recFault c r (pageAt f.1 r.post.ctx f.2)
    | (s2, .ok bs) =>
      let r1 := { r with team := bs }
      let (s3, n) := s2.collSeq c r1
      let s4 := s3.modRec r.rid fun _ => { r1 with seq := n, phase := if r1.sendBytes = 0 then .exchange else .gather }
      if teamOk r1 then s4 else s4.finishRec r.rid 2 fcCopyFault

/-- RECV is about to be written: the result is computed from what has come. -/
def State.startRecv (s : State) (rid : Nat) : State :=
  match s.engRec? rid with
  | none => s
  | some (_, r) =>
    let s1 := s.modRec rid fun r => { r with own := r.result, phase := .moving }
    if r.result.isEmpty then s1.finishRec rid 0 0 else s1

/-- One access of a collective record (R287): bytes of SEND read, or bytes of RECV written. -/
def State.collAccess (s : State) (c : Channel) (r : EngRec) (want : Nat) : State :=
  if r.team.isEmpty then s.readTeam c r
  else
    let esz := collEsz r.type
    match r.phase with
    | .gather =>
      let at_ : Int := (fieldAt r.raw 128 64 : Int) + r.own.length
      let n := min (max 1 want) (r.sendBytes - r.own.length)
      let (s1, bs, e) := s.engRead c r.post 0 (fun i => at_ + (i : Nat)) n
      if bs.isEmpty then s1.recStop c r e
      else s1.modRec r.rid fun r =>
        { r with own := r.own ++ bs, phase := if r.sendBytes ≤ r.own.length + bs.length then .exchange else .gather }
    | .moving =>
      let at_ : Int := (fieldAt r.raw 192 64 : Int) + r.moved
      let n := max esz (want / esz * esz)
      s.writeSome c r 0 esz (fun i => at_ + (i : Nat)) (r.own.take n) (r.moved + r.own.length)
    | _ => s

/-- ENGINE_ACCESS (R281, R285, R287, R291): record `ev.id` moves its next bytes, at most `ev.lane` of them and 128, in walk order. Bytes of
another module come in `ev.bytes`, or its fault in `ev.sub`. -/
def execEngineAccess (s : State) : Out :=
  match s.engRec? s.ev.id with
  | none => .next s
  | some (c, r) =>
    if r.page.isSome || r.divert.isSome then .next s
    else
      let want := if s.ev.lane = 0 then 128 else min 128 s.ev.lane
      match r.phase with
      | .done _ _ => .next s
      | .clearing => .next s
      | .exchange => .next s
      | _ => .next (if r.coll then s.collAccess c r want else s.copyAccess c r want)

/-- A member of a team: module, die, engine and whether it is reached over scale-out (R284). -/
def EngRec.member (r : EngRec) (j : Nat) : Nat × Nat × Nat × Nat :=
  let x := fieldAt r.team (64 + 32 * j) 32
  (bits x 0 16, bits x 16 3, bits x 19 1, bits x 20 1)

/-- Whether a member of a team is an engine of this module. -/
def State.memberHere (s : State) (r : EngRec) (j : Nat) : Bool := (r.member j).2.2.2 == 0 && (r.member j).1 == s.out.device

/-- The step data that a record sends to the members of this module that need it. -/
def State.sendStep (s : State) (r : EngRec) : State :=
  let dsts := (List.range r.members).filter fun j => j != r.rank && s.memberHere r j && (r.op != 4 || r.rank == r.root)
  let pkt := fun (j : Nat) => { die := (r.member j).2.1, eng := (r.member j).2.2.1, ctx := r.post.ctx, team := r.teamKey j, seq := r.seq,
                                rank := r.rank, fields := r.agree, data := r.own : CollPkt }
  { s with pkts := s.pkts ++ dsts.map pkt }

/-- COLL_STEP_START (R430): record `ev.id`, which holds its inputs, starts its step: its data and begin notice go to its peers. -/
def execCollStepStart (s : State) : Out :=
  match s.engRec? s.ev.id with
  | none => .next s
  | some (_, r) =>
    if r.phase = .exchange ∧ r.stepAt = none then
      let s1 := (s.modRec r.rid fun r => { r with stepAt := some s.out.elapsed }).sendStep r
      .next (if r.needed.isEmpty then s1.startRecv r.rid else s1)
    else .next s

/-- The packet that the member of rank `j`, of this module, has sent to a record. -/
def State.pktFor (s : State) (c : Channel) (r : EngRec) (j : Nat) : Option CollPkt :=
  s.pkts.find? fun p => p.die == c.die && p.eng == c.eng && p.ctx == r.post.ctx && p.team == r.teamKey r.rank && p.seq == r.seq &&
    p.rank == j

/-- COLL_BEGIN_NOTICE (R430): the begin notice of rank `ev.sub` arrives for record `ev.id`. -/
def execCollBeginNotice (s : State) : Out :=
  match s.engRec? s.ev.id with
  | none => .next s
  | some (c, r) =>
    let j := s.ev.sub
    if r.coll && r.needed.contains j && !(r.notices.contains j) && (!(s.memberHere r j) || (s.pktFor c r j).isSome) then
      .next (s.modRec r.rid fun r => { r with notices := r.notices ++ [j] })
    else .next s

/-- Step data of rank `j` taken by a record (R284, R430): a disagreement ends it, and the last arrival completes the step. -/
def State.stepData (s : State) (c : Channel) (r : EngRec) (j : Nat) (fields : List Nat) (data : List Byte) : State :=
  if fields ≠ r.agree then s.finishRec r.rid 2 fcCopyFault
  else
    let r1 := { r with arrivals := r.arrivals ++ [(j, s.timeNs, data)] }
    let s1 := s.modRec r.rid fun _ => r1
    if r1.needed.all fun k => r1.arrivals.any fun a => a.1 == k then
      (s1.emitUnit c.die 2 c.eng c.chn r.post.ctx r.post.signet 0x11 (j * 2 ^ 16)).startRecv r.rid
    else s1

/-- COLL_STEP_DATA (R284, R285, R430): the step data of rank `ev.sub` arrives at record `ev.id`. That of another module is `ev.bytes`, with the
fields that must agree in `ev.words`. -/
def execCollStepData (s : State) : Out :=
  match s.engRec? s.ev.id with
  | none => .next s
  | some (c, r) =>
    let j := s.ev.sub
    if !(r.phase == .exchange) || r.stepAt.isNone || !(r.needed.contains j) || r.arrivals.any (fun a => a.1 == j) then .next s
    else if s.memberHere r j then
      match s.pktFor c r j with
      | none => .next s
      | some p => .next (({ s with pkts := s.pkts.erase p }).stepData c r j p.fields p.data)
    else .next (s.stepData c r j (s.ev.words.map fun w => w.toNat) s.ev.bytes)

/-- COLL_STEP_TIMEOUT (R285, R430): STEPTO has passed since record `ev.id` started its step: the first late member is named and the record
ends with COLL_TIMEOUT. -/
def execCollStepTimeout (s : State) : Out :=
  match s.engRec? s.ev.id with
  | none => .next s
  | some (c, r) =>
    let us := fieldAt r.raw 448 32
    match r.phase, r.stepAt with
    | .exchange, some t =>
      if t + usToUnits (if us = 0 then 1000 else us) ≤ s.out.elapsed then
        let late := r.needed.filter fun j => !(r.arrivals.any fun a => a.1 == j)
        let silent := late.filter fun j => !(r.notices.contains j)
        let j := (leastOf (if silent.isEmpty then late else silent)).getD 0
        let pay := j * 2 ^ 16 + (if silent.isEmpty then 2 ^ 32 else 0)
        .next ((s.emitUnit c.die 2 c.eng c.chn r.post.ctx r.post.signet 0x12 pay).finishRec r.rid 2 0x31)
      else .next s
    | _, _ => .next s

/-! ## Completion (R288, R289) -/

/-- A completion record as a number, but for its PHASE (R289). -/
def State.completionWord (s : State) (r : EngRec) (status : Nat) (code : Byte) : Nat :=
  r.addr % 2 ^ 56 * 2 ^ 192 + s.timeNs % 2 ^ 64 * 2 ^ 128 + r.post.signet.toNat * 2 ^ 64 + r.moved % 2 ^ 32 * 2 ^ 32 + s.timeF * 2 ^ 16 +
  code.toNat * 2 ^ 8 + status

/-- A record leaves its channel; what waited for it goes on. -/
def State.recGone (s : State) (c : Channel) (r : EngRec) : State :=
  let s2 := s.modChan c.cid fun c => { c with recs := c.recs.filter fun x => !(x.rid == r.rid) }
  (s2.settleChan c.cid).performed r.post.gid

/-- OWN of a completed record cleared at its point of coherence, the other bits of its byte left as they stand, unless the record could not be
read (R279, R289). A page fault waits for service; another fault leaves OWN as it is. -/
def State.clearOwn (s : State) (c : Channel) (r : EngRec) : State :=
  if r.raw.isEmpty then s.recGone c r
  else match s.translate c.die c.unit r.post.ctx r.addr true true true with
    | (s1, .error f) => if parkCode f then s1.recPage c r.rid (pageAt f r.post.ctx r.addr) else s1.recGone c r
    | (s1, .ok pa) =>
      ((s1.writePa r.post.ctx pa (s1.readPa r.post.ctx pa &&& 0xFE)).askLines c.die c.unit [pa] .write r.post.ctx).recGone c r

/-- The completion record of a record is written, or dropped, for good: what waits for it goes on and OWN is cleared. -/
def State.recWritten (s : State) (c : Channel) (r : EngRec) : State :=
  ((s.modRec r.rid fun r => { r with phase := .clearing, page := none }).crecAll).clearOwn c r

/-- A completion that is dropped (R288): the record is entered in the context's fault queue. -/
def State.dropCompletion (s : State) (c : Channel) (r : EngRec) : State := (s.engFault c r.post r.addr fcCopyFault).recWritten c r

/-- A fault met by the completion of a record (R288): a page fault waits for service, with another the completion is dropped. -/
def State.slotFault (s : State) (c : Channel) (r : EngRec) (code : Byte) (va : Nat) : State :=
  if parkCode code then s.recPage c r.rid (pageAt code r.post.ctx va) else s.dropCompletion c r

/-- The completion record written to the slot that is reserved (R289). -/
def State.putCompletion (s : State) (c : Channel) (r : EngRec) (status : Nat) (code : Byte) (va phase : Nat) : State :=
  match s.writeGlb c.die c.unit r.post.ctx va (leBytes 32 (phase * 2 ^ 255 + s.completionWord r status code)) with
  | (s1, some f) => s1.slotFault c r f.1 f.2
  | (s1, none) => s1.recWritten c r

/-- COMPLETION_RECORD_WRITE (R288, R289): record `ev.id`, which has ended, reserves a slot of its ring if it has none and writes its completion
record there; then OWN is cleared. A full ring makes it wait. -/
def execCompletionRecordWrite (s : State) : Out :=
  match s.engRec? s.ev.id with
  | none => .next s
  | some (c, r) =>
    if r.page.isSome then .next s
    else match r.phase, r.slot with
      | .done status code, some (va, ph) => .next (s.putCompletion c r status code va ph)
      | .done status code, none => match s.ringReserve c.die c.unit r.post.ctx r.ring 32 with
        | (s1, .full) => .next s1
        | (s1, .bad f va) => .next (s1.slotFault c r f va)
        | (s1, .slot va ph) => .next ((s1.modRec r.rid fun r => { r with slot := some (va, ph) }).putCompletion c r status code va ph)
      | .clearing, _ => .next (s.clearOwn c r)
      | _, _ => .next s

/-! ## Fault service of engines (R279, R291) -/

/-- Whether a wait for service is for a page in `[lo, hi)` of a context. -/
def ParkInfo.on (p : ParkInfo) (ctx lo hi : Nat) : Bool := p.ctx == ctx && decide (lo ≤ p.va) && decide (p.va < hi)

/-- Engine accesses that wait for pages in `[lo, hi)` of a context go on (R291). -/
def State.serveEngines (s : State) (ctx lo hi : Nat) : State :=
  let go := fun (p : Option ParkInfo) => if p.any fun x => x.on ctx lo hi then none else p
  { s with chans := s.chans.map fun c => { c with recs := c.recs.map (fun r => { r with page := go r.page }), page := go c.page } }

/-- A record one of whose accesses has been declined (R288, R289, R291): it ends FAULTED with the fault's code, or its completion is dropped.
DEDUCED (log 169): where the write of OWN is declined, OWN stays. -/
def State.declineRec (s : State) (c : Channel) (r : EngRec) (code : Byte) : State :=
  match r.phase with
  | .done _ _ => s.dropCompletion c r
  | .clearing => s.recGone c r
  | _ => s.finishRec r.rid 2 code

/-- Engine accesses that wait for pages in `[lo, hi)` of a context are declined, each with the code of its own fault (R279, R288, R291). -/
def State.declineEngines (s : State) (ctx lo hi : Nat) : State :=
  let heads := s.chans.filterMap fun c => (c.page.filter fun p => p.on ctx lo hi).map fun p => (c, p.code)
  let recs := s.chans.flatMap fun c => c.recs.filterMap fun r => (r.page.filter fun p => p.on ctx lo hi).map fun p => (c, r, p.code)
  let s1 := heads.foldl (fun s x => s.declineChan x.1 x.2) s
  recs.foldl (fun s x => s.declineRec x.1 x.2.1 x.2.2) s1

/-- An uncorrectable error of an engine's record (R279, R288, R291): in its source data, layouts or team descriptor it ends FAULTED; in its ring's
descriptor or its slot the completion is dropped. -/
def State.recUncorrectable (s : State) (c : Channel) (r : EngRec) : State :=
  if r.page.isSome || r.divert.isSome then s
  else match r.phase with
    | .gather => s.finishRec r.rid 2 fcDataUncorrectable
    | .moving => if r.coll then s else s.finishRec r.rid 2 fcDataUncorrectable
    | .done _ _ => s.dropCompletion c r
    | _ => s

/-- DATA_UNCORRECTABLE (R53, R200, R279, R288, R291, R345): memory returns an uncorrectable error to access `ev.id` of a load or atomic, whose
group rolls back; to an access of record `ev.id` of an engine; or, where `ev.sub` is 1, to the read of the next record of channel `ev.id`.
An error in a line that no access consumes (`ev.sub` 2) leaves a fault record of context `ev.core` and no fault (R200). -/
def execDataUncorrectable (s : State) : Out :=
  if s.ev.sub = 2 then
    .next (s.faultRecord
      { ctx := s.ev.core, die := s.ev.die, core := 96, gslot := 255, node := 0, lanes := 0, pc := 0,
        addr := (s.ev.words.headD 0).toNat, signet := 0, orig := 0, code := fcDataUncorrectable, eng := false })
  else if s.ev.sub = 1 then
    match s.chan? s.ev.id with
    | some c => .next (if s.readsNext c then s.declineChan c fcDataUncorrectable else s)
    | none => .next s
  else match s.mem.accs.find? (fun a => a.aid == s.ev.id) with
    | some a =>
      if s.canPerform a && (a.kind.isLoad || a.kind.isAtom) then
        .next ((s.dropAccs [a.aid]).rollback a.gid fcDataUncorrectable a.va)
      else .next s
    | none => match s.engRec? s.ev.id with
      | some (c, r) => .next (s.recUncorrectable c r)
      | none => .next s

end Sys2Proof.Machine
end

