-- ==== Sys2Proof/Machine/Priv.lean ====
section
/-!
DEFINITION. The privileged instructions on tables (R357 to R364): SEGLD, HEAPLD, TLBINV, RTSWAP and KEYSEL; the packets of other modules
(R189, R355) and the entry to a trap handler (R367).
-/
namespace Sys2Proof.Machine

/-! ## The operand record (R357, R389) -/

/-- A data access of a privileged instruction that has failed: it faults as an access of the group's lanes does. -/
def State.privFault (s : State) (c : Issue) (g : Group) (f : Byte × Nat) : State :=
  if parkCode f.1 then ((lanesOf c.mask).foldl (fun s l => s.parkLane c.gid l c.pc f.1 (s.ctxOf g) f.2) s).stay
  else s.groupKernelFault g f.1 c.pc c.mask f.2

/-- A privileged instruction with a 32-byte operand record at S[A] (R357), which issues once the group's earlier stores have been performed; a
misaligned record answers REFUSED, and one that cannot be read faults as an access of the group's lanes does. -/
def State.privRecord (s : State) (c : Issue) (g : Group) (d a : Nat) (k : State → List Byte → State) : State :=
  let va := (g.rs a).toNat
  if va % 32 ≠ 0 then s.postUnit c g (statusWrites c.mask d stRefused)
  else match s.readOwn g va 32 with
    | (s1, .ok bs) => k s1 bs
    | (s1, .error f) => s1.privFault c g f

/-- The status of a privileged instruction, written with variable latency (R357). -/
def State.privStatus (s : State) (c : Issue) (g : Group) (d code : Nat) : State := s.postUnit c g (statusWrites c.mask d code)

/-! ## SEGLD, HEAPLD (R358 to R360) -/

/-- A segment loaded from an operand record (R358, R359): of STH only the flags. -/
def Segment.load (x : Segment) (bs : List Byte) : Segment :=
  let y := { x with valid := fieldAt bs 128 1 == 1, wr := fieldAt bs 129 1 == 1 }
  if fieldAt bs 160 8 = 1 then y else { y with base := fieldAt bs 0 64, limit := fieldAt bs 64 64 }

/-- Whether a SEGLD record is acceptable (R357, R358). -/
def segldOk (bs : List Byte) : Bool :=
  fieldAt bs 168 88 == 0 && decide (fieldAt bs 160 8 ≤ 4) && fieldAt bs 130 30 == 0 &&
  !(fieldAt bs 160 8 == 2 && fieldAt bs 64 64 % 4 != 0)

/-- What a SEGLD replaces in the copies of a context's bands, kept until its status is written (R359). -/
def State.keepSegs (s : State) (gid oid ctx seg : Nat) : State :=
  let old := (s.bands.filter fun b => b.ctx == ctx).map fun b => { gid := gid, oid := oid, band := b.bid, seg := seg, was := b.segs.getD seg Segment.zero : SegWas }
  s.modTab fun t => { t with segWas := t.segWas.filter (fun x => s.awaits x.gid x.oid) ++ old }

/-- What a HEAPLD replaces, kept until its status is written (R359, R360). -/
def State.keepHeap (s : State) (gid oid ctx : Nat) : State :=
  let old := (s.ctx? ctx).toList.map fun c => { gid := gid, oid := oid, ctx := ctx, base := c.heapBase, lim := c.heapLim, off := c.heapOff : HeapWas }
  s.modTab fun t => { t with heapWas := t.heapWas.filter (fun x => s.awaits x.gid x.oid) ++ old }

/-- SEGLD (R359): the target context's segment and the copies of its resident bands. What issues before the status is written uses the old or the
new values. -/
def execSegld (d a : BitVec 6) (s : State) : Out :=
  issuePriv (.segld d a) s fun c g => s.privRecord c g d.toNat a.toNat fun s1 bs =>
    if segldOk bs then
      let i := fieldAt bs 160 8
      let t := s1.tab.tgtctx
      let s2 := (s1.keepSegs c.gid s1.nextId t i).modCtx t fun x => { x with segs := x.segs.modify i fun y => y.load bs }
      let copy := fun (b : Band) => { b with segs := b.segs.modify i fun y => y.load bs }
      ({ s2 with bands := mapIf (fun (b : Band) => b.ctx == t && !(b.st == BandState.saved)) copy s2.bands }).privStatus c g d.toNat stOk
    else s1.privStatus c g d.toNat stRefused

/-- HEAPLD (R360), with the timing of a SEGLD. -/
def execHeapld (d a : BitVec 6) (s : State) : Out :=
  issuePriv (.heapld d a) s fun c g => s.privRecord c g d.toNat a.toNat fun s1 bs =>
    let base := fieldAt bs 0 64
    let lim := fieldAt bs 64 64
    let off := fieldAt bs 128 64
    let lo := (base + off) % 2 ^ 64
    let ok := fieldAt bs 192 64 == 0 && decide (base ≤ lim) && base % 65536 == 0 && lim % 65536 == 0 && off % 65536 == 0 &&
      ((s1.ctx? s1.tab.tgtctx).any fun x => x.granted lo (lim - base)) && !(s1.inUndercroft lo (lim - base) && decide (base < lim))
    if ok then
      ((s1.keepHeap c.gid s1.nextId s1.tab.tgtctx).modCtx s1.tab.tgtctx fun x => { x with heapBase := base, heapLim := lim, heapOff := off }).privStatus c g d.toNat stOk
    else s1.privStatus c g d.toNat stRefused

/-! ## TLBINV (R361) -/

/-- Whether a span of a context is within the range of a TLBINV. -/
def invHits (len start lo n : Nat) : Bool := len == 0 || (decide (lo < start + len) && decide (start < lo + n))

/-- TLBINV (R361): the entries go at once; OK comes when the walks in flight and the accesses that translated through them have ended. -/
def execTlbinv (d a : BitVec 6) (s : State) : Out :=
  issuePriv (.tlbinv d a) s fun c g => s.privRecord c g d.toNat a.toNat fun s1 bs =>
    let start := fieldAt bs 0 64
    let len := fieldAt bs 64 64
    let ctx := fieldAt bs 128 8
    if fieldAt bs 136 120 ≠ 0 ∨ start % 4096 ≠ 0 then s1.privStatus c g d.toNat stRefused
    else
      let s2 := s1.modMem fun m => { m with tlb := m.tlb.filter fun e => !(e.ctx == ctx && invHits len start e.vbase e.size) }
      let aids := (s2.mem.accs.filter fun x => x.places.isSome && !(x.seg == 1) && s2.accCtx x == ctx && invHits len start x.start x.n).map fun x => x.aid
      let wids := (s2.mem.walks.filter fun w => w.ctx == ctx && w.walking).map fun w => w.wid
      if aids.isEmpty && wids.isEmpty then s2.privStatus c g d.toNat stOk
      else (s2.postAwait c g .unit).modTab fun t => { t with invs := t.invs ++ [{ gid := c.gid, oid := s2.nextId, aids := aids, wids := wids }] }

/-- Whether what a TLBINV waits for has ended. -/
def State.invDone (s : State) (x : Invalidation) : Bool :=
  !(s.mem.accs.any fun a => x.aids.contains a.aid) && !(s.mem.walks.any fun w => x.wids.contains w.wid)

/-! ## RTSWAP (R353, R354, R362) -/

/-- A router with every entry invalid. -/
def Router.empty (die cls idx : Nat) : Router := { die := die, cls := cls, idx := idx, active := [], standby := [], swap := none, queue := [] }

/-- The router that RTWIN of a die selects. -/
def State.rtwinOf (s : State) (die : Nat) : Nat := (assoc die 0 s.tab.rtwin).toNat

def State.routerAt (s : State) (die cls idx : Nat) : Router :=
  (s.tab.routers.find? fun r => r.die == die && r.cls == cls && r.idx == idx).getD (Router.empty die cls idx)

/-- Whether a die has a router of a class and index. Scale-out ports are 4 on each die (R21); the spec gives no number of the others. -/
def routerIs (cls idx : Nat) : Bool := cls != 3 && (cls != 2 || decide (idx < 4))

/-- A router changed. -/
def State.setRouter (s : State) (r : Router) : State :=
  s.modTab fun t => { t with routers := r :: t.routers.filter fun x => !(x.die == r.die && x.cls == r.cls && x.idx == r.idx) }

/-- An entry of a bank, invalid where it is not listed. -/
def bankEntry (b : List (Nat × Byte)) (i : Nat) : Byte := assoc i 0 b

/-- An RTSWAP whose record and router are acceptable (R353, R358, R362): `mem` says that ADDR is used. -/
def rtswapIssue (mem : Bool) (s : State) (k : State → Issue → Group → Nat → Router → Nat → State) : State :=
  match s.cur with
  | none => s
  | some c => match s.group? c.gid with
    | none => s
    | some g =>
      let d := bits c.w0.toNat 15 6
      s.privRecord c g d (bits c.w0.toNat 9 6) fun s1 bs =>
        let w := s1.rtwinOf g.die
        let addr := fieldAt bs 0 64
        if fieldAt bs 66 190 ≠ 0 ∨ fieldAt bs 64 2 = 3 ∨ !(routerIs (bits w 30 2) (bits w 16 7)) ∨ (mem ∧ addr % 64 ≠ 0) then s1.privStatus c g d stRefused
        else k s1 c g d (s1.routerAt g.die (bits w 30 2) (bits w 16 7)) addr

/-- Entries `64 b` on of a bank replaced; invalid values of zero are not listed. -/
def bankPut (bank : List (Nat × Byte)) (b : Nat) (bs : List Byte) : List (Nat × Byte) :=
  (bank.filter fun e => !(e.1 / 64 == b)) ++ (List.range 64).filterMap fun i =>
    let x := bs.getD i 0
    if x = 0 then none else some (64 * b + i, x)

/-- RTSWAP with OP 0 (R362): 64 bytes into the standby bank's block. The row of a record with OP 3 or an unreadable record as well. -/
def execRtswapWrite (d a : BitVec 6) (s : State) : Out :=
  issuePriv (.rtswapWrite d a) s fun _ _ => rtswapIssue true s fun s1 c g d r addr =>
    match s1.readOwn g addr 64 with
    | (s2, .error f) => s2.privFault c g f
    | (s2, .ok bs) => (s2.setRouter { r with standby := bankPut r.standby (s1.rtwinOf g.die % 128) bs }).privStatus c g d stOk

/-- RTSWAP with OP 1 (R362): the active bank's block into 64 bytes. -/
def execRtswapRead (s : State) : Out :=
  issuePriv .rtswapRead s fun _ _ => rtswapIssue true s fun s1 c g d r addr =>
    let bs := (List.range 64).map fun i => bankEntry r.active (s1.rtwinOf g.die % 128 * 64 + i)
    match s1.writeGlb g.die g.core (s1.ctxOf g) addr bs with
    | (s2, some f) => s2.privFault c g f
    | (s2, none) => s2.privStatus c g d stOk

/-- RTSWAP with OP 2 (R354): the router holds what differs between its banks and drains; the exchange comes with the status, or
RTSWAP_TIMEOUT ends the swap. DESIGN CHOICE (log 170): one that finds a swap under way at its router begins when that has ended. -/
def execRtswapSwap (s : State) : Out :=
  issuePriv .rtswapSwap s fun _ _ => rtswapIssue false s fun s1 c g _ r _ =>
    (s1.postAwait c g .unit).setRouter
      (if r.swap.isSome then { r with queue := r.queue ++ [(c.gid, s1.nextId)] } else { r with swap := some (s1.out.elapsed, c.gid, s1.nextId) })

/-- A router whose swap has ended (R354): the next one begins. -/
def Router.endSwap (r : Router) (now : Nat) : Router :=
  { r with swap := r.queue.head?.map fun x => (now, x.1, x.2), queue := r.queue.drop 1 }

/-- The status of a swap that has ended. -/
def State.swapStatus (s : State) (gid oid code : Nat) : State :=
  match (s.group? gid).bind fun g => g.out? oid with
  | some o => s.deliver gid oid (statusWrites o.mask (bits o.w0.toNat 15 6) code)
  | none => s

/-- The drain of a swap has ended (R354): the banks exchange and the status is OK. -/
def State.swapDone (s : State) (r : Router) (gid oid : Nat) : State :=
  (s.setRouter ({ r with active := r.standby, standby := r.active }.endSwap s.out.elapsed)).swapStatus gid oid stOk

/-- RTSWAP_TIMEOUT (R354): router `ev.id` of class `ev.sub` on die `ev.die` has not drained within 2 µs; the swap is abandoned with
TIMEOUT. -/
def execRtswapTimeout (s : State) : Out :=
  let r := s.routerAt s.ev.die s.ev.sub s.ev.id
  .next (match r.swap with
  | none => s
  | some (at_, gid, oid) =>
    if s.out.elapsed < at_ + usToUnits 2 then s
    else (s.setRouter (r.endSwap s.out.elapsed)).swapStatus gid oid stTimeout)

/-! ## KEYSEL (R356, R363) -/

/-- The state of a Coffer slot (R356): slots 1,008 to 1,023 are PERSISTENT, and a slot that no record lists is EMPTY. -/
def State.keySlot (s : State) (n : Nat) : KeySlot :=
  (s.tab.keys.find? fun k => k.slot == n).getD { slot := n, st := if 1008 ≤ n then .persistent else .empty, ctx := none, gen := 0 }

def State.setKey (s : State) (k : KeySlot) : State :=
  s.modTab fun t => { t with keys := k :: t.keys.filter fun x => !(x.slot == k.slot) }

/-- Every line of a context written back and invalidated (R363). -/
def State.flushCtx (s : State) (ctx : Nat) : State :=
  let ls := s.mem.stashLines.filter fun l => (s.band? l.band).any fun b => b.ctx == ctx
  (ls.foldl (fun s l => s.writeBack l) s).modMem fun m =>
    { m with lines := m.lines.filter (fun l => !(l.md.ctx == ctx)), stashLines := m.stashLines.filter (fun l => !(ls.contains l)) }

/-- KEYSEL (R363). -/
def execKeysel (d a : BitVec 6) (s : State) : Out :=
  issuePriv (.keysel d a) s fun c g => s.privRecord c g d.toNat a.toNat fun s1 bs =>
    let n := fieldAt bs 0 10
    let t := s1.tab.tgtctx
    let k := s1.keySlot n
    let fin := fun (s : State) (x : Nat) => s.privStatus c g d.toNat x
    if fieldAt bs 10 246 ≠ 0 ∨ 1007 < n ∨ k.st = .empty ∨ k.st = .persistent ∨ (k.st = .bound ∧ k.ctx ≠ some t) then fin s1 stRefused
    else if s1.bands.any (fun b => b.ctx == t) ||
        s1.chans.any (fun ch => !(ch.st == .idle) && (ch.bound.any (fun x => x.1 == t) || ch.recs.any fun r => r.post.ctx == t)) then fin s1 stBusy
    else
      let old := (s1.ctx? t).bind fun x => x.keyslot
      let s2 := s1.flushCtx t
      let s3 := match old with
        | some o => let y := s2.keySlot o; if y.ctx = some t then s2.setKey { y with st := .loaded, ctx := none } else s2
        | none => s2
      fin ((s3.setKey { s3.keySlot n with st := .bound, ctx := some t }).modCtx t fun x => { x with keyslot := some n }) stOk

/-! ## Packets of other modules (R189, R355, R456) -/

/-- The unit by which packets of other modules enter a die (R192). -/
def unitPeer : Nat := unitEngine + 14

/-- The operand words of a request. -/
def PeerReq.ops (r : PeerReq) : List W32 := (List.range ((r.data.length + 3) / 4)).map fun i => wordAt r.data i

/-- What an atomic of a request leaves of the bytes that it finds; a compare-and-swap that fails leaves them (R245, R246). -/
def PeerReq.atomic (r : PeerReq) (old : List Byte) : Option (List Byte) :=
  (atomNew (decide (128 ≤ r.minor)) (r.minor % 8) r.ops r.n (leNat old)).map fun w => leBytes r.n w

/-- The combined operand that a RED of a request leaves (R105). -/
def PeerReq.reduced (r : PeerReq) (old : List Byte) : List Byte :=
  (wordBytes (redStep r.minor ((List.range ((r.n + 3) / 4)).map fun i => wordAt old i) r.ops)).take r.n

/-- What a request of another module does at the target, its address translated: the bytes of the reply. Kinds 0 load, 1 store, 2 atomic,
3 RED. What reads without writing probes as a load does (R195, R223). -/
def State.peerServe (s : State) (r : PeerReq) (pas : List Nat) : State × List Byte :=
  let lines := (pas.map fun pa => pa / 128).eraseDups
  let look := (lines.foldl (fun s l => s.probeLoad l) s).askLines r.die unitPeer pas .read r.ctx
  let old := pas.map fun pa => s.readPa r.ctx pa
  let put := fun (bs : List Byte) => (s.writePas r.ctx pas bs).askLines r.die unitPeer pas .write r.ctx
  match r.kind with
  | 0 => (look, old)
  | 1 => (put r.data, [])
  | 2 => match r.atomic old with
    | some bs => (put bs, old)
    | none => (look, old)
  | _ => (put (r.reduced old), [])

/-- The answer to a request: data, or a fault code. -/
def State.peerReply (s : State) (r : PeerReq) (code : Byte) (bs : List Byte) : State :=
  s.modOut fun o => { o with replies := o.replies ++ [(r.origin, r.pid, code, bs)] }

/-- A request checked and translated in the exporter's context `r.ctx` (R189, R340), and answered; one that meets a page fault is held until the
target's firmware serves or declines it. -/
def State.peerTry (s : State) (c : Context) (r : PeerReq) : State :=
  let wr := r.kind != 0
  let rd := r.kind == 0 || r.kind == 2
  let g := c.segs.getD 0 Segment.zero
  if !g.valid || decide (r.off < g.base) || decide (g.limit < r.off + r.n) || (wr && !g.wr) then s.peerReply r fcNoMapping []
  else match s.translateN r.die unitPeer c.ctx rd wr r.n r.off with
    | (s1, .ok pas) => let x := s1.peerServe r pas; x.1.peerReply r 0 x.2
    | (s1, .error f) =>
      if parkCode f.1 then
        (s1.fwEvent r.die f.1.toNat [BitVec.ofNat 64 c.ctx, BitVec.ofNat 64 f.2, 255, 255]).modOut fun o =>
          { o with peerHeld := o.peerHeld ++ [{ r with code := f.1, va := f.2 }] }
      else s1.peerReply r f.1 []

/-- The held requests for pages in `[lo, hi)` of a context taken from those that are held. -/
def State.takePeers (s : State) (ctx lo hi : Nat) : State × List PeerReq :=
  let on := fun (r : PeerReq) => r.ctx == ctx && decide (lo ≤ r.va) && decide (r.va < hi)
  (s.modOut fun o => { o with peerHeld := o.peerHeld.filter fun r => !(on r) }, s.out.peerHeld.filter on)

/-- Requests of other modules whose page fault firmware serves go on (R189). -/
def State.servePeers (s : State) (ctx lo hi : Nat) : State :=
  let (s1, rs) := s.takePeers ctx lo hi
  rs.foldl (fun s r => match s.ctx? r.ctx with
    | some c => s.peerTry c r
    | none => s.peerReply r fcNoMapping []) s1

/-- Requests of other modules whose page fault firmware declines are answered with its code (R189). -/
def State.declinePeers (s : State) (ctx lo hi : Nat) : State :=
  let (s1, rs) := s.takePeers ctx lo hi
  rs.foldl (fun s r => s.peerReply r r.code []) s1

/-- PACKET_RETURN (R355): a packet that found its active entry invalid is back at its source: access `ev.id` of a group raises
PEER_UNREACHABLE, record `ev.id` of an engine ends FAULTED with it. -/
def execPacketReturn (s : State) : Out :=
  match s.mem.accs.find? (fun a => a.aid == s.ev.id && s.ev.sub == 0) with
  | some a => .next (if a.elsewhere then (s.lateFault a fcPeerUnreachable (a.va % 2 ^ 47)).performed a.gid else s)
  | none => match s.engRec? s.ev.id with
    | some (_, r) =>
      let away := fun (x : Side) => x.seg == 4 && x.base / 2 ^ 47 % 512 != s.out.device
      .next (match r.phase with
        | .moving => if !r.coll && (away (r.side false) || away (r.side true)) then s.finishRec r.rid 2 fcPeerUnreachable else s
        | .exchange => s.finishRec r.rid 2 fcPeerUnreachable
        | _ => s)
    | none => .next s

/-! ## TRAP_ENTRY (R367) -/

/-- TRAP_ENTRY (R367): everything that group `ev.id` has sent has come back; its frame is written and it enters its handler. -/
def execTrapEntry (s : State) : Out :=
  match s.group? s.ev.id with
  | none => .next s
  | some g => .next (if g.trapping.isSome && s.allBack g then s.trapEnter g.gid else s)

end Sys2Proof.Machine
end

