-- ==== Sys2Proof/Machine/Sync.lean ====
section
/-!
DEFINITION. RCLK.ADV (R398, R399), BAR (R405 to R407), SEM and SYNCA (R409 to R417) and their events.
-/
namespace Sys2Proof.Machine

/-! ## Reuse clocks -/

/-- RCLK.ADV (R398): an advance of the band's reuse clock, which takes effect at the end of the cycle. -/
def execRclkAdv (s : State) : Out :=
  issue .rclkAdv s fun _ g => s.modBand g.band fun b => { b with advReq := b.advReq + 1 }

/-- RCLK_AUTO_ADVANCE (R399): band `ev.id`, whose advance count has reached 1,024, advances at the end of the cycle, an RCLK.ADV of
the cycle merged with it. -/
def execRclkAutoAdvance (s : State) : Out :=
  .next (s.modBand s.ev.id fun b => if 1024 ≤ b.adv then { b with advReq := max 1 b.advReq } else b)

/-! ## BAR -/

/-- The record that a BAR names (R401, R405), or none where it raises ILLEGAL: tier 0 or at or above T, an index at or above the
tier's count, a group that is no member. -/
def State.barOf (s : State) (g : Group) (n i : Nat) : Option (BarRec × Nat) :=
  let l := s.launchOf g
  if n = 0 ∨ l.tiers.length ≤ n ∨ l.bars.getD n 0 ≤ i then none
  else match s.groupQ g, s.band? g.band with
    | some q, some b => (s.barFind b l q n i).map fun r => (r, q)
    | _, _ => none

/-- An arrival in the open phase, or, with one pending, a wait for that phase to complete first (R406). `sync` waits for the
arrival's own phase afterwards. -/
def State.barArriveOp (s : State) (g : Group) (r : BarRec) (q : Nat) (step sync : Bool) : State :=
  if (s.token r.bar g.gid).pend then
    s.modGroup g.gid fun g => { g with blocked := some (.barArrive r.bar step sync) }
  else
    let s1 := if sync then s.modGroup g.gid fun g => { g with blocked := some (.barWait r.bar (if r.phase then 1 else 0) step) } else s
    s1.makeArrival g r q step fun s => (s.barTake r (some g.gid)).barServe r.bar fun r => r.arrive q step

/-- A BAR of a member (R405). -/
def barIssue (i : Instr) (a b : BitVec 6) (k : Group → BarRec → Nat → State) (s : State) : Out :=
  issue i s fun c g =>
    match s.barOf g a.toNat b.toNat with
    | none => s.takeTrap c g fcIllegal 0 0
    | some (r, q) => k g r q

def execBarArrive (a b : BitVec 6) (s : State) : Out := barIssue (.barArrive a b) a b (fun g r q => s.barArriveOp g r q false false) s
def execBarSync (a b : BitVec 6) (s : State) : Out := barIssue (.barSync a b) a b (fun g r q => s.barArriveOp g r q false true) s
def execBarStep (a b : BitVec 6) (s : State) : Out := barIssue (.barStep a b) a b (fun g r q => s.barArriveOp g r q true true) s

/-- BAR.WAIT (R406). -/
def execBarWait (a b : BitVec 6) (s : State) : Out :=
  barIssue (.barWait a b) a b (fun g r _ =>
    s.modGroup g.gid fun g => { g with blocked := some (.barWait r.bar (if r.phase then 1 else 0) false) }) s

/-- EBYTES raised (R405). -/
def BarRec.expect (r : BarRec) (n : Nat) : BarRec := { r with ebytes := min (r.ebytes + n) (2 ^ 48 - 1) }

/-- BAR.EXPECT (R405). -/
def execBarExpect (d a b : BitVec 6) (s : State) : Out :=
  issue (.barExpect d a b) s fun c g =>
    match s.barOf g a.toNat b.toNat with
    | none => s.takeTrap c g fcIllegal 0 0
    | some (r, _) =>
      let n := ((g.lane (lowLane c.mask)).rv d.toNat).toNat
      if r.band = g.band ∧ r.shadow = false ∧ s.barPending r.bar g.gid = false ∧ s.barInTurn r (some g.gid) = true then
        (s.barTake r (some g.gid)).barServe r.bar fun r => r.expect n
      else ({ s with nextId := s.nextId + 1 }).modSync fun y => { y with barMsgs := y.barMsgs ++ [BarMsg.expect s.nextId r.bar g.gid n] }

/-- The name of a message to a barrier record. -/
def BarMsg.mid : BarMsg → Nat
  | .arrive m _ _ _ _ _ => m
  | .credit m _ _ => m
  | .expect m _ _ _ => m

/-- The record a message goes to. -/
def BarMsg.bar : BarMsg → Nat
  | .arrive _ b _ _ _ _ => b
  | .credit _ b _ => b
  | .expect _ b _ _ => b

/-- The group that sent a message. -/
def BarMsg.from : BarMsg → Option Nat
  | .arrive _ _ _ g _ _ => some g
  | .credit _ _ _ => none
  | .expect _ _ g _ => some g

/-- Whether an operation is diverted (R378, R513): its record is saved, or an entry diverts for the record's band and it comes from elsewhere. -/
def State.barDiverted (s : State) (m : BarMsg) (r : BarRec) : Bool :=
  r.shadow || (s.tab.divs.any (fun e => e.bid == r.band) && !((m.from.bind s.group?).any fun g => g.band == r.band))

/-- A message served at its record, when its turn has come (R404). A diverted one waits for its append (R378, R513). -/
def State.serveBarMsg (s : State) (m : BarMsg) : State :=
  let s1 := s.modSync fun y => { y with barMsgs := y.barMsgs.filter fun x => !(x.mid == m.mid) }
  match s1.bar? m.bar with
  | none => s1
  | some r =>
    if s.barDiverted m r || !(s.barInTurn r m.from) then s
    else
      let s2 := s1.barTake r m.from
      match m with
      | .arrive _ _ q _ step _ => s2.barServe r.bar fun r => r.arrive q step
      | .credit _ _ n => s2.barServe r.bar fun r => r.credit n
      | .expect _ _ _ n => s2.barServe r.bar fun r => r.expect n

/-- BAR_FORWARDED_ARRIVAL (R228, R401, R404): arrival or EXPECT `ev.id` reaches its record, after the messages that its group sent there
before it and once the group's accesses before an arrival have been performed. -/
def execBarForwardedArrival (s : State) : Out :=
  match s.sync.barMsgs.find? (fun m => m.mid == s.ev.id) with
  | none => .next s
  | some m =>
    let first := s.sync.barMsgs.find? fun x => x.bar == m.bar && x.from == m.from
    let ready := match m with
      | .arrive _ _ _ g _ after => !(s.pendingBelow g after)
      | .credit _ _ _ => false
      | .expect _ _ _ _ => true
    .next (if ready && first == some m then s.serveBarMsg m else s)

/-- BAR_CREDIT (R290, R404): the byte credit `ev.id` of an engine is served at its record. -/
def execBarCredit (s : State) : Out :=
  match s.sync.barMsgs.find? (fun m => m.mid == s.ev.id) with
  | some (.credit m b n) => .next (s.serveBarMsg (.credit m b n))
  | _ => .next s

/-! ## Semaphore slots (R412) -/

/-- A SEM of one handle, read from the lowest active lane (R411, R412). -/
def semIssue (i : Instr) (a : BitVec 6) (k : Issue → Group → Option SemSlot → State) (s : State) : Out :=
  issue i s fun c g => k c g (s.semOf g.band (s.ctxOf g) ((g.lane (lowLane c.mask)).rv a.toNat))

/-- An operation put on its way to its slot. -/
def State.semLater (s : State) (m : SemMsg) : State := s.modSync fun y => { y with semMsgs := y.semMsgs ++ [m] }

/-- The operation of a group that issues. -/
def State.semMsg (s : State) (c : Issue) (g : Group) (op : SemOp) (h : W32) : SemMsg :=
  { gid := g.gid, die := g.die, core := g.core, gslot := g.gslot, band := g.band, ctx := s.ctxOf g, handle := h, after := s.mem.nextAid, op := op,
    oid := s.nextId, mask := c.mask }

/-- An operation that brings a result put on its way. -/
def State.semAwait (s : State) (c : Issue) (g : Group) (m : SemMsg) : State := (s.postAwait c g .unit).semLater m

/-- SEM.ACQ (R412, R413): one that is late waits for its turn. -/
def execSemAcq (a : BitVec 6) (s : State) : Out :=
  semIssue (.semAcq a) a (fun c g x =>
    let m := s.semMsg c g .acq ((g.lane (lowLane c.mask)).rv a.toNat)
    match x with
    | none => s.setStat g.gid stRefused
    | some x =>
      if s.semInTurn m then
        if x.count ≠ 0 then ((s.semTurn m).semTake x).semGive x g else (s.semTurn m).semWait x g.gid
      else (s.semLater m).modGroup g.gid fun g => { g with blocked := some (.sem x.key) }) s

/-- SEM.REL (R412 to R414): after a flush of the atomic buffer and once the group's earlier accesses have been performed. -/
def execSemRel (a : BitVec 6) (s : State) : Out :=
  semIssue (.semRel a) a (fun c g x => match x with
    | none => s.setStat g.gid stRefused
    | some _ =>
      let s1 := s.flushReds g.gid g.reds.length
      let m := s1.semMsg c g .rel ((g.lane (lowLane c.mask)).rv a.toNat)
      if s1.semReady m then s1.semServe m else s1.semLater m) s

/-- SEM.TRYACQ (R412, R413). -/
def execSemTryacq (d a : BitVec 6) (s : State) : Out :=
  semIssue (.semTryacq d a) a (fun c g x =>
    let m := s.semMsg c g (.tryAcq d.toNat) ((g.lane (lowLane c.mask)).rv a.toNat)
    match x with
    | none => s.postUnit c g (statusWrites c.mask d.toNat stRefused)
    | some x =>
      if s.semInTurn m then
        let r := (s.semTurn m).semTry m x
        r.1.postUnit c g (statusWrites c.mask d.toNat r.2)
      else s.semAwait c g m) s

/-! ## Memory-word semaphores (R415, R416) -/

/-- The access of a memory-word semaphore: its checks, then one atomic of 8 bytes for the lowest lane. -/
def wordIssue (i : Instr) (kind : AccKind) (a : BitVec 6) (s : State) : Out :=
  issue i s fun c g =>
    let l := lowLane c.mask
    let m : Attr := { off := 0, seg := 0, str := 0, scp := 4, ru := 30, ord := 0, cp := 0 }
    let va : Int := ((g.lane l).pair a.toNat : Int)
    match s.memCheck g (1#32 <<< l) m 8 true true (fun _ => va) with
    | some (e, v) => s.takeTrap c g e 0 (BitVec.ofInt 64 v)
    | none =>
      let s0 := if kind = .semRel then s.flushReds g.gid g.reds.length else s
      let as := s0.laneAccs c g m none s0.nextId l c.mask 0 va.toNat 8 (fun _ _ => kind)
      let go := ({ s0 with nextId := s0.nextId + 1 }).startLane as
      go.settle c.gid s0.nextId

def execSemAcqM (a : BitVec 6) (s : State) : Out := wordIssue (.semAcqM a) .semAcq a s
def execSemRelM (a : BitVec 6) (s : State) : Out := wordIssue (.semRelM a) .semRel a s

/-- SEM_WORD_RETRY (R415): group `ev.id`, which waits for a memory word, tries its ACQ.M again. -/
def execSemWordRetry (s : State) : Out :=
  match s.group? s.ev.id with
  | none => .next s
  | some g => match g.blocked with
    | some (.semWord pa _ _) =>
      if pa = 0 then .next s
      else .next ((s.wordTry g ((List.range 8).map fun i => .mem (pa + i))).askSlice g.die g.core
        (secsOf [pa] (pa / 128)) (pa / 128) .write (s.ctxOf g) 0 30 (s.rrateOf g))
    | _ => .next s

/-! ## SYNCA (R417) -/

/-- SYNCA.ALLOC (R417). -/
def execSyncaAlloc (d a : BitVec 6) (s : State) : Out :=
  issue (.syncaAlloc d a) s fun c g =>
    let n := (g.lane (lowLane c.mask)).rv d.toNat
    let m := s.semMsg c g (.alloc n d.toNat a.toNat) 0
    if s.semInTurn m then
      let r := (s.semTurn m).semAlloc m n d.toNat a.toNat
      r.1.postUnit c g r.2
    else s.semAwait c g m

/-- SYNCA.FREE (R417). -/
def execSyncaFree (a : BitVec 6) (s : State) : Out :=
  semIssue (.syncaFree a) a (fun c g x =>
    let m := s.semMsg c g .free ((g.lane (lowLane c.mask)).rv a.toNat)
    match x with
    | none => s.setStat g.gid stRefused
    | some x =>
      if m.handle.getLsbD 31 then s.setStat g.gid stRefused
      else if s.semInTurn m then
        match (s.semTurn m).semFreed x g.gid with
        | (s1, some n) => s1.setStat g.gid n
        | (s1, none) => s1
      else (s.semLater m).modGroup g.gid fun g => { g with blocked := some (.semFree x.key) }) s

end Sys2Proof.Machine
end

