-- ==== Sys2Proof/Machine/Divert.lean ====
section
/-!
DEFINITION. Diversion (R377 to R380, R390, R498, R513): the diversion entries of a core, the garret with its log and shadow records,
DIVINST, and DIVERSION_APPEND.
-/
namespace Sys2Proof.Machine

/-! ## The operand record of DIVINST and CTXCTL (R389) -/

/-- The operand record (R389); `bad` says that a reserved bit is set. -/
structure CtlRec where
  addr : Nat
  arg : Nat
  band : Nat
  ksig : W64
  ctx : Nat
  op : Nat
  bad : Bool
deriving DecidableEq, Repr

/-- A record as its bytes give it. -/
def ctlRec (bs : List Byte) : CtlRec :=
  { addr := fieldAt bs 192 64, arg := fieldAt bs 128 64, band := fieldAt bs 96 32, ksig := BitVec.ofNat 64 (fieldAt bs 24 64),
    ctx := fieldAt bs 16 8, op := fieldAt bs 0 8, bad := fieldAt bs 88 8 != 0 || fieldAt bs 8 8 != 0 }

/-- A DIVINST or CTXCTL whose record could be read and has its reserved bits 0 (R357, R389). -/
def ctlIssue (s : State) (k : State → Issue → Group → Nat → CtlRec → State) : State :=
  match s.cur with
  | none => s
  | some c => match s.group? c.gid with
    | none => s
    | some g =>
      let d := bits c.w0.toNat 15 6
      s.privRecord c g d (bits c.w0.toNat 9 6) fun s1 bs =>
        if (ctlRec bs).bad then s1.privStatus c g d stRefused else k s1 c g d (ctlRec bs)

/-- The band that a record names (R389). -/
def State.bandNamed (s : State) (r : CtlRec) : Option Band :=
  s.bands.find? fun b => b.ctx == r.ctx && b.index == r.band && (s.kernel? b.kid).any fun k => k.signet == r.ksig

/-! ## The garret (R498, R513) -/

/-- Bytes of physical memory as a context reads them. -/
def State.readPaBytes (s : State) (ctx pa n : Nat) : List Byte := (List.range n).map fun i => s.readPa ctx (pa + i)

/-- Bytes of physical memory written. -/
def State.writePaBytes (s : State) (ctx pa : Nat) (bs : List Byte) : State :=
  s.writePas ctx ((List.range bs.length).map fun i => pa + i) bs

/-- The garret header (R498): SHADOW, IMAGE, LOG and LOGLEN. -/
def State.garretOf (s : State) (ctx pa : Nat) : Nat × Nat × Nat × Nat :=
  let bs := s.readPaBytes ctx pa 64
  (fieldAt bs 192 64, fieldAt bs 128 64, fieldAt bs 0 64, fieldAt bs 64 32)

/-- The barrier records that a band holds, in the order of their shadow records (R513). -/
def State.heldBars (s : State) (bid : Nat) : List BarRec :=
  sortBy (fun r => (r.tier * 16 + r.index) * 2 ^ 32 + r.u) (s.sync.bars.filter fun r => r.band == bid)

/-- Whether the garret header at an address is acceptable for a band (R390, R498). -/
def State.garretOk (s : State) (b : Band) (pa : Nat) : Bool :=
  let bs := s.readPaBytes b.ctx pa 64
  let (shadow, image, log, len) := s.garretOf b.ctx pa
  pa % 64 == 0 && fieldAt bs 256 256 == 0 && fieldAt bs 96 32 == 0 && log % 32 == 0 && len % 32 == 0 && decide (256 ≤ len) &&
  (s.ctx? b.ctx).any fun c =>
    c.granted shadow (288 * (s.heldBars b.bid).length) && c.granted image (128 * b.stashLines) && c.granted log len

/-- A barrier record as the 32 bytes of R403, read as one number. -/
def BarRec.word (r : BarRec) : Nat :=
  r.mask.toNat * 2 ^ 192 + r.nmem * 2 ^ 160 + r.narr * 2 ^ 128 + r.ebytes * 2 ^ 80 + r.cbytes * 2 ^ 32 + (if r.phase then 2 ^ 15 else 0) +
  (if r.stepf then 2 ^ 14 else 0) + (if r.overBytes then 2 ^ 13 else 0) + r.tier * 2 ^ 10 + r.index

/-- A shadow record (R513). -/
def BarRec.shadowBytes (r : BarRec) : List Byte :=
  leBytes 32 r.word ++ (List.range 64).flatMap fun i => leBytes 4 (r.counts.getD i 0)

/-- A barrier record loaded from its shadow record (R380, R513). -/
def BarRec.loadShadow (r : BarRec) (bs : List Byte) : BarRec :=
  { r with mask := BitVec.ofNat 64 (fieldAt bs 192 64), narr := fieldAt bs 128 32, ebytes := fieldAt bs 80 48, cbytes := fieldAt bs 32 48,
           phase := fieldAt bs 15 1 == 1, stepf := fieldAt bs 14 1 == 1, overBytes := fieldAt bs 13 1 == 1,
           counts := (List.range 64).map fun i => fieldAt bs (256 + 32 * i) 32 }

/-- The shadow records of a band written to its garret. -/
def State.writeShadows (s : State) (b : Band) (shadow : Nat) : State :=
  let rs := s.heldBars b.bid
  (List.range rs.length).foldl (fun s i => match rs[i]? with
    | some r => if r.shadow then s.writePaBytes b.ctx (shadow + 288 * i) r.shadowBytes else s
    | none => s) s

/-- A saved band's barrier records loaded from its garret's shadow records. -/
def State.readShadows (s : State) (b : Band) (shadow : Nat) : State :=
  let rs := s.heldBars b.bid
  (List.range rs.length).foldl (fun s i => match rs[i]? with
    | some r => if !r.shadow then s else s.modBar r.bar fun x => x.loadShadow (s.readPaBytes b.ctx (shadow + 288 * i) 288)
    | none => s) s

/-! ## Diversion entries (R377) -/

/-- DIVWIN of a die. -/
def State.divwinOf (s : State) (die : Nat) : Nat := assoc die 0 s.tab.divwin

/-- The entry that a core's place in the diversion table holds, if it is valid. -/
def State.divAt (s : State) (die core idx : Nat) : Option DivEntry :=
  s.tab.divs.find? fun e => e.die == die && e.core == core && e.idx == idx

/-- The entry that diverts for a band. -/
def State.divOf (s : State) (bid : Nat) : Option DivEntry := s.tab.divs.find? fun e => e.bid == bid

def State.modDiv (s : State) (bid : Nat) (f : DivEntry → DivEntry) : State :=
  s.modTab fun t => { t with divs := mapIf (fun e => e.bid == bid) f t.divs }

/-- An entry removed (R380, R390): later arrivals go to the band. -/
def State.dropDiv (s : State) (bid : Nat) : State := s.modTab fun t => { t with divs := t.divs.filter fun e => !(e.bid == bid) }

/-- The 64 bytes of an entry (R377). -/
def DivEntry.word (e : DivEntry) : Nat :=
  e.seg * 2 ^ 448 + e.segFree * 2 ^ 416 + e.nextSeq * 2 ^ 384 + e.repSeq * 2 ^ 352 + e.garret * 2 ^ 288 + e.bandIdx * 2 ^ 256 +
  e.sthLen * 2 ^ 243 + e.sthBase * 2 ^ 230 + e.ksig.toNat * 2 ^ 166 + e.ctx * 2 ^ 8 + (if e.drain then 2 else 0) + 1

/-- The entry that INSTALL makes (R390). -/
def State.newDiv (s : State) (b : Band) (core idx garret : Nat) : DivEntry :=
  let (_, _, log, len) := s.garretOf b.ctx garret
  { die := b.die, core := core, idx := idx, ctx := b.ctx, kid := b.kid,
    ksig := match s.kernel? b.kid with
      | some k => k.signet
      | none => 0,
    bandIdx := b.index, bid := b.bid, garret := garret, seg := log, segFree := len, segOff := 0, nextSeq := 0, repSeq := 0, rep := log,
    sthBase := b.stashBase, sthLen := b.stashLines, drain := false, drainer := none, page := none, fullTold := false, links := 0 }

/-! ## The log (R378, R379) -/

/-- A log entry (R378): its header and its padded payload. -/
def logEntry (signet : W64) (seq offs kind op len reply : Nat) (payload : List Byte) : List Byte :=
  leBytes 32 (signet.toNat * 2 ^ 192 + seq % 2 ^ 32 * 2 ^ 160 + offs % 2 ^ 32 * 2 ^ 128 + kind * 2 ^ 120 + op * 2 ^ 112 + len * 2 ^ 104 + reply) ++
  payload ++ List.replicate ((32 - payload.length % 32) % 32) 0

/-- DIVERSION_FULL raised once for each segment that fills (R379). -/
def State.divFull (s : State) (e : DivEntry) : State :=
  if e.fullTold then s
  else ((s.fwEvent e.die 0x50 [BitVec.ofNat 64 e.ctx, BitVec.ofNat 64 e.bandIdx, BitVec.ofNat 64 e.core, BitVec.ofNat 64 e.idx]).emitUnit
    e.die 0 e.core 0 e.ctx e.ksig 0x1A e.bandIdx).modDiv e.bid fun e => { e with fullTold := true }

/-- An arrival appended to the log of an entry (R378, R379), or held at its source for want of room. -/
def State.logAppend (s : State) (e : DivEntry) (signet : W64) (offs kind op reply : Nat) (payload : List Byte) : State × Bool :=
  let bs := logEntry signet e.nextSeq offs kind op payload.length reply payload
  if e.segFree < bs.length + 64 then (s.divFull e, false)
  else ((s.writePaBytes e.ctx (e.seg + e.segOff) bs).modDiv e.bid fun e =>
    { e with nextSeq := (e.nextSeq + 1) % 2 ^ 32, segFree := e.segFree - bs.length, segOff := e.segOff + bs.length }, true)

/-- OFFS of an entry for a barrier record (R378). -/
def BarRec.logOffs (s : State) (r : BarRec) : Nat :=
  let b := match s.kernel? r.kid with
    | some k => k.launch.bandTier
    | none => 0
  r.tier * 16 + r.index + 128 * (if b ≤ r.tier then 0 else r.u)

/-! ## Appends of arrivals (R335, R378, R513) -/

/-- The rank of a group among the requesters of a die, one that is gone first. -/
def State.rankOfGid (s : State) (gid die : Nat) : Nat := ((s.group? gid).map fun g => g.rankAt die).getD 0

/-- The rank of an engine's write, or of a remote atomic, which enters by the port behind those of the other dies (R192, R378). -/
def State.arrivalRank (s : State) (a : Arrival) (die : Nat) : Nat :=
  match a.atom, s.chan? a.cid with
  | none, some c => rankOf c.die c.unit die
  | _, _ => 1024

/-- An append in the requester order of R192 (R378): one whose turn has passed in this cycle waits. -/
def State.inLogTurn (s : State) (e : DivEntry) (rank : Nat) (k : State → State) : State :=
  if s.inTurn (.log e.bid) e.die rank then k (s.takeTurn (.log e.bid) e.die rank) else s

/-- A message for a suspended band appended (R335, R378); its status is then OK. -/
def State.appendMsg (s : State) (m : Msg) (e : DivEntry) : State :=
  match s.logAppend e m.cause 0 4 0 0 (leBytes 8 m.hidx ++ wordBytes m.payload) with
  | (s1, true) => s1.amsgStatus m stOk
  | (s1, false) => s1

/-- An operation for a saved barrier record appended (R378, R513). An EXPECT, which only a member issues, waits for the record. -/
def State.appendBar (s : State) (m : BarMsg) (r : BarRec) (e : DivEntry) : State :=
  let drop := fun (s : State) => s.modSync fun y => { y with barMsgs := y.barMsgs.filter fun x => !(x.mid == m.mid) }
  let sig := match m.from.bind s.group? with
    | some g => g.cause
    | none => e.ksig
  let put := fun (kind : Nat) (payload : List Byte) => match s.logAppend e sig (r.logOffs s) kind 0 0 payload with
    | (s1, true) => drop s1
    | (s1, false) => s1
  match m with
  | .arrive _ _ q _ _ _ => put 3 (leBytes 8 (r.slotOf q + q * 2 ^ 32))
  | .credit _ _ n => put 2 (leBytes 8 n)
  | .expect _ _ _ _ => s

/-- The destination bytes that a record of an engine has still to write. -/
def EngRec.left (r : EngRec) : Nat := if r.coll then r.own.length else (r.side true).total - r.moved

/-- A diverted write of an engine, or a remote atomic, appended (R232, R378): the bytes of a record count as written from then on. -/
def State.appendWrite (s : State) (a : Arrival) (e : DivEntry) : State :=
  let (s1, ok) := match a.atom with
    | none => s.logAppend e a.signet a.offs 0 0 0 a.payload
    | some (op, reply) => s.logAppend e a.signet a.offs 1 op reply a.payload
  if !ok then s1
  else
    let n := a.payload.length
    let s2 := (s1.modTab fun t => { t with arrivals := t.arrivals.filter fun x => !(x.mid == a.mid) }).modRec a.rid fun r =>
      { r with divert := none, moved := r.moved + n, own := r.own.drop n }
    match s2.engRec? a.rid with
    | some (_, r) => if r.left = 0 then s2.finishRec a.rid 0 0 else s2
    | none => s2

/-- DIVERSION_APPEND (R335, R378, R379, R513): arrival `ev.id` for a suspended band, a message, an operation of a barrier record, a write of an
engine or a remote atomic, is appended to the log of the band's entry, if there is room. -/
def execDiversionAppend (s : State) : Out :=
  match s.msgs.find? (fun m => m.mid == s.ev.id), s.sync.barMsgs.find? (fun m => m.mid == s.ev.id),
        s.tab.arrivals.find? (fun a => a.mid == s.ev.id) with
  | some m, _, _ =>
    (match s.amsgNext m && s.needsMet m.needs, s.amsgDest m with
    | true, .suspended b => match s.divOf b.bid with
      | some e => .next (s.inLogTurn e (rankOf m.die m.core e.die) fun s => s.appendMsg m e)
      | none => .next s
    | _, _ => .next s)
  | none, some m, _ =>
    let first := s.sync.barMsgs.find? fun x => x.bar == m.bar && x.from == m.from
    let ready := match m with
      | .arrive _ _ _ g _ after => !(s.pendingBelow g after) && first == some m
      | _ => true
    (match s.bar? m.bar with
    | some r => match (if s.barDiverted m r && ready then s.divOf r.band else none) with
      | some e => .next (s.inLogTurn e ((m.from.map fun i => s.rankOfGid i e.die).getD 1025) fun s => s.appendBar m r e)
      | none => .next s
    | none => .next s)
  | none, none, some a => match s.divOf a.bid with
    | some e => .next (s.inLogTurn e (s.arrivalRank a e.die) fun s => s.appendWrite a e)
    | none => .next s
  | none, none, none => .next s

/-! ## Replay (R380) -/

/-- A fault of a replayed write (R381): an absent fault of the band. -/
def State.absentFault (s : State) (b : Band) (signet : W64) (code : Byte) (va : Nat) : State :=
  let f : FaultInfo := { ctx := b.ctx, die := b.die, core := b.core, gslot := 255, node := s.nodeOf b.kid, lanes := 0, pc := 0, addr := va,
                         signet := signet, orig := code, code := fcAbsentFault, eng := false }
  ((s.emitUnit b.die 0 b.core 0 b.ctx signet 0x08 code.toNat).faultRecord f).modTab fun t =>
    { t with absents := t.absents ++ [{ bid := b.bid, orig := code, eng := true }] }

/-- Bytes of a band's stash changed by a replayed entry (R380): a mapped line is filled first and becomes DIRTY. A page fault of the fill makes the
replay wait for its service, another is an absent fault of the band. The bytes that stood before go to `k`. -/
def State.replayStash (s : State) (b : Band) (signet : W64) (off n : Nat) (f : List Byte → List Byte) (k : State → List Byte → State) :
    State × Bool :=
  match s.fillBytes b off n true with
  | (s1, some e) =>
    if parkCode e.1 then
      ((s1.fwEvent b.die e.1.toNat [BitVec.ofNat 64 b.ctx, BitVec.ofNat 64 e.2, BitVec.ofNat 64 b.core, 255]).modDiv b.bid fun d =>
        { d with page := some (pageAt e.1 b.ctx e.2) }, false)
    else (s1.absentFault b signet e.1 e.2, true)
  | (s1, none) =>
    let old := s1.readSth b off n
    (k (s1.writeSth b off (f old)) old, true)

/-- The route of the reply to an atomic as REPLY holds it (R378): the issuing module and its tag. DESIGN CHOICE (log 172): the spec leaves the
encoding to the implementation. -/
def replyRoute (origin pid : Nat) : Nat := pid % 2 ^ 32 * 2 ^ 16 + origin % 2 ^ 16

/-- The reply of the old value of a replayed atomic, sent by its route (R380). -/
def State.sendReply (s : State) (route : Nat) (code : Byte) (bs : List Byte) : State :=
  s.modOut fun o => { o with replies := o.replies ++ [(route % 2 ^ 16, route / 2 ^ 16, code, bs)] }

/-- The barrier record of a band that a log entry names (R378). -/
def State.loggedBar (s : State) (b : Band) (offs : Nat) : Option BarRec :=
  s.sync.bars.find? fun r => r.band == b.bid && r.logOffs s == offs

/-- An operation applied to a record of a band under DRAIN, and the completion test (R404, R513). -/
def State.replayBar (s : State) (bar : Nat) (f : BarRec → BarRec) : State :=
  let was := (s.bar? bar).any fun r => r.shadow
  ((s.modBar bar fun r => { f r with shadow := false }).barTest 2 bar).modBar bar fun r => { r with shadow := was }

/-- A message of the log (R380): its detached record waits in the pool until RELEASE; the replay waits where the pool has no room. -/
def State.replayMsg (s : State) (b : Band) (signet : W64) (payload : List Byte) : State × Bool :=
  let hidx := leNat (payload.take 4)
  let mine := (s.pool.filter fun r => r.band == b.bid && r.saved).length
  match (s.kernel? b.kid).bind fun k => s.handlerOf k hidx with
  | none => (s, true)
  | some pc =>
    if s.poolUsed b.die b.core + mine < 2048 then
      let m : Msg := { mid := 0, kid := some b.kid, band := b.index, hidx := hidx, bad := false,
                       payload := (List.range 16).map fun i => wordAt (payload.drop 8) i, gid := 0, die := b.die, core := b.core, sband := 0,
                       oid := 0, d := 0, lane := 0, low := false, cause := signet, needs := Needs.none, inb := none }
      let s1 := s.amsgRecord m b pc
      if b.st == .resident then (s1, true)
      else ({ s1 with pool := mapIf (fun r => r.rid == s.nextId) (fun r => { r with saved := true, place := .waiting, at_ := none }) s1.pool }, true)
    else (s, false)

/-- One log entry replayed (R380): the state, and whether it has been; otherwise it waits. -/
def State.replayEntry (s : State) (b : Band) (h : List Byte) (payload : List Byte) : State × Bool :=
  let sig := BitVec.ofNat 64 (fieldAt h 192 64)
  let offs := fieldAt h 128 32
  let op := fieldAt h 112 8
  match fieldAt h 120 8 with
  | 0 => if payload.isEmpty then (s, true) else s.replayStash b sig offs payload.length (fun _ => payload) fun s _ => s
  | 1 =>
    let ops := (List.range (payload.length / 4)).map (wordAt payload)
    let n := if op < 128 then 4 else if op % 8 = 2 then 8 else if op % 8 = 3 then 16 else 4
    let new := fun (old : List Byte) => match atomNew (decide (128 ≤ op)) (op % 8) ops n (leNat old) with
      | some w => leBytes n w
      | none => old
    s.replayStash b sig offs n new fun s old => s.sendReply (fieldAt h 0 64) 0 old
  | 2 => (match s.loggedBar b offs with
    | some r => s.replayBar r.bar fun r => r.credit (leNat (payload.take 8))
    | none => s, true)
  | 3 => (match s.loggedBar b offs with
    | some r => s.replayBar r.bar fun r => r.arrive (fieldAt payload 32 32) false
    | none => s, true)
  | 4 => s.replayMsg b sig payload
  | _ => (s, true)

/-- The log replayed from its first entry not yet replayed (R380): the state, and whether the tail has been reached and the entry removed; `fuel`
bounds the entries. -/
def State.replayLog (s : State) (bid : Nat) : Nat → State × Bool
  | 0 => (s, false)
  | fuel + 1 =>
    match s.divOf bid, s.band? bid with
    | some e, some b =>
      if e.page.isSome then (s, false)
      else if e.repSeq = e.nextSeq then (s.dropDiv bid, true)
      else
        let h := s.readPaBytes e.ctx e.rep 32
        let len := fieldAt h 104 8
        let payload := s.readPaBytes e.ctx (e.rep + 32) len
        let size := 32 + (len + 31) / 32 * 32
        if fieldAt h 120 8 = 5 then
          (s.modDiv bid fun e => { e with rep := leNat (payload.take 8), links := e.links - 1 }).replayLog bid fuel
        else match s.replayEntry b h payload with
          | (s1, false) => (s1, false)
          | (s1, true) => (s1.modDiv bid fun e => { e with rep := e.rep + size, repSeq := (e.repSeq + 1) % 2 ^ 32 }).replayLog bid fuel
    | _, _ => (s, true)

/-- DRAIN as far as it comes (R380): the shadow records are read and the log is replayed; once the entry is removed the records are live. The
shadow records in memory follow. -/
def State.drainLog (s : State) (bid : Nat) : State × Bool :=
  match s.divOf bid, s.band? bid with
  | some e, some b =>
    let shadow := (s.garretOf b.ctx e.garret).1
    let s1 := (s.readShadows b shadow).modDiv bid fun e => { e with drain := true }
    let fuel := (e.nextSeq + 2 ^ 32 - e.repSeq) % 2 ^ 32 + e.links + 1
    match s1.replayLog bid fuel with
    | (s2, false) => (s2.writeShadows b shadow, false)
    | (s2, true) =>
      let s3 := s2.writeShadows b shadow
      let bars := (s3.heldBars bid).map fun r => r.bar
      let live := fun (r : BarRec) => { r with shadow := false }
      (bars.foldl (fun s i => s.barTest 2 i)
        (s3.modSync fun y => { y with bars := mapIf (fun r => bars.contains r.bar) live y.bars }), true)
  | _, _ => (s, true)

/-- Replays that wait for pages in `[lo, hi)` of a context go on (R195, R380). -/
def State.serveReplays (s : State) (ctx lo hi : Nat) : State :=
  s.modTab fun t => { t with divs := t.divs.map fun e => if e.page.any fun p => p.on ctx lo hi then { e with page := none } else e }

/-- Replays that wait for declined pages: the entry at which one stands is an absent fault of its band (R381) and is passed. -/
def State.declineReplays (s : State) (ctx lo hi : Nat) : State :=
  (s.tab.divs.filter fun e => e.page.any fun p => p.on ctx lo hi).foldl (fun s e =>
    match s.band? e.bid, e.page with
    | some b, some p =>
      let h := s.readPaBytes e.ctx e.rep 32
      (s.absentFault b (BitVec.ofNat 64 (fieldAt h 192 64)) p.code p.va).modDiv e.bid fun e =>
        { e with page := none, rep := e.rep + 32 + (fieldAt h 104 8 + 31) / 32 * 32, repSeq := (e.repSeq + 1) % 2 ^ 32 }
    | _, _ => s) s

/-! ## Requests of other modules (R189, R232, R340) -/

/-- An atomic of another module aimed at a byte of a band's stash (R223, R232): performed in the stash, or held for the log of a suspended
band, whose replay sends the reply. -/
def State.peerStash (s : State) (b : Band) (r : PeerReq) : State :=
  let lim := ((s.kernel? b.kid).map fun k => k.launch.stash).getD 0
  if lim < r.off + r.n then s.peerReply r fcSegLimit []
  else if !(b.st == .resident) || (s.divOf b.bid).isSome then
    let a : Arrival :=
      { mid := s.nextId, rid := 0, cid := 0, bid := b.bid, offs := r.off, payload := r.data, signet := 0,
        atom := some (r.minor, replyRoute r.origin r.pid) }
    { s with nextId := s.nextId + 1 }.modTab fun t => { t with arrivals := t.arrivals ++ [a] }
  else match s.fillBytes b r.off r.n true with
    | (s1, some f) => s1.peerReply r f.1 []
    | (s1, none) =>
      let old := s1.readSth b r.off r.n
      (match r.atomic old with
      | some bs => s1.writeSth b r.off bs
      | none => s1).peerReply r 0 old

/-- PEER_REQUEST (R189, R232, R340): request `ev.words` (origin, routing partition, kind, offset, bytes, minor, tag) of another module, with data
`ev.bytes`, is checked and translated in the context that the host has designated as exporter and answered; or, where `ev.sub` is 1, it is an
atomic aimed at the stash of band `ev.id`. -/
def execPeerRequest (s : State) : Out :=
  let w := fun i => (s.ev.words.getD i 0).toNat
  let ex := (s.parts.find? fun p => p.routing == w 1 % 16 && p.exporter.isSome).bind fun p => p.exporter.bind s.ctx?
  let r : PeerReq := { pid := w 6, origin := w 0 % 512, routing := w 1 % 16, kind := w 2 % 4, off := w 3 % 2 ^ 47,
                       n := max 1 (min (w 4) 128), minor := w 5 % 256, data := s.ev.bytes, die := s.ev.die, code := 0,
                       ctx := (ex.map fun c => c.ctx).getD 0, va := 0 }
  .next (if s.ev.sub = 1 then
      match s.band? s.ev.id with
      | some b => s.peerStash b { r with kind := 2 }
      | none => s.peerReply r fcPeerUnreachable []
    else match ex with
      | none => s.peerReply r fcPeerUnreachable []
      | some c => s.peerTry c r)

/-! ## DIVINST (R390) -/

/-- DIVINST INSTALL (R390). The row of a record with an OP of no row, or one that cannot be read, as well. -/
def execDivinstInstall (d a : BitVec 6) (s : State) : Out :=
  issuePriv (.divinstInstall d a) s fun _ _ => ctlIssue s fun s c g d r =>
    let fin := fun (s : State) (x : Nat) => s.privStatus c g d x
    let idx := s.divwinOf g.die
    let core := r.arg % 128
    if r.op ≠ 0 then fin s stRefused
    else if (s.divAt g.die core idx).isSome then fin s stBusy
    else match s.bandNamed r with
      | none => fin s stRefused
      | some b =>
        if (s.divOf b.bid).isSome || !(b.die == g.die && b.core == core) || !(s.garretOk b r.addr) then fin s stRefused
        else fin (s.modTab fun t => { t with divs := t.divs ++ [s.newDiv b core idx r.addr] }) stOk

/-- DIVINST LINK (R379, R390). -/
def execDivinstLink (s : State) : Out :=
  issuePriv .divinstLink s fun _ _ => ctlIssue s fun s c g d r =>
    match s.divAt g.die (r.arg % 128) (s.divwinOf g.die) with
    | none => s.privStatus c g d stRefused
    | some e =>
      let len := r.arg / 2 ^ 32
      let bs := logEntry 0 e.nextSeq 0 5 0 16 0 (leBytes 8 r.addr ++ leBytes 4 len ++ leBytes 4 0)
      ((s.writePaBytes e.ctx (e.seg + e.segOff) bs).modDiv e.bid fun e =>
        { e with seg := r.addr, segFree := len, segOff := 0, fullTold := false, links := e.links + 1 }).privStatus c g d stOk

/-- DIVINST DRAIN (R380, R390). A message that finds no record in the pool makes it wait. -/
def execDivinstDrain (s : State) : Out :=
  issuePriv .divinstDrain s fun _ _ => ctlIssue s fun s c g d r =>
    match s.divAt g.die (r.arg % 128) (s.divwinOf g.die) with
    | none => s.privStatus c g d stRefused
    | some e =>
      if s.bandSt e.bid = some .saved ∨ e.drainer.isSome then s.privStatus c g d stRefused
      else match s.drainLog e.bid with
        | (s1, true) => s1.privStatus c g d stOk
        | (s1, false) => (s1.postAwait c g .unit).modDiv e.bid fun e => { e with drainer := some (c.gid, s1.nextId) }

/-- DIVINST REMOVE (R390). -/
def execDivinstRemove (s : State) : Out :=
  issuePriv .divinstRemove s fun _ _ => ctlIssue s fun s c g d r =>
    (match s.divAt g.die (r.arg % 128) (s.divwinOf g.die) with
    | none => s
    | some e => s.dropDiv e.bid).privStatus c g d stOk

/-- DIVINST READ (R377, R390): the entry to 64 bytes of physical memory; zero where it is not valid. -/
def execDivinstRead (s : State) : Out :=
  issuePriv .divinstRead s fun _ _ => ctlIssue s fun s c g d r =>
    let w := match s.divAt g.die (r.arg % 128) (s.divwinOf g.die) with
      | none => 0
      | some e => e.word
    (s.writePaBytes (s.ctxOf g) r.addr (leBytes 64 w)).privStatus c g d stOk

end Sys2Proof.Machine
end

