-- ==== Sys2Proof/Machine/Preempt.lean ====
section
/-!
DEFINITION. Pre-emption (R374 to R376, R381, R385, R386), partition reset (R383), hang watchdogs (R382), CTXCTL (R391) and the events of
suspension and resumption.
-/
namespace Sys2Proof.Machine

/-! ## Hold (R301, R374) -/

/-- Every OPEN queue of a context HELD, and no band of it placed (R374 step 1). -/
def State.holdCtx (s : State) (ctx : Nat) : State :=
  { s.modCtx ctx (fun c => { c with held := true }) with
    hqs := mapIf (fun h => h.ctx == ctx && h.st == .open_) (fun h => { h with st := .held }) s.hqs }

/-- The queues of a context OPEN again (R391). -/
def State.unholdCtx (s : State) (ctx : Nat) : State :=
  { s.modCtx ctx (fun c => { c with held := false }) with
    hqs := mapIf (fun h => h.ctx == ctx && h.st == .held) (fun h => { h with st := .open_ }) s.hqs }

/-- Whether a band of a context is saved and not released. -/
def State.ctxSaved (s : State) (ctx : Nat) : Bool := s.bands.any fun b => b.ctx == ctx && !(b.st == .resident)

/-! ## Save (R375) -/

/-- A save begins (R375 step 1): every group of the band stops at an instruction boundary. -/
def State.beginSave (s : State) (b : Band) (area gid oid : Nat) : State :=
  let s1 := s.modBand b.bid fun b => { b with st := .saving, saveArea := area }
  { s1 with
    groups := mapIf (fun g => g.band == b.bid) (fun g => { g with saved := true }) s1.groups,
    tab := { s1.tab with saves := s1.tab.saves ++ [{ bid := b.bid, since := s.out.elapsed, gid := gid, oid := oid }] } }

/-- Whether everything that a save waits for has come (R375 step 1): accesses performed but for loads, which stay outstanding (R233), traps
entered, matrix items complete, queue operations at their queues. -/
def State.saveReady (s : State) (b : Band) : Bool :=
  let gs := s.groups.filter fun g => g.band == b.bid
  let gids := gs.map fun g => g.gid
  let loads := fun (g : Group) (o : Outst) => s.mem.accs.any fun a => a.gid == g.gid && a.oid == some o.oid && a.kind.isLoad
  !(s.mem.accs.any fun a => gids.contains a.gid && !(a.kind.isLoad)) &&
  gs.all (fun g => g.trapping.isNone && !(g.outs.any fun o => o.sent && (o.kind == .matrix || (o.kind == .memory && !(loads g o))))) &&
  (s.mats.all fun u => !(u.die == b.die && u.core == b.core) || u.queue.isEmpty || !((s.kernel? b.kid).any fun k => s.isMatrix k)) &&
  !(s.qops.any fun o => o.band == b.bid && !o.work)

/-- The stash bytes that a band declares, then the words of its named queues (R193, R375 step 3). -/
def State.stashImage (s : State) (b : Band) (l : Launch) : List Byte :=
  ((List.range l.stash).map fun i => cellGet s.mem.stash (stashKey b.die b.core (128 * b.stashBase + i))) ++
  (List.range l.nq).flatMap fun q => wordBytes (s.namedQ b.bid q).slots

/-- The stash of a band cleared as its reservation ends. -/
def MemState.clearStash (m : MemState) (b : Band) : MemState :=
  let lo := stashKey b.die b.core (128 * b.stashBase)
  let hi := stashKey b.die b.core (128 * (b.stashBase + b.stashLines))
  { m with stash := m.stash.filter fun c => !(decide (lo ≤ c.1) && decide (c.1 < hi)) }

/-- Some bytes written into a band's save area (R375): the spec gives the area no layout, so their number and values are free. -/
def State.fillArea (s : State) (b : Band) : State × List Byte :=
  let bs := Config.freeBytes s.free
  (s.nextFree.writePaBytes b.ctx b.saveArea bs, bs)

/-- Steps 3 to 6 of a save (R375): mapped lines leave the directory, the stash image and the shadow records are written to the garret, the
rest to the save area, and what the band holds on its core is released. -/
def State.doSave (s : State) (b : Band) (e : DivEntry) : State :=
  let l := match s.kernel? b.kid with
    | some k => k.launch
    | none => Launch.empty
  let mine := s.mem.stashLines.filter fun x => x.band == b.bid
  let s1 := (mine.foldl (fun s x => s.writeBack x) s).modMem fun m =>
    { m with stashLines := m.stashLines.filter fun x => !(x.band == b.bid) }
  let (shadow, image, _, _) := s1.garretOf b.ctx e.garret
  let s2 := (s1.writePaBytes b.ctx image (s1.stashImage b l)).fillArea b |>.1
  let mark := fun (r : BarRec) => { r with shadow := true }
  let s3 := (s2.modSync fun y => { y with bars := mapIf (fun r => r.band == b.bid) mark y.bars }).writeShadows b shadow
  let bins := (s3.bins.filter fun x => x.band == b.bid && !x.recs.isEmpty).map fun x => (x.bin, s.cycleOn b.die - x.timerFrom, x.recs)
  let ofBand := fun (i : Nat) => (s.group? i).any fun g => g.band == b.bid
  let here := fun (u : MatUnit) => u.die == b.die && u.core == b.core && (s.kernel? b.kid).any fun k => s.isMatrix k
  let rec1 := fun (r : PoolRec) => { r with saved := true, place := if r.place == .helperQueue then r.place else .waiting }
  let keep := fun (x : Band) =>
    { x with st := .saved, savedBins := bins, savedOrder := s.order.filter ofBand, savedMats := s.mats.filter here,
             rateAt := s.cycleOn b.die - x.rateAt }
  ({ s3 with
    order := s3.order.filter fun i => !(ofBand i),
    mem := s3.mem.clearStash b,
    pool := mapIf (fun r => r.band == b.bid) rec1 s3.pool,
    bins := s3.bins.filter (fun x => !(x.band == b.bid)),
    mats := s3.mats.filter (fun u => !(here u)),
    bands := mapIf (fun x => x.bid == b.bid) keep s3.bands,
    tab := { s3.tab with saves := s3.tab.saves.filter fun x => !(x.bid == b.bid) } }).emitUnit b.die 0 b.core 0 b.ctx e.ksig 0x18 b.index

/-- The status of a privileged instruction that has waited for it (R357). -/
def State.answer (s : State) (gid oid code : Nat) : State :=
  match (s.group? gid).bind fun g => g.out? oid with
  | some o => s.deliver gid oid (statusWrites o.mask (bits o.w0.toNat 15 6) code)
  | none => s

/-- A save ended if it can be (R375). -/
def State.finishSave (s : State) (x : Saving) : State :=
  match s.band? x.bid, s.divOf x.bid with
  | some b, some e => if s.saveReady b && !(s.updating b.die) then (s.doSave b e).answer x.gid x.oid stOk else s
  | _, _ => s

/-! ## Restore (R376) -/

/-- Whether a saved band can be reserved again on the core it was saved from: its former slots, registers, stash and matrix state. -/
def State.formerFits (s : State) (b : Band) (l : Launch) (matrix : Bool) : Bool :=
  let taken := s.slotsTaken b.die b.core
  let mine := ((s.groups.filter fun g => g.band == b.bid && g.helper.isNone).map fun g => (g.quad, g.slot)) ++ b.freeCont.map fun f => (f.1, f.2.1)
  mine.all (fun x => !(taken.any fun t => t.1 == x.1 && t.2.1 == x.2)) &&
  ((List.range 4).all fun q => quadRoom taken q ((mine.filter fun x => x.1 == q).length) l.regs) &&
  (s.stashRun b.die b.core l.lines).isSome && !(matrix && s.mats.any fun u => u.die == b.die && u.core == b.core)

/-- Whether a core can take a band that moves (R35, R376): slots, registers, stash and matrix state. -/
def State.coreFits (s : State) (l : Launch) (matrix : Bool) (die core : Nat) : Bool :=
  let taken := s.slotsTaken die core
  ((List.range 4).all fun q => quadRoom taken q ((l.slotQuads.filter fun x => x == q).length) l.regs) &&
  (s.stashRun die core l.lines).isSome && !(matrix && s.mats.any fun u => u.die == die && u.core == core)

/-- An outstanding load of a band as it goes on from another place (R233): the bytes of its stash lie elsewhere. -/
def Acc.moved (a : Acc) (b : Band) (at_ die core : Nat) : Acc :=
  let shift := fun (p : Place) => match p with
    | .stash _ _ off => Place.stash die core (off - 128 * b.stashBase + 128 * at_)
    | p => p
  { a with die := die, core := core, places := a.places.map fun ps => ps.map shift }

/-- A saved band put on a core (R376): the stash image and the saved state are loaded, and no group is released. On another core its groups and
continuation slots take slots by R37. -/
def State.loadBand (s : State) (b : Band) (k : Kernel) (image die core : Nat) : State :=
  let l := k.launch
  let slots := slotsFor (s.slotsTaken die core) l.slotQuads
  let moved := !(die == b.die && core == b.core)
  let place := fun (g : Group) =>
    let p := slots.getD g.frame (g.quad, g.slot)
    if moved && g.helper.isNone then { g with die := die, core := core, quad := p.1, slot := p.2 } else { g with die := die, core := core }
  let at_ := (s.stashRun die core l.lines).getD 0
  let bs := s.readPaBytes b.ctx image (128 * b.stashLines)
  let setQ := fun (x : NamedQ) =>
    if x.band == b.bid then { x with slots := (List.range 256).map fun i => wordAt (bs.drop (l.stash + 1024 * x.q)) i } else x
  let cont := b.freeCont.map fun f =>
    let p := slots.getD f.2.2 (f.1, f.2.1)
    if moved then (p.1, p.2, f.2.2) else f
  let mats := b.savedMats.map fun (u : MatUnit) => { u with die := die, core := core }
  let mine := fun (a : Acc) => (s.group? a.gid).any fun g => g.band == b.bid
  let up := fun (x : Band) => { x with st := .restored, die := die, core := core, stashBase := at_, freeCont := cont, savedMats := [] }
  let walks := (s.mem.accs.filter fun a => mine a && a.places.isNone && moved).map fun a => a.moved b at_ die core
  walks.foldl (fun s a => s.missWalk a) { s with
    groups := mapIf (fun g => g.band == b.bid) place s.groups,
    bands := mapIf (fun x => x.bid == b.bid) up s.bands,
    pool := mapIf (fun r => r.band == b.bid) (fun r => { r with die := die, core := core }) s.pool,
    named := s.named.map setQ,
    mats := s.mats ++ mats,
    kernels := mapIf (fun x => x.kid == k.kid) (fun (x : Kernel) =>
      { x with sites := x.sites.map fun y => if y.1 = b.index then (y.1, die, core) else y }) s.kernels,
    mem := { s.mem with stash := cellsPut s.mem.stash (stashKey die core (128 * at_)) (bs.take l.stash),
                        accs := mapIf mine (fun a => a.moved b at_ die core) s.mem.accs } }

/-- The core to which a band of a retired core moves (R312, R376): one that can take it, or whether any ever could. -/
def State.newCore (s : State) (b : Band) (k : Kernel) : Option (Nat × Nat) × Bool :=
  match (s.ctx? k.ctx).bind fun c => s.part? c.part with
  | none => (none, false)
  | some p =>
    let others := k.sites.filter fun x => !(x.1 == b.index)
    let m := s.isMatrix k
    let cs := (scanFrom k.lastCore (s.coresOf p)).filter fun c => k.launch.coreOk others b.index c.1 c.2
    (cs.find? fun c => s.coreFits k.launch m c.1 c.2, cs.any fun c => s.emptied.coreFits k.launch m c.1 c.2)

/-- RESTORE of a band (R376): the state and the status. -/
def State.restoreBand (s : State) (b : Band) : State × Nat :=
  match s.kernel? b.kid with
  | none => (s, stRefused)
  | some k =>
    let image := match s.divOf b.bid with
      | some e => (s.garretOf b.ctx e.garret).2.1
      | none => 0
    if b.st == .restored then (s, stOk)
    else if !(b.st == .saved) then (s, stRefused)
    else if s.out.retired.contains (b.die, b.core) then
      match s.newCore b k with
      | (some c, _) => (s.loadBand b k image c.1 c.2, stOk)
      | (none, true) => (s, stBusy)
      | (none, false) => (s.kernelFault b.kid fcAbsentFault, stOk)
    else if s.formerFits b k.launch (s.isMatrix k) then (s.loadBand b k image b.die b.core, stOk)
    else (s, stBusy)

/-! ## Release (R43, R375, R376, R381, R391) -/

/-- A bin for a record that returns, from its own bin on (R43, R375). -/
def State.binBack (s : State) (die core band b : Nat) : Option Nat :=
  ((List.range 64).map fun i => (b + i) % 64).find? fun x => s.binTakes die core band x

/-- The records of a saved bin returned (R375): a bin that is empty resumes the saved time of the timer. -/
def State.returnBin (s : State) (b : Band) (x : Nat × Nat × List Nat) : State :=
  x.2.2.foldl (fun s rid => match s.binBack b.die b.core b.bid x.1 with
    | none => s
    | some i =>
      let fresh := (s.binAt b.die b.core i).all fun y => y.recs.isEmpty
      let s1 := s.binPut b.die b.core b.bid i rid
      let is := fun (y : Bin) => y.die == b.die && y.core == b.core && y.bin == i
      if fresh then { s1 with bins := mapIf is (fun y => { y with timerFrom := s.cycleOn b.die - x.2.1 }) s1.bins } else s1) s

/-- A band's groups resume in their saved order (R317, R391): records return to their bins, helper entries take entries, and what waited is
looked at again. -/
def State.resumeBand (s : State) (b : Band) : State :=
  let up := fun (x : Band) => { x with st := .resident, rateAt := s.cycleOn b.die - x.rateAt, savedBins := [], savedOrder := [] }
  let s1 := s.modBand b.bid up
  let s2 := { s1 with pool := mapIf (fun r => r.band == b.bid) (fun r => { r with saved := false }) s1.pool }
  let s3 := b.savedBins.foldl (fun s x => s.returnBin b x) s2
  let gs := b.savedOrder.filterMap s3.group?
  let s4 := (gs.filter fun g => g.helper.isNone).foldl (fun s g => s.thaw g.gid) s3
  let help := fun (s : State) (g : Group) =>
    let busy := s.helperBusy b.die b.core
    let own := g.helper.filter fun e => !(busy.contains e)
    match own.orElse fun _ => (List.range 8).find? fun e => !(busy.contains e) with
    | some e => (s.rehome g b e).thaw g.gid
    | none => s
  let s5 := (gs.filter fun g => g.helper.isSome).foldl help s4
  let s6 := gs.foldl (fun s g => (s.examQueues g.gid).crecExam g.gid false) s5
  let ksig := match s.kernel? b.kid with
    | some k => k.signet
    | none => 0
  s6.emitUnit b.die 0 b.core 0 b.ctx ksig 0x19 b.index

/-- The absent fault of a band, of those pending, that ends its kernel at RELEASE (R381). -/
def State.absentKill (s : State) (bid : Nat) : Option Byte :=
  (s.tab.absents.find? fun a => a.bid == bid && !a.eng && (faultClass a.orig == 2 || faultClass a.orig == 5)).map fun a => a.orig

/-- RELEASE of a band (R381, R391): the state and the status. -/
def State.unsaveBand (s : State) (b : Band) : State × Nat :=
  if (s.divOf b.bid).isSome then (s, stBusy)
  else if !(b.st == .restored) then (s, stRefused)
  else match s.absentKill b.bid with
    | some f => (s.kernelFault b.kid f, stOk)
    | none =>
      (({ s with tab := { s.tab with absents := s.tab.absents.filter fun a => !(a.bid == b.bid) } }).resumeBand b, stOk)

/-! ## Partition reset (R383, R384) -/

/-- The contexts of a partition. -/
def State.ctxsOf (s : State) (p : Nat) : List Nat := (s.ctxs.filter fun c => c.part == p).map fun c => c.ctx

/-- A partition reset begins (R383). -/
def State.resetPart (s : State) (p : Partition) : State :=
  let cs := s.ctxsOf p.part
  let mine := fun (h : HostQ) => cs.contains h.ctx && !(h.st == .unbound)
  let s0 := s.emitUnit 0 5 96 0 255 0 0x21 p.part
  let s1 := { s0 with hqs := mapIf mine (fun h => { h with st := .resetting }) s0.hqs,
                      parts := mapIf (fun x => x.part == p.part) (fun x => { x with resetting := true }) s0.parts }
  let lost := (s1.hqs.filter mine).flatMap fun h => h.waiting.map fun w => HostMsg.event 0x103 [BitVec.ofNat 64 h.q, BitVec.ofNat 64 w.1]
  let s2 := { s1 with hqs := mapIf mine (fun h => { h with waiting := [] }) s1.hqs, out := { s1.out with sent := s1.out.sent ++ lost } }
  let ahead := fun (n : Node) => n.st == .waiting || n.st == .ready && n.kid.isNone
  let failFirst := fun (s : State) (h : HostQ) => (h.nodes.filter ahead).foldl (fun s n =>
    (s.setNode h.q n.idx fun n => { n with st := .failed, fault := fcPartitionReset }).traceNode h.q n.idx) s
  let s2' := (s2.hqs.filter mine).foldl failFirst s2
  let s3 := (s2'.kernels.filter fun k => cs.contains k.ctx).foldl (fun s k => if (s.kernel? k.kid).isSome then s.actFault k.kid fcPartitionReset else s) s2'
  let s4 := s3.chans.foldl (fun s c => s.cancelChan c.cid (fun x => cs.contains x.ctx) fcPartitionReset) s3
  let failAll := fun (s : State) (h : HostQ) => h.nodes.foldl (fun s n =>
    match (s.hq? h.q).bind fun h => h.nodes.find? fun x => x.idx == n.idx with
    | some x => if x.st == .done || x.st == .failed then s else s.failNode h.q n.idx fcPartitionReset
    | none => s) s
  let s5 := (s4.hqs.filter mine).foldl failAll s4
  let s6 := cs.foldl (fun s c => s.flushCtx c) s5
  let on := fun (die core : Nat) => p.cores.contains (die, core)
  { s6 with
    mats := s6.mats.filter (fun u => !(on u.die u.core)),
    mem := { s6.mem with
      tlb := s6.mem.tlb.filter (fun e => !(cs.contains e.ctx)),
      walks := s6.mem.walks.filter (fun w => !(cs.contains w.ctx) || s6.mem.accs.any fun a => a.die == w.die && a.places.isNone && s6.accCtx a == w.ctx),
      stash := s6.mem.stash.filter (fun c => !(on (c.1 / 524288 / 97) (c.1 / 524288 % 97))) },
    tab := { s6.tab with saves := s6.tab.saves.filter (fun x => (s6.band? x.bid).isSome),
                         suspends := s6.tab.suspends.filter (fun x => !(cs.contains x.1)),
                         resuming := s6.tab.resuming.filter (fun x => !(cs.contains x)),
                         divs := s6.tab.divs.filter (fun e => (s6.band? e.bid).isSome) } }

/-- PARTITION_RESET_COMPLETE (R383): the reset of partition `ev.id` has ended; its queues are OPEN, still bound, and the commands that have
waited for them come next (R454). -/
def execPartitionResetComplete (s : State) : Out :=
  match s.part? s.ev.id with
  | none => .next s
  | some p =>
    let cs := s.ctxsOf p.part
    if !p.resetting || s.bands.any (fun b => cs.contains b.ctx) || s.chans.any (fun c => !(c.st == .idle) && (c.recs.any (fun r => cs.contains r.post.ctx) ||
        c.doomed.any fun x => cs.contains x.2.1.ctx)) then .next s
    else
      let open_ := fun (h : HostQ) => { h with st := HqState.open_, running := false, wdRemain := h.wdPeriod * 65536000 }
      let told := (s.hqs.filter fun (h : HostQ) => h.st == HqState.resetting && h.running && cs.contains h.ctx).map
        fun (h : HostQ) => HostMsg.event 0x102 [BitVec.ofNat 64 h.q]
      let mine := fun (q : Nat) => (s.hq? q).any fun (h : HostQ) => h.st == HqState.resetting && cs.contains h.ctx
      let go := (s.out.waitingFrames.filter fun x => mine x.1).map fun x => some x.2
      let s1 := { s with hqs := mapIf (fun (h : HostQ) => h.st == HqState.resetting && cs.contains h.ctx) open_ s.hqs,
                         ctxs := mapIf (fun c => c.part == p.part) (fun c => { c with held := false }) s.ctxs,
                         parts := mapIf (fun x => x.part == p.part) (fun x => { x with resetting := false }) s.parts,
                         agenda := go ++ s.agenda,
                         out := { s.out with sent := s.out.sent ++ told, waitingFrames := s.out.waitingFrames.filter fun x => !(mine x.1) } }
      let waits := s1.tab.resets.filter fun (x : Nat × Nat × Nat) => x.1 == p.part
      .next (waits.foldl (fun (s : State) (x : Nat × Nat × Nat) => s.answer x.2.1 x.2.2 stOk)
        (s1.modTab fun t => { t with resets := t.resets.filter fun (x : Nat × Nat × Nat) => !(x.1 == p.part) }))

/-! ## CTXCTL (R391) -/

/-- CTXCTL HOLD (R374, R391). The row of a record with an OP of no row, or one that cannot be read, as well. -/
def execCtxctlHold (d a : BitVec 6) (s : State) : Out :=
  issuePriv (.ctxctlHold d a) s fun _ _ => ctlIssue s fun s c g d r =>
    if r.op ≠ 0 then s.privStatus c g d stRefused else (s.holdCtx r.ctx).privStatus c g d stOk

/-- CTXCTL UNHOLD (R391). -/
def execCtxctlUnhold (s : State) : Out :=
  issuePriv .ctxctlUnhold s fun _ _ => ctlIssue s fun s c g d r =>
    if s.ctxSaved r.ctx then s.privStatus c g d stBusy else (s.unholdCtx r.ctx).privStatus c g d stOk

/-- CTXCTL SAVE (R375, R391): its status comes when the save has ended or is abandoned. -/
def execCtxctlSave (s : State) : Out :=
  issuePriv .ctxctlSave s fun _ _ => ctlIssue s fun s c g d r =>
    match s.bandNamed r with
    | none => s.privStatus c g d stRefused
    | some b =>
      if !(b.st == .resident) || (s.divOf b.bid).isNone then s.privStatus c g d stRefused
      else (s.postAwait c g .unit).beginSave b r.addr c.gid s.nextId

/-- CTXCTL RESTORE (R376, R391). -/
def execCtxctlRestore (s : State) : Out :=
  issuePriv .ctxctlRestore s fun _ _ => ctlIssue s fun s c g d r =>
    match s.bandNamed r with
    | none => s.privStatus c g d stRefused
    | some b => let x := s.restoreBand b; x.1.privStatus c g d x.2

/-- CTXCTL RELEASE (R381, R391). -/
def execCtxctlRelease (s : State) : Out :=
  issuePriv .ctxctlRelease s fun _ _ => ctlIssue s fun s c g d r =>
    match s.bandNamed r with
    | none => s.privStatus c g d stRefused
    | some b => let x := s.unsaveBand b; x.1.privStatus c g d x.2

/-- CTXCTL KILL (R391). -/
def execCtxctlKill (s : State) : Out :=
  issuePriv .ctxctlKill s fun _ _ => ctlIssue s fun s c g d r =>
    match s.bandNamed r with
    | none => s.privStatus c g d stRefused
    | some b =>
      let code : Byte := BitVec.ofNat 8 r.arg
      let fail := if 2 ≤ faultClass code then s.actFault b.kid code else s.kernelFault b.kid code
      fail.launchers.privStatus c g d stOk

/-- What waits at work queues for pages in a range of a context goes on (R330). -/
def State.serveWork2 (s : State) (ctx lo hi : Nat) : State :=
  let hit := fun (x : WorkQ) => x.ctx == ctx && (x.stuck.any fun va => decide (lo ≤ va) && decide (va < hi))
  let ws := (s.work.filter hit).map fun x => x.wid
  ws.foldl (fun s w => (s.workRefill w 64).workExam w) { s with work := mapIf hit (fun x => { x with stuck := none }) s.work }

/-- CTXCTL SERVE (R51, R291, R371, R373): the context's lanes parked on pages in [ADDR, ADDR + ARG) become ACTIVE, those of a group in its handler at
its return as well; engines, replays, requests of other modules, rings and launchers that wait for such pages go on. -/
def execCtxctlServe (s : State) : Out :=
  issuePriv .ctxctlServe s fun _ _ => ctlIssue s fun s c g d r =>
    let lo := r.addr
    let hi := r.addr + r.arg
    let go := fun (g : Group) =>
      if g.handler || g.trapping.isSome then
        let g1 := if g.trapping.isSome then g else g.serve r.ctx lo hi
        { g1 with held := g1.held ++ [Held.serve r.ctx lo hi] }
      else g.serve r.ctx lo hi
    let s1 := { s with groups := s.groups.map go }
    (((((s1.serveEngines r.ctx lo hi).serveReplays r.ctx lo hi).servePeers r.ctx lo hi).serveWork2 r.ctx lo hi).launchers).privStatus c g d stOk

/-- CTXCTL DECLINE (R291, R373): a fault record for each group with lanes parked in the range, which stay parked; engine accesses, replays and
requests of other modules that wait for such pages fault. -/
def execCtxctlDecline (s : State) : Out :=
  issuePriv .ctxctlDecline s fun _ _ => ctlIssue s fun s c g d r =>
    let lo := r.addr
    let hi := r.addr + r.arg
    let hit := fun (l : Lane) => match l.park with
      | some p => l.st == .parked && p.ctx == r.ctx && decide (lo ≤ p.va) && decide (p.va < hi)
      | none => false
    let one := fun (s : State) (x : Group) =>
      let m := maskOf fun l => hit (x.lane l)
      if m = 0 then s
      else match (x.lane (lowLane m)).park with
        | some p =>
          let told := fun (l : Lane) => if hit l then { l with park := l.park.map fun p => { p with declined := some s.timeNs } } else l
          (s.faultRecord (s.groupFault x p.code 0 (x.lane (lowLane m)).pc m p.va)).modGroup x.gid fun y => { y with lanes := y.lanes.map told }
        | none => s
    ((((s.groups.foldl one s).declineEngines r.ctx lo hi).declineReplays r.ctx lo hi).declinePeers r.ctx lo hi).privStatus c g d stOk

/-- CTXCTL FWRET (R388, R391). -/
def execCtxctlFwret (s : State) : Out :=
  issuePriv .ctxctlFwret s fun _ _ => ctlIssue s fun s c g d r =>
    let is := fun (x : Group) => x.die == g.die && x.core == r.arg % 128 && x.gslot == r.band % 256 && s.ctxOf x == r.ctx && x.blocked == some .fwcall
    match (if r.arg < 128 then s.groups.find? is else none) with
    | none => s.privStatus c g d stRefused
    | some x => (s.modGroup x.gid fun x => { (x.ws 1 (BitVec.ofNat 64 r.addr)) with blocked := none }).privStatus c g d stOk

/-- CTXCTL RESET (R383, R391): its status comes when the reset is complete. -/
def execCtxctlReset (s : State) : Out :=
  issuePriv .ctxctlReset s fun _ _ => ctlIssue s fun s c g d r =>
    match s.part? (r.arg % 16) with
    | none => s.privStatus c g d stRefused
    | some p =>
      let s1 := (s.postAwait c g .unit).modTab fun t => { t with resets := t.resets ++ [(p.part, c.gid, s.nextId)] }
      if p.resetting then s1 else s1.resetPart p

/-! ## Suspension and resumption (R374, R376) -/

/-- The bands of a context, in ascending (DIE, CORE), in a state. -/
def State.bandsIn (s : State) (ctx : Nat) (st : BandState) : List Band :=
  sortBy (fun b => b.die * 97 + b.core) (s.bands.filter fun b => b.ctx == ctx && b.st == st)

/-- The lowest free diversion entry of a core. -/
def State.freeDiv (s : State) (die core : Nat) : Option Nat := (List.range 16).find? fun i => (s.divAt die core i).isNone

/-- Firmware's save of a band (R375): an entry with a garret is installed if the band has none, and the save begins into an area. The firmware of a die
whose image is being loaded does not (R462). -/
def State.saveNext (s : State) (b : Band) (garret area : Nat) : State :=
  if s.updating b.die then s
  else
    let s1 := match s.divOf b.bid, s.freeDiv b.die b.core with
      | none, some i => if s.garretOk b garret then s.modTab fun t => { t with divs := t.divs ++ [s.newDiv b b.core i garret] } else s
      | _, _ => s
    if (s1.divOf b.bid).isSome then s1.beginSave b area 0 0 else s1

/-- SUSPEND_DEADLINE (R374): the deadline of context `ev.id` has passed; firmware installs an entry with the garret at `ev.words[0]` for the first
band that remains, if it has none, and begins its save into the area at `ev.words[1]`; saves that can end do so. -/
def execSuspendDeadline (s : State) : Out :=
  let ctx := s.ev.id
  if !(s.tab.suspends.any fun x => x.1 == ctx && decide (x.2 ≤ s.out.elapsed)) then .next s
  else
    let mine := s.tab.saves.filter fun x => x.gid == 0 && (s.band? x.bid).any fun b => b.ctx == ctx
    let s1 := mine.foldl (fun s x => s.finishSave x) s
    let w := fun i => (s.ev.words.getD i 0).toNat
    let s2 := match s1.bandsIn ctx .resident with
      | [] => s1
      | b :: _ => s1.saveNext b (w 0) (w 1)
    let left := s2.bands.any fun b => b.ctx == ctx && (b.st == .resident || b.st == .saving)
    .next (if left then s2 else s2.modTab fun t => { t with suspends := t.suspends.filter fun x => !(x.1 == ctx) })

/-- SAVE_ABANDON (R386): the save of band `ev.id` has not completed 2 ms after it began; it is abandoned with TIMEOUT and the partition is reset. What
was written of it is copied into trace records, four bytes each. A watchdog expiry that it held is dropped. -/
def execSaveAbandon (s : State) : Out :=
  match s.tab.saves.find? (fun x => x.bid == s.ev.id), s.band? s.ev.id with
  | some x, some b =>
    if s.out.elapsed < x.since + usToUnits 2000 then .next s
    else
      let ksig := match s.kernel? b.kid with
        | some k => k.signet
        | none => 0
      let s1 := (s.answer x.gid x.oid stTimeout).modTab fun t => { t with saves := t.saves.filter fun y => !(y.bid == b.bid) }
      let (s2, bs) := (s1.emitUnit b.die 0 b.core 0 b.ctx ksig 0x1B b.index).fillArea b
      let data := fun (s : State) (i : Nat) => s.emitUnit b.die 0 b.core 0 b.ctx ksig 0x1C ((wordAt bs i).toNat + i % 256 * 2 ^ 32)
      let s2 := (List.range ((bs.length + 3) / 4)).foldl data s2
      let s3 := match (s2.ctx? b.ctx).bind fun c => s2.part? c.part with
        | some p => if p.resetting then s2 else s2.resetPart p
        | none => s2
      .next { s3 with hqs := mapIf (fun h => h.ctx == b.ctx) (fun h => { h with wdHeld := false }) s3.hqs }
  | _, _ => .next s

/-- A saved band's part of a resumption (R376): it is restored, its log drained, and it is released. -/
def State.resumeOne (s : State) (b0 : Band) : State :=
  match s.band? b0.bid with
  | none => s
  | some b =>
    let s1 := (s.restoreBand b).1
    match s1.band? b.bid with
    | none => s1
    | some b1 =>
      if !(b1.st == .restored) then s1
      else
        let s2 := if (s1.divOf b.bid).isSome then (s1.drainLog b.bid).1 else s1
        match s2.band? b.bid with
        | some b2 => (s2.unsaveBand b2).1
        | none => s2

/-- One round of a resumption (R376); with every band resident the queues are OPEN again. -/
def State.resumeRound (s : State) (ctx : Nat) : State :=
  let s1 := (s.bandsIn ctx .saved ++ s.bandsIn ctx .restored).foldl State.resumeOne s
  if s1.ctxSaved ctx then s1
  else (s1.unholdCtx ctx).modTab fun t => { t with resuming := t.resuming.filter fun x => !(x == ctx) }

end Sys2Proof.Machine
end

