-- ==== Sys2Proof/Machine/Results.lean ====
section
/-!
DEFINITION. RESULT_WRITE (R66 to R68, R98), with the ends of the privileged instructions whose status waits for another unit (R354, R361, R375,
R380).
-/
namespace Sys2Proof.Machine

/-- Results of a group written (R66 to R68): the due fixed ones, in the order of their cycles and, within a cycle, of their issue; or the one named,
in the lanes of `m`. -/
def Group.writeDue (g : Group) (cycle sub : Nat) (m : BitVec 32) : Group :=
  if g.frozen then g
  else if sub = 0 then
    let take := fun (o : Outst) => o.kind == .fixed && o.ready cycle
    let due := sortBy (fun o => o.due) (g.outs.filter take)
    { due.foldl (fun g o => g.land o) g with outs := g.outs.filter fun o => !(take o) }
  else match g.outs.find? (fun o => o.oid == sub && o.ready cycle) with
    | some o => g.landPart o m
    | none => g

/-- A status that waits for another unit: that unit looked at again. -/
def State.unitEnd (s : State) (gid oid : Nat) : State :=
  match s.tab.invs.find? (fun x => x.gid == gid && x.oid == oid), s.tab.routers.find? (fun r => match r.swap with
      | some (_, g, o) => g == gid && o == oid
      | none => false),
    s.tab.saves.find? (fun x => x.gid == gid && x.oid == oid), s.tab.divs.find? (fun e => e.drainer == some (gid, oid)) with
  | some x, _, _, _ =>
    if s.invDone x then (s.modTab fun t => { t with invs := t.invs.filter fun y => !(y == x) }).answer gid oid stOk else s
  | none, some r, _, _ => s.swapDone r gid oid
  | none, none, some x, _ => s.finishSave x
  | none, none, none, some e => match s.drainLog e.bid with
    | (s1, true) => s1.answer gid oid stOk
    | (s1, false) => s1
  | none, none, none, none => s

/-- RESULT_WRITE (R66 to R68, R98): group `ev.id` has its due fixed-latency results written in the order of their cycles and,
within a cycle, of their issue, with their flags ORed into GST; `ev.sub` names one variable-latency result instead, when its
value has come or the unit that brings it has ended, and `ev.words` the lanes that get it now (R164). -/
def execResultWrite (s : State) : Out :=
  let s1 := s.modGroup s.ev.id fun g => g.writeDue (s.cycleOn g.die) s.ev.sub s.evLanes
  .next (if s.ev.sub = 0 then s1 else s1.unitEnd s.ev.id s.ev.sub)

end Sys2Proof.Machine
end

