-- ==== Sys2Proof/Machine/Hang.lean ====
section
/-!
DEFINITION. Hangs: wait-for edges and snapshots (R428, R429), dumps (R441 to R443) and the hang watchdog (R382, R385).
-/
namespace Sys2Proof.Machine

/-! ## Wait-for edges (R428) -/

/-- A party of an edge: module, die, unit, sub and class (R428). -/
def party (device die unit sub cls : Nat) : Nat :=
  device % 512 * 2 ^ 21 + die % 8 * 2 ^ 18 + unit % 128 * 2 ^ 11 + sub % 256 * 2 ^ 3 + cls % 8

/-- What an edge says besides its waiter (R428). -/
structure EdgeInfo where
  awaited : Nat
  any : Bool
  res : Nat
  since : Nat
  ctx : Nat
  kind : Nat
  stall : Nat
  band : Nat
  detail : Nat
deriving DecidableEq, Repr

/-- An edge as the number of its 32 bytes (R428). -/
def EdgeInfo.word (e : EdgeInfo) (waiter : Nat) : Nat :=
  waiter * 2 ^ 226 + e.awaited * 2 ^ 194 + (if e.any then 2 ^ 193 else 0) + e.res % 2 ^ 64 * 2 ^ 128 + e.since % 2 ^ 64 * 2 ^ 64 +
  e.ctx % 256 * 2 ^ 56 + e.kind * 2 ^ 52 + e.stall % 16 * 2 ^ 48 + e.band % 2 ^ 32 * 2 ^ 16 + e.detail % 65536

/-- A group as a party. -/
def State.groupParty (s : State) (g : Group) : Nat := party s.out.device g.die g.core g.gslot (if g.firmware then 5 else 0)

/-- An edge of a group that waits for any of several agents. -/
def State.groupEdge (s : State) (g : Group) (kind res detail : Nat) : EdgeInfo :=
  { awaited := 0, any := true, res := res, since := g.waitAt, ctx := s.ctxOf g, kind := kind, stall := s.stallCode g,
    band := match s.band? g.band with
      | some b => b.index
      | none => 0,
    detail := detail }

/-- The edges of a wait at a barrier: one for each clear MASK bit of the record (R403, R428), its party the first group of the slot that has
not arrived. -/
def State.barEdges (s : State) (g : Group) (bar : Nat) : List EdgeInfo :=
  match s.bar? bar with
  | none => []
  | some r =>
    let e := s.groupEdge g 0 (r.tier * 16 + r.index) 0
    let slots := (List.range 64).filter fun i => decide (i * (r.per * r.unitGroups) < r.nmem) && !(r.mask.getLsbD i)
    let late := fun (i : Nat) => (s.members r).find? fun x =>
      (match s.groupQ x with
        | some q => r.slotOf q == i
        | none => false) && !((s.token bar x.gid).pend && (s.token bar x.gid).token == r.phase)
    if slots.isEmpty then [e]
    else slots.map fun i => match late i with
      | some x => { e with awaited := s.groupParty x, any := false, detail := i }
      | none => { e with detail := i }

/-- The edge of a wait at a semaphore slot, which names its holder. -/
def State.semEdges (s : State) (g : Group) (key : Nat) : List EdgeInfo :=
  match s.sync.sems.find? fun x => x.key == key with
  | none => []
  | some x =>
    let mine := sortBy (fun y => y.slot) (s.sync.sems.filter fun y => y.st == .declared && y.band == x.band)
    let h := if x.st == .declared then 2 ^ 31 + mine.findIdx (fun y => y.key == key) else x.gen.toNat * 2 ^ 19 + x.die * 2 ^ 16 + x.slot
    let e := s.groupEdge g 1 h 0
    match x.holder with
    | some (d, c, k) => [{ e with awaited := party s.out.device d c k 0, any := false }]
    | none => [e]

/-- The edges of a CREC.WAIT: one for each channel of the context with a started record that completes to the ring (R428). -/
def State.crecEdges (s : State) (g : Group) (ring : Nat) : List EdgeInfo :=
  let e := s.groupEdge g 6 ring 0
  let hit := fun (c : Channel) => c.recs.any fun r => r.post.ctx == s.ctxOf g && r.ring == ring
  match s.chans.filter hit with
  | [] => [e]
  | cs => cs.map fun c => { e with awaited := party s.out.device c.die c.eng c.chn (if c.coll then 2 else 1), any := false }

/-- The edges of a group whose lanes wait at a JOIN: one for each EJECTED lane's continuation (R428). -/
def State.joinEdges (s : State) (g : Group) : List EdgeInfo :=
  let run := fun (l : Nat) => s.groups.find? fun x => x.lanes.any fun y => match y.origin with
    | .cont h k _ => h == g.gid && k == l && !(y.st == .exited)
    | _ => false
  (laneNos.filter fun l => (g.lane l).st == .ejected).map fun l =>
    let e := s.groupEdge g 7 0 (g.lane l).jsel.toNat
    match run l with
    | some x => { e with awaited := s.groupParty x, any := false }
    | none => e

/-- The edges of a group's declined page faults: one for each page (R428). -/
def State.declinedEdges (s : State) (g : Group) : List EdgeInfo :=
  let ls := laneNos.filter fun l => (g.lane l).st == .parked && ((g.lane l).park.any fun p => p.declined.isSome)
  let pages := (ls.map fun l => ((g.lane l).park.map fun p => p.va / 4096).getD 0).eraseDups
  pages.filterMap fun pg =>
    (ls.find? fun l => ((g.lane l).park.any fun p => p.va / 4096 == pg)).bind fun l => (g.lane l).park.map fun p =>
      { s.groupEdge g 10 p.va l with awaited := party s.out.device g.die 96 0 5, any := false, since := p.declined.getD 0 }

/-- The edges of a group (R428). -/
def State.groupEdges (s : State) (g : Group) : List EdgeInfo :=
  let at_ := match g.blocked with
    | some (.barArrive b _ _) => s.barEdges g b
    | some (.barWait b _ _) => s.barEdges g b
    | some (.sem k) => s.semEdges g k
    | some (.semFree k) => s.semEdges g k
    | some (.semWord pa _ _) => [s.groupEdge g 2 pa 0]
    | some (.qpop q) => [s.groupEdge g 3 q q]
    | some (.qpush q) => [s.groupEdge g 4 q q]
    | some (.wqDeq w) => (s.work.filter fun x => x.wid == w).map fun x =>
        s.groupEdge g 5 (x.key * 2 ^ 32 + x.die * 2 ^ 24 + x.unit * 2 ^ 20 + x.queue) x.queue
    | some (.wqEnqw w _) => (s.work.filter fun x => x.wid == w).map fun x =>
        s.groupEdge g 5 (x.key * 2 ^ 32 + x.die * 2 ^ 24 + x.unit * 2 ^ 20 + x.queue) x.queue
    | some (.crecWait _) => match g.crecOut with
      | some o => s.crecEdges g (g.rs (bits o.w0.toNat 9 6)).toNat
      | none => []
    | some (.redfOrd t _) => [s.groupEdge g 9 t 0]
    | _ => []
  let join := if g.blocked.isNone && g.issueAddr.isNone && (g.maskSt fun x => x == .joinwait) != 0 then s.joinEdges g else []
  at_ ++ join ++ s.declinedEdges g

/-- The edges of a channel whose collective waits for members' data (R428, R430). -/
def State.chanEdges (s : State) (c : Channel) : List (Nat × EdgeInfo) :=
  c.recs.flatMap fun r =>
    if c.coll && r.phase == .exchange && r.stepAt.isSome then
      let late := r.needed.filter fun j => !(r.arrivals.any fun a => a.1 == j)
      late.map fun j =>
        let t := fieldAt r.team (64 + 32 * j) 32
        (party s.out.device c.die c.eng c.chn 2,
         { awaited := party (bits t 0 9) (bits t 9 3) (bits t 12 4) 0 2, any := false, res := fieldAt r.raw 256 64, since := r.stepAt.getD 0,
           ctx := r.post.ctx, kind := 8, stall := 0, band := (s.band? r.post.band).elim 0 fun b => b.index, detail := j })
    else []

/-- The edges of a partition's groups and engines on a die, as numbers (R429). -/
def State.edgesOf (s : State) (cs : List Nat) (die : Nat) : List Nat :=
  ((s.groups.filter fun g => g.die == die && cs.contains (s.ctxOf g)).flatMap fun g => (s.groupEdges g).map fun e => e.word (s.groupParty g)) ++
  ((s.chans.filter fun c => c.die == die).flatMap fun c =>
    ((s.chanEdges c).filter fun e => cs.contains e.2.ctx).map fun e => e.2.word e.1)

/-! ## Snapshots (R429) -/

/-- Edges written one after another into a buffer, as far as it reaches: the state and the number written. An edge whose party is on another
module is asked after. -/
def State.writeEdges (s : State) (die ctx base len : Nat) : List Nat → Nat → State × Nat
  | [], n => (s, n)
  | e :: es, n =>
    if len < 32 * (n + 1) then (s, n)
    else match s.writeGlb die 96 ctx (base + 32 * n) (leBytes 32 e) with
      | (s1, some _) => (s1, n)
      | (s1, none) =>
        let away := bits e 194 30 / 2 ^ 21 != s.out.device && bits e 193 1 == 0 && bits e 52 4 == 8
        let ask := fun (o : ObsState) => { o with queries := o.queries ++ [(s1.nextId, ctx, base + 32 * n, s1.out.elapsed)] }
        (if away then { s1 with nextId := s1.nextId + 1 }.modObs ask else s1).writeEdges die ctx base len es (n + 1)

/-- A snapshot of a partition (R429, R509): each die's firmware writes its edges into the buffer that the host has named, and WFG_SNAPSHOT is emitted
once, by the firmware core of die 0, with the number of them. -/
def State.snapshot (s : State) (part : Nat) : State :=
  let cs := s.ctxsOf part
  let r := match s.obs.snaps.find? fun x => x.1 == part with
    | none => (s, 0)
    | some (_, ctx, base, len) =>
      dieList.foldl (fun (r : State × Nat) d => r.1.writeEdges d ctx base len (s.edgesOf cs d) r.2) (s, 0)
  r.1.emitUnit 0 5 96 0 256 0 0x22 r.2

/-- WFG_REMOTE_TIMEOUT (R429): query `ev.id` of a snapshot has had no answer for 1 ms; its edge keeps its place with LOST set. -/
def execWfgRemoteTimeout (s : State) : Out :=
  match s.obs.queries.find? fun x => x.1 == s.ev.id with
  | none => .next s
  | some (i, ctx, va, at_) =>
    if s.out.elapsed < at_ + usToUnits 1000 then .next s
    else
      let s1 := s.modObs fun o => { o with queries := o.queries.filter fun x => !(x.1 == i) }
      match s1.readGlb 0 96 ctx (va + 24) 1 with
      | (s2, .ok bs) => .next (s2.writeGlb 0 96 ctx (va + 24) [bs.getD 0 0 ||| 1]).1
      | (s2, .error _) => .next s2

/-- WFG_REMOTE_QUERY (R429): the firmware of another module, `ev.words[0]`, asks with tag `ev.words[1]` and depth `ev.words[2]` after the party of
context `ev.id`; within 8 hops it is answered with this module's edges of that context. -/
def execWfgRemoteQuery (s : State) : Out :=
  let w := fun i => (s.ev.words.getD i 0).toNat
  if 8 < w 2 then .next s
  else
    let es := dieList.flatMap fun d => s.edgesOf [s.ev.id] d
    .next (s.modOut fun o => { o with replies := o.replies ++ [(w 0 % 512, w 1, 0, es.flatMap fun e => leBytes 32 e)] })

/-! ## Dumps (R441 to R443) -/

/-- One bit step of the reflected CRC-32C (R442, the polynomial of RFC 3720). -/
def crcBit (c : Nat) : Nat := if c % 2 = 1 then Nat.xor (c / 2) 0x82F63B78 else c / 2

/-- The CRC-32C of bytes. -/
def crc32c (bs : List Byte) : Nat :=
  Nat.xor (bs.foldl (fun c b => (List.range 8).foldl (fun c _ => crcBit c) (Nat.xor c b.toNat)) 0xFFFFFFFF) 0xFFFFFFFF

/-- The header of a dump (R441). -/
structure DumpHead where
  time : Nat
  signet : Nat
  len : Nat
  foff : Nat
  fcode : Nat
  first : Nat
  nsec : Nat
  st : Nat
  ctx : Nat
  part : Nat
  queue : Nat
deriving DecidableEq, Repr

/-- The header's 64 bytes with its HCRC (R441). -/
def DumpHead.bytes (h : DumpHead) : List Byte :=
  let w := fun (crc : Nat) => h.time * 2 ^ 448 + h.signet * 2 ^ 384 + h.len * 2 ^ 320 + h.foff * 2 ^ 256 + crc * 2 ^ 224 + h.fcode * 2 ^ 216 +
    h.first * 2 ^ 208 + h.nsec * 2 ^ 200 + h.st * 2 ^ 192 + h.ctx * 2 ^ 184 + h.part * 2 ^ 176 + h.queue * 2 ^ 164 + 2 ^ 128
  leBytes 64 (w (if h.st = 0 then 0 else crc32c (leBytes 64 (w 0))))

/-- A section: its header and its payload, padded to 64 bytes (R442). -/
def dumpSection (kind : Nat) (p : List Byte) : List Byte :=
  [BitVec.ofNat 8 kind] ++ List.replicate 7 0 ++ leBytes 4 p.length ++ leBytes 4 (crc32c p) ++ p ++ List.replicate ((64 - p.length % 64) % 64) 0

/-- A group's state in the frame layout, without V registers (R368, R442). -/
def State.groupDump (s : State) (g : Group) : List Byte :=
  let t : TrapInfo := { code := 0, tcode := 0, va := 0, fpc := BitVec.ofNat 32 (g.issueAddr.getD 0),
                        lanes := g.activeAt (BitVec.ofNat 32 (g.issueAddr.getD 0)), time := BitVec.ofNat 64 s.timeNs }
  g.frameHead t g.outs.length (fun l => (g.lane l).pc) ++
    g.outs.flatMap (fun o => { state := o.replayState, out := o : Replay }.bytes)

/-- A site of the census as an entry (R433). -/
def State.siteBytes (s : State) (c : CensusSite) : List Byte :=
  let (index, code) := match s.band? c.band with
    | some b => (b.index, match s.kernel? b.kid with
      | some k => k.launch.code
      | none => 0)
    | none => (0, 0)
  leBytes 32 (code / 64 * 2 ^ 198 + index * 2 ^ 160 + c.pc.toNat * 2 ^ 128 + c.counts.getD 0 0 * 2 ^ 96 + c.counts.getD 1 0 * 2 ^ 64 +
    c.counts.getD 2 0 * 2 ^ 32 + c.counts.getD 3 0)

/-- The 43 eligibility counters of a quadrant (R419, R434). -/
def State.eligBytes (s : State) (q : Nat × Nat × Nat) : List Byte :=
  let at_ := fun (i : Nat) => ((s.obs.elig.find? fun e => e.die == q.1 && e.core == q.2.1 && e.quad == q.2.2 && e.idx == i).map fun e => e.n).getD 0
  let empty := s.emptyCycles q.1 (at_ 50)
  let cnt := fun (i : Nat) => if i = 48 then empty else if i = 0 then at_ 0 + empty else at_ i
  ((List.range 50).filter fun i => decide (i ≤ 8) || decide (16 ≤ i)).flatMap fun i => leBytes 8 (cnt i)

/-- The payload of a section of kind `k` of a dump of a partition's contexts (R442). The payload of kind 5, and of semaphore slots, which the spec
lays out nowhere, is a free value. -/
def State.dumpPayload (s : State) (cs : List Nat) (trigger : List Byte) (k : Nat) : List Byte :=
  let gs := s.groups.filter fun g => cs.contains (s.ctxOf g)
  let bids := (s.bands.filter fun b => cs.contains b.ctx).map fun b => b.bid
  match k with
  | 1 => trigger
  | 2 => (dieList.flatMap fun d => s.edgesOf cs d).flatMap fun e => leBytes 32 e
  | 3 => gs.flatMap s.groupDump
  | 4 => ((s.sync.bars.filter fun r => bids.contains r.band).flatMap fun r => leBytes 32 r.word) ++ Config.freeBytes (2 * s.free)
  | 5 => Config.freeBytes (2 * s.free + 1)
  | 6 => (gs.map fun g => (g.die, g.core, g.issueQuad)).eraseDups.flatMap s.eligBytes
  | 7 => (s.obs.census.filter fun c => bids.contains c.band).flatMap s.siteBytes
  | 8 =>
    let rs := (s.obs.undercroft.map fun r => r.2.2).filter fun r => cs.contains r.ctx
    (rs.drop (rs.length - 4096)).flatMap fun r => leBytes 32 r.word
  | _ => gs.flatMap fun g => g.lanes.flatMap fun l => wordBytes l.v

/-- Sections written in order of kind, from the byte `pos` of the buffer on (R443): the state, the header's outcome and the bytes written. -/
def State.dumpSections (s : State) (h : HostQ) (cs : List Nat) (trigger : List Byte) : List Nat → DumpHead → State × DumpHead
  | [], x => (s, { x with st := 1 })
  | k :: ks, x =>
    let p := s.dumpPayload cs trigger k
    if p.isEmpty then s.dumpSections h cs trigger ks x
    else
      let bs := dumpSection k p
      if h.dumpLen < x.len + bs.length then (s, { x with st := 2, first := k })
      else match s.writeGlb 0 96 h.ctx (h.dumpBuf + x.len) bs with
        | (s1, some f) => (s1, { x with st := 3, foff := f.2 - h.dumpBuf, fcode := f.1.toNat })
        | (s1, none) => s1.dumpSections h cs trigger ks { x with len := x.len + bs.length, nsec := x.nsec + 1 }

/-- A dump of a queue's partition (R441 to R443). -/
def State.dump (s : State) (h : HostQ) (part : Nat) (trigger : List Byte) (signet : W64) : State :=
  let x : DumpHead := { time := s.timeNs, signet := signet.toNat, len := 64, foff := 0, fcode := 0, first := 0, nsec := 0, st := 0, ctx := h.ctx,
                        part := part, queue := h.q }
  let told := fun (s : State) (st : Nat) (gone : Bool) (code : Nat) =>
    s.emitUnit 0 5 96 0 h.ctx signet 0x30 (st + (if gone then 4 else 0) + code * 256)
  match s.writeGlb 0 96 h.ctx h.dumpBuf ({ x with len := 0 }.bytes) with
  | (s1, some f) => told s1 0 true f.1.toNat
  | (s1, none) =>
    let (s2, y) := s1.nextFree.dumpSections h (s.ctxsOf part) trigger [1, 2, 3, 4, 5, 6, 7, 8, 9] x
    match s2.writeGlb 0 96 h.ctx h.dumpBuf y.bytes with
    | (s3, some f) => told s3 0 true f.1.toNat
    | (s3, none) => told s3 y.st false y.fcode

/-! ## Watchdogs (R382, R385) -/

/-- ABORT_TASK (R382): every node of the submission in progress ends with WATCHDOG_ABORT. -/
def State.abortTask (s : State) (q : Nat) : State :=
  let live := fun (s : State) (i : Nat) => ((s.hq? q).bind (fun h => h.nodes.find? fun (n : Node) => n.idx == i) : Option Node)
  let idxs := match s.hq? q with
    | some h => h.nodes.map fun (n : Node) => n.idx
    | none => []
  let end1 := fun (s : State) (i : Nat) => match live s i with
    | none => s
    | some n =>
      if n.st == NodeState.running || n.st == NodeState.ready then
        match n.kid with
        | some k => s.actFault k fcWatchdogAbort
        | none =>
          let s1 := s.chans.foldl (fun (s : State) (c : Channel) => s.cancelChan c.cid (fun p => p.node == some (q, i)) fcWatchdogAbort) s
          s1.failNode q i fcWatchdogAbort
      else s
  ((idxs.foldl end1 s).launchers).modHq q HostQ.reload

/-- The action of a queue's watchdog (R382) under its signet: a snapshot, a dump where the queue's flag is set, and WDACTION. -/
def State.wdAct (s : State) (h : HostQ) (signet : W64) : State :=
  let part := (s.ctx? h.ctx).elim 0 fun c => c.part
  let pay := h.q + (if h.wdAction then 4096 else 0)
  let s1 := (s.emitUnit 0 5 96 0 h.ctx signet 0x20 pay).snapshot part
  let mark : TraceRec := { rno := 0, gid := 0, ctx := h.ctx, needs := none, time := s.out.time, signet := signet, rids := [], depth := 0, type := 0x20,
                           scls := 5, sdie := 0, sunit := 96, ssub := 0, dbg := s.dbgFlag h.ctx, payload := pay }
  let s2 := if h.dumpFlag then s1.dump h part (leBytes 32 mark.word) signet else s1
  let s3 := s2.modHq h.q fun h => { h.reload with wdHeld := false }
  if h.wdAction then (match s3.part? part with
    | some p => if p.resetting then s3 else s3.resetPart p
    | none => s3)
  else s3.abortTask h.q

/-- WATCHDOG_EXPIRE (R382, R385, R509): the timer of queue `ev.id` has run out. While a band of its context is being saved the expiry is held;
otherwise the action runs, whose trace records carry a fresh signet of the firmware core of die 0. -/
def execWatchdogExpire (s : State) : Out :=
  match s.hq? s.ev.id with
  | none => .next s
  | some h =>
    if !h.running || !(h.st == .open_ || h.wdHeld) || decide (h.wdRemain ≠ 0 ∧ h.wdHeld = false) then .next s
    else if s.bands.any fun b => b.ctx == h.ctx && b.st == .saving then .next (s.modHq h.q fun h => { h with wdHeld := true })
    else
      let x := s.freshSignet 0 5 96
      let act := fun (s : State) (a : Option W64) => s.modObs fun o => { o with act := a }
      .next (act ((act (s.bumpSeq 0 5 96) (some x)).wdAct h x) none)

end Sys2Proof.Machine
end

