-- ==== Sys2Proof/Machine/Frames.lean ====
section
/-!
DEFINITION. The Alaell protocol (R451 to R454): sessions, the order of frames, and the commands that bind queues, submit graphs, launch kernels,
make and end contexts, load keys and define partitions.
-/
namespace Sys2Proof.Machine

/-! ## Frames -/

/-- A frame that the module sends. -/
def State.tell (s : State) (m : HostMsg) : State := s.modOut fun o => { o with sent := o.sent ++ [m] }

/-- `n` free words drawn one after another. -/
def State.freeWords (s : State) : Nat → List W64 × State
  | 0 => ([], s)
  | n + 1 =>
    let x := s.nextFree.freeWords n
    (Config.freeWord s.free :: x.1, x.2)

/-- The SESSION word that marks a frame which its session has accepted already. -/
def acceptedMark : Nat := 2 ^ 32

def Item.word (i : Item) (k : Nat) : Nat := (i.ev.words.getD k 0).toNat

/-- The item of a frame that its session has accepted. -/
def Item.accepted (i : Item) : Item := { i with ev := { i.ev with words := i.ev.words.set 0 (BitVec.ofNat 64 acceptedMark) } }

def State.session? (s : State) (sid : Nat) : Option Session := s.out.sessions.find? fun x => x.sid == sid

def State.modSession (s : State) (sid : Nat) (f : Session → Session) : State :=
  s.modOut fun o => { o with sessions := mapIf (fun x => x.sid == sid) f o.sessions }

/-- A SEQ accepted by a session (R452): those at or below the highest minus 1,024 need no more to be remembered. -/
def Session.accept (x : Session) (seq now : Nat) : Session :=
  let top := max x.seqMax seq
  { x with seqMax := top, seen := seq :: x.seen.filter (fun y => decide (top < y + 1024)), seqNext := max x.seqNext (seq + 1), lastFrame := now }

/-- Whether a SEQ is dropped (R452): it lies too far below the highest accepted, or repeats one. -/
def Session.drops (x : Session) (seq : Nat) : Bool := decide (seq + 1024 ≤ x.seqMax) || x.seen.contains seq

/-- The frames held behind a gap that has closed are accepted and come next, in SEQ order (R454); `fuel` bounds their number. -/
def State.takeHeld (sid : Nat) : Nat → State → State × List Item
  | 0, s => (s, [])
  | fuel + 1, s =>
    match s.session? sid with
    | none => (s, [])
    | some x => match x.heldFrames.find? fun h => h.1 == x.seqNext with
      | none => (s, [])
      | some h =>
        let drop := fun (y : Session) => { y with heldFrames := y.heldFrames.filter fun z => !(z.1 == h.1), heldSince := s.out.elapsed }
        let r := State.takeHeld sid fuel (s.modSession sid fun y => (drop y).accept h.1 s.out.elapsed)
        (r.1, h.2.accepted :: r.2)

/-- Items put at the head of the agenda. -/
def State.soon (s : State) (is : List Item) : State := { s with agenda := is.map some ++ s.agenda }

/-- A frame that its session holds released, once its gap has closed. -/
def State.closeGap (s : State) (sid : Nat) : State :=
  let n := ((s.session? sid).map fun x => x.heldFrames.length).getD 0
  let r := State.takeHeld sid n s
  r.1.soon r.2

/-- TYPE of the frames of a row (R453). The spec gives HELLO and KEYX none. -/
def frameType : Instr → Option Nat
  | .qbind => some 0x10
  | .submit => some 0x11
  | .hostLaunch => some 0x12
  | .ctxnew => some 0x18
  | .ctxend => some 0x19
  | .suspend => some 0x1A
  | .resume => some 0x1B
  | .keyload => some 0x20
  | .keydestroy => some 0x21
  | .partdef => some 0x28
  | .power => some 0x30
  | .clock => some 0x31
  | .retain => some 0x38
  | .retainRestore => some 0x38
  | .retireCore => some 0x39
  | .retireLayer => some 0x39
  | .retireLane => some 0x39
  | .update => some 0x3A
  | .debug => some 0x40
  | .traceread => some 0x41
  | .snapshot => some 0x42
  | .hostMark => some 0x43
  | .attest => some 0x48
  | _ => none

/-- The TYPE values of the frames that a host sends (R453). -/
def frameTypes : List Nat :=
  [0x10, 0x11, 0x12, 0x18, 0x19, 0x1A, 0x1B, 0x20, 0x21, 0x28, 0x30, 0x31, 0x38, 0x39, 0x3A, 0x40, 0x41, 0x42, 0x43, 0x48]

/-- The words of an event that the header carries in QUEUE and in PART, where the TYPE names one (R451, R453): the one for QUEUE, the one for PART. -/
def frameNames : Instr → Option Nat × Option Nat
  | .qbind => (some 3, none)
  | .submit => (some 3, none)
  | .ctxnew => (none, some 4)
  | .partdef => (none, some 3)
  | .snapshot => (none, some 3)
  | _ => (none, none)

/-- A field of the header of a frame: bits `lo` on of the 256, `n` of them. -/
def Ev.head (e : Ev) (lo n : Nat) : Nat := bits (e.frame.getD (lo / 64) 0).toNat (lo % 64) n

/-- The payload of a frame of a row, in bytes: the words after TAG but for those that the header carries, and bytes. -/
def Ev.payload (e : Ev) (i : Instr) : List Byte :=
  let named := fun (k : Nat) => (frameNames i).1 == some k || (frameNames i).2 == some k
  (((List.range e.words.length).drop 3).filter fun k => !(named k)).flatMap (fun k => leBytes 8 (e.words.getD k 0).toNat) ++ e.bytes

/-- The checks of the header (R451): MAGIC, VER, LEN, the fields that the words repeat, and zero where the TYPE names no queue or partition. -/
def Ev.headOk (e : Ev) (i : Instr) : Bool :=
  let w := fun (k : Nat) => (e.words.getD k 0).toNat
  let n := (e.payload i).length
  e.head 224 32 == 0xA1AE1101 && e.head 216 8 == 1 && e.head 192 16 == n && decide (n ≤ 8832) && e.head 128 64 == w 1 && e.head 96 32 == w 0 &&
  e.head 84 12 == ((frameNames i).1.map w).getD 0 && e.head 80 4 == ((frameNames i).2.map w).getD 0 && e.head 64 16 == 0 && e.head 0 64 == w 2

/-- The trailer that a session's key gives a frame (R452), over its header and payload. -/
def Ev.trailer (e : Ev) (i : Instr) (key : BitVec 512) : List Byte :=
  hmacSha512 (leBytes 64 key.toNat) ((e.frame.take 4).flatMap (fun w => leBytes 8 w.toNat) ++ e.payload i)

/-- Whether a frame passes the checks of R451 and R452 in a session: those of its header, a TYPE that is the row's or none of R453's, and its HMAC. -/
def Ev.frameOk (e : Ev) (i : Instr) (x : Session) : Bool :=
  e.headOk i && (frameType i == some (e.head 208 8) || !(frameTypes.contains (e.head 208 8))) &&
  ((e.frame.drop 4).flatMap fun w => leBytes 8 w.toNat) == e.trailer i x.key

/-- A frame checked and taken in SEQ order (R451, R452, R454): `run` is what an accepted frame does; one whose TYPE R453 does not list is REFUSED.
`ev.words` holds SESSION, SEQ, TAG and the payload's words. A module that has tripped takes none, and frames of
one mesh cycle are taken in the order of their sessions (R454). -/
def hostFrame (i : Instr) (s : State) (run : Nat → List Nat → State → State) : Out :=
  let ws := s.ev.words.map fun w => w.toNat
  let sid := ws.getD 0 0
  let seq := ws.getD 1 0
  let go := if frameTypes.contains (s.ev.head 208 8) then run (ws.getD 2 0) (ws.drop 3) else fun s => s.tell (.ack (ws.getD 2 0) stRefused)
  if s.out.tripped then .next s
  else if sid = acceptedMark then .next (go s)
  else match s.session? sid with
    | none => .next s
    | some x =>
      if !(s.ev.frameOk i x) || x.drops seq then .next s
      else if x.seqNext < seq then
        if x.heldFrames.any fun h => h.1 == seq then .next s
        else
          let hold := fun (y : Session) =>
            { y with heldFrames := y.heldFrames ++ [(seq, { instr := i, ev := s.ev })], lastFrame := s.out.elapsed,
                     heldSince := if y.heldFrames.isEmpty then s.out.elapsed else y.heldSince }
          .next (s.modSession sid hold)
      else if !(s.inTurn .host 0 sid) then .next s
      else .next ((go ((s.takeTurn .host 0 sid).modSession sid fun y => y.accept seq s.out.elapsed)).closeGap sid)

/-- A command that its state change and status answer (R453). -/
def hostCommand (i : Instr) (s : State) (run : List Nat → State → State × Nat) : Out :=
  hostFrame i s fun tag ws s => let r := run ws s; r.1.tell (.ack tag r.2)

/-- Whether a queue is RESETTING. -/
def State.queueResetting (s : State) (q : Nat) : Bool := (s.hq? q).any fun h => h.st == HqState.resetting

/-- A command that would change queues (R454): it waits while one of them is RESETTING. -/
def queueCommand (i : Instr) (s : State) (qs : State → List Nat → List Nat) (run : List Nat → State → State × Nat) : Out :=
  hostFrame i s fun tag ws s =>
    match (qs s ws).find? s.queueResetting with
    | some q =>
      let w : Item := { instr := i, ev := { s.ev with words := (BitVec.ofNat 64 acceptedMark) :: s.ev.words.drop 1 } }
      s.modOut fun o => { o with waitingFrames := o.waitingFrames ++ [(q, w)] }
    | none => let r := run ws s; r.1.tell (.ack tag r.2)

/-- HELLO (R452): the module replies with its certificate and a nonce of 32 bytes, signed under its identity key. -/
def execHello (s : State) : Out :=
  if !(s.ev.headOk .hello) ∨ s.ev.head 96 32 ≠ 0 ∨ s.out.tripped then .next s
  else
    let (nonce, s1) := s.freeWords 4
    let (proof, s2) := s1.freeWords 64
    .next ((s2.modOut fun o => { o with nonce := nonce }).tell (.data (s.ev.words.getD 2 0).toNat (nonce ++ proof)))

/-- KEYX (R452): a session opens for a frame that holds the nonce and, encrypted in 64 words, the session key; a seventeenth closes the oldest idle
one. The module replies with its SESSION. -/
def execKeyx (s : State) : Out :=
  if !(s.ev.headOk .keyx) ∨ s.ev.head 96 32 ≠ 0 ∨ s.out.tripped ∨ s.out.nonce = [] ∨ (s.ev.words.drop 3).take 4 ≠ s.out.nonce then .next s
  else
    let old := s.out.sessions.foldl (fun (r : Option Session) x => match r with
      | none => some x
      | some y => if x.lastFrame < y.lastFrame then some x else some y) none
    let kept := if s.out.sessions.length < 16 then s.out.sessions
      else s.out.sessions.filter fun x => !(old.any fun y => y.sid == x.sid)
    let sid := s.out.nextSession
    let x : Session := { sid := sid, key := Config.openedKey ((s.ev.words.drop 7).take 64),
                         seqNext := 1, seqMax := 0, seen := [0], heldFrames := [], heldSince := 0, lastFrame := s.out.elapsed }
    .next ((s.modOut fun o => { o with nonce := [], sessions := kept ++ [x], nextSession := sid % (2 ^ 32 - 1) + 1 }).tell
      (.data (s.ev.words.getD 2 0).toNat [BitVec.ofNat 64 sid]))

/-- SESSION_TIMEOUT (R452): session `ev.id` has had no frame for 60 s and is closed. -/
def execSessionTimeout (s : State) : Out :=
  .next (s.modOut fun o =>
    { o with sessions := o.sessions.filter fun x => !(x.sid == s.ev.id && decide (x.lastFrame + usToUnits 60000000 ≤ o.elapsed)) })

/-- ALAELL_GAP_TIMEOUT (R454): session `ev.id` has held a frame ahead of a gap for 1 ms; the gap counts as lost. -/
def execAlaellGapTimeout (s : State) : Out :=
  match s.session? s.ev.id with
  | none => .next s
  | some x => match leastOf (x.heldFrames.map fun h => h.1) with
    | none => .next s
    | some n =>
      if s.out.elapsed < x.heldSince + usToUnits 1000 ∨ s.inTurn .host 0 x.sid = false then .next s
      else .next (((s.takeTurn .host 0 x.sid).modSession x.sid fun y => { y with seqNext := n }).closeGap x.sid)

/-! ## Queues (R301) -/

/-- A host command queue, as it is or as one never bound. -/
def State.queueAt (s : State) (q : Nat) : HostQ := (s.hq? q).getD (HostQ.fresh q)

def State.setQueue (s : State) (h : HostQ) : State := { s with hqs := h :: s.hqs.filter fun x => !(x.q == h.q) }

/-- Whether a queue has a submission in progress or waiting. -/
def HostQ.inUse (h : HostQ) : Bool := h.running || !h.waiting.isEmpty

/-- A queue bound (R119, R301): context, priority, WDPERIOD, WDACTION, dump flag with its buffer, and the buffer for its partition's snapshots.
One bound while its context's partition is being reset is RESETTING like the partition's others. -/
def State.bindQueue (s : State) (q : Nat) (ws : List Nat) : State × Nat :=
  let w := fun i => ws.getD i 0
  let h := s.queueAt q
  match s.ctx? (w 0) with
  | none => (s, stRefused)
  | some c =>
    if 4096 ≤ q ∨ 8 ≤ w 1 ∨ (w 4 = 1 ∧ (w 6 < 4096 ∨ w 6 % 64 ≠ 0)) then (s, stRefused)
    else if h.inUse then (s, stBusy)
    else
      let st := if (s.part? c.part).any fun (p : Partition) => p.resetting then HqState.resetting else if c.held then .held else .open_
      let h1 := { h with st := st, ctx := c.ctx, prio := w 1, wdPeriod := clampPeriod (w 2), wdAction := w 3 == 1,
                         dumpFlag := w 4 == 1, dumpBuf := w 5, dumpLen := w 6 }
      let s1 := s.setQueue h1.reload
      let name := fun (o : ObsState) => { o with snaps := (c.part, c.ctx, w 7, w 8) :: o.snaps.filter fun x => !(x.1 == c.part) }
      (if w 8 = 0 then s1 else s1.modObs name, stOk)

/-- A channel bound to a context (R275): kind, die, engine, channel, key and default ring. -/
def State.bindChannel (s : State) (ws : List Nat) : State × Nat :=
  let w := fun i => ws.getD i 0
  let coll := w 1 == 1
  let is := fun (c : Channel) => c.coll == coll && c.die == w 2 && c.eng == w 3 && c.chn == w 4
  if (s.ctx? (w 0)).isNone ∨ 8 ≤ w 2 ∨ (if coll then 2 else 12) ≤ w 3 ∨ 16 ≤ w 4 ∨ 2 ^ 32 ≤ w 5 then (s, stRefused)
  else match s.chans.find? is with
    | some c =>
      if !(c.st == .idle) || !c.posts.isEmpty then (s, stBusy)
      else (s.modChan c.cid fun c => { c with bound := some (w 0, w 5), ring := w 6 }, stOk)
    | none =>
      let c : Channel := { cid := s.nextId, coll := coll, die := w 2, eng := w 3, chn := w 4, bound := some (w 0, w 5), ring := w 6, st := .idle,
                           posts := [], cur := none, page := none, part := [], doomed := [], recs := [], node := none, failed := none }
      ({ s.fresh with chans := s.chans ++ [c] }, stOk)

/-- The entry counts that a work queue's overflow ring may have (R329). -/
def workCount (n : Nat) : Bool := n == 0 || (List.range 19).any fun k => n == 64 * 2 ^ k

/-- A work queue bound from its descriptor (R329): die, unit and queue, the descriptor read once in the context that the frame names. Its
reserved fields are not looked at (R5). -/
def State.bindWork (s : State) (ws : List Nat) : State × Nat :=
  let w := fun i => ws.getD i 0
  if (s.ctx? (w 0)).isNone ∨ 8 ≤ w 1 ∨ 16 ≤ w 2 ∨ 256 ≤ w 3 then (s, stRefused)
  else match s.readGlb (w 1) 96 (w 0) (w 4) 64 with
    | (s1, .error _) => (s1, stRefused)
    | (s1, .ok bs) =>
      let base := fieldAt bs 128 64
      let n := fieldAt bs 96 32
      let ctx := fieldAt bs 8 8
      if base % 128 ≠ 0 ∨ !(workCount n) ∨ (s1.ctx? ctx).isNone then
        (s1, stRefused)
      else
        let is := fun (x : WorkQ) => x.die == w 1 && x.unit == w 2 && x.queue == w 3
        if s1.work.any fun x => is x && !(x.deqW.isEmpty && x.enqW.isEmpty) then (s1, stBusy)
        else
          let x : WorkQ := { wid := s1.nextId, die := w 1, unit := w 2, queue := w 3, ctx := ctx, key := fieldAt bs 64 32, base := base, count := n,
                             window := [], rhead := 0, rocc := 0, ring := [], stuck := none, deqW := [], enqW := [] }
          ({ s1.fresh with work := s1.work.filter (fun x => !(is x)) ++ [x] }, stOk)

/-- QBIND (R119, R301, R453): words QUEUE and kind; kind 0 binds the host command queue, kind 1 a channel, kind 2 a work queue. -/
def execQbind (s : State) : Out :=
  queueCommand .qbind s (fun _ ws => if ws.getD 1 0 = 0 then [ws.getD 0 0] else []) fun ws s =>
    match ws.getD 1 0 with
    | 0 => s.bindQueue (ws.getD 0 0) (ws.drop 2)
    | 1 => s.bindChannel (ws.drop 2)
    | 2 => s.bindWork (ws.drop 2)
    | _ => (s, stRefused)

/-- SUBMIT (R301): words QUEUE, graph base, node count. -/
def execSubmit (s : State) : Out :=
  queueCommand .submit s (fun _ ws => [ws.getD 0 0]) fun ws s =>
    let w := fun i => ws.getD i 0
    match s.hq? (w 0) with
    | none => (s, stRefused)
    | some h =>
      if h.st = .unbound ∨ w 1 % 64 ≠ 0 ∨ w 2 = 0 ∨ 2 ^ 24 < w 2 then (s, stRefused)
      else if 64 ≤ h.waiting.length then (s, stFull)
      else (s.modHq h.q fun h => { h with waiting := h.waiting ++ [(w 1, w 2)] }, stOk)

/-- LAUNCH of the host (R28, R453): words context, launch record, priority and die of one kernel that is not in a graph. -/
def execHostLaunch (s : State) : Out :=
  hostFrame .hostLaunch s fun tag ws s =>
    let w := fun i => ws.getD i 0
    let done := fun (s : State) (st : Nat) => s.tell (.ack tag st)
    if (s.ctx? (w 0)).isNone ∨ 8 ≤ w 2 ∨ 8 ≤ w 3 then done s stRefused
    else match s.readLaunch (w 3) (w 0) (w 1) with
      | (s1, none) => done s1 stRefused
      | (s1, some l) =>
        let (s2, k) := s1.newKernel (w 0) (w 3) 4096 (w 2) (.host tag) l false [] none
        if s2.gangOk k then done s2 stOk else done s1 stRefused

/-! ## Contexts (R20, R453) -/

/-- A value, or a default for 0. -/
def orDefault (x d : Nat) : Nat := if x = 0 then d else x

/-- Whether an extent can be granted (R190, R202): within the memory and clear of the Undercroft. -/
def State.grantable (s : State) (e : Nat × Nat) : Bool := decide (e.1 + e.2 ≤ 2 ^ 40 + 2 ^ 39) && !(s.inUndercroft e.1 e.2)

/-- Pairs of consecutive words. -/
def pairUp : List Nat → List (Nat × Nat)
  | a :: b :: r => (a, b) :: pairUp r
  | _ => []

/-- A context as CTXNEW makes it (R119, R453): words context, partition, flags (bit 0 the debug right, bit 1 HALT of the reference census),
residency quota, L2 pin quota, reduction-resident quota, bin timer, fault ring, census ring, reference census with its entry count, frame region with its
length, handle table with its size, and the allotment's extents. A quota or timer of 0 takes its default. DESIGN CHOICE (log 173): the frame
gives one value of each quota, which holds on every die alike. -/
def newContext (ws : List Nat) : Context :=
  let w := fun i => ws.getD i 0
  let z : Segment := Segment.zero
  { ctx := w 0, part := w 1, segs := [z, { base := 0, limit := 0, valid := true, wr := true }, z, z, z], heapBase := 0, heapLim := 0, heapOff := 0,
    rafbase := 0, trapvec := 0, keyslot := none, allot := pairUp (ws.drop 15), quota := orDefault (w 3) 16, pinQuota := orDefault (w 4) 4096,
    redQuota := orDefault (w 5) 65536, trust := List.replicate 8 1, trials := List.replicate 8 (0, 0), binTimer := orDefault (w 6) 2048,
    faultRing := w 7, faultLoss := 0, handleTable := w 13, handleCount := w 14, frames := (w 11, w 12), frameUse := [], held := false,
    dbgRight := w 2 % 2 == 1 }

/-- CTXNEW (R453); a bin timer is 64 to 65,536 cycles (R314), an allotment has up to 16 extents (R339). -/
def execCtxnew (s : State) : Out :=
  hostCommand .ctxnew s fun ws s =>
    let w := fun i => ws.getD i 0
    let c := newContext ws
    if 256 ≤ w 0 ∨ (s.part? (w 1)).isNone ∨ 16 < w 3 ∨ (w 6 ≠ 0 ∧ (w 6 < 64 ∨ 65536 < w 6)) ∨ 2 ^ 24 < w 14 ∨
        16 < c.allot.length ∨ !(c.allot.all s.grantable) then (s, stRefused)
    else if (s.ctx? (w 0)).isSome then (s, stBusy)
    else
      let r : CensusRef := { ctx := w 0, base := w 9, count := w 10, halt := bits (w 2) 1 1 == 1, ring := w 8 }
      ({ s with ctxs := s.ctxs ++ [c] }.modObs fun o => { o with refs := o.refs ++ [r] }, stOk)

/-- Whether something of a context still runs: kernels, bands that drain (R55), submissions, engine records, accesses. -/
def State.ctxBusy (s : State) (ctx : Nat) : Bool :=
  s.kernels.any (fun k => k.ctx == ctx) || s.bands.any (fun b => b.ctx == ctx) || s.hqs.any (fun h => h.ctx == ctx && !(h.st == .unbound) && h.inUse) ||
  s.chans.any (fun c => c.posts.any (fun p => p.ctx == ctx) || c.recs.any (fun r => r.post.ctx == ctx) || c.doomed.any (fun d => d.2.1.ctx == ctx)) ||
  s.mem.accs.any (fun a => a.ctx == ctx)

/-- The pins that a context holds cleared (R210): they end with it, whichever context's line holds them. -/
def State.unpinCtx (s : State) (ctx : Nat) : State :=
  let mine := fun (l : CacheLine) => !(l.level == .l1) && l.lock == some ctx
  s.modMem fun m => { m with lines := mapIf mine (fun l => { l with lock := none, redres := false, md := { l.md with pin := false } }) m.lines }

/-- The end of a context (R210, R322, R356, R410, R439): its lines are written back and invalidated, and what it holds returns. -/
def State.dropCtx (s : State) (ctx : Nat) : State :=
  let s1 := (s.flushCtx ctx).unpinCtx ctx
  let key := mapIf (fun (k : KeySlot) => k.st == KeyState.bound && k.ctx == some ctx) (fun k => { k with st := KeyState.loaded, ctx := none })
  let o := s1.obs
  { s1 with
    ctxs := s1.ctxs.filter (fun c => !(c.ctx == ctx)),
    parts := mapIf (fun p => p.exporter == some ctx) (fun p => { p with exporter := none }) s1.parts,
    codes := s1.codes.filter (fun c => !(c.ctx == ctx)),
    hqs := s1.hqs.filter (fun h => h.st == HqState.unbound || !(h.ctx == ctx)),
    work := s1.work.filter (fun x => !(x.ctx == ctx)),
    chans := mapIf (fun (c : Channel) => c.bound.any fun b => b.1 == ctx) (fun c => { c with bound := none }) s1.chans,
    pkts := s1.pkts.filter (fun p => !(p.ctx == ctx)),
    sync := { s1.sync with sems := mapIf (fun x => !(x.st == .free) && x.ctx == ctx) SemSlot.release s1.sync.sems },
    mem := { s1.mem with tlb := s1.mem.tlb.filter (fun e => !(e.ctx == ctx)), walks := s1.mem.walks.filter (fun w => !(w.ctx == ctx)) },
    tab := { s1.tab with keys := key s1.tab.keys, suspends := s1.tab.suspends.filter (fun x => !(x.1 == ctx)),
                         resuming := s1.tab.resuming.filter (fun x => !(x == ctx)) },
    out := { s1.out with conns := s1.out.conns.filter (fun c => !(c.ctx == ctx)) },
    obs := { o with dbg := o.dbg.filter (fun d => !(d.ctx == ctx)), dbgEdited := o.dbgEdited.filter (fun c => !(c == ctx)),
                    sampling := o.sampling.filter (fun x => !(x.ctx == ctx)), refs := o.refs.filter (fun r => !(r.ctx == ctx)),
                    userOff := o.userOff.filter (fun c => !(c == ctx)), snaps := o.snaps.filter (fun x => !(x.2.1 == ctx)) } }

/-- The queues bound to a context. -/
def State.queuesOf (s : State) (ctx : Nat) : List Nat := (s.hqs.filter fun h => h.ctx == ctx && !(h.st == .unbound)).map fun h => h.q

/-- CTXEND (R453): word context; BUSY while anything of it runs. -/
def execCtxend (s : State) : Out :=
  queueCommand .ctxend s (fun s ws => s.queuesOf (ws.getD 0 0)) fun ws s =>
    let c := ws.getD 0 0
    if (s.ctx? c).isNone then (s, stRefused) else if s.ctxBusy c then (s, stBusy) else (s.dropCtx c, stOk)

/-- SUSPEND (R374): words context and deadline in microseconds, 100 where none is given. -/
def execSuspend (s : State) : Out :=
  queueCommand .suspend s (fun s ws => s.queuesOf (ws.getD 0 0)) fun ws s =>
    let c := ws.getD 0 0
    let us := ws.getD 1 100
    if (s.ctx? c).isNone ∨ 10000 < us then (s, stRefused)
    else if s.tab.resuming.contains c then (s, stBusy)
    else ((s.holdCtx c).modTab fun t =>
      { t with suspends := t.suspends.filter (fun x => !(x.1 == c)) ++ [(c, s.out.elapsed + usToUnits us)] }, stOk)

/-- RESUME (R376): word context. What cannot be restored at once is tried again by RESUME with `ev.sub` 1 and `ev.id` the context. -/
def execResume (s : State) : Out :=
  if s.ev.sub = 1 then .next (if s.tab.resuming.contains s.ev.id then s.resumeRound s.ev.id else s)
  else queueCommand .resume s (fun s ws => s.queuesOf (ws.getD 0 0)) fun ws s =>
    let c := ws.getD 0 0
    if (s.ctx? c).isNone then (s, stRefused)
    else if s.bands.any fun b => b.ctx == c && b.st == .saving then (s, stBusy)
    else
      let s1 := s.modTab fun t => { t with suspends := t.suspends.filter (fun x => !(x.1 == c)), resuming := c :: t.resuming.filter fun x => !(x == c) }
      (s1.resumeRound c, stOk)

/-! ## Keys (R356) -/

/-- KEYLOAD (R356): word slot; its key arrives by the host's key transport, and the slot is LOADED. -/
def execKeyload (s : State) : Out :=
  hostCommand .keyload s fun ws s =>
    let n := ws.getD 0 0
    if 1007 < n then (s, stRefused)
    else if (s.keySlot n).st = .bound then (s, stBusy)
    else
      let g := s.tab.keyGen + 1
      ((s.setKey { slot := n, st := .loaded, ctx := none, gen := g }).modTab fun t => { t with keyGen := g }, stOk)

/-- KEYDESTROY (R356): word slot, which becomes EMPTY. -/
def execKeydestroy (s : State) : Out :=
  hostCommand .keydestroy s fun ws s =>
    let n := ws.getD 0 0
    if 1007 < n then (s, stRefused) else (s.setKey { slot := n, st := .empty, ctx := none, gen := 0 }, stOk)

/-! ## Partitions (R20, R453, R456) -/

/-- PARTDEF (R453): words partition, routing partition, exporter context plus 1 (0 for none), the module's DEVICE, its PTP domain number, the bandwidth
share, the counts of cores, engines and units, then these: cores as die × 128 + core, engines and units as die × 16 + number (collective engines from 12 on). A
core of another partition is refused. -/
def execPartdef (s : State) : Out :=
  hostCommand .partdef s fun ws s =>
    let w := fun i => ws.getD i 0
    let p := w 0
    let cores := ((ws.drop 9).take (w 6)).map fun x => (x / 128, x % 128)
    let engs := (ws.drop (9 + w 6)).take (w 7)
    let units := (ws.drop (9 + w 6 + w 7)).take (w 8)
    let taken := s.parts.any fun (x : Partition) => !(x.part == p) && (x.cores.any cores.contains || x.engines.any engs.contains || x.units.any units.contains)
    if 16 ≤ p ∨ 16 ≤ w 1 ∨ 512 ≤ w 3 ∨ cores.any (fun c => decide (8 ≤ c.1) || decide (96 ≤ c.2)) ∨ cores.eraseDups.length ≠ cores.length ∨ taken then
      (s, stRefused)
    else if s.bands.any fun b => (s.ctx? b.ctx).any fun (c : Context) => c.part == p then (s, stBusy)
    else
      let x : Partition := { part := p, cores := cores, engines := engs, units := units, share := w 5, routing := w 1,
                             exporter := if w 2 = 0 then none else some (w 2 - 1), resetting := (s.part? p).any fun (y : Partition) => y.resetting }
      ({ s with parts := s.parts.filter (fun (y : Partition) => !(y.part == p)) ++ [x] }.modOut fun o => { o with device := w 3, ptpDomain := w 4 }, stOk)

end Sys2Proof.Machine
end

