-- ==== Sys2Proof/Machine/Debug.lean ====
section
/-!
DEFINITION. Trace collection (R420, R424, R425), sampling (R440) and the debugger (R436 to R439), with the host's DEBUG, TRACEREAD, SNAPSHOT and MARK
frames.
-/
namespace Sys2Proof.Machine

/-! ## Filigree (R420, R424, R425) -/

/-- A record written to the Undercroft (R425): record n = W; the record that it overwrites is gone, and W rises by 1. -/
def State.store (s : State) (die : Nat) (r : TraceRec) : State :=
  match s.obs.gateways.find? fun g => g.die == die with
  | none => s
  | some g =>
    let keep := fun (x : Nat × Nat × TraceRec) => !(x.1 == die) || decide (g.w + 1 ≤ x.2.1 + g.share / 32)
    let put := fun (x : Gateway) => { x with w := (x.w + 1) % 2 ^ 64 }
    s.modObs fun o => { o with undercroft := o.undercroft.filter keep ++ [(die, g.w, r)], gateways := mapIf (fun x => x.die == die) put o.gateways }

def State.modGateway (s : State) (die : Nat) (f : Gateway → Gateway) : State :=
  s.modObs fun o => { o with gateways := mapIf (fun g => g.die == die) f o.gateways }

/-- Whether a gateway has room for a record (R424): 256 of its 4,096 places are for priority records only. -/
def Gateway.room (g : Gateway) (r : TraceRec) : Bool := decide (g.buf.length < if priorityType r.type then 4096 else 3840)

/-- The oldest record that a gateway holds written to the Undercroft (R420), one in a cycle of its die. -/
def State.writeTrace (s : State) (die : Nat) : State :=
  match s.obs.gateways.find? fun g => g.die == die with
  | none => s
  | some g => match g.buf with
    | [] => s
    | r :: rest =>
      if g.wroteAt = some (s.cycleOn die) then s
      else (s.modGateway die fun g => { g with buf := rest, wroteAt := some (s.cycleOn die) }).store die r

/-- The rank of a source among the requesters of its die's gateway (R192, R420): a core, firmware and the launcher have sites; the engines, the
work-queue unit, the gateway's own records and the host's come behind. -/
def TracePort.rank (p : TracePort) : Nat :=
  if p.scls = 0 ∨ p.scls = 5 then siteOf p.unit
  else if p.scls = 3 then siteOf unitLauncher
  else if p.scls = 4 then siteOf unitQueues
  else if p.scls = 6 then siteOf unitGateway
  else 108 + 16 * p.scls + p.unit

/-- TRACE_RECORD_ACCEPT (R420, R424): the gateway of die `ev.die` accepts the first record of the port of class `ev.sub`, unit `ev.core`, once what comes
before it has been performed (R225): it holds it, an ordinary one that finds its space full being dropped and counted and a priority one waiting; those of one mesh cycle in the requester order. With
`ev.lane` 1 the gateway writes the oldest record it holds. -/
def execTraceRecordAccept (s : State) : Out :=
  if s.ev.lane = 1 then .next (s.writeTrace s.ev.die)
  else
  let is := fun (p : TracePort) => p.die == s.ev.die && p.scls == s.ev.sub && p.unit == s.ev.core
  match s.obs.ports.find? is, s.obs.gateways.find? fun g => g.die == s.ev.die with
  | some p, some g => match p.recs with
    | [] => .next s
    | r :: rest =>
      let room := g.room r
      if (r.needs.any fun n => !(s.needsMet n)) || (!room && priorityType r.type) || !(s.inTurn (.gateway p.die) p.die p.rank) then .next s
      else
        let s1 := (s.takeTurn (.gateway p.die) p.die p.rank).modObs fun o => { o with ports := mapIf is (fun p => { p with recs := rest }) o.ports }
        .next (if room then s1.modGateway s.ev.die fun g => { g with buf := g.buf ++ [r] } else s1.countLoss r.sdie r.scls)
  | _, _ => .next s

/-- LOSS (R424): the gateway of die `ev.die` emits a LOSS record for each class whose count has risen since that class's last one. -/
def execLoss (s : State) : Out :=
  match s.obs.gateways.find? fun g => g.die == s.ev.die with
  | none => .next s
  | some g =>
    let one := fun (s : State) (k : Nat) =>
      let n := (g.loss.getD k 0 + 2 ^ 64 - g.lossTold.getD k 0) % 2 ^ 64
      if n = 0 then s else s.emitUnit g.die 6 0 0 256 0 0x38 (min n (2 ^ 32 - 1) + k * 2 ^ 32)
    let s1 := (List.range 8).foldl one s
    .next (s1.modObs fun o => { o with gateways := mapIf (fun x => x.die == g.die) (fun x => { x with lossTold := g.loss }) o.gateways })

/-- TRACEREAD (R425): words die, first n and count; firmware answers with the records that still stand, each as n and its four words. -/
def execTraceread (s : State) : Out :=
  hostFrame .traceread s fun tag ws s =>
    let w := fun i => ws.getD i 0
    let words := fun (x : Nat) => (List.range 4).map fun i => BitVec.ofNat 64 (x / 2 ^ (64 * i))
    match s.obs.gateways.find? fun g => g.die == w 0 with
    | none => s.tell (.ack tag stRefused)
    | some g =>
      let live := fun (x : Nat × Nat × TraceRec) => x.1 == g.die && decide (w 1 ≤ x.2.1) && decide (x.2.1 < w 1 + w 2) && decide (g.w ≤ x.2.1 + g.share / 32)
      let out := (s.obs.undercroft.filter live).flatMap fun x => BitVec.ofNat 64 x.2.1 :: words x.2.2.word
      (s.tell (.data tag out)).tell (.ack tag stOk)

/-- MARK (R423): word value, which a HOST_MARK record of the host port carries. -/
def execHostMark (s : State) : Out :=
  hostCommand .hostMark s fun ws s => (s.emitUnit 0 7 0 0 256 0 0x3F (ws.getD 0 0), stOk)

/-- UNDERCROFT_SHARE_CHANGE (R202, R425): the host sets the share of die `ev.die` to `ev.words[0]` bytes; W becomes 0 and earlier records are
unreadable. -/
def execUndercroftShareChange (s : State) : Out :=
  let n := (s.ev.words.getD 0 0).toNat
  let d := s.ev.die
  if (List.range 7).any fun k => n == 2 ^ (27 + k) then
    .next (s.modObs fun o =>
      { o with gateways := mapIf (fun g => g.die == d) (fun g => { g with share := n, w := 0 }) o.gateways,
               undercroft := o.undercroft.filter fun x => !(x.1 == d) })
  else .next s

/-- SNAPSHOT (R429): words partition, context, buffer and length; the buffer stays named for the partition's watchdogs. -/
def execSnapshot (s : State) : Out :=
  hostCommand .snapshot s fun ws s =>
    let w := fun i => ws.getD i 0
    if (s.part? (w 0)).isNone then (s, stRefused)
    else
      let name := fun (o : ObsState) => { o with snaps := (w 0, w 1, w 2, w 3) :: o.snaps.filter fun x => !(x.1 == w 0) }
      ((s.modObs name).snapshot (w 0), stOk)

/-! ## Sampling (R440) -/

/-- The resident group of a context on a quadrant that follows a slot in rotation. -/
def State.sampled (s : State) (ctx : Nat) (q : Nat × Nat × Nat) (slot : Nat) : Option Group :=
  let at_ := fun (k : Nat) => s.groups.find? fun g =>
    s.ctxOf g == ctx && g.die == q.1 && g.core == q.2.1 && g.quad == q.2.2 && g.slot == k && g.helper.isNone && s.resident g
  (List.range 32).findSome? fun i => at_ ((slot + i) % 32)

/-- SAMPLE (R440, R507): the period of context `ev.id` has run out on quadrant `ev.quad` of core `ev.core` of die `ev.die`. -/
def execSample (s : State) : Out :=
  let q := (s.ev.die, s.ev.core, s.ev.quad)
  match s.obs.sampling.find? fun x => x.ctx == s.ev.id with
  | none => .next s
  | some x =>
    let (due, slot) := assoc q (x.since.getD s.ev.die 0 + x.period, 0) x.nextAt
    if s.cycleOn s.ev.die < due then .next s
    else
      let g? := s.sampled x.ctx q slot
      let nxt := match g? with
        | some g => (g.slot + 1) % 32
        | none => slot
      let put := fun (y : Sampling) => { y with nextAt := assocSet q (due + x.period, nxt) y.nextAt }
      let s1 := s.modObs fun o => { o with sampling := mapIf (fun y => y.ctx == x.ctx) put o.sampling }
      .next (match g? with
        | some g => s1.emitGroup g 0x34 (g.issueAddr.getD 0 + if s.eligible g then 2 ^ 36 else s.stallCode g * 2 ^ 32)
        | none => s1)

/-! ## Debug (R436 to R439) -/

/-- BREAKPOINT_HALT (R437): group `ev.id` is about to issue a chain whose first member's PC is a breakpoint. -/
def execBreakpointHalt (s : State) : Out :=
  match s.group? s.ev.id with
  | none => .next s
  | some g => match g.issueAddr with
    | none => .next s
    | some a =>
      if s.unheld g && !g.dbgHalt && !g.dbgStep && s.breakAt g a then
        .next ((s.modGroup g.gid fun g => { g with dbgFrom := none }).debugHalt g 0 (BitVec.ofNat 32 a))
      else .next s

/-- A halted group as its frame shows it (R437). -/
def State.haltFrame (s : State) (g : Group) : List Byte :=
  let a := BitVec.ofNat 32 (g.issueAddr.getD 0)
  let t : TrapInfo := g.dbgFrom.getD { code := 0, tcode := 0, va := 0, fpc := a, lanes := g.activeAt a, time := BitVec.ofNat 64 s.timeNs }
  g.frameHead t g.outs.length (fun l => (g.lane l).pc) ++ g.outs.flatMap fun o => { state := o.replayState, out := o : Replay }.bytes

/-- A debugger's edits of a group, as ERET applies a frame with ACT ignored (R371, R437): a result outstanding reaches the lanes whose state is unchanged. -/
def Group.edited (g : Group) (f : List Byte) : Group :=
  let g0 := { g with entryPark := g.lanes.map (fun (l : Lane) => l.park), entryRgn := g.rgn.map (fun (e : RgnEntry) => e.at_) }
  let g1 := g0.restore f
  let same := maskOf fun i => (g1.lane i).st == (g.lane i).st
  let keep := fun (o : Outst) => { o with mask := o.mask &&& same }
  { g1 with entryPark := g.entryPark, entryRgn := g.entryRgn, outs := g1.outs.map keep }

/-- A halted group released (R437), past a breakpoint at which it stands; edits are applied if the frame's values allow it, and the effects held
for it. -/
def State.debugRelease (s : State) (g : Group) (frame : List Byte) : State :=
  let edit := !frame.isEmpty && !(frameBad frame)
  let at_ := match g.issueAddr with
    | some a => s.breakAt g a
    | none => false
  let go := fun (x : Group) =>
    let x1 := if edit then x.edited frame else x
    let x2 := { x1 with dbgHalt := false, dbgStep := at_ && !edit, stepPc := none, dbgFrom := none }.renewWait s.out.elapsed
    if x2.holds then x2 else x2.applyHeld
  let s1 := s.modGroup g.gid go
  let s2 := if edit then s1.modObs fun o => { o with dbgEdited := s.ctxOf g :: o.dbgEdited.filter fun c => !(c == s.ctxOf g) } else s1
  (((s2.examQueues g.gid).crecExam g.gid false)).retire g.gid

/-- The halted groups of a context released and its session ended (R439). -/
def State.debugEnd (s : State) (ctx : Nat) : State :=
  let s1 := s.modObs fun o => { o with dbg := o.dbg.filter fun d => !(d.ctx == ctx) }
  let gs := s1.groups.filter fun g => g.dbgHalt && s.ctxOf g == ctx
  (gs.foldl (fun s g => s.debugRelease g []) s1).emitUnit 0 5 96 0 ctx 0 0x33 0

/-- DEBUG_REVOKE (R439): the session of context `ev.id` is closed, or its debug right revoked (`ev.sub` = 1). -/
def execDebugRevoke (s : State) : Out :=
  let c := s.ev.id
  let s1 := if s.ev.sub = 1 then s.modCtx c fun x => { x with dbgRight := false } else s
  .next (if s.debugged c then s1.debugEnd c else s1)

/-- DEBUG_STEP (R438): the halted group `ev.id` issues one chain at its issue address. -/
def execDebugStep (s : State) : Out :=
  .next (s.modGroup s.ev.id fun g => if g.dbgHalt && g.blocked.isNone && g.stepPc.isNone then { g with dbgStep := true } else g)

/-- The halted group that the host names by context, die, core and GSLOT. -/
def State.haltedAt (s : State) (ctx die core gslot : Nat) : Option Group :=
  s.groups.find? fun g => s.ctxOf g == ctx && g.die == die && g.core == core && g.gslot == gslot && g.dbgHalt && g.stepPc.isNone

/-- The session that a DEBUG frame describes (R436): words flags (bit 0 CAPTURE, bit 1 STOPALL), counts of breakpoints and watches, the breakpoints as
CODE and PC, the watches as identifier + 4,096 for ENTER. -/
def sessionOf (ctx : Nat) (ws : List Nat) : DebugSession :=
  let w := fun i => ws.getD i 0
  { ctx := ctx, capture := bits (w 0) 0 1 == 1, stopAll := bits (w 0) 1 1 == 1,
    bps := (pairUp ((ws.drop 3).take (2 * w 1))).map fun x => (x.1, BitVec.ofNat 32 x.2),
    watches := ((ws.drop (3 + 2 * w 1)).take (w 2)).map fun x => (x % 4096, decide (4096 ≤ x)) }

/-- DEBUG (R436 to R440, R446): words operation and context, and what the operation needs. 0 opens or sets the session of a context with the debug right;
1 releases a halted group (die, core, GSLOT), with its edited frame in `ev.bytes`; 2 answers with its frame; 3 sets the sampling period, 0 for none; 4 sets
whether the context's user records are emitted; 5 whether COPY_DONE records are; 6 clears the eligibility counters. -/
def execDebug (s : State) : Out :=
  hostFrame .debug s fun tag ws s =>
    let w := fun i => ws.getD i 0
    let c := w 1
    let done := fun (s : State) (st : Nat) => s.tell (.ack tag st)
    let named := s.haltedAt c (w 2) (w 3) (w 4)
    match s.ctx? c, w 0 with
    | none, _ => done s stRefused
    | some x, 0 =>
      if !x.dbgRight ∨ 8 < w 3 ∨ 4 < w 4 then done s stRefused
      else done (s.modObs fun o => { o with dbg := sessionOf c (ws.drop 2) :: o.dbg.filter fun d => !(d.ctx == c) }) stOk
    | some _, 1 => match named with
      | none => done s stRefused
      | some g => if !s.ev.bytes.isEmpty && frameBad s.ev.bytes then done s stRefused else done (s.debugRelease g s.ev.bytes) stOk
    | some _, 2 => match named with
      | none => done s stRefused
      | some g => done (s.tell (.data tag ((s.haltFrame g).map fun b => b.setWidth 64))) stOk
    | some _, 3 =>
      if w 2 = 0 then done (s.modObs fun o => { o with sampling := o.sampling.filter fun y => !(y.ctx == c) }) stOk
      else if w 2 < 1024 ∨ 2 ^ 24 < w 2 then done s stRefused
      else
        let y : Sampling := { ctx := c, period := w 2, since := dieList.map s.cycleOn, nextAt := [] }
        done (s.modObs fun o => { o with sampling := y :: o.sampling.filter fun y => !(y.ctx == c) }) stOk
    | some _, 4 =>
      let off := s.obs.userOff.filter fun y => !(y == c)
      done (s.modObs fun o => { o with userOff := if w 2 = 0 then c :: off else off }) stOk
    | some _, 5 => done (s.modObs fun o => { o with copyDone := w 2 == 1 }) stOk
    | some _, 6 => done (s.modObs fun o => { o with elig := [], eligFrom := dieList.map fun d => (d, s.cycleOn d) }) stOk
    | some _, _ => done s stRefused

end Sys2Proof.Machine
end

