-- ==== Sys2Proof/Machine/Fences.lean ====
section
/-!
DEFINITION. FENCE, FENCE.X, FENCE.P (R221, R225), REDF and REDF.ORD with its drain token (R254 to R256).
-/
namespace Sys2Proof.Machine

/-- The scope of a fence (R221): GROUP acts as CORE. -/
def fenceScope (sp : BitVec 3) : Nat := max 1 sp.toNat

/-- FENCE (R221, R222). -/
def execFence (sp : BitVec 3) (s : State) : Out :=
  issue (.fence sp) s fun c _ => s.addFence c.gid 0xFFFF#16 true false (fenceScope sp) (decide (2 ≤ sp.toNat))

/-- The stream mask of FENCE.X (R79, R221): bit 0 names the default stream, a mask of zero every stream. -/
def State.streamMask (s : State) (g : Group) (x : W64) : BitVec 16 :=
  let m : BitVec 16 := x.setWidth 16
  let d := (s.launchOf g).strdef
  let m' := if m.getLsbD 0 then (m &&& 0xFFFE#16) ||| (1#16 <<< d) else m
  if m = 0 then 0xFFFF#16 else m'

/-- FENCE.X (R221, R222). -/
def execFenceX (a : BitVec 6) (sp : BitVec 3) (s : State) : Out :=
  issue (.fenceX a sp) s fun c g => s.addFence c.gid (s.streamMask g (g.rs a.toNat)) false false (fenceScope sp) (decide (2 ≤ sp.toNat))

/-- E of a FENCE.P (R225): the group's accesses, its matrix items or its trace records. Transfers whose completion the group has
read have been performed. -/
def State.pathSet (s : State) (gid : Nat) (from_ : Nat) : Needs :=
  match from_ with
  | 0 => { Needs.none with accs := [(gid, s.mem.nextAid)] }
  | 2 => { Needs.none with mats := s.matsOf gid }
  | 4 => { Needs.none with recs := s.recsOf gid }
  | _ => Needs.none

/-- FENCE.P (R222, R225): E comes before the later accesses of the to path; COPY or COLL before GROUP invalidates L1. -/
def State.fencePath (s : State) (gid from_ to_ : Nat) : State :=
  let e := s.pathSet gid from_
  if to_ = 0 then
    let f : Fence := { accs := e.accs, at_ := s.mem.nextAid, mask := 0xFFFF#16, each := false, redOnly := false, scp := scopeAll,
                       inv := if from_ = 1 ∨ from_ = 3 then 0xFFFF#16 else 0, mats := e.mats, recs := e.recs }
    s.modGroup gid fun g => { g with fences := g.fences ++ [f] }
  else
    s.modGroup gid fun g =>
      let old := ((g.pathNeeds.find? fun n => n.1 == to_).map fun n => n.2).getD Needs.none
      { g with pathNeeds := (to_, old.join e) :: g.pathNeeds.filter fun n => !(n.1 == to_) }

def execFenceP (d a : BitVec 6) (sp : BitVec 3) (s : State) : Out :=
  issue (.fenceP d a sp) s fun c _ => s.fencePath c.gid d.toNat a.toNat

/-- The held entries of a group all applied, before its later accesses (R254). -/
def State.redf (s : State) (gid : Nat) : State :=
  (s.flushAll gid).addFence gid 0xFFFF#16 false true scopeAll false

/-- REDF (R254). -/
def execRedf (s : State) : Out := issue .redf s fun c _ => s.redf c.gid

/-- REDF.ORD (R255, R256): the group joins its next round of the tier and waits for the drain token. -/
def execRedfOrd (n : BitVec 3) (s : State) : Out :=
  issue (.redfOrd n) s fun c g =>
    if (s.launchOf g).tiers.length ≤ n.toNat ∨ g.idx = none then s.takeTrap c g fcIllegal 0 0
    else
      let r := assoc n.toNat 0 g.redRound + 1
      s.modGroup c.gid fun g => { g with redRound := assocSet n.toNat r g.redRound, blocked := some (.redfOrd n.toNat r) }

/-- The unit of tier `n` to which a group belongs: its band, where the tier lies within one, and the unit's index (R401). -/
def State.unitOf (s : State) (g : Group) (n : Nat) : Option (Nat × Nat) :=
  match s.groupQ g with
  | none => none
  | some q =>
    let l := s.launchOf g
    if n ≤ l.bandTier then some (g.band, q % l.bandGroups / l.unitGroups n) else some (0, q / l.unitGroups n)

/-- The groups of a group's tier-n unit that have not retired (R256). -/
def State.unitMembers (s : State) (g : Group) (n : Nat) : List Group :=
  let k := (s.band? g.band).map fun b => b.kid
  s.groups.filter fun x => (s.band? x.band).map (fun b => b.kid) == k && x.idx.isSome && s.unitOf x n == s.unitOf g n

/-- Whether every band of a group's tier-n unit has been placed. -/
def State.unitPlaced (s : State) (g : Group) (n : Nat) : Bool :=
  let l := s.launchOf g
  match s.kernelOf? g, s.groupQ g with
  | some k, some q => n ≤ l.bandTier || decide ((q / l.unitGroups n + 1) * l.unitGroups n ≤ k.placed * l.bandGroups)
  | _, _ => false

/-- Whether a group has completed round `r` of tier `n`. -/
def Group.roundDone (g : Group) (n r : Nat) : Bool := decide (r ≤ assoc n 0 g.redRound) && !(g.blocked == some (.redfOrd n r))

/-- REDF_ORD_TOKEN (R256, R320): the drain token of the round for which group `ev.id` waits reaches its core: every member of the
earlier cores has completed the round with its applications performed, and every member there has issued its REDF.ORD. The
members' entries are applied in ascending quadrant and slot and they go on. -/
def execRedfOrdToken (s : State) : Out :=
  match s.group? s.ev.id with
  | none => .next s
  | some g =>
    match g.blocked with
    | some (.redfOrd n r) =>
      let ms := s.unitMembers g n
      let site := fun (x : Group) => x.die * 97 + x.core
      let before := ms.filter fun x => decide (site x < site g)
      let here := sortBy (fun x => x.quad * 32 + x.slot) (ms.filter fun x => site x == site g)
      let ready := s.unitPlaced g n && ms.all (fun x => s.resident x && !x.saved) &&
        before.all (fun x => x.allExited || x.roundDone n r) &&
        !(s.mem.accs.any fun a => a.kind.isRed && before.any fun x => x.gid == a.gid) &&
        here.all fun x => x.allExited || x.blocked == some (.redfOrd n r)
      if ready then
        .next (here.foldl (fun s x =>
          if x.allExited then s else (s.redf x.gid).modGroup x.gid fun x => { x with blocked := none }) s)
      else .next s
    | _ => .next s

end Sys2Proof.Machine
end

