-- ==== Sys2Proof/Machine/Sfu.lean ====
section
/-!
DEFINITION. The special functions (R100, R101, R160, R161): an enclosure of the exact value, and the delivered result as a free
choice among the FP32 values within the bound. Reals are held as integers in units of 2^-256.
-/
namespace Sys2Proof.Machine

/-! ## Fixed-point arithmetic -/

/-- One in units of 2^-256. -/
def fxOne : Int := 2 ^ 256

/-- ln 2, pi and 2 / sqrt pi in units of 2^-256, rounded down. -/
def fxLn2 : Int := 80260960185991308862233904206310070533990667611589946606122867505419956976171
def fxPi : Int := 363771576891766324280234942777729862653393377328392429958772151117938894466185
def fxErfC : Int := 130657381209852114387528029350014196574164286124850014242073919076264802271585

def fxMul (a b : Int) : Int := a * b / fxOne

/-- The sum of `n` terms, each got from the one before by `f`. -/
def fxSeries (f : Nat → Int → Int) : Nat → Nat → Int → Int → Int
  | 0, _, _, acc => acc
  | n + 1, k, t, acc => fxSeries f n (k + 1) (f k t) (acc + t)

/-- 2^x for x in [0, 1]. -/
def fxExp2 (x : Int) : Int :=
  let y := fxMul x fxLn2
  fxSeries (fun k t => fxMul t y / ((k : Int) + 1)) 70 0 fxOne 0

/-- The natural logarithm of m, 1 ≤ m ≤ 2, by the series in z = (m - 1) / (m + 1). -/
def fxLog (m : Int) : Int :=
  let z := (m - fxOne) * fxOne / (m + fxOne)
  let z2 := fxMul z z
  let rec go : Nat → Nat → Int → Int → Int
    | 0, _, _, acc => acc
    | n + 1, k, t, acc => go n (k + 1) (fxMul t z2) (acc + t / (2 * (k : Int) + 1))
  2 * go 90 0 z 0

/-- The sine of x, 0 ≤ x ≤ pi / 2. -/
def fxSin (x : Int) : Int :=
  let x2 := fxMul x x
  fxSeries (fun k t => -(fxMul t x2) / (((2 * k + 2) * (2 * k + 3) : Nat) : Int)) 45 0 x 0

/-- The error function of x, 0 ≤ x ≤ 6. -/
def fxErf (x : Int) : Int :=
  let x2 := fxMul x x
  let rec go : Nat → Nat → Int → Int → Int
    | 0, _, _, acc => acc
    | n + 1, k, t, acc => go n (k + 1) (-(fxMul t x2) / ((k : Int) + 1)) (acc + t / (2 * (k : Int) + 1))
  fxMul fxErfC (go 260 0 x 0)

/-- A finite FP32 value in units of 2^-256, which holds each exactly. -/
def fxOf (s : Bool) (m : Nat) (e : Int) : Int := unitsAt s m e (-256)

/-! ## The free choice within a bound -/

/-- A pattern's place among all FP32 values in ascending order, -0 just below +0. -/
def ordOf (x : Nat) : Int := if 2 ^ 31 ≤ x then -((x - 2 ^ 31 : Nat) : Int) - 1 else x

def ofOrd (i : Int) : Nat := if i < 0 then 2 ^ 31 + (-i - 1).toNat else i.toNat

/-- The pattern of a fixed-point value in units of 2^q rounded by a mode, kept finite. -/
def fxRound (m : RMode) (x q : Int) : Nat :=
  if x = 0 then (if m == .rdn then 0 else 2 ^ 31)
  else
    let r := (fp32.round m 0 (decide (x < 0)) x.natAbs 1 q).1
    if r = 0x7F800000 then 0x7F7FFFFF else if r = 0xFF800000 then 0xFF7FFFFF else r

/-- The delivered result: a free choice among the FP32 values in `[lo, hi]`, in units of 2^q (R100). -/
def sfuChoose (op : Nat) (a : W32) (lo hi q : Int) : Nat :=
  let i := ordOf (fxRound .rup lo q)
  let j := ordOf (fxRound .rdn hi q)
  if j < i then fxRound .rne hi q else ofOrd (i + (Config.sfuPick op a % ((j - i).toNat + 1) : Nat))

/-- The spacing of FP32 values at a magnitude `x` in units of 2^q, as an exponent (R100). -/
def ulpExp (x : Nat) (q : Int) : Int := max ((x.log2 : Int) + q - 23) (-149)

/-- A result within `k` ulp of the exact value (R100), whose magnitude lies between `lo` and `hi` in units of 2^q. Each caller's `lo` and `hi` are so
near one another that no FP32 value's distance from the exact value is in doubt. -/
def sfuUlps (op : Nat) (a : W32) (k : Nat) (s : Bool) (lo hi q : Int) : Nat :=
  let u : Int := (k : Int) * 2 ^ (ulpExp hi.natAbs q - q).toNat
  if s then sfuChoose op a (-hi - u) (-lo + u) q else sfuChoose op a (lo - u) (hi + u) q

/-- The flags of a delivered inexact result (R98, R160). -/
def deliveredFlags (r : Nat) : BitVec 5 := flagIf (decide (r % 2 ^ 31 < 0x800000)) flagUF ||| flagNX

/-- A delivered inexact result with its flags. -/
def delivered (r : Nat) : Nat × BitVec 5 := (r, deliveredFlags r)

/-! ## The functions -/

/-- FRCP (R100, R160): within 1 ulp, powers of two exact. -/
def frcp32 (a : W32) : Nat × BitVec 5 :=
  match fp32.decode a.toNat with
  | .nan g => (fp32.canon, flagIf g flagNV)
  | .inf s => (fp32.signed s 0, 0)
  | .fin s m e =>
    if m = 0 then (fp32.signed s fp32.infCode, flagDZ)
    else if m = 2 ^ m.log2 then fp32.round .rne 0 s 1 m (-e)
    else
      -- 1 / (m 2^e) in units of 2^(-e - 100)
      let x : Int := 2 ^ 100 / (m : Int)
      let q := -e - 100
      let past := fp32.round .rtz 0 false x.toNat 1 q
      if past.2 &&& flagOF != 0 then (fp32.signed s fp32.infCode, flagOF ||| flagNX)
      else
        delivered (fp32.signed s (sfuUlps 0 a 1 false x (x + 1) q % 2 ^ 31))

/-- FRSQ (R100, R160): within 2 ulp; exact where the delivered square times the operand is 1. -/
def frsq32 (a : W32) : Nat × BitVec 5 :=
  match fp32.decode a.toNat with
  | .nan g => (fp32.canon, flagIf g flagNV)
  | .inf s => if s then (fp32.canon, flagNV) else (0, 0)
  | .fin s m e =>
    if m = 0 then (fp32.signed s fp32.infCode, flagDZ)
    else if s then (fp32.canon, flagNV)
    else
      -- 1 / (m 2^e) = n 2^(2 q): the root of n in units of 2^q
      let odd := e % 2 != 0
      let k : Int := if odd then (-e - 201) / 2 else (-e - 200) / 2
      let n := 2 ^ (if odd then 201 else 200) / m
      let x := isqrt n 102 0
      let r := sfuUlps 1 a 2 false x (x + 2) k
      match fp32.decode r with
      | .fin _ y j =>
        let t := scaled (y * y * m) 1 (2 * j + e)
        if t.1 = t.2 then (r, 0) else delivered r
      | _ => delivered r

/-- FEXP2 (R100, R160): within 2 ulp, integer operands with representable results exact. -/
def fexp2 (a : W32) : Nat × BitVec 5 :=
  match fp32.decode a.toNat with
  | .nan g => (fp32.canon, flagIf g flagNV)
  | .inf s => (if s then 0 else fp32.infCode, 0)
  | .fin s m e =>
    if m = 0 then (0x3F800000, 0)
    else
      let x := fxOf s m e
      if 128 * fxOne ≤ x then (fp32.infCode, flagOF ||| flagNX)
      else if x ≤ -300 * fxOne then delivered (sfuUlps 3 a 2 false 1 1 (-400))
      else
        let n := x / fxOne
        let f := x % fxOne
        if f = 0 ∧ -149 ≤ n then fp32.round .rne 0 false 1 1 n
        else
          let y := fxExp2 f
          delivered (sfuUlps 3 a 2 false (y - 2 ^ 30) (y + 2 ^ 30) (n - 256))

/-- FLOG2 (R100, R160): within 2 ulp, powers of two exact. -/
def flog2 (a : W32) : Nat × BitVec 5 :=
  match fp32.decode a.toNat with
  | .nan g => (fp32.canon, flagIf g flagNV)
  | .inf s => if s then (fp32.canon, flagNV) else (fp32.infCode, 0)
  | .fin s m e =>
    if m = 0 then (0xFF800000, flagDZ)
    else if s then (fp32.canon, flagNV)
    else
      let l : Int := (m.log2 : Int) + e
      if m = 2 ^ m.log2 then fp32.ofFV .rne 0 (.fin (decide (l < 0)) l.natAbs 0)
      else
        let y := fxLog (fxOf false m (-(m.log2 : Int)))
        let v := l * fxOne + y * fxOne / fxLn2
        let w : Int := v.natAbs
        delivered (sfuUlps 4 a 2 (decide (v < 0)) (w - 2 ^ 30) (w + 2 ^ 30) (-256))

/-- The sine of T turns, 0 ≤ T < 1, at no multiple of 1/8. -/
def fxSinTurns (t : Int) : Int :=
  let neg := decide (fxOne ≤ 2 * t)
  let t1 := if neg then t - fxOne / 2 else t
  let t2 := if fxOne < 4 * t1 then fxOne / 2 - t1 else t1
  let r := fxSin (fxMul (2 * fxPi) t2)
  if neg then -r else r

/-- The exact or correctly rounded sine at k eighths of a turn (R101). -/
def sinEighth : Nat → Nat × BitVec 5
  | 0 => (0, 0) | 1 => (0x3F3504F3, flagNX) | 2 => (0x3F800000, 0) | 3 => (0x3F3504F3, flagNX) | 4 => (0, 0)
  | 5 => (0xBF3504F3, flagNX) | 6 => (0xBF800000, 0) | _ => (0xBF3504F3, flagNX)

/-- The sine (`op` 5) or cosine (`op` 6) of an operand in turns (R100, R101): within 2^-22 of the exact value, which lies between -1 and 1. -/
def turnFn (op : Nat) (a : W32) : Nat × BitVec 5 :=
  match fp32.decode a.toNat with
  | .nan g => (fp32.canon, flagIf g flagNV)
  | .inf _ => (fp32.canon, flagNV)
  | .fin s m e =>
    if op = 5 ∧ m = 0 then (fp32.signed s 0, 0)
    else
      let t := (fxOf s m e + (if op = 6 then fxOne / 4 else 0)) % fxOne
      if t % (fxOne / 8) = 0 then sinEighth (t / (fxOne / 8)).toNat
      else
        let x := fxSinTurns t
        let b := fxOne / 2 ^ 22
        let r := sfuChoose op a (max (x - 2 ^ 30) (1 - fxOne) - b) (min (x + 2 ^ 30) (fxOne - 1) + b) (-256)
        (r, if op = 5 then deliveredFlags r else flagNX)

/-- An enclosure of the hyperbolic tangent of m 2^e > 0, as (lo, hi, q) in units of 2^q. Below 2^-40 the value lies between x (1 - x^2 / 3) and x,
from 32 on between 1 - 2^-90 and 1. -/
def tanhIn (m : Nat) (e : Int) : Int × Int × Int :=
  let x := fxOf false m e
  if x < fxOne / 2 ^ 40 then
    let y : Int := m * 2 ^ 256
    (y - y / 2 ^ 80, y - 1, e - 256)
  else if 32 * fxOne ≤ x then (fxOne - 2 ^ 166, fxOne - 1, -256)
  else
    -- e^(-2 x) = 2^-(n + 1) 2^(1 - f)
    let z := 2 * x * fxOne / fxLn2
    let w := fxExp2 (fxOne - z % fxOne) / 2 ^ (z / fxOne + 1).toNat
    let y := (fxOne - w) * fxOne / (fxOne + w)
    (y - 2 ^ 30, y + 2 ^ 30, -256)

/-- An enclosure of the error function of m 2^e > 0. Below 2^-40 the value lies between c x (1 - x^2 / 3) and c x, c being 2 / sqrt pi, from 6 on
between 1 - 2^-55 and 1. -/
def erfIn (m : Nat) (e : Int) : Int × Int × Int :=
  let x := fxOf false m e
  if x < fxOne / 2 ^ 40 then
    let y := fxErfC * m
    (y - y / 2 ^ 80, y + m, e - 256)
  else if 6 * fxOne ≤ x then (fxOne - 2 ^ 201, fxOne - 1, -256)
  else (fxErf x - 2 ^ 80, fxErf x + 2 ^ 80, -256)

/-- FTANH (R100, R160): within 2 ulp. -/
def ftanh32 (a : W32) : Nat × BitVec 5 :=
  match fp32.decode a.toNat with
  | .nan g => (fp32.canon, flagIf g flagNV)
  | .inf s => (fp32.signed s 0x3F800000, 0)
  | .fin s m e =>
    if m = 0 then (a.toNat, 0)
    else
      let t := tanhIn m e
      delivered (sfuUlps 7 a 2 s t.1 t.2.1 t.2.2)

/-- FERF (R100, R161): within 3 ulp. -/
def ferf32 (a : W32) : Nat × BitVec 5 :=
  match fp32.decode a.toNat with
  | .nan g => (fp32.canon, flagIf g flagNV)
  | .inf s => (fp32.signed s 0x3F800000, 0)
  | .fin s m e =>
    if m = 0 then (a.toNat, 0)
    else
      let t := erfIn m e
      delivered (sfuUlps 8 a 3 s t.1 t.2.1 t.2.2)

end Sys2Proof.Machine
end

