-- ==== Sys2Proof/Machine/Float.lean ====
section
/-!
DEFINITION. Floating-point, conversion and special-function instructions (R146 to R163).
-/
namespace Sys2Proof.Machine

/-! ## Forms -/

/-- A form that writes V[D] of each lane with a pattern and raises flags, from V[A], V[B] and V[D] (R146). -/
def formF (i : Instr) (lat : Nat) (d a b : BitVec 6) (f : Nat → Nat → Nat → Nat × BitVec 5) (s : State) : Out :=
  formFlags i lat (fun _ g l =>
    let r := f ((g.lane l).rv a.toNat).toNat ((g.lane l).rv b.toNat).toNat ((g.lane l).rv d.toNat).toNat
    ([.v l d.toNat (BitVec.ofNat 32 r.1)], r.2)) s

/-- A form of one operand. -/
def formF1 (i : Instr) (lat : Nat) (d a : BitVec 6) (f : W32 → Nat × BitVec 5) (s : State) : Out :=
  formFlags i lat (fun _ g l =>
    let r := f ((g.lane l).rv a.toNat)
    ([.v l d.toNat (BitVec.ofNat 32 r.1)], r.2)) s

/-! ## FARITH (R149) -/

def execFadd (d a b : BitVec 6) (s : State) : Out := formF (.fadd d a b) 5 d a b (fun x y _ => fp32.add x y) s
def execFsub (d a b : BitVec 6) (s : State) : Out := formF (.fsub d a b) 5 d a b (fun x y _ => fp32.sub x y) s
def execFmul (d a b : BitVec 6) (s : State) : Out := formF (.fmul d a b) 5 d a b (fun x y _ => fp32.mul x y) s
def execFmin (d a b : BitVec 6) (s : State) : Out :=
  formF (.fmin d a b) 5 d a b (fun x y _ => fp32.minMax true false x y) s
def execFmax (d a b : BitVec 6) (s : State) : Out :=
  formF (.fmax d a b) 5 d a b (fun x y _ => fp32.minMax true true x y) s
def execFminm (d a b : BitVec 6) (s : State) : Out :=
  formF (.fminm d a b) 5 d a b (fun x y _ => fp32.minMax false false x y) s
def execFmaxm (d a b : BitVec 6) (s : State) : Out :=
  formF (.fmaxm d a b) 5 d a b (fun x y _ => fp32.minMax false true x y) s
def execFabsd (d a b : BitVec 6) (s : State) : Out := formF (.fabsd d a b) 5 d a b (fun x y _ => fp32.absd x y) s

/-! ## FFMA (R150, R151) -/

def execFfma (d a b : BitVec 6) (s : State) : Out := formF (.ffma d a b) 5 d a b (fun x y z => fp32.fma false false x y z) s
def execFfms (d a b : BitVec 6) (s : State) : Out := formF (.ffms d a b) 5 d a b (fun x y z => fp32.fma false true x y z) s
def execFnfma (d a b : BitVec 6) (s : State) : Out := formF (.fnfma d a b) 5 d a b (fun x y z => fp32.fma true true x y z) s
def execFnfms (d a b : BitVec 6) (s : State) : Out := formF (.fnfms d a b) 5 d a b (fun x y z => fp32.fma true false x y z) s

/-- The two halves of packed operands treated alone (R151). -/
def halves (f : Nat → Nat → Nat → Nat × BitVec 5) (x y z : Nat) : Nat × BitVec 5 :=
  let lo := f (x % 65536) (y % 65536) (z % 65536)
  let hi := f (x / 65536) (y / 65536) (z / 65536)
  (hi.1 * 65536 + lo.1, hi.2 ||| lo.2)

def execPkfma (d a b : BitVec 6) (s : State) : Out :=
  formF (.pkfma d a b) 5 d a b (halves fun x y z => bf16.fma false false x y z) s
def execPkadd (d a b : BitVec 6) (s : State) : Out :=
  formF (.pkadd d a b) 5 d a b (halves fun x y _ => bf16.add x y) s
def execPkmul (d a b : BitVec 6) (s : State) : Out :=
  formF (.pkmul d a b) 5 d a b (halves fun x y _ => bf16.mul x y) s
def execPkfmaF16 (d a b : BitVec 6) (s : State) : Out :=
  formF (.pkfmaF16 d a b) 5 d a b (halves fun x y z => fp16.fma false false x y z) s

/-! ## FCMP (R152) -/

def execFcmp (d a b : BitVec 6) (k : BitVec 3) (s : State) : Out :=
  formFlags (.fcmp d a b k) 5 (fun _ g l =>
    let r := fcmpHolds k.toNat ((g.lane l).rv a.toNat).toNat ((g.lane l).rv b.toNat).toNat
    ([.p l d.toNat r.1], r.2)) s

/-! ## Conversions (R153 to R157) -/

/-- FCVT (R153, R154): `sp` holds the source format and `t` the destination; SR draws u in each lane at the issue (R96), and
the replay entry keeps that of the lowest lane. -/
def execFcvt (d a : BitVec 6) (sp t m : BitVec 3) (s : State) : Out :=
  issue (.fcvt d a sp t m) s fun c g =>
    let u := fun l => srDraw (s.cycleOf g) g.gslot l
    let f := fun l => fcvt sp.toNat t.toNat (RMode.ofCode m.toNat) (u l) ((g.lane l).rv a.toNat)
    s.postFlags c g 5 (lanesDo c.mask fun l => [.v l d.toNat (BitVec.ofNat 32 (f l).1)])
      ((lanesOf c.mask).map fun l => (l, (f l).2)) (if m = 7 then BitVec.ofNat 32 (u (lowLane c.mask)) else 0)

def execFrnd (d a : BitVec 6) (m : BitVec 3) (s : State) : Out :=
  formF1 (.frnd d a m) 5 d a (fun x => frnd32 (RMode.ofCode m.toNat) x.toNat) s
def execFcvti (d a : BitVec 6) (t m : BitVec 3) (s : State) : Out :=
  formF1 (.fcvti d a t m) 5 d a (fun x =>
    let r := fcvti32 t.toNat (RMode.ofCode m.toNat) x.toNat
    (r.1.toNat, r.2)) s
def execIcvtf (d a : BitVec 6) (t m : BitVec 3) (s : State) : Out :=
  formF1 (.icvtf d a t m) 5 d a (fun x => icvtf32 t.toNat (RMode.ofCode m.toNat) x) s

/-! ## FMISC (R158, R159) -/

/-- A sign put on an operand; a NaN gives the canonical NaN (R158). -/
def signOn (a : Nat) (s : Bool) : Nat := if (fp32.decode a).isNan then fp32.canon else fp32.signed s (a % 2 ^ 31)

def execFscaleb (d a b : BitVec 6) (s : State) : Out :=
  formF (.fscaleb d a b) 5 d a b (fun x y _ => fscaleb32 x (BitVec.ofNat 32 y).toInt) s
def execFrexpe (d a : BitVec 6) (s : State) : Out := formF1 (.frexpe d a) 5 d a (fun x => ((frexpe32 x.toNat).toNat, 0)) s
def execFrexpm (d a : BitVec 6) (s : State) : Out := formF1 (.frexpm d a) 5 d a (fun x => (frexpm32 x.toNat, 0)) s
def execFclass (d a : BitVec 6) (s : State) : Out := formF1 (.fclass d a) 5 d a (fun x => (2 ^ fclassBit x.toNat, 0)) s
def execFsgnj (d a b : BitVec 6) (s : State) : Out :=
  formF (.fsgnj d a b) 5 d a b (fun x y _ => (signOn x (bits y 31 1 == 1), 0)) s
def execFsgnjn (d a b : BitVec 6) (s : State) : Out :=
  formF (.fsgnjn d a b) 5 d a b (fun x y _ => (signOn x (bits y 31 1 == 0), 0)) s
def execFabs (d a : BitVec 6) (s : State) : Out := formF1 (.fabs d a) 5 d a (fun x => (signOn x.toNat false, 0)) s
def execFneg (d a : BitVec 6) (s : State) : Out :=
  formF1 (.fneg d a) 5 d a (fun x => (signOn x.toNat (bits x.toNat 31 1 == 0), 0)) s

/-! ## SFU and FDIVX (R160, R161) -/

def execFrcp (d a : BitVec 6) (s : State) : Out := formF1 (.frcp d a) 12 d a frcp32 s
def execFrsq (d a : BitVec 6) (s : State) : Out := formF1 (.frsq d a) 12 d a frsq32 s
def execFsqrt (d a : BitVec 6) (s : State) : Out := formF1 (.fsqrt d a) 12 d a (fun x => fsqrt32 x.toNat) s
def execFexp2 (d a : BitVec 6) (s : State) : Out := formF1 (.fexp2 d a) 12 d a fexp2 s
def execFlog2 (d a : BitVec 6) (s : State) : Out := formF1 (.flog2 d a) 12 d a flog2 s
def execFsint (d a : BitVec 6) (s : State) : Out := formF1 (.fsint d a) 12 d a (turnFn 5) s
def execFcost (d a : BitVec 6) (s : State) : Out := formF1 (.fcost d a) 12 d a (turnFn 6) s
def execFtanh (d a : BitVec 6) (s : State) : Out := formF1 (.ftanh d a) 12 d a ftanh32 s
def execFdiv (d a b : BitVec 6) (s : State) : Out := formF (.fdiv d a b) 24 d a b (fun x y _ => fdiv32 x y) s
def execFerf (d a : BitVec 6) (s : State) : Out := formF1 (.ferf d a) 24 d a ferf32 s

/-- FSINCOS.T (R101, R161): the sine to V[D], the cosine to V[D + 1], the flags of both. -/
def execFsincosT (d a : BitVec 6) (s : State) : Out :=
  formFlags (.fsincosT d a) 24 (fun _ g l =>
    let x := (g.lane l).rv a.toNat
    let r := turnFn 5 x
    let q := turnFn 6 x
    ([.v l d.toNat (BitVec.ofNat 32 r.1), .v l (d.toNat + 1) (BitVec.ofNat 32 q.1)], r.2 ||| q.2)) s

end Sys2Proof.Machine
end

