-- ==== Sys2Proof/Machine/Integer.lean ====
section
/-!
DEFINITION. Integer, bit and address instructions (R122 to R145).
-/
namespace Sys2Proof.Machine

/-! ## Values -/

/-- Signed minimum and maximum (R125). -/
def sMin (a b : W32) : W32 := if BitVec.sle a b then a else b
def sMax (a b : W32) : W32 := if BitVec.sle a b then b else a
/-- Unsigned minimum and maximum (R125). -/
def uMin (a b : W32) : W32 := if BitVec.ule a b then a else b
def uMax (a b : W32) : W32 := if BitVec.ule a b then b else a
/-- The absolute difference of signed values (R125). -/
def absDiff (a b : W32) : W32 := BitVec.ofNat 32 (a.toInt - b.toInt).natAbs

/-- The high words of products (R127). -/
def mulHighS (a b : W32) : W32 := BitVec.ofInt 32 (a.toInt * b.toInt / 2 ^ 32)
def mulHighU (a b : W32) : W32 := BitVec.ofNat 32 (a.toNat * b.toNat / 2 ^ 32)

/-- Quotients and remainders (R99, R127). -/
def divS (a b : W32) : W32 := if b = 0 then 0xFFFFFFFF#32 else BitVec.ofInt 32 (Int.tdiv a.toInt b.toInt)
def divU (a b : W32) : W32 := if b = 0 then 0xFFFFFFFF#32 else BitVec.ofNat 32 (a.toNat / b.toNat)
def remS (a b : W32) : W32 := if b = 0 then a else BitVec.ofInt 32 (Int.tmod a.toInt b.toInt)
def remU (a b : W32) : W32 := if b = 0 then a else BitVec.ofNat 32 (a.toNat % b.toNat)

/-- Shifts by the low byte of the amount (R130). -/
def shAmt (b : W32) : Nat := b.toNat % 256
def shL (a : W32) (n : Nat) : W32 := a <<< n
def shR (a : W32) (n : Nat) : W32 := a >>> n
def shA (a : W32) (n : Nat) : W32 := a.sshiftRight n
def rotL (a : W32) (n : Nat) : W32 := a.rotateLeft (n % 32)
def rotR (a : W32) (n : Nat) : W32 := a.rotateRight (n % 32)
def funnelL (d a : W32) (n : Nat) : W32 :=
  BitVec.ofNat 32 ((d.toNat * 2 ^ 32 + a.toNat) * 2 ^ (min n 32) % 2 ^ 64 / 2 ^ 32)
def funnelR (d a : W32) (n : Nat) : W32 := BitVec.ofNat 32 ((d.toNat * 2 ^ 32 + a.toNat) / 2 ^ (min n 32))

/-- The 32 bits of a word from a function of the bit number. -/
def bitsFn (f : Nat → Bool) : W32 := maskOf f

/-- Bit counts and reversal (R132). -/
def lz (a : W32) : W32 := BitVec.ofNat 32 (((List.range 32).find? fun k => a.getLsbD (31 - k)).getD 32)
def tz (a : W32) : W32 := BitVec.ofNat 32 (((List.range 32).find? fun k => a.getLsbD k).getD 32)
def popCount (a : W32) : W32 := BitVec.ofNat 32 ((List.range 32).countP fun k => a.getLsbD k)
def bitRev (a : W32) : W32 := bitsFn fun k => a.getLsbD (31 - k)

/-- Bits spread apart and gathered with spacing `sp` (R133). -/
def bitSpread (a : W32) (sp : Nat) : W32 := bitsFn fun j => j % (sp + 1) == 0 && a.getLsbD (j / (sp + 1))
def bitGather (a : W32) (sp : Nat) : W32 := bitsFn fun k => decide (k ≤ 31 / (sp + 1)) && a.getLsbD (k * (sp + 1))

/-- One source byte of BYTEP (R134). -/
def bytepByte (a d b : W32) (i : Nat) : Nat :=
  let c := b.toNat / 2 ^ (4 * i) % 16
  let x := (a.toNat + d.toNat * 2 ^ 32) / 2 ^ (8 * (c % 8)) % 256
  if 8 ≤ c then (if 128 ≤ x then 255 else 0) else x

/-- BYTEP (R134). -/
def bytePerm (a b d : W32) : W32 :=
  BitVec.ofNat 32 (bytepByte a d b 0 + bytepByte a d b 1 * 2 ^ 8 + bytepByte a d b 2 * 2 ^ 16 + bytepByte a d b 3 * 2 ^ 24)

/-- Position and width of a bit field (R135). -/
def fieldPos (b : W32) : Nat := b.toNat % 32
def fieldWidth (b : W32) : Nat := min (min (b.toNat / 256 % 64) 32) (32 - fieldPos b)

/-- BFE, BFEU and BFI (R135). -/
def bfExtS (a b : W32) : W32 :=
  if fieldWidth b = 0 then 0 else BitVec.ofInt 32 (sx (a.toNat / 2 ^ fieldPos b) (fieldWidth b))
def bfExtU (a b : W32) : W32 := BitVec.ofNat 32 (a.toNat / 2 ^ fieldPos b % 2 ^ fieldWidth b)
def bfIns (a b d : W32) : W32 :=
  bitsFn fun k => if fieldPos b ≤ k ∧ k < fieldPos b + fieldWidth b then a.getLsbD (k - fieldPos b) else d.getLsbD k

/-! ## IALU (R125, R126) -/

def execIadd (d a b : BitVec 6) (s : State) : Out := formVVV (.iadd d a b) 4 d a b (fun x y _ => x + y) s
def execIsub (d a b : BitVec 6) (s : State) : Out := formVVV (.isub d a b) 4 d a b (fun x y _ => x - y) s
def execImin (d a b : BitVec 6) (s : State) : Out := formVVV (.imin d a b) 4 d a b (fun x y _ => sMin x y) s
def execImax (d a b : BitVec 6) (s : State) : Out := formVVV (.imax d a b) 4 d a b (fun x y _ => sMax x y) s
def execIminu (d a b : BitVec 6) (s : State) : Out := formVVV (.iminu d a b) 4 d a b (fun x y _ => uMin x y) s
def execImaxu (d a b : BitVec 6) (s : State) : Out := formVVV (.imaxu d a b) 4 d a b (fun x y _ => uMax x y) s
def execIabsd (d a b : BitVec 6) (s : State) : Out := formVVV (.iabsd d a b) 4 d a b (fun x y _ => absDiff x y) s

/-- IADDC (R126): V[D] and P6 in one cycle. -/
def execIaddc (d a b : BitVec 6) (s : State) : Out :=
  issue (.iaddc d a b) s fun c g => s.postFixed c g 4 <| lanesDo c.mask fun l =>
    let t := addCarry ((g.lane l).rv a.toNat) ((g.lane l).rv b.toNat) ((g.lane l).rp 6)
    [.v l d.toNat (t.setWidth 32), .p l 6 (t.getLsbD 32)]

/-! ## IMUL (R127, R128) -/

def execImul (d a b : BitVec 6) (s : State) : Out := formVVV (.imul d a b) 5 d a b (fun x y _ => x * y) s
def execImulh (d a b : BitVec 6) (s : State) : Out := formVVV (.imulh d a b) 5 d a b (fun x y _ => mulHighS x y) s
def execImulhu (d a b : BitVec 6) (s : State) : Out := formVVV (.imulhu d a b) 5 d a b (fun x y _ => mulHighU x y) s
def execImad (d a b : BitVec 6) (s : State) : Out := formVVV (.imad d a b) 5 d a b (fun x y z => x * y + z) s

/-- A divide-family instruction accepted by the quadrant's divider (R69, R128); DIVIDE_COMPLETE writes its result. -/
def formDivide (i : Instr) (d a b : BitVec 6) (f : W32 → W32 → W32) (s : State) : Out :=
  issue i s fun c g => s.addOut c.gid <| c.outst g s .divide 1 false (lanesDo c.mask fun l =>
    [.v l d.toNat (f ((g.lane l).rv a.toNat) ((g.lane l).rv b.toNat))]) [] 0

def execIdiv (d a b : BitVec 6) (s : State) : Out := formDivide (.idiv d a b) d a b divS s
def execIdivu (d a b : BitVec 6) (s : State) : Out := formDivide (.idivu d a b) d a b divU s
def execIrem (d a b : BitVec 6) (s : State) : Out := formDivide (.irem d a b) d a b remS s
def execIremu (d a b : BitVec 6) (s : State) : Out := formDivide (.iremu d a b) d a b remU s

/-- The divides that a quadrant's divider holds, as (result, group), oldest first (R128); those of a group that traps or is saved are held in its
replay queue. DESIGN CHOICE (log 158): a helper entry, which stands in quadrant 0, uses that quadrant's divider, in one order with its groups. -/
def State.divides (s : State) (die core quad : Nat) : List (Nat × Nat) :=
  let gs := s.groups.filter fun g => g.die == die && g.core == core && g.quad == quad && !g.frozen
  sortBy Prod.fst (gs.flatMap fun g => (g.outs.filter fun o => o.kind == .divide).map fun o => (o.oid, g.gid))

/-- DIVIDE_COMPLETE (R128): the divider of quadrant `ev.quad` completes the oldest instruction that it has accepted; `ev.words` names the lanes
that get the result now (R164). -/
def execDivideComplete (s : State) : Out :=
  match s.divides s.ev.die s.ev.core s.ev.quad with
  | [] => .next s
  | (oid, gid) :: _ =>
    .next (s.modGroup gid fun g => match g.out? oid with
      | some o => g.landPart o s.evLanes
      | none => g)

/-! ## LOGIC (R129) -/

def execAndd (d a b : BitVec 6) (s : State) : Out := formVVV (.andd d a b) 4 d a b (fun x y _ => x &&& y) s
def execOrr (d a b : BitVec 6) (s : State) : Out := formVVV (.orr d a b) 4 d a b (fun x y _ => x ||| y) s
def execXor (d a b : BitVec 6) (s : State) : Out := formVVV (.xor d a b) 4 d a b (fun x y _ => x ^^^ y) s
def execAndn (d a b : BitVec 6) (s : State) : Out := formVVV (.andn d a b) 4 d a b (fun x y _ => x &&& ~~~y) s
def execOrn (d a b : BitVec 6) (s : State) : Out := formVVV (.orn d a b) 4 d a b (fun x y _ => x ||| ~~~y) s
def execXnor (d a b : BitVec 6) (s : State) : Out := formVVV (.xnor d a b) 4 d a b (fun x y _ => ~~~(x ^^^ y)) s
def execNotb (d a : BitVec 6) (s : State) : Out := formVV (.notb d a) 4 d a (fun x => ~~~x) s

/-! ## SHIFT and SHI (R130, R131) -/

def execShl (d a b : BitVec 6) (s : State) : Out := formVVV (.shl d a b) 4 d a b (fun x y _ => shL x (shAmt y)) s
def execShr (d a b : BitVec 6) (s : State) : Out := formVVV (.shr d a b) 4 d a b (fun x y _ => shR x (shAmt y)) s
def execSar (d a b : BitVec 6) (s : State) : Out := formVVV (.sar d a b) 4 d a b (fun x y _ => shA x (shAmt y)) s
def execRol (d a b : BitVec 6) (s : State) : Out := formVVV (.rol d a b) 4 d a b (fun x y _ => rotL x (shAmt y)) s
def execRor (d a b : BitVec 6) (s : State) : Out := formVVV (.ror d a b) 4 d a b (fun x y _ => rotR x (shAmt y)) s
def execFshl (d a b : BitVec 6) (s : State) : Out := formVVV (.fshl d a b) 4 d a b (fun x y z => funnelL z x (shAmt y)) s
def execFshr (d a b : BitVec 6) (s : State) : Out := formVVV (.fshr d a b) 4 d a b (fun x y z => funnelR z x (shAmt y)) s
def execShli (d a : BitVec 6) (n : BitVec 5) (s : State) : Out := formVV (.shli d a n) 4 d a (fun x => shL x n.toNat) s
def execShri (d a : BitVec 6) (n : BitVec 5) (s : State) : Out := formVV (.shri d a n) 4 d a (fun x => shR x n.toNat) s
def execSari (d a : BitVec 6) (n : BitVec 5) (s : State) : Out := formVV (.sari d a n) 4 d a (fun x => shA x n.toNat) s
def execRoli (d a : BitVec 6) (n : BitVec 5) (s : State) : Out := formVV (.roli d a n) 4 d a (fun x => rotL x n.toNat) s

/-! ## BITS and BFLD (R132 to R135) -/

def execClz (d a : BitVec 6) (s : State) : Out := formVV (.clz d a) 4 d a lz s
def execCtz (d a : BitVec 6) (s : State) : Out := formVV (.ctz d a) 4 d a tz s
def execPopc (d a : BitVec 6) (s : State) : Out := formVV (.popc d a) 4 d a popCount s
def execBrev (d a : BitVec 6) (s : State) : Out := formVV (.brev d a) 4 d a bitRev s
def execBitil (d a sp : BitVec 6) (s : State) : Out := formVV (.bitil d a sp) 4 d a (fun x => bitSpread x sp.toNat) s
def execBitdl (d a sp : BitVec 6) (s : State) : Out := formVV (.bitdl d a sp) 4 d a (fun x => bitGather x sp.toNat) s
def execBytep (d a b : BitVec 6) (s : State) : Out := formVVV (.bytep d a b) 4 d a b bytePerm s
def execBfe (d a b : BitVec 6) (s : State) : Out := formVVV (.bfe d a b) 4 d a b (fun x y _ => bfExtS x y) s
def execBfeu (d a b : BitVec 6) (s : State) : Out := formVVV (.bfeu d a b) 4 d a b (fun x y _ => bfExtU x y) s
def execBfi (d a b : BitVec 6) (s : State) : Out := formVVV (.bfi d a b) 4 d a b bfIns s

/-! ## Comparisons (R136) -/

def execIcmp (d a b : BitVec 6) (k : BitVec 3) (s : State) : Out :=
  formP (.icmp d a b k) 4 d.toNat (fun _ g l => condHolds k ((g.lane l).rv a.toNat) ((g.lane l).rv b.toNat)) s

def execIcmpi (k p : BitVec 3) (a : BitVec 6) (i : BitVec 9) (s : State) : Out :=
  formP (.icmpi k p a i) 4 p.toNat (fun _ g l => condHolds k ((g.lane l).rv a.toNat) (immS i)) s

/-! ## Immediates, addresses and constants (R137 to R140) -/

def execIaddi (d a : BitVec 6) (i : BitVec 9) (s : State) : Out := formVV (.iaddi d a i) 4 d a (fun x => x + immS i) s
def execIandi (d a : BitVec 6) (i : BitVec 9) (s : State) : Out := formVV (.iandi d a i) 4 d a (fun x => x &&& immZ i) s
def execIori (d a : BitVec 6) (i : BitVec 9) (s : State) : Out := formVV (.iori d a i) 4 d a (fun x => x ||| immZ i) s
def execIxori (d a : BitVec 6) (i : BitVec 9) (s : State) : Out := formVV (.ixori d a i) 4 d a (fun x => x ^^^ immZ i) s
def execLea (d a b : BitVec 6) (f : BitVec 3) (s : State) : Out :=
  formVVV (.lea d a b f) 4 d a b (fun x y _ => x + (y <<< f.toNat)) s
def execMovi (d : BitVec 6) (i : BitVec 15) (s : State) : Out := formV (.movi d i) 4 d (fun _ _ _ => immS i) s
def execMovl (d : BitVec 6) (lit : BitVec 32) (s : State) : Out := formV (.movl d lit) 4 d (fun _ _ _ => lit) s
def execMovlSx (d : BitVec 6) (lit : BitVec 32) (s : State) : Out := formS (.movlSx d lit) 4 d (fun _ _ => lit.signExtend 64) s
def execMovlZx (d : BitVec 6) (lit : BitVec 32) (s : State) : Out := formS (.movlZx d lit) 4 d (fun _ _ => lit.setWidth 64) s
def execMovlHi (d : BitVec 6) (lit : BitVec 32) (s : State) : Out :=
  formS (.movlHi d lit) 4 d (fun _ g => lit ++ (g.rs d.toNat).setWidth 32) s

/-! ## Scalar instructions (R141 to R144) -/

/-- A scalar form of two S operands (R141). -/
def formSSS (i : Instr) (d a b : BitVec 6) (f : W64 → W64 → W64) (s : State) : Out :=
  formS i 4 d (fun _ g => f (g.rs a.toNat) (g.rs b.toNat)) s

def execSadd (d a b : BitVec 6) (s : State) : Out := formSSS (.sadd d a b) d a b (fun x y => x + y) s
def execSsub (d a b : BitVec 6) (s : State) : Out := formSSS (.ssub d a b) d a b (fun x y => x - y) s
def execSand (d a b : BitVec 6) (s : State) : Out := formSSS (.sand d a b) d a b (fun x y => x &&& y) s
def execSor (d a b : BitVec 6) (s : State) : Out := formSSS (.sor d a b) d a b (fun x y => x ||| y) s
def execSxor (d a b : BitVec 6) (s : State) : Out := formSSS (.sxor d a b) d a b (fun x y => x ^^^ y) s
def execSshl (d a b : BitVec 6) (s : State) : Out := formSSS (.sshl d a b) d a b (fun x y => x <<< (y.toNat % 256)) s
def execSshr (d a b : BitVec 6) (s : State) : Out := formSSS (.sshr d a b) d a b (fun x y => x >>> (y.toNat % 256)) s
def execSmul (d a b : BitVec 6) (s : State) : Out := formSSS (.smul d a b) d a b (fun x y => x * y) s
def execSaddi (d a : BitVec 6) (i : BitVec 9) (s : State) : Out :=
  formS (.saddi d a i) 4 d (fun _ g => g.rs a.toNat + i.signExtend 64) s

/-- SCMP (R143): one comparison, written to P[D] of every lane of the mask. -/
def execScmp (d a b : BitVec 6) (k : BitVec 3) (s : State) : Out :=
  formP (.scmp d a b k) 4 d.toNat (fun _ g _ => condHolds k (g.rs a.toNat) (g.rs b.toNat)) s

end Sys2Proof.Machine
end

