-- ==== Sys2Proof/Machine/Lanes.lean ====
section
/-!
DEFINITION. Lane exchange, votes, reductions and moves (R164 to R168).
-/
namespace Sys2Proof.Machine

/-! ## SHFL (R165) -/

/-- The value that a lane gets from the source lane that it names, or its own (R164). -/
def Group.shflValue (g : Group) (mask : BitVec 32) (a l : Nat) (src : Int) : W32 :=
  if 0 ≤ src ∧ src < 32 ∧ mask.getLsbD src.toNat then (g.lane src.toNat).rv a else (g.lane l).rv a

/-- A SHFL mode with its source-lane function of the lane and its selector (R165). -/
def formShfl (i : Instr) (d a b : BitVec 6) (src : Nat → Nat → Int) (s : State) : Out :=
  formV i 6 d (fun c g l => g.shflValue c.mask a.toNat l (src l ((g.lane l).rv b.toNat).toNat)) s

def execShflIdx (d a b : BitVec 6) (s : State) : Out :=
  formShfl (.shflIdx d a b) d a b (fun _ x => ((x % 32 : Nat) : Int)) s
def execShflUp (d a b : BitVec 6) (s : State) : Out :=
  formShfl (.shflUp d a b) d a b (fun l x => (l : Int) - ((x % 64 : Nat) : Int)) s
def execShflDown (d a b : BitVec 6) (s : State) : Out :=
  formShfl (.shflDown d a b) d a b (fun l x => (l : Int) + ((x % 64 : Nat) : Int)) s
def execShflXor (d a b : BitVec 6) (s : State) : Out :=
  formShfl (.shflXor d a b) d a b (fun l x => ((Nat.xor l (x % 32) : Nat) : Int)) s

/-! ## LANE (R166, R167) -/

/-- The lanes of the mask in which a condition holds. -/
def ballot (mask : BitVec 32) (f : Nat → Bool) : W32 := maskOf fun m => mask.getLsbD m && f m

def execVoteAll (d a : BitVec 6) (s : State) : Out :=
  formP (.voteAll d a) 6 d.toNat (fun c g _ => (lanesOf c.mask).all fun m => (g.lane m).rp a.toNat) s
def execVoteAny (d a : BitVec 6) (s : State) : Out :=
  formP (.voteAny d a) 6 d.toNat (fun c g _ => (lanesOf c.mask).any fun m => (g.lane m).rp a.toNat) s
def execVoteBal (d a : BitVec 6) (s : State) : Out :=
  formV (.voteBal d a) 6 d (fun c g _ => ballot c.mask fun m => (g.lane m).rp a.toNat) s
def execMatchLanes (d a : BitVec 6) (s : State) : Out :=
  formV (.matchLanes d a) 6 d
    (fun c g l => ballot c.mask fun m => (g.lane m).rv a.toNat == (g.lane l).rv a.toNat) s

/-- A reduction over the values of a list of lanes (R167). -/
def laneFold (f : W32 → W32 → W32) : List W32 → W32
  | [] => 0
  | x :: xs => xs.foldl f x

/-- Signed least and greatest of two words (R167). -/
def lesser (x y : W32) : W32 := if BitVec.sle x y then x else y
def greater (x y : W32) : W32 := if BitVec.sle x y then y else x

/-- The values of V[a] in the lanes of the mask that satisfy a condition, in ascending order. -/
def Group.valuesOf (g : Group) (mask : BitVec 32) (a : Nat) (f : Nat → Bool) : List W32 :=
  ((lanesOf mask).filter f).map fun m => (g.lane m).rv a

def execLredAdd (d a : BitVec 6) (s : State) : Out :=
  formV (.lredAdd d a) 6 d (fun c g _ => laneFold (· + ·) (g.valuesOf c.mask a.toNat fun _ => true)) s
def execLredMin (d a : BitVec 6) (s : State) : Out :=
  formV (.lredMin d a) 6 d (fun c g _ => laneFold lesser (g.valuesOf c.mask a.toNat fun _ => true)) s
def execLredMax (d a : BitVec 6) (s : State) : Out :=
  formV (.lredMax d a) 6 d (fun c g _ => laneFold greater (g.valuesOf c.mask a.toNat fun _ => true)) s
def execLscanAdd (d a : BitVec 6) (s : State) : Out :=
  formV (.lscanAdd d a) 6 d (fun c g l => laneFold (· + ·) (g.valuesOf c.mask a.toNat fun m => decide (m ≤ l))) s

/-! ## MOV (R168) -/

def execMov (d a : BitVec 6) (s : State) : Out := formVV (.mov d a) 4 d a (fun x => x) s
def execMovs (d a : BitVec 6) (h : BitVec 1) (s : State) : Out :=
  formV (.movs d a h) 4 d
    (fun _ g _ => if h = 1 then ((g.rs a.toNat) >>> 32).setWidth 32 else (g.rs a.toNat).setWidth 32) s
def execSmov (d a : BitVec 6) (s : State) : Out :=
  formS (.smov d a) 4 d (fun c g => ((g.lane (lowLane c.mask)).rv a.toNat).setWidth 64) s
def execSmovs (d a : BitVec 6) (s : State) : Out := formS (.smovs d a) 4 d (fun _ g => g.rs a.toNat) s

/-- SEL (R168): a lane whose predicate does not hold keeps V[D]. -/
def execSel (d a : BitVec 6) (n : BitVec 1) (k : BitVec 3) (s : State) : Out :=
  issue (.sel d a n k) s fun c g => s.postFixed c g 4 <| lanesDo c.mask fun l =>
    if (g.lane l).rp k.toNat != (n == 1) then [.v l d.toNat ((g.lane l).rv a.toNat)] else []

def execPmovPFromV (d a : BitVec 6) (s : State) : Out :=
  formP (.pmovPFromV d a) 4 d.toNat (fun _ g l => (g.lane l).rv a.toNat != 0) s
def execPmovVFromP (d a : BitVec 6) (s : State) : Out :=
  formV (.pmovVFromP d a) 4 d (fun _ g l => if (g.lane l).rp a.toNat then 1 else 0) s

end Sys2Proof.Machine
end

