-- ==== Sys2Proof/Machine/Service.lean ====
section
/-!
DEFINITION. Power and clocks (R459, R460), deep retention (R461), live service of cores, layers and firmware (R352, R462), attestation (R458), device
reset and power-on (R201, R392, R394, R459).
-/
namespace Sys2Proof.Machine

/-! ## Power and clocks -/

/-- POWER (R396, R460): word watts. -/
def execPower (s : State) : Out :=
  hostCommand .power s fun ws s =>
    let n := ws.getD 0 0
    if n < 1000 ∨ 2800 < n then (s, stRefused)
    else if s.out.locked then (s, stBusy)
    else (s.modOut fun o => { o with powerLimit := n }, stOk)

def ClockState.ofCode : Nat → Option ClockState
  | 0 => some .c0 | 1 => some .c1 | 2 => some .c2 | 3 => some .c3 | _ => none

def State.modDie (s : State) (die : Nat) (f : DiePair → DiePair) : State :=
  s.modOut fun o => { o with dies := mapIf (fun d => d.die == die) f o.dies }

/-- CLOCK (R459): words die and state; BUSY in locked-clock mode, and while an earlier change is under way. -/
def execClock (s : State) : Out :=
  hostCommand .clock s fun ws s =>
    match s.out.dies.find? (fun d => d.die == ws.getD 0 0), ClockState.ofCode (ws.getD 1 4) with
    | some d, some c =>
      if s.out.locked || d.change.isSome then (s, stBusy) else (s.modDie d.die fun d => { d with change := some (c, s.out.elapsed) }, stOk)
    | _, _ => (s, stRefused)

/-- CLOCK_CHANGE_COMPLETE (R459): the change commanded for die `ev.die` takes effect, and its groups resume. -/
def execClockChangeComplete (s : State) : Out :=
  .next (s.modDie s.ev.die fun d => match d.change with
    | some (c, _) => { d with clock := c, change := none, left := c.period, now := s.out.time }
    | none => d)

/-- A protective trip (R26, R460): every clock stops, and an alarm EVENT is raised. -/
def State.trip (s : State) (kind n : Nat) : State :=
  (s.modOut fun o => { o with tripped := true }).tell (.event 0x106 [BitVec.ofNat 64 kind, BitVec.ofNat 64 n])

/-- POWER_MEASURE (R460): the measurement due every 100 µs gives `ev.words[0]` watts, which an EVENT reports; 1 ms over the limit trips the module. -/
def execPowerMeasure (s : State) : Out :=
  if s.out.tripped ∨ s.out.elapsed < s.out.measuredAt + usToUnits 100 then .next s
  else
    let n := (s.ev.words.getD 0 0).toNat
    let since := if n ≤ s.out.powerLimit then none else some (s.out.overSince.getD s.out.elapsed)
    let s1 := (s.modOut fun o => { o with measured := n, measuredAt := o.elapsed, overSince := since }).tell (.event 0x107 [BitVec.ofNat 64 n])
    .next (if since.any fun t => decide (t + usToUnits 1000 ≤ s.out.elapsed) then s1.trip 0 n else s1)

/-- TEMPERATURE_TRIP (R460): die `ev.die` exceeds its temperature limit. -/
def execTemperatureTrip (s : State) : Out := .next (if s.out.tripped then s else s.trip 1 s.ev.die)

/-! ## Pages of a layer (R343, R351) -/

/-- A leaf of a context's tables: its own address, the page's address, the frame it maps and the page's size. -/
structure MapLeaf where
  ctx : Nat
  pa : Nat
  va : Nat
  frame : Nat
  size : Nat
deriving DecidableEq, Repr

/-- The leaf tables below a table, through the given number of pointer levels (R344), each with the index of its first page, which starts from that
of the table above. -/
def State.leafTables (s : State) (ctx : Nat) : Nat → Nat → Nat → List (Nat × Nat)
  | 0, i, t => [(512 * i, t)]
  | j + 1, i, t => (List.range 512).flatMap fun k =>
    let x := s.readPaN ctx (t + 8 * k) 8
    if x % 2 = 0 then [] else s.leafTables ctx j (512 * i + k) (bits x 12 29 * 4096)

/-- The present leaves of a context (R341 to R343). -/
def State.leavesOf (s : State) (c : Context) : List MapLeaf :=
  let rb := c.rafbase.toNat
  if bits rb 6 1 = 0 then []
  else (List.range (bits rb 0 6 + 1)).flatMap fun i =>
    let e := s.readPaN c.ctx (rb / 4096 * 4096 + 64 * i) 64
    let lvl := bits e 272 3
    if bits e 279 1 = 0 ∨ 4 ≤ bits e 275 3 ∨ lvl = 0 ∨ 5 < lvl then []
    else
      let size := 2 ^ pageShift (bits e 275 3)
      (s.leafTables c.ctx (lvl - 1) 0 (bits e 128 64)).flatMap fun t => (List.range 512).filterMap fun k =>
        let x := s.readPaN c.ctx (t.2 + 8 * k) 8
        if x % 2 = 0 then none
        else some { ctx := c.ctx, pa := t.2 + 8 * k, va := bits e 0 64 + (t.1 + k) * size, frame := bits x 12 29 * 4096, size := size }

def State.allLeaves (s : State) : List MapLeaf := s.ctxs.flatMap s.leavesOf

/-- A hint record (R349). -/
structure Hint where
  stay : Bool
  die : Nat
  place : Nat
  ahead : Nat
  len : Nat
  vbase : Nat
deriving DecidableEq, Repr

/-- What governs a page that no record covers (R349). -/
def Hint.none : Hint := { stay := false, die := 0, place := 0, ahead := 0, len := 0, vbase := 0 }

/-- A hint record's 256 bits; one with a nonzero reserved bit is ignored (R349). -/
def Hint.ofBits (x : Nat) : Option Hint :=
  if bits x 152 104 ≠ 0 ∨ bits x 128 10 ≠ 0 then Option.none
  else some { stay := bits x 151 1 == 1, die := bits x 148 3, place := bits x 146 2, ahead := bits x 138 8, len := bits x 64 64, vbase := bits x 0 64 }

/-- The hint that governs a page of a context (R349): the first record of its region, in index order, that covers it. -/
def State.hintOf (s : State) (ctx va : Nat) : Hint :=
  match s.ctx? ctx with
  | none => Hint.none
  | some c => match s.region? c va with
    | none => Hint.none
    | some e =>
      let at_ := fun (k : Nat) => match Hint.ofBits (s.readPaN ctx (e.hints + 32 * k) 32) with
        | some h => if h.vbase ≤ va ∧ va < h.vbase + h.len then some h else none
        | none => none
      ((List.range (min e.nhint 4096)).findSome? at_).getD Hint.none

/-- Whether a frame is where a hint places its page (R349): anywhere, in HBM4E, in the LPDDR-6 tier, or in HBM4E of the hint's die, every 4 KiB of
it. -/
def Hint.allows (h : Hint) (f size : Nat) : Bool :=
  match h.place with
  | 0 => true
  | 1 => decide (f < 2 ^ 40)
  | 2 => decide (2 ^ 40 ≤ f)
  | _ => decide (f < 2 ^ 40) && (List.range (size / 4096)).all fun i => homeDie (f + 4096 * i) == h.die

/-- Whether a page lies, in whole or in part, on a layer of a stack (R191). -/
def pageOn (stack layer frame size : Nat) : Bool :=
  decide (frame < 2 ^ 40) && frame / 2 ^ 36 % 16 == layer && (decide (4096 < size) || (layerOf frame).1 == stack)

/-- The context whose heap triple touches a layer, if one does (R352). -/
def State.heapOn (s : State) (layer : Nat) : Option Context :=
  s.ctxs.find? fun c =>
    let lo := (c.heapBase + c.heapOff) % 2 ^ 64
    decide (c.heapBase < c.heapLim) && decide (lo < (layer + 1) * 2 ^ 36) && decide (layer * 2 ^ 36 < lo + (c.heapLim - c.heapBase))

/-- Whether a frame can take a page of some leaves: aligned, granted, free of other pages and heaps, off the layer, and in the LPDDR-6 tier where it must
be. -/
def State.frameOk (s : State) (ls : List MapLeaf) (p : MapLeaf) (stack layer : Nat) (tier : Bool) (f : Nat) : Bool :=
  let users := (ls.filter fun l => l.frame == p.frame).map fun l => l.ctx
  f % p.size == 0 && (!tier || decide (2 ^ 40 ≤ f)) && !(s.inUndercroft f p.size) && !(pageOn stack layer f p.size) &&
  users.all (fun c => (s.ctx? c).any fun x => x.granted f p.size) &&
  ls.all (fun l => decide (l.frame + l.size ≤ f) || decide (f + p.size ≤ l.frame)) &&
  s.ctxs.all fun c =>
    let lo := (c.heapBase + c.heapOff) % 2 ^ 64
    decide (c.heapLim ≤ c.heapBase) || decide (f + p.size ≤ lo) || decide (lo + (c.heapLim - c.heapBase) ≤ f)

/-- Whether a page of a layer that is emptied may go to a frame: it can take the page, and lies where the page's hint places it, unless the
allotment has no such frame left (R349, R352). Retirement moves the pages whose hint says STAY as well. -/
def State.moveTo (s : State) (ls : List MapLeaf) (p : MapLeaf) (stack layer : Nat) (tier : Bool) (f : Nat) : Bool :=
  let h := s.hintOf p.ctx p.va
  let better := fun (e : Nat × Nat) => (List.range (e.2 / p.size)).any fun i =>
    let x := (e.1 + p.size - 1) / p.size * p.size + i * p.size
    h.allows x p.size && s.frameOk ls p stack layer tier x
  s.frameOk ls p stack layer tier f && (tier || h.allows f p.size || !((s.ctx? p.ctx).any fun c => c.allot.any better))

/-- A page moved (R351): its lines are written back and invalidated, every leaf that maps it names the new frame, its bytes and keys are copied, its TLB entries
go, and what was on its way to it finds it in its new place. -/
def State.movePage (s : State) (ls : List MapLeaf) (p : MapLeaf) (f : Nat) : State :=
  let inn := fun (pa : Nat) => decide (p.frame ≤ pa) && decide (pa < p.frame + p.size)
  let dst := fun (pa : Nat) => if inn pa then f + (pa - p.frame) else pa
  let place := fun (x : Place) => match x with
    | .mem pa => Place.mem (dst pa)
    | y => y
  let held := s.mem.stashLines.filter fun l => inn (l.pline * 128)
  let s1 := s.modMem fun m =>
    let m1 := held.foldl (fun m l => m.writeBack l) m
    { m1 with stashLines := m1.stashLines.filter (fun l => !(inn (l.pline * 128))), lines := m1.lines.filter (fun l => !(inn (l.line * 128))),
              tlb := m1.tlb.filter fun e => !(inn e.frame) }
  let name := fun (s : State) (l : MapLeaf) =>
    let x := s.readPaN l.ctx l.pa 8
    s.writePas l.ctx ((List.range 8).map fun i => l.pa + i) (leBytes 8 (x / 2 ^ 41 * 2 ^ 41 + f + x % 4096))
  let s2 := (ls.filter fun l => l.frame == p.frame).foldl name s1
  let new := fun (pa : Nat) => decide (f ≤ pa) && decide (pa < f + p.size)
  let copied := (s2.mem.bytes.filter fun c => inn c.1).foldl (fun m c => cellPut m (dst c.1) c.2)
    (s2.mem.bytes.filter fun c => !(inn c.1) && !(new c.1))
  let keys := s2.mem.sectorKey.filterMap fun k =>
    if new (k.1 * 32) then none else if inn (k.1 * 32) then some (dst (k.1 * 32) / 32, k.2) else some k
  let red := fun (e : RedEntry) => { e with places := e.places.map place }
  let block := fun (b : Block) => match b with
    | .semWord pa t n => Block.semWord (dst pa) t n
    | y => y
  { s2 with
    mem := { s2.mem with bytes := copied, sectorKey := keys, accs := s2.mem.accs.map fun a => { a with places := a.places.map fun ps => ps.map place } },
    groups := s2.groups.map fun g => { g with reds := g.reds.map red, blocked := g.blocked.map block } }

/-- The pages of a layer moved to frames taken one after another: the state and whether none is left (R352, R461). -/
def State.movePages (stack layer : Nat) (tier : Bool) : List Nat → State → State × Bool
  | [], s => (s, !(s.allLeaves.any fun l => pageOn stack layer l.frame l.size))
  | f :: fs, s =>
    let ls := s.allLeaves
    match ls.find? fun l => pageOn stack layer l.frame l.size with
    | none => (s, true)
    | some p => if s.moveTo ls p stack layer tier f then State.movePages stack layer tier fs (s.movePage ls p f) else (s, false)

/-- A layer powered off (R201, R461): its contents and the lines cached from it are gone. -/
def State.layerOff (s : State) (x : Nat × Nat) : State :=
  let on := fun (pa : Nat) => decide (pa < 2 ^ 40) && layerOf pa == x
  s.modMem fun m =>
    { m with bytes := m.bytes.filter (fun c => !(on c.1)), sectorKey := m.sectorKey.filter (fun k => !(on (k.1 * 32))),
             lines := m.lines.filter (fun l => !(on (l.line * 128))), stashLines := m.stashLines.filter fun l => !(on (l.pline * 128)) }

/-- The command that empties a layer (R352, R461): words stack, layer, and the frames that firmware takes. `off` records the layer. -/
def layerCommand (i : Instr) (s : State) (tier : Bool) (kind : Nat) (off : Nat × Nat → OutState → OutState) : Out :=
  hostFrame i s fun tag ws s =>
    let x := (ws.getD 0 0, ws.getD 1 0)
    if 16 ≤ x.1 ∨ 16 ≤ x.2 ∨ s.out.layersGone.contains x ∨ (tier ∧ s.out.layersOff.contains x) then s.tell (.ack tag stRefused)
    else match s.heapOn x.2 with
      | some c => (s.tell (.data tag [BitVec.ofNat 64 c.ctx])).tell (.ack tag stBusy)
      | none =>
        let (s1, all) := State.movePages x.1 x.2 tier (ws.drop 2) s
        if all then
          (((s1.layerOff x).modOut (off x)).tell (.event kind [BitVec.ofNat 64 x.1, BitVec.ofNat 64 x.2])).tell (.ack tag stOk)
        else s1.tell (.ack tag stFull)

/-- RETAIN (R461): the layer's pages move to the LPDDR-6 tier, it is powered off, and the hot-remove of 4 GiB is reported. -/
def execRetain (s : State) : Out := layerCommand .retain s true 0x108 fun x o => { o with layersOff := x :: o.layersOff }

/-- RETAIN with the restore flag (R461): words stack and layer; the layer is powered on and the hot-add reported. -/
def execRetainRestore (s : State) : Out :=
  hostCommand .retainRestore s fun ws s =>
    let x := (ws.getD 0 0, ws.getD 1 0)
    if !(s.out.layersOff.contains x) then (s, stRefused)
    else ((s.modOut fun o => { o with layersOff := o.layersOff.filter fun y => !(y == x) }).tell
      (.event 0x109 [BitVec.ofNat 64 x.1, BitVec.ofNat 64 x.2]), stOk)

/-- RETIRE of an HBM layer (R29, R352, R462): as RETAIN, its pages moved wherever the allotments allow, with no restore. -/
def execRetireLayer (s : State) : Out :=
  layerCommand .retireLayer s false 0x104 fun x o =>
    { o with layersOff := o.layersOff.filter (fun y => !(y == x)), layersGone := x :: o.layersGone }

/-! ## Cores and firmware (R458, R462) -/

/-- One round of the bands of a retired core leaving it (R462): saves that can end do so, the next band's save begins with a garret and an area, and saved
bands whose context is not suspended are restored elsewhere. -/
def State.retireRound (s : State) (die core garret area : Nat) : State :=
  let here := fun (s : State) (st : BandState) => s.bands.filter fun b => b.die == die && b.core == core && b.st == st
  let mine := s.tab.saves.filter fun x => x.gid == 0 && (s.band? x.bid).any fun b => b.die == die && b.core == core
  let s1 := mine.foldl (fun s x => s.finishSave x) s
  let s2 := match here s1 .resident with
    | [] => s1
    | b :: _ => s1.saveNext b garret area
  ((here s2 .saved).filter fun b => !((s2.ctx? b.ctx).any fun c => c.held)).foldl State.resumeOne s2

/-- RETIRE of a core (R29, R462): words die, core, and the garret and area of the first save. The rounds go on by RETIRE with `ev.sub` 1, which names
`ev.die` and `ev.core`, with a garret and an area. -/
def execRetireCore (s : State) : Out :=
  if s.ev.sub = 1 then
    let w := fun i => (s.ev.words.getD i 0).toNat
    .next (if s.out.retired.contains (s.ev.die, s.ev.core) then s.retireRound s.ev.die s.ev.core (w 0) (w 1) else s)
  else hostCommand .retireCore s fun ws s =>
    let w := fun i => ws.getD i 0
    if 8 ≤ w 0 ∨ 96 ≤ w 1 ∨ s.out.retired.contains (w 0, w 1) then (s, stRefused)
    else
      let s1 := (s.modOut fun o => { o with retired := o.retired ++ [(w 0, w 1)] }).tell (.event 0x104 [BitVec.ofNat 64 (w 0), BitVec.ofNat 64 (w 1)])
      (s1.retireRound (w 0) (w 1) (w 2) (w 3), stOk)

/-- The launch record under which a die's firmware runs: one group of 32 lanes with 64 registers, and all the stash of its core (R13). -/
def firmwareLaunch (entry : Nat) : Launch :=
  { Launch.empty with tiers := [{ count := 32, domain := 0, scope := 0 }, { count := 1, domain := 1, scope := 1 }],
                      bars := [0, 16, 0, 0, 0, 0, 0, 0], clen := 1, entry := entry, regs := 64, stash := 507904, nq := 16 }

/-- What runs on the firmware core of a die ended. -/
def State.endFirmware (s : State) (die : Nat) : State :=
  let gids := (s.groups.filter fun g => g.die == die && g.core == 96).map fun g => g.gid
  let s1 := gids.foldl State.dropGroup s
  { s1 with
    bands := s1.bands.filter (fun b => !(b.die == die && b.core == 96)),
    kernels := s1.kernels.filter (fun k => !(k.parent == .boot && k.die == die)),
    codes := s1.codes.filter (fun c => !(c.die == die && c.ctx == 255 && c.addr == 0)),
    mats := s1.mats.filter (fun u => !(u.die == die && u.core == 96)) }

/-- Firmware loaded onto core 96 of a die (R13, R462): one group is formed there, which starts at the image's entry. DESIGN CHOICE (log 112): the spec
leaves open with how many groups firmware starts; a die without an image forms none. -/
def State.bootDie (s : State) (die : Nat) : State :=
  match s.out.dies.find? fun d => d.die == die with
  | none => s
  | some d =>
    let s1 := s.endFirmware die
    if d.firmware.words.isEmpty then s1
    else
      let c : CodeObj := { die := die, ctx := 255, addr := 0, words := d.firmware.words, handlers := [], matrix := true }
      let r := { s1 with codes := s1.codes ++ [c] }.newKernel 255 die 4096 7 .boot (firmwareLaunch d.firmware.entry) false [] none
      r.1.placeAll r.2 [(0, die, 96)]

/-- Every die's firmware loaded (R13). -/
def State.boot (s : State) : State := dieList.foldl State.bootDie s

/-- UPDATE (R458, R462): words die and image; the die keeps the image that it runs where the check of the new one fails. -/
def execUpdate (s : State) : Out :=
  hostCommand .update s fun ws s =>
    match s.out.dies.find? fun d => d.die == ws.getD 0 8 with
    | none => (s, stRefused)
    | some d =>
      if d.update.isSome then (s, stBusy)
      else match checkImage (ws.drop 1) with
        | none => (s, stRefused)
        | some x => (s.modDie d.die fun d => { d with update := some (x, s.out.elapsed) }, stOk)

/-- FIRMWARE_UPDATE_COMPLETE (R462): the firmware core of die `ev.die` runs the new image, and what waited for it goes on. -/
def execFirmwareUpdateComplete (s : State) : Out :=
  match (s.out.dies.find? fun d => d.die == s.ev.die).bind fun d => d.update with
  | none => .next s
  | some x => .next ((s.modDie s.ev.die fun d => { d with firmware := x.1, update := none }).bootDie s.ev.die)

/-- ATTEST (R458): the host's nonce of 32 bytes; the report covers it, each die's firmware, the partitions, each context's debug right and debug-edited
flag, the clock mode and the retired parts, and is signed under the identity key. -/
def execAttest (s : State) : Out :=
  hostFrame .attest s fun tag ws s =>
    let n := fun (x : Nat) => BitVec.ofNat 64 x
    let flag := fun (b : Bool) => n (if b then 1 else 0)
    let part := fun (p : Partition) =>
      [n p.part, n p.routing, n p.share] ++ p.cores.map (fun c => n (c.1 * 128 + c.2)) ++ p.engines.map n ++ p.units.map n
    let report := (ws.take 4).map n ++ s.out.dies.flatMap (fun d => (List.range 8).map fun i => n (d.firmware.digest.toNat / 2 ^ (64 * (7 - i)))) ++ s.parts.flatMap part ++
      s.ctxs.flatMap (fun c => [n c.ctx, flag c.dbgRight, flag (s.dbgFlag c.ctx)]) ++ [flag s.out.locked] ++
      s.out.retired.map (fun c => n (c.1 * 128 + c.2)) ++ s.out.layersGone.map (fun x => n (x.1 * 16 + x.2))
    let (proof, s1) := s.freeWords 64
    (s1.tell (.data tag (report ++ proof))).tell (.ack tag stOk)

/-! ## Reset and power-on -/

/-- The key slots that a reset keeps (R201, R356). -/
def State.keptKeys (s : State) : List KeySlot := s.tab.keys.filter fun k => k.st == KeyState.persistent

/-- The keys of sectors after a reset (R201): those written under no key belong to a generation that is gone. -/
def State.lostSectors (s : State) : List (Nat × Nat) :=
  let known := s.mem.sectorKey.map fun k => k.1
  s.mem.sectorKey ++ (((s.mem.bytes.map fun c => c.1 / 32).eraseDups.filter fun x => !(known.contains x)).map fun x => (x, s.tab.keyGen + 1))

/-- The state after a device reset (R201, R202, R392, R419, R425, R459, R460): memory, TIME, the Undercroft with W and the shares, the signet counters,
persistent keys, firmware images and retired parts are kept. -/
def State.afterReset (s : State) : State :=
  let r := State.reset
  { r with
    mem := { r.mem with bytes := s.mem.bytes, sectorKey := s.lostSectors },
    obs := { r.obs with gateways := s.obs.gateways.map fun g => { Gateway.reset g.die with share := g.share, w := g.w },
                        undercroft := s.obs.undercroft, seqs := s.obs.seqs },
    tab := { r.tab with keys := s.keptKeys, keyGen := s.tab.keyGen + 1 },
    out := { r.out with time := s.out.time, sent := s.out.sent, dies := s.out.dies.map (fun d => { DiePair.reset d.die with firmware := d.firmware }),
                        retired := s.out.retired, layersOff := s.out.layersOff, layersGone := s.out.layersGone, lanesGone := s.out.lanesGone },
    agenda := s.agenda, nextId := s.nextId, free := s.free }

/-- DEVICE_RESET (R13, R201, R423, R459, R460): each die's first record afterwards is RESET with W, and its firmware is loaded. -/
def execDeviceReset (s : State) : Out :=
  .next (s.obs.gateways.foldl (fun s g => s.emitUnit g.die 6 0 0 256 0 0x3E g.w) s.afterReset).boot

/-- POWER_ON (R13, R29, R392, R419, R459): the state at power-on, in which each die's firmware is loaded; retired parts stay retired. DESIGN CHOICE (log
112): the images are kept while the module is off. -/
def execPowerOn (s : State) : Out :=
  let r := State.reset
  let out := { r.out with sent := s.out.sent, retired := s.out.retired, layersGone := s.out.layersGone, lanesGone := s.out.lanesGone,
                          dies := s.out.dies.map fun d => { DiePair.reset d.die with firmware := d.firmware } }
  .next { r with out := out, agenda := s.agenda, nextId := s.nextId, free := s.free }.boot

end Sys2Proof.Machine
end

