-- ==== Sys2Proof/Machine/Links.lean ====
section
/-!
DEFINITION. Clasp links (R455, R456, R463), scale-out connections (R457) and the time unit (R393, R394).
-/
namespace Sys2Proof.Machine

/-! ## Clasp -/

def State.link? (s : State) (lid : Nat) : Option Link := s.out.links.find? fun l => l.lid == lid

def State.modLink (s : State) (lid : Nat) (f : Link → Link) : State :=
  s.modOut fun o => { o with links := mapIf (fun l => l.lid == lid) f o.links }

/-- Whether flit `seq` comes before the first unacknowledged flit `ack`, their numbers counted modulo 4,096 (R455). -/
def acked (ack seq : Nat) : Bool := decide (seq ≠ ack) && decide ((ack + 4096 - seq) % 4096 ≤ 2048)

/-- Flits that wait sent as far as the retry buffer of 512 has room (R455); `fuel` bounds their number. -/
def Link.send : Nat → Link → Link
  | 0, l => l
  | fuel + 1, l =>
    match l.waiting with
    | [] => l
    | w :: ws =>
      if !l.up || l.training || decide (512 ≤ l.retry.length) then l
      else
        let x := (l.sendSeq, w)
        Link.send fuel { l with waiting := ws, retry := l.retry ++ [x], wire := l.wire ++ [x], sendSeq := (l.sendSeq + 1) % 4096 }

/-- The retry buffer sent again in sequence order (R455, R463), and what has room after it. -/
def Link.resend (l : Link) : Link := { l with wire := l.wire ++ l.retry }.send l.waiting.length

/-- CLASP_FLIT (R455): a flit reaches link `ev.id`: words sequence number, 1 for a good CRC, the peer's cumulative acknowledgement, and the data. One with a
bad CRC, one delivered before and one ahead of sequence are discarded; the next in sequence is delivered. -/
def execClaspFlit (s : State) : Out :=
  .next (s.modLink s.ev.id fun l =>
    let w := fun i => (s.ev.words.getD i 0).toNat
    if !l.up || w 1 != 1 then l
    else
      let l1 := { l with retry := l.retry.filter fun x => !(acked (w 2 % 4096) x.1) }
      let l2 := if w 0 % 4096 = l1.recvSeq then
          { l1 with recvSeq := (l1.recvSeq + 1) % 4096, delivered := l1.delivered ++ [s.ev.words.drop 3] }
        else l1
      l2.send l2.waiting.length)

/-- CLASP_RETRY (R455): an acknowledgement on link `ev.id` is overdue or reports a bad CRC; the sender resends from the first unacknowledged flit. -/
def execClaspRetry (s : State) : Out := .next (s.modLink s.ev.id fun l => if l.up && !l.training then l.resend else l)

/-- RETIRE of a Clasp lane (R29, R462, R463): word link, which stops sending and trains with a lane less; its die has
a lane less for good. -/
def execRetireLane (s : State) : Out :=
  hostCommand .retireLane s fun ws s =>
    match s.link? (ws.getD 0 0) with
    | none => (s, stRefused)
    | some l =>
      if l.lanes = 0 then (s, stRefused)
      else if l.training then (s, stBusy)
      else (((s.modLink l.lid fun l => { l with lanes := l.lanes - 1, training := true }).modOut fun o =>
        { o with lanesGone := l.die :: o.lanesGone }).tell (.event 0x104 [BitVec.ofNat 64 l.lid]), stOk)

/-- LINK_TRAINING_COMPLETE (R455, R463): link `ev.id` has trained. One that the host has grouped anew, on die `ev.die`, has `ev.sub` lanes; one that a
retirement trains again resends its retry buffer, and without lanes it is down and its packets go back (R355). -/
def execLinkTrainingComplete (s : State) : Out :=
  match s.link? s.ev.id with
  | none =>
    let l : Link := { lid := s.ev.id, die := s.ev.die % 8, lanes := s.ev.sub, up := true, training := false, sendSeq := 0, recvSeq := 0, retry := [],
                      waiting := [], delivered := [], wire := [] }
    let used := ((s.out.links.filter fun x => x.die == s.ev.die % 8).map fun x => x.lanes).sum
    let gone := s.out.lanesGone.filter fun d => d == s.ev.die % 8
    .next (if s.ev.sub = 0 ∨ 9 < s.ev.sub ∨ 18 < used + gone.length + s.ev.sub then s else s.modOut fun o => { o with links := o.links ++ [l] })
  | some l =>
    if !l.training then .next s
    else .next (s.modLink l.lid fun l =>
      if l.lanes = 0 then { l with up := false, training := false, retry := [], waiting := [] }
      else { l with up := true, training := false }.resend)

/-! ## Scale-out (R457) -/

def State.conn? (s : State) (id : Nat) : Option Conn := s.out.conns.find? fun c => c.id == id

def State.modConn (s : State) (id : Nat) (f : Conn → Conn) : State :=
  s.modOut fun o => { o with conns := mapIf (fun c => c.id == id) f o.conns }

/-- The packets that have come ahead delivered as far as they follow on; `fuel` bounds their number. -/
def Conn.advance : Nat → Conn → Conn
  | 0, c => c
  | fuel + 1, c =>
    match c.ahead.find? fun x => x.1 == c.recvSeq with
    | none => c
    | some x => Conn.advance fuel
        { c with recvSeq := c.recvSeq + 1, delivered := c.delivered ++ [x.2], ahead := c.ahead.filter fun y => !(y.1 == x.1) }

/-- An acknowledgement: every packet below `ack` and those named have arrived; the window is halved on an ECN mark and grows otherwise (R457). -/
def Conn.acknowledge (c : Conn) (now ack : Nat) (sacks : List Nat) (ecn : Bool) : Conn :=
  let left := c.unacked.filter fun x => decide (ack ≤ x.1) && !(sacks.contains x.1)
  let moved := decide (left.length < c.unacked.length)
  { c with unacked := left, lastAck := if moved then now else c.lastAck, sentAt := if moved then now else c.sentAt,
           window := if ecn then max 1 (c.window / 2) else if moved then c.window + 1 else c.window }

/-- SCALEOUT_PACKET (R457): a packet of connection `ev.id`: words sequence number, 1 where its HMAC is good, the cumulative acknowledgement, 1 for an
ECN mark, the number of selective acknowledgements, these, and the data. The first one opens the connection of context `ev.sub` and peer table entry
`ev.core` at port `ev.quad` of the 4 of die `ev.die` (R21), whose ports are numbered 4 × die on. -/
def execScaleoutPacket (s : State) : Out :=
  let w := fun i => (s.ev.words.getD i 0).toNat
  if w 1 ≠ 1 ∨ 8 ≤ s.ev.die ∨ 4 ≤ s.ev.quad then .next s
  else
    let c0 : Conn := { id := s.ev.id, port := 4 * s.ev.die + s.ev.quad, ctx := s.ev.sub, peer := s.ev.core,
                       sendSeq := 0, recvSeq := 0, unacked := [], sentAt := s.out.elapsed,
                       lastAck := s.out.elapsed, window := 1, lost := false, delivered := [], ahead := [], wire := [] }
    let s1 := if (s.conn? s.ev.id).isSome || (s.ctx? s.ev.sub).isNone then s else s.modOut fun o => { o with conns := o.conns ++ [c0] }
    .next (s1.modConn s.ev.id fun c =>
      if c.lost then c
      else
        let sacks := ((s.ev.words.drop 5).take (w 4)).map fun x => x.toNat
        let c1 := c.acknowledge s.out.elapsed (w 2) sacks (w 3 == 1)
        let data := s.ev.words.drop (5 + w 4)
        if w 0 < c1.recvSeq || (c1.ahead.any fun x => x.1 == w 0) then c1
        else
          let c2 := { c1 with ahead := c1.ahead ++ [(w 0, data)] }
          c2.advance c2.ahead.length)

/-- SCALEOUT_RETRANSMIT (R457): connection `ev.id` has had no acknowledgement for 50 µs; its packets are sent again and its window is halved. -/
def execScaleoutRetransmit (s : State) : Out :=
  .next (s.modConn s.ev.id fun c =>
    if c.lost || c.unacked.isEmpty || decide (s.out.elapsed < c.sentAt + usToUnits 50) then c
    else { c with wire := c.wire ++ c.unacked, sentAt := s.out.elapsed, window := max 1 (c.window / 2) })

/-- Whether an engine's record uses a connection: a collective with a member over scale-out that the peer table entry names, or a copy with a PEER side
through the entry (R284, R457). -/
def State.recOver (s : State) (c : Conn) (r : EngRec) : Bool :=
  r.post.ctx == c.ctx &&
  match r.phase with
  | .exchange => (List.range r.members).any fun j => (r.member j).2.2.2 == 1 && (r.member j).1 == c.peer
  | .moving => !r.coll && ([r.side false, r.side true].any fun x => x.seg == 4 && x.base / 2 ^ 47 % 512 == c.peer && c.peer != s.out.device)
  | _ => false

/-- SCALEOUT_CONN_LOST (R457): connection `ev.id` has had no acknowledgement for 100 ms; it is lost, and its records end FAULTED with
PEER_UNREACHABLE (R291). -/
def execScaleoutConnLost (s : State) : Out :=
  match s.conn? s.ev.id with
  | none => .next s
  | some c =>
    if c.lost || c.unacked.isEmpty || decide (s.out.elapsed < c.lastAck + usToUnits 100000) then .next s
    else
      let rs := (s.chans.flatMap fun ch => ch.recs).filter fun r => s.recOver c r
      .next (rs.foldl (fun s r => s.finishRec r.rid 2 fcPeerUnreachable) (s.modConn c.id fun c => { c with lost := true }))

/-! ## The time unit (R393, R394) -/

/-- PTP_SYNC (R393, R394): a Sync of domain `ev.words[0]` that left at `ev.words[1]`, in units of 2^-16 ns, is timestamped on arrival; TIME is slewed
toward the offset at a rate of at most 500 ppm, and a delay request is sent. -/
def execPtpSync (s : State) : Out :=
  let w := fun i => (s.ev.words.getD i 0).toNat
  if w 0 ≠ s.out.ptpDomain then .next s
  else
    let offset : Int := (w 1 : Int) + s.out.delay - s.out.time
    let size : Int := ((Config.freeWord s.free).toNat % 501 : Nat)
    .next (s.nextFree.modOut fun o =>
      { o with slew := offset, rate := if offset < 0 then -size else if offset = 0 then 0 else size, lastSync := o.elapsed, holdover := false,
               delayReq := some o.time })

/-- PTP_DELAY_RESP (R393): the response to a delay request, which arrived at `ev.words[1]`, gives the mean path delay. -/
def execPtpDelayResp (s : State) : Out :=
  let w := fun i => (s.ev.words.getD i 0).toNat
  match s.out.delayReq with
  | none => .next s
  | some t3 =>
    if w 0 ≠ s.out.ptpDomain then .next s
    else .next (s.modOut fun o => { o with delay := ((o.delay - o.slew) + ((w 1 : Int) - t3)) / 2, delayReq := none })

/-- PTP_HOLDOVER (R394): no Sync for 2 s; the unit runs on its last rate, and holdover is reported. -/
def execPtpHoldover (s : State) : Out :=
  .next (if s.out.holdover || decide (s.out.elapsed < s.out.lastSync + usToUnits 2000000) then s
    else (s.modOut fun o => { o with holdover := true }).tell (.event 0x105 []))

/-- TIME_STEP (R394): the host steps TIME forward by `ev.words[0]` nanoseconds, and with it what is measured in TIME (R4, R396). What the
units of a die read in its present cycle stays as it is (R114). -/
def execTimeStep (s : State) : Out :=
  let n := (s.ev.words.getD 0 0).toNat * 65536
  .next ((if s.out.locked then s else s.passElapsed n).modOut fun o => { o with time := o.time + n })

end Sys2Proof.Machine
end

