-- ==== Sys2Proof/Machine/LoadStore.lean ====
section
/-!
DEFINITION. LD, ST and LDS (R241 to R243), ATOM and ATOMX (R244 to R246), RED (R247), CACHE (R250).
-/
namespace Sys2Proof.Machine

/-! ## LD, ST, LDS -/

/-- LD (R241). -/
def execLd (d a b : BitVec 6) (f : BitVec 3) (m : Attr) (s : State) : Out :=
  issue (.ld d a b f m) s fun c g =>
    let n := widthBytes f.toNat
    s.memIssue c g m d.toNat a.toNat b.toNat n (strictAlign m n) false true (fun _ _ _ => .load f.toNat)

/-- ST (R242). -/
def execSt (d a b : BitVec 6) (f : BitVec 3) (m : Attr) (s : State) : Out :=
  issue (.st d a b f m) s fun c g =>
    let n := widthBytes f.toNat
    s.memIssue c g m d.toNat a.toNat b.toNat n (strictAlign m n) true false
      (fun l part k => .store ((((g.lane l).regBytes d.toNat n).drop part).take k))

/-- LDS (R243): one address for the group; on PRV the area of the lowest active lane. -/
def execLds (d a : BitVec 6) (f : BitVec 3) (m : Attr) (s : State) : Out :=
  issue (.lds d a f m) s fun c g =>
    let n := widthBytes f.toNat
    let l := lowLane c.mask
    let va : Int := ((g.rs a.toNat).toNat : Int) + m.off.toInt * n
    match s.memCheck g (1#32 <<< l) m n true false (fun _ => va) with
    | some (e, v) => s.takeTrap c g e 0 (BitVec.ofInt 64 v)
    | none =>
      let iss := s.nextId
      let s0 := { s with nextId := s.nextId + 1 }
      let oid := s0.nextId
      let s1 := s0.postAwait c g .memory
      let as := s1.laneAccs c g m (some oid) iss l c.mask d.toNat va.toNat n (fun _ _ => .lds f.toNat)
      (s1.startAll c g iss [as]).endResult c.gid oid

/-! ## ATOM and ATOMX -/

/-- An atomic of every active lane (R244): `x` marks major 0x2C, `n` is the size, `k` the registers captured from V[D]. -/
def atomIssue (i : Instr) (x : Bool) (minor n k : Nat) (d a b : BitVec 6) (m : Attr) (s : State) : Out :=
  issue i s fun c g =>
    s.memIssue c g m d.toNat a.toNat b.toNat n true true true
      (fun l _ _ => .atom x minor ((List.range k).map fun j => (g.lane l).rv (d.toNat + j)) n)

def execAtomAdd (d a b : BitVec 6) (m : Attr) (s : State) : Out := atomIssue (.atomAdd d a b m) false 0 4 1 d a b m s
def execAtomMins (d a b : BitVec 6) (m : Attr) (s : State) : Out := atomIssue (.atomMins d a b m) false 1 4 1 d a b m s
def execAtomMaxs (d a b : BitVec 6) (m : Attr) (s : State) : Out := atomIssue (.atomMaxs d a b m) false 2 4 1 d a b m s
def execAtomMinu (d a b : BitVec 6) (m : Attr) (s : State) : Out := atomIssue (.atomMinu d a b m) false 3 4 1 d a b m s
def execAtomMaxu (d a b : BitVec 6) (m : Attr) (s : State) : Out := atomIssue (.atomMaxu d a b m) false 4 4 1 d a b m s
def execAtomAnd (d a b : BitVec 6) (m : Attr) (s : State) : Out := atomIssue (.atomAnd d a b m) false 5 4 1 d a b m s
def execAtomOr (d a b : BitVec 6) (m : Attr) (s : State) : Out := atomIssue (.atomOr d a b m) false 6 4 1 d a b m s
def execAtomXor (d a b : BitVec 6) (m : Attr) (s : State) : Out := atomIssue (.atomXor d a b m) false 7 4 1 d a b m s
def execAtomxExch (d a b : BitVec 6) (m : Attr) (s : State) : Out := atomIssue (.atomxExch d a b m) true 0 4 1 d a b m s
def execAtomxCas32 (d a b : BitVec 6) (m : Attr) (s : State) : Out := atomIssue (.atomxCas32 d a b m) true 1 4 2 d a b m s
def execAtomxCas64 (d a b : BitVec 6) (m : Attr) (s : State) : Out := atomIssue (.atomxCas64 d a b m) true 2 8 4 d a b m s
def execAtomxCas128 (d a b : BitVec 6) (m : Attr) (s : State) : Out := atomIssue (.atomxCas128 d a b m) true 3 16 8 d a b m s
def execAtomxFadd32 (d a b : BitVec 6) (m : Attr) (s : State) : Out := atomIssue (.atomxFadd32 d a b m) true 4 4 1 d a b m s
def execAtomxFmin32 (d a b : BitVec 6) (m : Attr) (s : State) : Out := atomIssue (.atomxFmin32 d a b m) true 5 4 1 d a b m s
def execAtomxFmax32 (d a b : BitVec 6) (m : Attr) (s : State) : Out := atomIssue (.atomxFmax32 d a b m) true 6 4 1 d a b m s

/-! ## RED -/

/-- A RED of every active lane (R247, R248). -/
def redIssue (i : Instr) (minor n : Nat) (d a b : BitVec 6) (m : Attr) (s : State) : Out :=
  issue i s fun c g =>
    s.memIssue c g m d.toNat a.toNat b.toNat n true true false
      (fun l _ _ => .redIn minor ((List.range (n / 4)).map fun j => (g.lane l).rv (d.toNat + j)) false)

def execRedAddI32 (d a b : BitVec 6) (m : Attr) (s : State) : Out := redIssue (.redAddI32 d a b m) 0 4 d a b m s
def execRedAddF32 (d a b : BitVec 6) (m : Attr) (s : State) : Out := redIssue (.redAddF32 d a b m) 1 4 d a b m s
def execRedAddBf16x2 (d a b : BitVec 6) (m : Attr) (s : State) : Out := redIssue (.redAddBf16x2 d a b m) 2 4 d a b m s
def execRedMinF32 (d a b : BitVec 6) (m : Attr) (s : State) : Out := redIssue (.redMinF32 d a b m) 3 4 d a b m s
def execRedMaxF32 (d a b : BitVec 6) (m : Attr) (s : State) : Out := redIssue (.redMaxF32 d a b m) 4 4 d a b m s
def execRedAddI64 (d a b : BitVec 6) (m : Attr) (s : State) : Out := redIssue (.redAddI64 d a b m) 5 8 d a b m s

/-! ## CACHE (R250) -/

/-- A line operation: lanes that name one line are served once, for the lowest of them. `res` says whether V[D] takes a status. -/
def cacheIssue (i : Instr) (kind : AccKind) (res : Bool) (d a b : BitVec 6) (m : Attr) (s : State) : Out :=
  issue i s fun c g =>
    let va := fun l => (g.lane l).ea m a.toNat b.toNat 128
    match s.memCheck g c.mask m 1 false false va with
    | some (e, v) => s.takeTrap c g e 0 (BitVec.ofInt 64 v)
    | none =>
      let iss := s.nextId
      let s0 := { s with nextId := s.nextId + 1 }
      let oid := if res then some s0.nextId else none
      let s1 := if res then s0.postAwait c g .memory else s0
      let line := fun l => (va l).toNat / 128
      let low := (lanesOf c.mask).filter fun l => !((lanesOf c.mask).any fun k => decide (k < l) && line k == line l)
      let as := low.map fun l =>
        [s1.mkAcc c g m oid iss l (maskOf fun k => c.mask.getLsbD k && line k == line l) d.toNat (line l * 128) kind 0 1]
      let s2 := s1.startAll c g iss as
      match oid with
      | some o => s2.endResult c.gid o
      | none => s2

def execCachePref (a b : BitVec 6) (m : Attr) (s : State) : Out := cacheIssue (.cachePref a b m) .pref false 0 a b m s
def execCacheLock (d a b : BitVec 6) (m : Attr) (s : State) : Out := cacheIssue (.cacheLock d a b m) .lock true d a b m s
def execCacheUnlock (d a b : BitVec 6) (m : Attr) (s : State) : Out := cacheIssue (.cacheUnlock d a b m) .unlock true d a b m s
def execCacheCwb (a b : BitVec 6) (m : Attr) (s : State) : Out := cacheIssue (.cacheCwb a b m) .cwb false 0 a b m s
def execCacheCinv (a b : BitVec 6) (m : Attr) (s : State) : Out := cacheIssue (.cacheCinv a b m) .cinv false 0 a b m s
def execCacheCwbinv (a b : BitVec 6) (m : Attr) (s : State) : Out := cacheIssue (.cacheCwbinv a b m) .cwbinv false 0 a b m s

end Sys2Proof.Machine
end

