-- ==== Sys2Proof/Machine/Observe.lean ====
section
/-!
DEFINITION. Regions and trace instructions (R444 to R449).
-/
namespace Sys2Proof.Machine

/-! ## RGN (R52, R437, R444) -/

/-- A group halts when a region watch of its context's session matches (R437). -/
def State.regionWatch (s : State) (c : Issue) (g : Group) (id : Nat) (enter : Bool) : State :=
  if s.obs.dbg.any fun d => d.ctx == s.ctxOf g && d.watches.any fun w => w.1 == id && w.2 == enter then
    s.debugHalt g 1 c.pc
  else s

/-- RGN.ENTER (R52, R444): a push; a push onto a full stack of 8 raises ILLEGAL. -/
def execRgnEnter (d a : BitVec 6) (m : BitVec 1) (s : State) : Out :=
  issue (.rgnEnter d a m) s fun c g =>
    if 8 ≤ g.rgn.length then s.takeTrap c g fcIllegal 0 0
    else
      let e : RgnEntry := { id := d ++ a, pc := c.npc, idem := m == 1, at_ := s.mem.nextAid }
      (s.modGroup c.gid fun g => { g with rgn := g.rgn ++ [e] }).regionWatch c g (d ++ a).toNat true

/-- RGN.LEAVE (R52, R444): a pop; nothing on an empty stack. -/
def execRgnLeave (s : State) : Out :=
  issue .rgnLeave s fun c g =>
    let s1 := s.modGroup c.gid fun g => { g with rgn := g.rgn.dropLast }
    match g.rgn.getLast? with
    | some e => s1.regionWatch c g e.id.toNat false
    | none => s1

/-! ## TRACE (R445 to R449) -/

/-- EMIT (R446): a record with the payload of the lowest lane, unless the host has disabled user records. -/
def execEmit (a b : BitVec 6) (s : State) : Out :=
  issue (.emit a b) s fun c g =>
    if s.obs.userOff.contains (s.ctxOf g) then s
    else
      let l := lowLane c.mask
      s.emitGroup g (0x80 + b.toNat) (((g.lane l).rv a.toNat).toNat + l * 2 ^ 32)

/-- CAUSEGET (R447). -/
def execCauseget (d : BitVec 6) (s : State) : Out :=
  issue (.causeget d) s fun c g => s.postUnit c g [.s d.toNat g.cause]

/-- CAUSESET (R447): a fresh signet of the core where S[A] is 0. The new value holds from the group's next issue on. -/
def execCauseset (a : BitVec 6) (s : State) : Out :=
  issue (.causeset a) s fun _ g =>
    let x := g.rs a.toNat
    if x ≠ 0 then s.postLate g causeReg x.toNat
    else (s.bumpSeq g.die 0 g.core).postLate g causeReg (s.freshSignet g.die 0 g.core).toNat

/-- A counter of a quadrant (R434). EMPTY counts the cycles in which no group is resident, and bin 0 rises with it. -/
def State.eligOf (s : State) (die core quad i : Nat) : Nat :=
  let n := fun (k : Nat) => match s.obs.elig.find? fun e => e.die == die && e.core == core && e.quad == quad && e.idx == k with
    | some e => e.n
    | none => 0
  let empty := s.emptyCycles die (n 50)
  if i = 48 then empty else if i = 0 then n 0 + empty else n i

/-- The counters of a cache (R185, R211). -/
def State.cacheCount (s : State) (level : Level) (die unit : Nat) (refused : Bool) : Nat :=
  match s.mem.counts.find? fun c => c.level == level && c.die == die && c.unit == unit with
  | some c => if refused then c.refused.toNat else c.bypass.toNat
  | none => 0

/-- The counter that a PERFRD selector names, or none (R448). -/
def State.perfCounter (s : State) (g : Group) (sel : Nat) : Option Nat :=
  let block := bits sel 12 4
  let i := bits sel 0 12
  let site := bits sel 16 7
  let gw := s.obs.gateways.find? fun w => w.die == g.die
  if sel / 2 ^ 23 ≠ 0 ∨ (block ≠ 2 ∧ site ≠ 0) then none
  else match block with
    | 0 => if i ≤ 8 ∨ (16 ≤ i ∧ i ≤ 49) then some (s.eligOf g.die g.core g.quad i) else none
    | 1 => match i with
      | 0 => some (s.cacheCount .l1 g.die g.core false)
      | 1 => some (s.cacheCount .l1 g.die g.core true)
      | 2 => some (assoc (g.die, g.core) (0 : W32) s.obs.censusOver).toNat
      | 3 => some (s.poolUsed g.die g.core)
      | _ => none
    | 2 => if g.firmware = false ∨ 99 < site then none else match i with
      | 0 => some (s.cacheCount .l2 g.die site false)
      | 1 => some (s.cacheCount .l2 g.die site true)
      | 2 => some (s.cacheCount .msc g.die site false)
      | 3 => some (s.cacheCount .msc g.die site true)
      | _ => none
    | 3 => if g.firmware = false then none else match gw with
      | some w => if i ≤ 7 then some (w.loss.getD i 0) else if i = 8 then some w.w else none
      | none => none
    | 4 => if i = 0 then some (match s.ctx? (s.ctxOf g) with
        | some c => c.faultLoss.toNat
        | none => 0) else none
    | _ => none

/-- PERFRD (R448): the counter and OK, or 0 and REFUSED. -/
def execPerfrd (d a : BitVec 6) (s : State) : Out :=
  issue (.perfrd d a) s fun c g =>
    match s.perfCounter g (g.rs a.toNat).toNat with
    | some n => s.postUnit c g [.s d.toNat (BitVec.ofNat 64 n), .lstat (BitVec.ofNat 3 stOk)]
    | none => s.postUnit c g [.s d.toNat 0, .lstat (BitVec.ofNat 3 stRefused)]

/-- The counts of a census site (R431, R449). -/
def State.siteCounts (s : State) (g : Group) (pc : W32) : List Nat :=
  match s.obs.census.find? fun x => x.die == g.die && x.core == g.core && x.band == g.band && x.pc == pc with
  | some x => x.counts
  | none => [0, 0, 0, 0]

/-- CENSUSRD (R449). -/
def execCensusrd (d a : BitVec 6) (s : State) : Out :=
  issue (.censusrd d a) s fun c g =>
    s.postUnit c g <| lanesDo c.mask fun l =>
      (List.range 4).map fun i => .v l (d.toNat + i) (BitVec.ofNat 32 ((s.siteCounts g ((g.lane l).rv a.toNat)).getD i 0))

end Sys2Proof.Machine
end

