-- ==== Sys2Proof/Machine/Dispatch.lean ====
section
/-!
DEFINITION. The one dispatch of an instruction or event to its meaning.
-/
namespace Sys2Proof.Machine

/-- The meaning of an instruction or event: one direct call for each constructor. -/
def exec (i : Instr) (s : State) : Host.Outcome State Fault Refusal :=
  match i with
  | .fwcall k => Sys2Proof.Machine.execFwcall k s
  | .trap k => Sys2Proof.Machine.execTrap k s
  | .bkpt k => Sys2Proof.Machine.execBkpt k s
  | .undef x => Sys2Proof.Machine.execUndef x s
  | .undefMajor x => Sys2Proof.Machine.execUndefMajor x s
  | .iadd d a b => Sys2Proof.Machine.execIadd d a b s
  | .isub d a b => Sys2Proof.Machine.execIsub d a b s
  | .imin d a b => Sys2Proof.Machine.execImin d a b s
  | .imax d a b => Sys2Proof.Machine.execImax d a b s
  | .iminu d a b => Sys2Proof.Machine.execIminu d a b s
  | .imaxu d a b => Sys2Proof.Machine.execImaxu d a b s
  | .iabsd d a b => Sys2Proof.Machine.execIabsd d a b s
  | .iaddc d a b => Sys2Proof.Machine.execIaddc d a b s
  | .imul d a b => Sys2Proof.Machine.execImul d a b s
  | .imulh d a b => Sys2Proof.Machine.execImulh d a b s
  | .imulhu d a b => Sys2Proof.Machine.execImulhu d a b s
  | .imad d a b => Sys2Proof.Machine.execImad d a b s
  | .idiv d a b => Sys2Proof.Machine.execIdiv d a b s
  | .idivu d a b => Sys2Proof.Machine.execIdivu d a b s
  | .irem d a b => Sys2Proof.Machine.execIrem d a b s
  | .iremu d a b => Sys2Proof.Machine.execIremu d a b s
  | .andd d a b => Sys2Proof.Machine.execAndd d a b s
  | .orr d a b => Sys2Proof.Machine.execOrr d a b s
  | .xor d a b => Sys2Proof.Machine.execXor d a b s
  | .andn d a b => Sys2Proof.Machine.execAndn d a b s
  | .orn d a b => Sys2Proof.Machine.execOrn d a b s
  | .xnor d a b => Sys2Proof.Machine.execXnor d a b s
  | .notb d a => Sys2Proof.Machine.execNotb d a s
  | .shl d a b => Sys2Proof.Machine.execShl d a b s
  | .shr d a b => Sys2Proof.Machine.execShr d a b s
  | .sar d a b => Sys2Proof.Machine.execSar d a b s
  | .rol d a b => Sys2Proof.Machine.execRol d a b s
  | .ror d a b => Sys2Proof.Machine.execRor d a b s
  | .fshl d a b => Sys2Proof.Machine.execFshl d a b s
  | .fshr d a b => Sys2Proof.Machine.execFshr d a b s
  | .clz d a => Sys2Proof.Machine.execClz d a s
  | .ctz d a => Sys2Proof.Machine.execCtz d a s
  | .popc d a => Sys2Proof.Machine.execPopc d a s
  | .brev d a => Sys2Proof.Machine.execBrev d a s
  | .bitil d a sp => Sys2Proof.Machine.execBitil d a sp s
  | .bitdl d a sp => Sys2Proof.Machine.execBitdl d a sp s
  | .bytep d a b => Sys2Proof.Machine.execBytep d a b s
  | .bfe d a b => Sys2Proof.Machine.execBfe d a b s
  | .bfeu d a b => Sys2Proof.Machine.execBfeu d a b s
  | .bfi d a b => Sys2Proof.Machine.execBfi d a b s
  | .icmp d a b k => Sys2Proof.Machine.execIcmp d a b k s
  | .iaddi d a im => Sys2Proof.Machine.execIaddi d a im s
  | .iandi d a im => Sys2Proof.Machine.execIandi d a im s
  | .iori d a im => Sys2Proof.Machine.execIori d a im s
  | .ixori d a im => Sys2Proof.Machine.execIxori d a im s
  | .shli d a n => Sys2Proof.Machine.execShli d a n s
  | .shri d a n => Sys2Proof.Machine.execShri d a n s
  | .sari d a n => Sys2Proof.Machine.execSari d a n s
  | .roli d a n => Sys2Proof.Machine.execRoli d a n s
  | .icmpi k p a im => Sys2Proof.Machine.execIcmpi k p a im s
  | .lea d a b f => Sys2Proof.Machine.execLea d a b f s
  | .movi d im => Sys2Proof.Machine.execMovi d im s
  | .movl d lit => Sys2Proof.Machine.execMovl d lit s
  | .movlSx d lit => Sys2Proof.Machine.execMovlSx d lit s
  | .movlZx d lit => Sys2Proof.Machine.execMovlZx d lit s
  | .movlHi d lit => Sys2Proof.Machine.execMovlHi d lit s
  | .fadd d a b => Sys2Proof.Machine.execFadd d a b s
  | .fsub d a b => Sys2Proof.Machine.execFsub d a b s
  | .fmul d a b => Sys2Proof.Machine.execFmul d a b s
  | .fmin d a b => Sys2Proof.Machine.execFmin d a b s
  | .fmax d a b => Sys2Proof.Machine.execFmax d a b s
  | .fminm d a b => Sys2Proof.Machine.execFminm d a b s
  | .fmaxm d a b => Sys2Proof.Machine.execFmaxm d a b s
  | .fabsd d a b => Sys2Proof.Machine.execFabsd d a b s
  | .ffma d a b => Sys2Proof.Machine.execFfma d a b s
  | .ffms d a b => Sys2Proof.Machine.execFfms d a b s
  | .fnfma d a b => Sys2Proof.Machine.execFnfma d a b s
  | .fnfms d a b => Sys2Proof.Machine.execFnfms d a b s
  | .pkfma d a b => Sys2Proof.Machine.execPkfma d a b s
  | .pkadd d a b => Sys2Proof.Machine.execPkadd d a b s
  | .pkmul d a b => Sys2Proof.Machine.execPkmul d a b s
  | .pkfmaF16 d a b => Sys2Proof.Machine.execPkfmaF16 d a b s
  | .fcmp d a b k => Sys2Proof.Machine.execFcmp d a b k s
  | .fcvt d a sp t m => Sys2Proof.Machine.execFcvt d a sp t m s
  | .frnd d a m => Sys2Proof.Machine.execFrnd d a m s
  | .fcvti d a t m => Sys2Proof.Machine.execFcvti d a t m s
  | .icvtf d a t m => Sys2Proof.Machine.execIcvtf d a t m s
  | .fscaleb d a b => Sys2Proof.Machine.execFscaleb d a b s
  | .frexpe d a => Sys2Proof.Machine.execFrexpe d a s
  | .frexpm d a => Sys2Proof.Machine.execFrexpm d a s
  | .fclass d a => Sys2Proof.Machine.execFclass d a s
  | .fsgnj d a b => Sys2Proof.Machine.execFsgnj d a b s
  | .fsgnjn d a b => Sys2Proof.Machine.execFsgnjn d a b s
  | .fabs d a => Sys2Proof.Machine.execFabs d a s
  | .fneg d a => Sys2Proof.Machine.execFneg d a s
  | .frcp d a => Sys2Proof.Machine.execFrcp d a s
  | .frsq d a => Sys2Proof.Machine.execFrsq d a s
  | .fsqrt d a => Sys2Proof.Machine.execFsqrt d a s
  | .fexp2 d a => Sys2Proof.Machine.execFexp2 d a s
  | .flog2 d a => Sys2Proof.Machine.execFlog2 d a s
  | .fsint d a => Sys2Proof.Machine.execFsint d a s
  | .fcost d a => Sys2Proof.Machine.execFcost d a s
  | .ftanh d a => Sys2Proof.Machine.execFtanh d a s
  | .fdiv d a b => Sys2Proof.Machine.execFdiv d a b s
  | .fsincosT d a => Sys2Proof.Machine.execFsincosT d a s
  | .ferf d a => Sys2Proof.Machine.execFerf d a s
  | .shflIdx d a b => Sys2Proof.Machine.execShflIdx d a b s
  | .shflUp d a b => Sys2Proof.Machine.execShflUp d a b s
  | .shflDown d a b => Sys2Proof.Machine.execShflDown d a b s
  | .shflXor d a b => Sys2Proof.Machine.execShflXor d a b s
  | .voteAll d a => Sys2Proof.Machine.execVoteAll d a s
  | .voteAny d a => Sys2Proof.Machine.execVoteAny d a s
  | .voteBal d a => Sys2Proof.Machine.execVoteBal d a s
  | .matchLanes d a => Sys2Proof.Machine.execMatchLanes d a s
  | .lredAdd d a => Sys2Proof.Machine.execLredAdd d a s
  | .lredMin d a => Sys2Proof.Machine.execLredMin d a s
  | .lredMax d a => Sys2Proof.Machine.execLredMax d a s
  | .lscanAdd d a => Sys2Proof.Machine.execLscanAdd d a s
  | .mov d a => Sys2Proof.Machine.execMov d a s
  | .movs d a h => Sys2Proof.Machine.execMovs d a h s
  | .smov d a => Sys2Proof.Machine.execSmov d a s
  | .smovs d a => Sys2Proof.Machine.execSmovs d a s
  | .sel d a n k => Sys2Proof.Machine.execSel d a n k s
  | .pmovPFromV d a => Sys2Proof.Machine.execPmovPFromV d a s
  | .pmovVFromP d a => Sys2Proof.Machine.execPmovVFromP d a s
  | .sread d k h n => Sys2Proof.Machine.execSread d k h n s
  | .sreadTime d k h => Sys2Proof.Machine.execSreadTime d k h s
  | .sreadTimef d k h => Sys2Proof.Machine.execSreadTimef d k h s
  | .swrite d k h n => Sys2Proof.Machine.execSwrite d k h n s
  | .swriteGst d k h => Sys2Proof.Machine.execSwriteGst d k h s
  | .swriteRafbase d k h => Sys2Proof.Machine.execSwriteRafbase d k h s
  | .swriteClkmode d k h => Sys2Proof.Machine.execSwriteClkmode d k h s
  | .sadd d a b => Sys2Proof.Machine.execSadd d a b s
  | .ssub d a b => Sys2Proof.Machine.execSsub d a b s
  | .sand d a b => Sys2Proof.Machine.execSand d a b s
  | .sor d a b => Sys2Proof.Machine.execSor d a b s
  | .sxor d a b => Sys2Proof.Machine.execSxor d a b s
  | .sshl d a b => Sys2Proof.Machine.execSshl d a b s
  | .sshr d a b => Sys2Proof.Machine.execSshr d a b s
  | .smul d a b => Sys2Proof.Machine.execSmul d a b s
  | .saddi d a im => Sys2Proof.Machine.execSaddi d a im s
  | .scmp d a b k => Sys2Proof.Machine.execScmp d a b k s
  | .br k o => Sys2Proof.Machine.execBr k o s
  | .bru k o => Sys2Proof.Machine.execBru k o s
  | .call k o => Sys2Proof.Machine.execCall k o s
  | .jmpx a => Sys2Proof.Machine.execJmpx a s
  | .brj k j o => Sys2Proof.Machine.execBrj k j o s
  | .join n => Sys2Proof.Machine.execJoin n s
  | .spawn d a b => Sys2Proof.Machine.execSpawn d a b s
  | .setejt m => Sys2Proof.Machine.execSetejt m s
  | .ld d a b f m => Sys2Proof.Machine.execLd d a b f m s
  | .st d a b f m => Sys2Proof.Machine.execSt d a b f m s
  | .lds d a f m => Sys2Proof.Machine.execLds d a f m s
  | .atomAdd d a b m => Sys2Proof.Machine.execAtomAdd d a b m s
  | .atomMins d a b m => Sys2Proof.Machine.execAtomMins d a b m s
  | .atomMaxs d a b m => Sys2Proof.Machine.execAtomMaxs d a b m s
  | .atomMinu d a b m => Sys2Proof.Machine.execAtomMinu d a b m s
  | .atomMaxu d a b m => Sys2Proof.Machine.execAtomMaxu d a b m s
  | .atomAnd d a b m => Sys2Proof.Machine.execAtomAnd d a b m s
  | .atomOr d a b m => Sys2Proof.Machine.execAtomOr d a b m s
  | .atomXor d a b m => Sys2Proof.Machine.execAtomXor d a b m s
  | .atomxExch d a b m => Sys2Proof.Machine.execAtomxExch d a b m s
  | .atomxCas32 d a b m => Sys2Proof.Machine.execAtomxCas32 d a b m s
  | .atomxCas64 d a b m => Sys2Proof.Machine.execAtomxCas64 d a b m s
  | .atomxCas128 d a b m => Sys2Proof.Machine.execAtomxCas128 d a b m s
  | .atomxFadd32 d a b m => Sys2Proof.Machine.execAtomxFadd32 d a b m s
  | .atomxFmin32 d a b m => Sys2Proof.Machine.execAtomxFmin32 d a b m s
  | .atomxFmax32 d a b m => Sys2Proof.Machine.execAtomxFmax32 d a b m s
  | .redAddI32 d a b m => Sys2Proof.Machine.execRedAddI32 d a b m s
  | .redAddF32 d a b m => Sys2Proof.Machine.execRedAddF32 d a b m s
  | .redAddBf16x2 d a b m => Sys2Proof.Machine.execRedAddBf16x2 d a b m s
  | .redMinF32 d a b m => Sys2Proof.Machine.execRedMinF32 d a b m s
  | .redMaxF32 d a b m => Sys2Proof.Machine.execRedMaxF32 d a b m s
  | .redAddI64 d a b m => Sys2Proof.Machine.execRedAddI64 d a b m s
  | .cachePref a b m => Sys2Proof.Machine.execCachePref a b m s
  | .cacheLock d a b m => Sys2Proof.Machine.execCacheLock d a b m s
  | .cacheUnlock d a b m => Sys2Proof.Machine.execCacheUnlock d a b m s
  | .cacheCwb a b m => Sys2Proof.Machine.execCacheCwb a b m s
  | .cacheCinv a b m => Sys2Proof.Machine.execCacheCinv a b m s
  | .cacheCwbinv a b m => Sys2Proof.Machine.execCacheCwbinv a b m s
  | .stashMap d a b m => Sys2Proof.Machine.execStashMap d a b m s
  | .stashUnmap d a b m => Sys2Proof.Machine.execStashUnmap d a b m s
  | .stashFlush d a b m => Sys2Proof.Machine.execStashFlush d a b m s
  | .stashFill d a b m => Sys2Proof.Machine.execStashFill d a b m s
  | .stashQuery d a b m => Sys2Proof.Machine.execStashQuery d a b m s
  | .fence sp => Sys2Proof.Machine.execFence sp s
  | .fenceX a sp => Sys2Proof.Machine.execFenceX a sp s
  | .fenceP d a sp => Sys2Proof.Machine.execFenceP d a sp s
  | .redfOrd n => Sys2Proof.Machine.execRedfOrd n s
  | .barArrive a b => Sys2Proof.Machine.execBarArrive a b s
  | .barWait a b => Sys2Proof.Machine.execBarWait a b s
  | .barSync a b => Sys2Proof.Machine.execBarSync a b s
  | .barStep a b => Sys2Proof.Machine.execBarStep a b s
  | .barExpect d a b => Sys2Proof.Machine.execBarExpect d a b s
  | .semAcq a => Sys2Proof.Machine.execSemAcq a s
  | .semRel a => Sys2Proof.Machine.execSemRel a s
  | .semTryacq d a => Sys2Proof.Machine.execSemTryacq d a s
  | .semAcqM a => Sys2Proof.Machine.execSemAcqM a s
  | .semRelM a => Sys2Proof.Machine.execSemRelM a s
  | .syncaAlloc d a => Sys2Proof.Machine.execSyncaAlloc d a s
  | .syncaFree a => Sys2Proof.Machine.execSyncaFree a s
  | .qopPush d b => Sys2Proof.Machine.execQopPush d b s
  | .qopPop d b => Sys2Proof.Machine.execQopPop d b s
  | .qopTrypush d a b => Sys2Proof.Machine.execQopTrypush d a b s
  | .qopTrypop d a b => Sys2Proof.Machine.execQopTrypop d a b s
  | .qopAllow d b => Sys2Proof.Machine.execQopAllow d b s
  | .qopPeek d a b => Sys2Proof.Machine.execQopPeek d a b s
  | .wqEnq d a b => Sys2Proof.Machine.execWqEnq d a b s
  | .wqDeq d a => Sys2Proof.Machine.execWqDeq d a s
  | .wqTrydeq d a b => Sys2Proof.Machine.execWqTrydeq d a b s
  | .wqEnqw d a b => Sys2Proof.Machine.execWqEnqw d a b s
  | .launch d a b => Sys2Proof.Machine.execLaunch d a b s
  | .amsg d a b => Sys2Proof.Machine.execAmsg d a b s
  | .chanPost d a b => Sys2Proof.Machine.execChanPost d a b s
  | .chanStat d a => Sys2Proof.Machine.execChanStat d a s
  | .chanCancel d a => Sys2Proof.Machine.execChanCancel d a s
  | .chanColl d a b => Sys2Proof.Machine.execChanColl d a b s
  | .crecPoll d a b => Sys2Proof.Machine.execCrecPoll d a b s
  | .crecWait d a b => Sys2Proof.Machine.execCrecWait d a b s
  | .crecAck a b => Sys2Proof.Machine.execCrecAck a b s
  | .mq d a m => Sys2Proof.Machine.execMq d a m s
  | .mloadb d a n t => Sys2Proof.Machine.execMloadb d a n t s
  | .mscl d a b => Sys2Proof.Machine.execMscl d a b s
  | .maccrd d a => Sys2Proof.Machine.execMaccrd d a s
  | .maccwr d a => Sys2Proof.Machine.execMaccwr d a s
  | .maccclr a => Sys2Proof.Machine.execMaccclr a s
  | .macccvt d a t => Sys2Proof.Machine.execMacccvt d a t s
  | .rgnEnter d a m => Sys2Proof.Machine.execRgnEnter d a m s
  | .emit a b => Sys2Proof.Machine.execEmit a b s
  | .causeget d => Sys2Proof.Machine.execCauseget d s
  | .causeset a => Sys2Proof.Machine.execCauseset a s
  | .perfrd d a => Sys2Proof.Machine.execPerfrd d a s
  | .censusrd d a => Sys2Proof.Machine.execCensusrd d a s
  | .segld d a => Sys2Proof.Machine.execSegld d a s
  | .heapld d a => Sys2Proof.Machine.execHeapld d a s
  | .tlbinv d a => Sys2Proof.Machine.execTlbinv d a s
  | .divinstInstall d a => Sys2Proof.Machine.execDivinstInstall d a s
  | .rtswapWrite d a => Sys2Proof.Machine.execRtswapWrite d a s
  | .keysel d a => Sys2Proof.Machine.execKeysel d a s
  | .ctxctlHold d a => Sys2Proof.Machine.execCtxctlHold d a s
  | .nop => Sys2Proof.Machine.execNop s
  | .halt => Sys2Proof.Machine.execHalt s
  | .eret => Sys2Proof.Machine.execEret s
  | .idle => Sys2Proof.Machine.execIdle s
  | .divideComplete => Sys2Proof.Machine.execDivideComplete s
  | .ret => Sys2Proof.Machine.execRet s
  | .reconv => Sys2Proof.Machine.execReconv s
  | .exit => Sys2Proof.Machine.execExit s
  | .redf => Sys2Proof.Machine.execRedf s
  | .redfOrdToken => Sys2Proof.Machine.execRedfOrdToken s
  | .rclkAdv => Sys2Proof.Machine.execRclkAdv s
  | .rclkAutoAdvance => Sys2Proof.Machine.execRclkAutoAdvance s
  | .barForwardedArrival => Sys2Proof.Machine.execBarForwardedArrival s
  | .barCredit => Sys2Proof.Machine.execBarCredit s
  | .semWordRetry => Sys2Proof.Machine.execSemWordRetry s
  | .enqwTimeout => Sys2Proof.Machine.execEnqwTimeout s
  | .wqRefill => Sys2Proof.Machine.execWqRefill s
  | .amsgDeliver => Sys2Proof.Machine.execAmsgDeliver s
  | .chanChainStart => Sys2Proof.Machine.execChanChainStart s
  | .engineRecordStart => Sys2Proof.Machine.execEngineRecordStart s
  | .completionRecordWrite => Sys2Proof.Machine.execCompletionRecordWrite s
  | .collStepStart => Sys2Proof.Machine.execCollStepStart s
  | .collStepData => Sys2Proof.Machine.execCollStepData s
  | .collStepTimeout => Sys2Proof.Machine.execCollStepTimeout s
  | .crecWaitTimeout => Sys2Proof.Machine.execCrecWaitTimeout s
  | .matrixPassClose => Sys2Proof.Machine.execMatrixPassClose s
  | .matrixPassStart => Sys2Proof.Machine.execMatrixPassStart s
  | .matrixPassComplete => Sys2Proof.Machine.execMatrixPassComplete s
  | .mswap => Sys2Proof.Machine.execMswap s
  | .mldComplete => Sys2Proof.Machine.execMldComplete s
  | .rgnLeave => Sys2Proof.Machine.execRgnLeave s
  | .divinstLink => Sys2Proof.Machine.execDivinstLink s
  | .divinstDrain => Sys2Proof.Machine.execDivinstDrain s
  | .divinstRemove => Sys2Proof.Machine.execDivinstRemove s
  | .divinstRead => Sys2Proof.Machine.execDivinstRead s
  | .rtswapRead => Sys2Proof.Machine.execRtswapRead s
  | .rtswapSwap => Sys2Proof.Machine.execRtswapSwap s
  | .rtswapTimeout => Sys2Proof.Machine.execRtswapTimeout s
  | .ctxctlUnhold => Sys2Proof.Machine.execCtxctlUnhold s
  | .ctxctlSave => Sys2Proof.Machine.execCtxctlSave s
  | .ctxctlRestore => Sys2Proof.Machine.execCtxctlRestore s
  | .ctxctlRelease => Sys2Proof.Machine.execCtxctlRelease s
  | .ctxctlKill => Sys2Proof.Machine.execCtxctlKill s
  | .ctxctlServe => Sys2Proof.Machine.execCtxctlServe s
  | .ctxctlDecline => Sys2Proof.Machine.execCtxctlDecline s
  | .ctxctlFwret => Sys2Proof.Machine.execCtxctlFwret s
  | .ctxctlReset => Sys2Proof.Machine.execCtxctlReset s
  | .chainIssue => Sys2Proof.Machine.execChainIssue s
  | .guardPromote => Sys2Proof.Machine.execGuardPromote s
  | .gapExpire => Sys2Proof.Machine.execGapExpire s
  | .switchRelease => Sys2Proof.Machine.execSwitchRelease s
  | .resultWrite => Sys2Proof.Machine.execResultWrite s
  | .loadReturn => Sys2Proof.Machine.execLoadReturn s
  | .storePerform => Sys2Proof.Machine.execStorePerform s
  | .atomPerform => Sys2Proof.Machine.execAtomPerform s
  | .walkStart => Sys2Proof.Machine.execWalkStart s
  | .walkComplete => Sys2Proof.Machine.execWalkComplete s
  | .sliceServeRequest => Sys2Proof.Machine.execSliceServeRequest s
  | .sliceSweep => Sys2Proof.Machine.execSliceSweep s
  | .tauWindow => Sys2Proof.Machine.execTauWindow s
  | .l1LineDrop => Sys2Proof.Machine.execL1LineDrop s
  | .stashProbe => Sys2Proof.Machine.execStashProbe s
  | .stashFillComplete => Sys2Proof.Machine.execStashFillComplete s
  | .peerRequest => Sys2Proof.Machine.execPeerRequest s
  | .packetReturn => Sys2Proof.Machine.execPacketReturn s
  | .dataUncorrectable => Sys2Proof.Machine.execDataUncorrectable s
  | .macroParity => Sys2Proof.Machine.execMacroParity s
  | .atombufParity => Sys2Proof.Machine.execAtombufParity s
  | .trapEntry => Sys2Proof.Machine.execTrapEntry s
  | .bandPlace => Sys2Proof.Machine.execBandPlace s
  | .bandRelease => Sys2Proof.Machine.execBandRelease s
  | .binTimerExpire => Sys2Proof.Machine.execBinTimerExpire s
  | .binFire => Sys2Proof.Machine.execBinFire s
  | .poolRecordEnterBin => Sys2Proof.Machine.execPoolRecordEnterBin s
  | .helperStart => Sys2Proof.Machine.execHelperStart s
  | .taskComplete => Sys2Proof.Machine.execTaskComplete s
  | .submissionStart => Sys2Proof.Machine.execSubmissionStart s
  | .codeObjectLoad => Sys2Proof.Machine.execCodeObjectLoad s
  | .eventWaitSatisfied => Sys2Proof.Machine.execEventWaitSatisfied s
  | .blockingCandidate => Sys2Proof.Machine.execBlockingCandidate s
  | .diversionAppend => Sys2Proof.Machine.execDiversionAppend s
  | .suspendDeadline => Sys2Proof.Machine.execSuspendDeadline s
  | .saveAbandon => Sys2Proof.Machine.execSaveAbandon s
  | .watchdogExpire => Sys2Proof.Machine.execWatchdogExpire s
  | .wfgRemoteTimeout => Sys2Proof.Machine.execWfgRemoteTimeout s
  | .traceRecordAccept => Sys2Proof.Machine.execTraceRecordAccept s
  | .loss => Sys2Proof.Machine.execLoss s
  | .sample => Sys2Proof.Machine.execSample s
  | .breakpointHalt => Sys2Proof.Machine.execBreakpointHalt s
  | .debug => Sys2Proof.Machine.execDebug s
  | .debugStep => Sys2Proof.Machine.execDebugStep s
  | .debugRevoke => Sys2Proof.Machine.execDebugRevoke s
  | .hello => Sys2Proof.Machine.execHello s
  | .keyx => Sys2Proof.Machine.execKeyx s
  | .sessionTimeout => Sys2Proof.Machine.execSessionTimeout s
  | .alaellGapTimeout => Sys2Proof.Machine.execAlaellGapTimeout s
  | .qbind => Sys2Proof.Machine.execQbind s
  | .submit => Sys2Proof.Machine.execSubmit s
  | .hostLaunch => Sys2Proof.Machine.execHostLaunch s
  | .ctxnew => Sys2Proof.Machine.execCtxnew s
  | .ctxend => Sys2Proof.Machine.execCtxend s
  | .suspend => Sys2Proof.Machine.execSuspend s
  | .resume => Sys2Proof.Machine.execResume s
  | .keyload => Sys2Proof.Machine.execKeyload s
  | .keydestroy => Sys2Proof.Machine.execKeydestroy s
  | .partdef => Sys2Proof.Machine.execPartdef s
  | .power => Sys2Proof.Machine.execPower s
  | .clock => Sys2Proof.Machine.execClock s
  | .retain => Sys2Proof.Machine.execRetain s
  | .retainRestore => Sys2Proof.Machine.execRetainRestore s
  | .retireCore => Sys2Proof.Machine.execRetireCore s
  | .retireLayer => Sys2Proof.Machine.execRetireLayer s
  | .retireLane => Sys2Proof.Machine.execRetireLane s
  | .update => Sys2Proof.Machine.execUpdate s
  | .traceread => Sys2Proof.Machine.execTraceread s
  | .snapshot => Sys2Proof.Machine.execSnapshot s
  | .hostMark => Sys2Proof.Machine.execHostMark s
  | .attest => Sys2Proof.Machine.execAttest s
  | .ptpSync => Sys2Proof.Machine.execPtpSync s
  | .ptpDelayResp => Sys2Proof.Machine.execPtpDelayResp s
  | .ptpHoldover => Sys2Proof.Machine.execPtpHoldover s
  | .timeStep => Sys2Proof.Machine.execTimeStep s
  | .claspFlit => Sys2Proof.Machine.execClaspFlit s
  | .claspRetry => Sys2Proof.Machine.execClaspRetry s
  | .scaleoutPacket => Sys2Proof.Machine.execScaleoutPacket s
  | .scaleoutRetransmit => Sys2Proof.Machine.execScaleoutRetransmit s
  | .scaleoutConnLost => Sys2Proof.Machine.execScaleoutConnLost s
  | .powerMeasure => Sys2Proof.Machine.execPowerMeasure s
  | .temperatureTrip => Sys2Proof.Machine.execTemperatureTrip s
  | .deviceReset => Sys2Proof.Machine.execDeviceReset s
  | .powerOn => Sys2Proof.Machine.execPowerOn s
  | .engineAccess => Sys2Proof.Machine.execEngineAccess s
  | .collBeginNotice => Sys2Proof.Machine.execCollBeginNotice s
  | .wfgRemoteQuery => Sys2Proof.Machine.execWfgRemoteQuery s
  | .partitionResetComplete => Sys2Proof.Machine.execPartitionResetComplete s
  | .linkTrainingComplete => Sys2Proof.Machine.execLinkTrainingComplete s
  | .firmwareUpdateComplete => Sys2Proof.Machine.execFirmwareUpdateComplete s
  | .clockChangeComplete => Sys2Proof.Machine.execClockChangeComplete s
  | .undercroftShareChange => Sys2Proof.Machine.execUndercroftShareChange s
  | .haltRestart => Sys2Proof.Machine.execHaltRestart s

end Sys2Proof.Machine
end

