-- ==== Sys2Proof/Machine/Run.lean ====
section
/-!
DEFINITION. How a step runs: the members of an issued chain in slot order (R62, R82), the operation of an operand record that
picks among rows of one word (R358, R389), and the choice of the next event where nothing else has chosen it.
-/
namespace Sys2Proof.Machine

/-- The events of the table: the steps that are not an instruction of a program. -/
def isEvent : Instr → Bool
  | .divideComplete | .redfOrdToken | .rclkAutoAdvance | .barForwardedArrival | .barCredit | .semWordRetry
  | .enqwTimeout | .wqRefill | .amsgDeliver | .chanChainStart | .engineRecordStart | .completionRecordWrite
  | .collStepStart | .collStepData | .collStepTimeout | .crecWaitTimeout | .matrixPassClose | .matrixPassStart
  | .matrixPassComplete | .mldComplete | .rtswapTimeout | .chainIssue | .guardPromote | .gapExpire | .switchRelease
  | .resultWrite | .loadReturn | .storePerform | .atomPerform | .walkStart | .walkComplete | .sliceServeRequest
  | .sliceSweep | .tauWindow | .l1LineDrop | .stashProbe | .stashFillComplete | .peerRequest | .packetReturn
  | .dataUncorrectable | .macroParity | .atombufParity | .trapEntry | .bandPlace | .bandRelease | .binTimerExpire
  | .binFire | .poolRecordEnterBin | .helperStart | .taskComplete | .submissionStart | .codeObjectLoad
  | .eventWaitSatisfied | .blockingCandidate | .diversionAppend | .suspendDeadline | .saveAbandon | .watchdogExpire
  | .wfgRemoteTimeout | .traceRecordAccept | .loss | .sample | .breakpointHalt | .debug | .debugStep | .debugRevoke
  | .hello | .keyx | .sessionTimeout | .alaellGapTimeout | .qbind | .submit | .hostLaunch | .ctxnew | .ctxend
  | .suspend | .resume | .keyload | .keydestroy | .partdef | .power | .clock | .retain | .retainRestore | .retireCore
  | .retireLayer | .retireLane | .update | .traceread | .snapshot | .hostMark | .attest | .ptpSync | .ptpDelayResp
  | .ptpHoldover | .timeStep | .claspFlit | .claspRetry | .scaleoutPacket | .scaleoutRetransmit | .scaleoutConnLost
  | .powerMeasure | .temperatureTrip | .deviceReset | .powerOn | .engineAccess | .collBeginNotice | .wfgRemoteQuery
  | .partitionResetComplete | .linkTrainingComplete | .firmwareUpdateComplete | .clockChangeComplete
  | .undercroftShareChange | .haltRestart => true
  | _ => false

/-- The latch with a member in it. -/
def Issue.withMember (c : Issue) (m : W32 × W32 × W32 × W32) : Issue :=
  { c with pc := m.1, npc := m.2.1, w0 := m.2.2.1, w1 := m.2.2.2 }

/-- The OP field of the operand record of a DIVINST, RTSWAP or CTXCTL, as the group's read of it finds it (R357, R389). -/
def State.recordOp (s : State) (c : Issue) (lo n : Nat) : Option Nat :=
  match s.group? c.gid with
  | none => none
  | some g =>
    match (s.readOwn g (g.rs (bits c.w0.toNat 9 6)).toNat 32).2 with
    | .ok bs => some (fieldAt bs lo n)
    | .error _ => none

/-- Whether a group may execute a privileged instruction as it is encoded (R71, R81, R357): one that is ill-formed, or outside firmware mode, faults
before its operand record is read. -/
def State.privOk (s : State) (c : Issue) (i : Instr) : Bool :=
  (s.group? c.gid).any fun g => i.wf (s.regsOf g) && g.firmware

/-- The row that a word of DIVINST, RTSWAP or CTXCTL stands for, by the OP of its operand record (R358, R390, R391). A record
that cannot be read, or with an OP of no row, is left to the first row, and so is one of an instruction that faults at issue. -/
def State.resolveOp (s : State) (c : Issue) (i : Instr) : Instr :=
  if !(s.privOk c i) then i
  else match i with
  | .divinstInstall _ _ => match s.recordOp c 0 8 with
    | some 1 => .divinstLink | some 2 => .divinstDrain | some 3 => .divinstRemove | some 4 => .divinstRead | _ => i
  | .rtswapWrite _ _ => match s.recordOp c 64 2 with
    | some 1 => .rtswapRead | some 2 => .rtswapSwap | _ => i
  | .ctxctlHold _ _ => match s.recordOp c 0 8 with
    | some 1 => .ctxctlUnhold | some 2 => .ctxctlSave | some 3 => .ctxctlRestore | some 4 => .ctxctlRelease
    | some 5 => .ctxctlKill | some 6 => .ctxctlServe | some 7 => .ctxctlDecline | some 8 => .ctxctlFwret
    | some 9 => .ctxctlReset | _ => i
  | _ => i

/-- One member executed: its words are decoded and its meaning taken; words of no instruction raise ILLEGAL (R81). -/
def State.runMember (s : State) (m : W32 × W32 × W32 × W32) : Out :=
  match s.cur with
  | none => .next s
  | some c0 =>
    let c := c0.withMember m
    let s1 := { s with cur := some c }
    if (s1.group? c.gid).isNone then .next s1
    else match decodeWords c.w0 c.w1 with
    | .error _ => match s1.group? c.gid with
      | some g => .next (s1.takeTrap c g fcIllegal 0 0)
      | none => .next s1
    | .ok d => exec (s1.resolveOp c d.instr) s1

/-- A fault of a later member of a chain: none of the chain issues, and the trap is taken from the state before it (R62, R82). -/
def State.redoTrap (s0 : State) (m : W32 × W32 × W32 × W32) (t : TrapNow) : State :=
  match s0.cur with
  | none => s0
  | some c0 =>
    let c := c0.withMember m
    match s0.group? c.gid with
    | some g => { s0 with cur := some c }.takeTrap c g t.code t.tcode t.va
    | none => s0

/-- The members of a chain executed in slot order (R62, R82). `s0` is the state before the chain. -/
def State.runMembers (s0 : State) : Bool → List (W32 × W32 × W32 × W32) → State → Out
  | _, [], s => .next s
  | first, m :: ms, s =>
    match s.runMember m with
    | .next s1 => match s1.trapNow with
      | none => s0.runMembers false ms s1
      | some t => .next (if first then s1 else s0.redoTrap m t)
    | .fault f => .fault f
    | .refused r => .refused r

/-- The first member of a chain, in slot order, that raises a fault on the operands that stand before the chain (R62, R82), with its trap. -/
def State.chainTrap (s0 : State) (ms : List (W32 × W32 × W32 × W32)) : Option ((W32 × W32 × W32 × W32) × TrapNow) :=
  ms.findSome? fun m => match s0.runMember m with
    | .next s1 => s1.trapNow.map fun t => (m, t)
    | _ => none

/-- The chain that an event has put into the latch runs and ends; the members of a longer chain are examined for faults before any of them executes
(R82). -/
def State.runChain (s : State) : Out :=
  match s.cur with
  | none => .next s
  | some c =>
    let fin := fun (s : State) => Host.Outcome.next (s.endChain (c.members.map fun m => ctlOf m.2.2.1.toNat))
    match (if c.members.length < 2 then none else s.chainTrap c.members) with
    | some (m, t) => fin (s.redoTrap m t)
    | none => match s.runMembers true c.members s with
      | .next s1 => fin s1
      | .fault f => .fault f
      | .refused r => .refused r

/-- An event taken with its operands; the chain that it issues runs at once. Only events are taken, and after a
trip only a reset (R460). -/
def State.take (s : State) (i : Instr) (e : Ev) : Out :=
  if s.out.tripped && !(i == .deviceReset || i == .powerOn) then .next s
  else if isEvent i then
    match exec i { s with ev := e } with
    | .next s1 => s1.runChain
    | .fault f => .fault f
    | .refused r => .refused r
  else .next s

/-- The operands of an event that names a record. -/
def evId (n : Nat) : Ev := { Ev.none with id := n }

/-- The operands of an event that names a quadrant. -/
def evQuad (q : Nat × Nat × Nat) : Ev := { Ev.none with die := q.1, core := q.2.1, quad := q.2.2 }

/-- Whether a group is the next of its quadrant to be promoted (R318). -/
def State.promotesNext (s : State) (g : Group) : Bool :=
  ((s.quadOrder g.die g.core g.issueQuad).find? fun x => decide (224 ≤ x.sched.guard) && !x.sched.promoted).any fun x => x.gid == g.gid

/-- The event that a group makes possible at once, if any: a due result, the end of a gap or of a switch marker's wait, a
promotion. -/
def State.groupEvent (s : State) (g : Group) : Option Item :=
  if s.dueResult g && !g.frozen then some { instr := .resultWrite, ev := evId g.gid }
  else if g.sched.gapUntil ≠ 0 && decide (g.sched.gapUntil ≤ s.cycleOn g.die) then some { instr := .gapExpire, ev := evId g.gid }
  else if g.sched.switched && g.outs.isEmpty then some { instr := .switchRelease, ev := evId g.gid }
  else if s.promotesNext g then some { instr := .guardPromote, ev := evId g.gid }
  else none

/-- The quadrant that can issue next in this cycle. -/
def State.quadEvent (s : State) : Option Item :=
  (s.quads.find? fun q => s.mayChoose q.1 q.2.1 q.2.2 && (s.choose q.1 q.2.1 q.2.2).isSome).map fun q =>
    { instr := .chainIssue, ev := evQuad q }

/-- An event that names a record. -/
def item (i : Instr) (n : Nat) : Item := { instr := i, ev := evId n }

/-- An event that names a record and a part of it. -/
def itemSub (i : Instr) (n k : Nat) : Item := { instr := i, ev := { evId n with sub := k } }

/-- An event that names a place on a core. -/
def itemAt (i : Instr) (die core quad sub : Nat) : Item := { instr := i, ev := { evQuad (die, core, quad) with sub := sub } }

/-- What accesses, walks and slices have to do. -/
def State.memItems (s : State) : List Item :=
  (s.mem.accs.filter fun a => !a.elsewhere).map (fun a =>
    if a.kind.isAtom then item .atomPerform a.aid
    else if a.kind.isStore || a.kind.isRed || a.kind == .cwb || a.kind == .cinv || a.kind == .cwbinv then item .storePerform a.aid
    else item .loadReturn a.aid) ++
  s.mem.walks.flatMap (fun w => [item .walkStart w.wid, item .walkComplete w.wid]) ++
  s.mem.reqs.map (fun r => item .sliceServeRequest r.rid) ++
  s.mem.accs.flatMap fun a => (a.places.getD []).filterMap fun p => match p with
    | .stash d c off => some { instr := .stashFillComplete, ev := { evQuad (d, c, 0) with id := off / 128 } }
    | _ => none

/-- What a group's own waits have to do. -/
def State.groupItems (s : State) (g : Group) : List Item :=
  (if g.trapping.isSome then [item .trapEntry g.gid] else []) ++
  (if g.frozen then [] else g.outs.filter fun o => !(o.kind == .fixed) && (o.ready (s.cycleOn g.die) || o.kind == .unit)).map (fun o => itemSub .resultWrite g.gid o.oid) ++
  (match g.blocked with
    | some (.semWord _ _ _) => if s.wordDue g then [item .semWordRetry g.gid] else []
    | some (.redfOrd _ _) => [item .redfOrdToken g.gid]
    | some (.wqEnqw _ _) => [item .enqwTimeout g.gid]
    | some (.crecWait _) => [item .crecWaitTimeout g.gid]
    | _ => []) ++
  [item .breakpointHalt g.gid]

/-- What barriers, messages and queues have to do. -/
def State.syncItems (s : State) : List Item :=
  s.sync.barMsgs.flatMap (fun m => [item .barForwardedArrival m.mid, item .barCredit m.mid, item .diversionAppend m.mid]) ++
  s.msgs.flatMap (fun m => [item .amsgDeliver m.mid, item .diversionAppend m.mid]) ++
  s.tab.arrivals.map (fun a => item .diversionAppend a.mid) ++
  (s.work.filter fun x => x.rocc != 0).map fun x => item .wqRefill x.wid

/-- What engines have to do. -/
def State.engineItems (s : State) : List Item :=
  s.chans.flatMap fun c => [item .chanChainStart c.cid, item .engineRecordStart c.cid] ++
    c.recs.flatMap fun r =>
      [item .engineAccess r.rid, item .collStepStart r.rid] ++
      ((r.needed.filter fun j => s.memberHere r j).flatMap fun j => [itemSub .collBeginNotice r.rid j, itemSub .collStepData r.rid j]) ++
      [item .collStepTimeout r.rid, item .completionRecordWrite r.rid]

/-- What matrix units, pools, bins and helper units have to do. -/
def State.coreItems (s : State) : List Item :=
  (s.quads.map fun q => itemAt .divideComplete q.1 q.2.1 q.2.2 0) ++
  s.mats.flatMap (fun u => [Instr.matrixPassComplete, .matrixPassClose, .matrixPassStart, .mldComplete].map fun i => itemAt i u.die u.core u.quad 0) ++
  s.bins.flatMap (fun x => [itemAt .binFire x.die x.core 0 x.bin, itemAt .binTimerExpire x.die x.core 0 x.bin]) ++
  ((s.pool.map fun r => (r.die, r.core)).eraseDups).flatMap fun x => [itemAt .poolRecordEnterBin x.1 x.2 0 0, itemAt .helperStart x.1 x.2 0 0]

/-- What launchers, queues and firmware have to do. -/
def State.taskItems (s : State) : List Item :=
  s.hqs.flatMap (fun h => (h.nodes.map fun n => itemSub .eventWaitSatisfied h.q n.idx) ++ [item .submissionStart h.q, item .watchdogExpire h.q]) ++
  s.kernels.flatMap (fun k => [item .codeObjectLoad k.kid, item .taskComplete k.kid]) ++
  s.bands.map (fun b => item .bandRelease b.bid) ++
  dieList.flatMap (fun d => [itemAt .bandPlace d 0 0 0, itemAt .blockingCandidate d 0 0 0]) ++
  (s.parts.filter fun p => p.resetting).map (fun p => item .partitionResetComplete p.part) ++
  s.ctxs.flatMap (fun c => dieList.map fun d => { instr := .tauWindow, ev := { evId c.ctx with die := d } })

/-- What the trace network, the service of the module and the host port have to do. -/
def State.outItems (s : State) : List Item :=
  s.obs.ports.map (fun p => itemAt .traceRecordAccept p.die p.unit 0 p.scls) ++
  s.obs.gateways.map (fun g => { instr := .traceRecordAccept, ev := { evQuad (g.die, 0, 0) with lane := 1 } }) ++
  dieList.map (fun d => itemAt .loss d 0 0 0) ++
  s.obs.sampling.flatMap (fun x => s.quads.map fun q => { instr := .sample, ev := { evQuad q with id := x.ctx } }) ++
  dieList.flatMap (fun d => [itemAt .clockChangeComplete d 0 0 0, itemAt .firmwareUpdateComplete d 0 0 0]) ++
  s.out.links.map (fun l => item .linkTrainingComplete l.lid) ++
  s.out.sessions.flatMap (fun x => [item .alaellGapTimeout x.sid, item .sessionTimeout x.sid]) ++
  s.out.conns.flatMap (fun c => [item .scaleoutRetransmit c.id, item .scaleoutConnLost c.id]) ++ [item .ptpHoldover 0]

/-- The state after the first event of a list that changes the state. -/
def State.firstChange (s : State) : List Item → Option State
  | [] => none
  | e :: es => match s.take e.instr e.ev with
    | .next t => if { t with ev := s.ev } = s then s.firstChange es else some t
    | _ => s.firstChange es

/-- The event taken where the agenda chooses none: what a group makes possible at once, an issue, the completion of something under way, or the end of
the cycle. -/
def State.defaultStep (s : State) : Out :=
  match s.groups.findSome? s.groupEvent with
  | some e => s.take e.instr e.ev
  | none => match s.quadEvent with
    | some e => s.take e.instr e.ev
    | none =>
      match s.firstChange (s.memItems ++ s.groups.flatMap s.groupItems ++ s.syncItems ++ s.coreItems ++ s.engineItems ++ s.taskItems ++ s.outItems) with
      | some t => .next t
      | none => .next s.tick

end Sys2Proof.Machine
end

