-- ==== Sys2Proof/Machine/Step.lean ====
section
/-!
DEFINITION. One step of the machine.
-/
namespace Sys2Proof.Machine

/-- One step: the first item of the agenda, or the default choice where the agenda is empty or leaves the choice open. -/
def step (s : State) : Host.Outcome State Fault Refusal :=
  match s.agenda with
  | some e :: r => ({ s with agenda := r }).take e.instr e.ev
  | none :: r => ({ s with agenda := r }).defaultStep
  | [] => s.defaultStep

/-- The launch record under which `withFetchWord` places its band: 32 lanes, one group, 64 registers. -/
def fetchLaunch (code : Nat) : Launch :=
  { Launch.empty with tiers := [{ count := 32, domain := 0, scope := 0 }, { count := 1, domain := 1, scope := 1 }],
                      bars := [0, 16, 0, 0, 0, 0, 0, 0], clen := 1, code := code, regs := 64, cont := 2, stash := 128, nq := 16 }

/-- A lane as R38 forms it, at PC 0. -/
def fetchLane (l : Nat) : Lane :=
  { v := List.replicate 64 0, p := 0x80, lr := 0, pc := 0, st := .active, jsel := 0, origin := .home,
    coord := [l, 0, 0, 0, 0, 0, 0, 0], pq := 0, pl := l, park := none }

/-- A context, kernel, band and group placed on quadrant 0 of core 0 of die 0 (R35, R38), whose code object's first packet
holds the instruction's words, the clocks of die 0 running; and the issue of that quadrant as the next event. -/
def State.withFetchWord (s : State) (nbits w : Nat) : State :=
  let v := w % 2 ^ nbits
  let n := s.nextId
  let c : Nat := 0
  let code : CodeObj := { die := 0, ctx := c, addr := 64 * n, words := [BitVec.ofNat 32 v, BitVec.ofNat 32 (v / 2 ^ 32), 0], handlers := [], matrix := true }
  let segs : List Segment := [{ base := 0, limit := 2 ^ 40, valid := true, wr := true }, { base := 0, limit := 0, valid := true, wr := true },
    { base := 0, limit := 0, valid := false, wr := false }, { base := 0, limit := 0, valid := false, wr := false },
    { base := 0, limit := 0, valid := false, wr := false }]
  let ctx : Context :=
    { ctx := c, part := 0, segs := segs, heapBase := 0, heapLim := 2 ^ 40, heapOff := 0, rafbase := 0, trapvec := 0,
      keyslot := none, allot := [(0, 2 ^ 40)], quota := 16, pinQuota := 4096, redQuota := 65536, trust := List.replicate 8 1, trials := List.replicate 8 (0, 0),
      binTimer := 2048, faultRing := 0, faultLoss := 0, handleTable := 0, handleCount := 0, frames := (0, 0), frameUse := [],
      held := false, dbgRight := false }
  let k : Kernel :=
    { kid := n, ctx := c, die := 0, parent := .host 0, queue := 0, prio := 0, signet := 0, launch := fetchLaunch (64 * n), loaded := true,
      placed := 1, released := 0, startCycle := some (dieList.map s.cycleOn), readyAt := 0, blocking := false, lastCore := 0, filler := false,
      failed := none, diverged := false, raised := [], args := [], sites := [(0, 0, 0)], passedAt := none, after := none, captured := false, pend := 0 }
  let b : Band :=
    { bid := n, kid := n, index := 0, ctx := c, die := 0, core := 0, st := .resident, rclk := 0, rrate := 2048, rateAt := s.cycleOn 0,
      adv := 0, advReq := 0, maps := List.replicate 16 none, stashBase := 0, stashLines := 129, segs := segs, freeCont := [(0, 1, 1), (1, 0, 2)], contEver := true,
      frameBase := 0, budget := [], saveArea := 0, savedBins := [], savedOrder := [], savedMats := [], ghosts := [],
      matrix := true, pend := [] }
  let g : Group :=
    { gid := n, band := n, die := 0, core := 0, quad := 0, slot := 0, helper := none, idx := some 0, frame := 0,
      lanes := laneNos.map fetchLane, s := List.replicate 32 0, jc := [0, 0, 0, 0], ejt := 4, gst := 0, rgn := [], cause := 0, tfp := 0,
      timeLatch := none, outs := [], reds := [], fences := [], pathNeeds := [],
      sched := { switched := false, gapUntil := 0, gaveWay := false, guard := 0, promoted := true, formed := s.cycleOn 0 },
      blocked := none, trapping := none, handler := false, replay := [], entrySt := [], entryPark := [], entryRgn := [], held := [], dbgHalt := false,
      dbgStep := true, stepPc := none, saved := false, redRound := [], waitAt := s.timeNs, dbgFrom := none }
  { s with
    groups := g :: s.groups, order := n :: s.order, kernels := k :: s.kernels, bands := b :: s.bands, ctxs := ctx :: s.ctxs,
    codes := code :: s.codes, mats := (List.range 4).map (MatUnit.new 0 0) ++ s.mats, busy := [], issued := s.issued.filter (fun q => !(q == (0, 0, 0))), nextId := n + 1,
    out := { s.out with tripped := false,
                        dies := mapIf (fun d => d.die == 0) (fun d => { d with clock := .c0, change := none, left := ClockState.c0.period }) s.out.dies },
    agenda := some { instr := .chainIssue, ev := evQuad (0, 0, 0) } :: s.agenda }

end Sys2Proof.Machine
end

