-- ==== Sys2Proof/Safety.lean ====
section
/-!
DEFINITION. The terms in which statements are made: the canonical form of memory, an instruction that issues, the results that it
gives, and what reads as before.
-/
namespace Sys2Proof
open Machine

/-- The invariant of memory: both memories keep the canonical form. -/
def MemInv (s : State) : Prop :=
  Memory.wf s.mem.bytes = true ∧ Memory.wf s.mem.stash = true

/-- The invariant of issue: between two steps no chain stands in the issue latch (R62: a chain issues as one step). -/
def LatchInv (s : State) : Prop := s.cur = none ∧ s.trapNow = none

/-- Group `g` issues an instruction by the latch `c` (R41, R62). -/
def Issues (s : State) (c : Issue) (g : Group) : Prop := s.cur = some c ∧ s.group? c.gid = some g

/-- Group `g` issues `i`, whose fields R71 allows. -/
def Ready (i : Instr) (s : State) (c : Issue) (g : Group) : Prop := Issues s c g ∧ i.wf (s.regsOf g) = true

/-- The instruction completes with one outstanding result of a kind, due from a cycle on, for the lanes of Active(g), with these
register writes and flags; nothing else of the state changes but the next free name. -/
def GivesKind (k : OutKind) (i : Instr) (s : State) (c : Issue) (lat : Nat) (ws : List RegWrite) (fs : List (Nat × BitVec 5)) : Prop :=
  ∃ o : Outst, exec i s = .next (s.addOut c.gid o) ∧ o.kind = k ∧ o.mask = c.mask ∧
    (∀ g, s.group? c.gid = some g → o.due = s.cycleOn g.die + lat) ∧ o.writes = ws ∧ o.flags = fs ∧ o.pc = c.pc ∧ o.w0 = c.w0

/-- The instruction completes with one outstanding result that another unit has brought, on the state `u` in which that unit has served it. -/
def GivesServed (u : State) (i : Instr) (s : State) (c : Issue) (ws : List RegWrite) : Prop :=
  ∃ o : Outst, exec i s = .next (u.addOut c.gid o) ∧ o.kind = .unit ∧ o.mask = c.mask ∧
    (∀ g, s.group? c.gid = some g → o.due = s.cycleOn g.die + 1) ∧ o.writes = ws ∧ o.flags = [] ∧ o.pc = c.pc ∧ o.w0 = c.w0

/-- A fixed-latency result (R65, R66). -/
def Gives (i : Instr) (s : State) (c : Issue) (lat : Nat) (ws : List RegWrite) (fs : List (Nat × BitVec 5)) : Prop :=
  GivesKind .fixed i s c lat ws fs

/-- V[d] of each lane of Active(g), in ascending lane order. -/
def vWrites (c : Issue) (d : BitVec 6) (f : Nat → W32) : List RegWrite := (lanesOf c.mask).map fun l => .v l d.toNat (f l)

/-- P[d] of each lane of Active(g). -/
def pWrites (c : Issue) (d : Nat) (f : Nat → Bool) : List RegWrite := (lanesOf c.mask).map fun l => .p l d (f l)

/-- The flags of each lane of Active(g). -/
def laneFlags (c : Issue) (f : Nat → BitVec 5) : List (Nat × BitVec 5) := (lanesOf c.mask).map fun l => (l, f l)

/-- The byte at a physical address (R212) reads the same in both states. -/
def SameByte (s t : State) (pa : Nat) : Prop := cellGet t.mem.bytes pa = cellGet s.mem.bytes pa

/-- All of memory, stash storage included, reads the same in both states. -/
def SameMemory (s t : State) : Prop := t.mem.bytes = s.mem.bytes ∧ t.mem.stash = s.mem.stash

/-- What a group holds in its registers: those of its lanes, the S registers, the join counters, EJT, GST, the region stack, CAUSE and
TFP. -/
def groupRegisters (g : Group) : List Lane × List W64 × List Nat × Nat × W32 × List RgnEntry × W64 × W64 :=
  (g.lanes, g.s, g.jc, g.ejt, g.gst, g.rgn, g.cause, g.tfp)

/-- The registers of every group read the same in both states. -/
def SameRegisters (s t : State) : Prop := ∀ h, (t.group? h).map groupRegisters = (s.group? h).map groupRegisters

/-- The frame of row `i` that runs is taken (R451, R452, R454): the module has not tripped, the frame has a TYPE that R453 lists and passes its checks, and
session `sid`, whose turn has come, accepts its SEQ in order; `u` is the state once the session has done so, and the frame has a tag and payload words. -/
def Taken (i : Instr) (s u : State) (sid tag : Nat) (ws : List Nat) : Prop :=
  s.out.tripped = false ∧ sid ≠ acceptedMark ∧ frameTypes.contains (s.ev.head 208 8) = true ∧
  ∃ seq x, (s.ev.words.map fun w => w.toNat) = sid :: seq :: tag :: ws ∧
    s.session? sid = some x ∧ s.ev.frameOk i x = true ∧ x.drops seq = false ∧ seq ≤ x.seqNext ∧
    s.inTurn .host 0 sid = true ∧ u = (s.takeTurn .host 0 sid).modSession sid fun y => y.accept seq s.out.elapsed

end Sys2Proof
end

