-- ==== Sys2Proof/Certificates/Slice0/Obligations.lean ====
section
/-!
DEFINITION. The statements for the provers.
-/
open Sys2Proof Sys2Proof.Machine


/-- R125, R126. Every IALU instruction completes with its result in V[D] of each lane of Active(g), 4 cycles after the issue; IADDC
brings P6 with it in the same cycle. -/
def Obligations.IntegerArithmeticResults : Prop :=
  ∀ (s : State) (c : Issue) (g : Group) (d a b : BitVec 6), Issues s c g →
    let rrr := fun (m f : Nat) => BitVec.ofNat 32 (m * 2 ^ 21 + d.toNat * 2 ^ 15 + a.toNat * 2 ^ 9 + b.toNat * 2 ^ 3 + f)
    let reads := fun (w : W32) (i : Instr) => ∀ x, ∃ y, decodeWords w x = .ok y ∧ y.instr = i
    let A := fun l => (g.lane l).rv a.toNat
    let B := fun l => (g.lane l).rv b.toNat
    (∀ p ∈ ([(.iadd d a b, fun l => BitVec.ofNat 32 ((A l).toNat + (B l).toNat)),
             (.isub d a b, fun l => BitVec.ofInt 32 ((A l).toInt - (B l).toInt)),
             (.imin d a b, fun l => BitVec.ofInt 32 (min (A l).toInt (B l).toInt)),
             (.imax d a b, fun l => BitVec.ofInt 32 (max (A l).toInt (B l).toInt)),
             (.iminu d a b, fun l => BitVec.ofNat 32 (min (A l).toNat (B l).toNat)),
             (.imaxu d a b, fun l => BitVec.ofNat 32 (max (A l).toNat (B l).toNat)),
             (.iabsd d a b, fun l => BitVec.ofInt 32 |(A l).toInt - (B l).toInt|)] : List (Instr × (Nat → W32))),
      p.1.wf (s.regsOf g) = true → Gives p.1 s c 4 (vWrites c d p.2) []) ∧
    ((Instr.iaddc d a b).wf (s.regsOf g) = true →
      Gives (.iaddc d a b) s c 4 ((lanesOf c.mask).flatMap fun l =>
        let t := (A l).toNat + (B l).toNat + (if (g.lane l).rp 6 then 1 else 0)
        [.v l d.toNat (BitVec.ofNat 32 t), .p l 6 (decide (2 ^ 32 ≤ t))]) []) ∧
    (∀ p ∈ ([.iadd d a b, .isub d a b, .imin d a b, .imax d a b, .iminu d a b, .imaxu d a b, .iabsd d a b, .iaddc d a b] : List Instr).zipIdx,
      reads (rrr 1 p.2) p.1)

/-- R99, R127, R128. The multiplies complete with their results after 5 cycles; the divide family hands the divider a result that
DIVIDE_COMPLETE writes: truncated division, the quotient of a zero divisor all ones and its remainder the dividend.

R128. The divider of a quadrant completes the oldest instruction that it has accepted: its result is written and is no longer
outstanding, and no other group changes. Where the event names some of its lanes, those have the result now and the others still await it (R164).

Rests on the model's reading of the divider as an event: log entry 11. -/
def Obligations.MultiplyDivideResults : Prop :=
  (∀ (s : State) (c : Issue) (g : Group) (d a b : BitVec 6), Issues s c g →
    let A := fun l => (g.lane l).rv a.toNat
    let B := fun l => (g.lane l).rv b.toNat
    let D := fun l => (g.lane l).rv d.toNat
    (∀ p ∈ ([(.imul d a b, fun l => BitVec.ofNat 32 ((A l).toNat * (B l).toNat)),
             (.imulh d a b, fun l => BitVec.ofInt 32 ((A l).toInt * (B l).toInt / 2 ^ 32)),
             (.imulhu d a b, fun l => BitVec.ofNat 32 ((A l).toNat * (B l).toNat / 2 ^ 32)),
             (.imad d a b, fun l => BitVec.ofNat 32 ((A l).toNat * (B l).toNat + (D l).toNat))] : List (Instr × (Nat → W32))),
      p.1.wf (s.regsOf g) = true → Gives p.1 s c 5 (vWrites c d p.2) []) ∧
    (∀ p ∈ ([(.idiv d a b, fun l => if B l = 0 then 0xFFFFFFFF#32 else (A l).sdiv (B l)),
             (.idivu d a b, fun l => if B l = 0 then 0xFFFFFFFF#32 else A l / B l),
             (.irem d a b, fun l => if B l = 0 then A l else (A l).srem (B l)),
             (.iremu d a b, fun l => if B l = 0 then A l else A l % B l)] : List (Instr × (Nat → W32))),
      p.1.wf (s.regsOf g) = true → GivesKind .divide p.1 s c 1 (vWrites c d p.2) [])) ∧
  (∀ (s : State) (gid oid : Nat) (rest : List (Nat × Nat)) (g : Group) (o : Outst),
    s.divides s.ev.die s.ev.core s.ev.quad = (oid, gid) :: rest → s.group? gid = some g → g.out? oid = some o →
    ∃ t, exec .divideComplete s = .next t ∧
      (s.ev.words = [] → t.group? gid = some { g.land o with outs := g.outs.filter fun x => !(x.oid == oid) }) ∧
      (∀ g', t.group? gid = some g' → ∀ l < 32, o.mask.getLsbD l = true → s.evLanes.getLsbD l = false → (g'.lane l).v = (g.lane l).v) ∧
      (clearMask o.mask s.evLanes ≠ 0 → (t.group? gid).map (fun g => g.outs) =
        some (mapIf (fun x => x.oid == oid) (fun x => { x with mask := clearMask o.mask s.evLanes }) g.outs)) ∧
      (∀ h, h ≠ gid → t.group? h = s.group? h) ∧ SameMemory s t ∧ t.out = s.out)

/-- R129 to R131. LOGIC, SHIFT and SHI complete after 4 cycles: bitwise results; shifts by V[B][7:0], by which an amount of 32 or
more gives 0 or the sign; rotations modulo 32; funnel shifts by at most 32.

R132 to R135. BITS and BFLD complete after 4 cycles, and each bit of their results is the one that the spec names: counts by their
bounds, reversal, spread and gathered bits, permuted bytes, extracted and inserted fields. -/
def Obligations.LogicShiftResults : Prop :=
  (∀ (s : State) (c : Issue) (g : Group) (d a b : BitVec 6) (k : BitVec 5), Issues s c g →
    let rrr := fun (m f : Nat) => BitVec.ofNat 32 (m * 2 ^ 21 + d.toNat * 2 ^ 15 + a.toNat * 2 ^ 9 + b.toNat * 2 ^ 3 + f)
    let reads := fun (w : W32) (i : Instr) => ∀ x, ∃ y, decodeWords w x = .ok y ∧ y.instr = i
    let bad := fun (w : W32) => ∀ x, decodeWords w x = .error .noRow
    let shi := fun (f z : Nat) => BitVec.ofNat 32 (0x0C * 2 ^ 21 + d.toNat * 2 ^ 15 + a.toNat * 2 ^ 9 + f * 2 ^ 7 + z * 2 ^ 5 + k.toNat)
    let A := fun l => (g.lane l).rv a.toNat
    let B := fun l => (g.lane l).rv b.toNat
    let D := fun l => (g.lane l).rv d.toNat
    let n := fun l => (B l).toNat % 256
    let shl := fun (x : W32) (n : Nat) => if n < 32 then BitVec.ofNat 32 (x.toNat * 2 ^ n) else 0
    let shr := fun (x : W32) (n : Nat) => if n < 32 then BitVec.ofNat 32 (x.toNat / 2 ^ n) else 0
    let sar := fun (x : W32) (n : Nat) => if n < 32 then BitVec.ofInt 32 (x.toInt / 2 ^ n) else if x.msb then 0xFFFFFFFF#32 else 0
    let wide := fun (l : Nat) => (D l).toNat * 2 ^ 32 + (A l).toNat
    (∀ p ∈ ([(.andd d a b, fun l => A l &&& B l), (.orr d a b, fun l => A l ||| B l), (.xor d a b, fun l => A l ^^^ B l),
            (.andn d a b, fun l => A l &&& ~~~(B l)), (.orn d a b, fun l => A l ||| ~~~(B l)),
            (.xnor d a b, fun l => ~~~(A l ^^^ B l)), (.notb d a, fun l => ~~~(A l)),
            (.shl d a b, fun l => shl (A l) (n l)), (.shr d a b, fun l => shr (A l) (n l)), (.sar d a b, fun l => sar (A l) (n l)),
            (.rol d a b, fun l => (A l).rotateLeft (n l % 32)), (.ror d a b, fun l => (A l).rotateRight (n l % 32)),
            (.fshl d a b, fun l => BitVec.ofNat 32 (wide l * 2 ^ min (n l) 32 / 2 ^ 32)),
            (.fshr d a b, fun l => BitVec.ofNat 32 (wide l / 2 ^ min (n l) 32)),
            (.shli d a k, fun l => shl (A l) k.toNat), (.shri d a k, fun l => shr (A l) k.toNat),
            (.sari d a k, fun l => sar (A l) k.toNat), (.roli d a k, fun l => (A l).rotateLeft k.toNat)] : List (Instr × (Nat → W32))),
      p.1.wf (s.regsOf g) = true → Gives p.1 s c 4 (vWrites c d p.2) []) ∧
    (∀ p ∈ ([.andd d a b, .orr d a b, .xor d a b, .andn d a b, .orn d a b, .xnor d a b] : List Instr).zipIdx, reads (rrr 3 p.2) p.1) ∧
    (b = 0 → reads (rrr 3 6) (.notb d a)) ∧ (b ≠ 0 → bad (rrr 3 6)) ∧ bad (rrr 3 7) ∧
    (∀ p ∈ ([.shl d a b, .shr d a b, .sar d a b, .rol d a b, .ror d a b, .fshl d a b, .fshr d a b] : List Instr).zipIdx, reads (rrr 4 p.2) p.1) ∧
    bad (rrr 4 7) ∧ (∀ p ∈ ([.shli d a k, .shri d a k, .sari d a k, .roli d a k] : List Instr).zipIdx, reads (shi p.2 0) p.1) ∧
    (∀ f < 4, ∀ z < 4, z ≠ 0 → bad (shi f z))) ∧
  (∀ (s : State) (c : Issue) (g : Group) (d a b sp : BitVec 6), Issues s c g →
    let rrr := fun (m f : Nat) => BitVec.ofNat 32 (m * 2 ^ 21 + d.toNat * 2 ^ 15 + a.toNat * 2 ^ 9 + b.toNat * 2 ^ 3 + f)
    let reads := fun (w : W32) (i : Instr) => ∀ x, ∃ y, decodeWords w x = .ok y ∧ y.instr = i
    let bad := fun (w : W32) => ∀ x, decodeWords w x = .error .noRow
    let A := fun l => (g.lane l).rv a.toNat
    let B := fun l => (g.lane l).rv b.toNat
    let D := fun l => (g.lane l).rv d.toNat
    let holds := fun (i : Instr) (P : Nat → W32 → Prop) => i.wf (s.regsOf g) = true →
      ∃ f, Gives i s c 4 (vWrites c d f) [] ∧ ∀ l, P l (f l)
    let pos := fun l => (B l).toNat % 32
    let wid := fun l => min (min ((B l).toNat / 256 % 64) 32) (32 - pos l)
    let byteOf := fun (l i : Nat) =>
      let sel := (B l).toNat / 16 ^ i % 16
      let x := ((A l).toNat + (D l).toNat * 2 ^ 32) / 256 ^ (sel % 8) % 256
      if sel < 8 then x else if x < 128 then 0 else 255
    holds (.clz d a) (fun l r => r.toNat ≤ 32 ∧ (A l).toNat < 2 ^ (32 - r.toNat) ∧ (r.toNat < 32 → 2 ^ (31 - r.toNat) ≤ (A l).toNat)) ∧
    holds (.ctz d a) (fun l r => r.toNat ≤ 32 ∧ 2 ^ r.toNat ∣ (A l).toNat ∧ (r.toNat < 32 → (A l).getLsbD r.toNat = true)) ∧
    holds (.popc d a) (fun l r => r.toNat = ((List.range 32).filter fun k => (A l).getLsbD k).length) ∧
    holds (.brev d a) (fun l r => ∀ k < 32, r.getLsbD k = (A l).getLsbD (31 - k)) ∧
    holds (.bitil d a sp) (fun l r => ∀ j < 32,
      r.getLsbD j = (decide (j % (sp.toNat + 1) = 0) && (A l).getLsbD (j / (sp.toNat + 1)))) ∧
    holds (.bitdl d a sp) (fun l r => ∀ k < 32,
      r.getLsbD k = (decide (k * (sp.toNat + 1) ≤ 31) && (A l).getLsbD (k * (sp.toNat + 1)))) ∧
    holds (.bytep d a b) (fun l r => ∀ i < 4, r.toNat / 256 ^ i % 256 = byteOf l i) ∧
    holds (.bfe d a b) (fun l r => r.toInt = if wid l = 0 then 0 else sx ((A l).toNat / 2 ^ pos l) (wid l)) ∧
    holds (.bfeu d a b) (fun l r => r.toNat = (A l).toNat / 2 ^ pos l % 2 ^ wid l) ∧
    holds (.bfi d a b) (fun l r => ∀ k < 32, r.getLsbD k =
      if pos l ≤ k ∧ k < pos l + wid l then (A l).getLsbD (k - pos l) else (D l).getLsbD k) ∧
    (∀ p ∈ ([.clz d a, .ctz d a, .popc d a, .brev d a] : List Instr).zipIdx, (b = 0 → reads (rrr 5 p.2) p.1) ∧ (b ≠ 0 → bad (rrr 5 p.2))) ∧
    reads (rrr 5 4) (.bitil d a b) ∧ reads (rrr 5 5) (.bitdl d a b) ∧ reads (rrr 5 6) (.bytep d a b) ∧ bad (rrr 5 7) ∧
    (∀ r, sp = 0 ∨ 4 ≤ sp.toNat → (Instr.bitil d a sp).wf r = false ∧ (Instr.bitdl d a sp).wf r = false) ∧
    reads (rrr 6 0) (.bfe d a b) ∧ reads (rrr 6 1) (.bfeu d a b) ∧ reads (rrr 6 2) (.bfi d a b) ∧ ∀ f, 3 ≤ f → f < 8 → bad (rrr 6 f))

/-- R136, R143, R152. The comparisons write the truth of their condition to P[D] of each lane of Active(g): ICMP and ICMPI after 4
cycles in each lane, SCMP once for all lanes. Codes 6 and 7 are shut out by `wf`. -/
def Obligations.ComparisonResults : Prop :=
  ∀ (s : State) (c : Issue) (g : Group) (a b d : BitVec 6) (k q : BitVec 3) (i : BitVec 9), Issues s c g →
    let truth := fun {n : Nat} (x y : BitVec n) => match k.toNat with
      | 0 => decide (x = y) | 1 => decide (x ≠ y) | 2 => decide (x.toInt < y.toInt) | 3 => decide (x.toInt ≤ y.toInt)
      | 4 => decide (x.toNat < y.toNat) | _ => decide (x.toNat ≤ y.toNat)
    ((Instr.icmp d a b k).wf (s.regsOf g) = true →
      Gives (.icmp d a b k) s c 4 (pWrites c d.toNat fun l => truth ((g.lane l).rv a.toNat) ((g.lane l).rv b.toNat)) []) ∧
    ((Instr.icmpi k q a i).wf (s.regsOf g) = true →
      Gives (.icmpi k q a i) s c 4 (pWrites c q.toNat fun l => truth ((g.lane l).rv a.toNat) (i.signExtend 32)) []) ∧
    ((Instr.scmp d a b k).wf (s.regsOf g) = true →
      Gives (.scmp d a b k) s c 4 (pWrites c d.toNat fun _ => truth (g.rs a.toNat) (g.rs b.toNat)) [])

/-- R137 to R144. Immediate forms, LEA, MOVI, MOVL and the scalar instructions complete after 4 cycles: a vector form in each lane of
Active(g), a scalar form once, in S[D]. -/
def Obligations.ImmediateScalarResults : Prop :=
  ∀ (s : State) (c : Issue) (g : Group) (d a b : BitVec 6) (i : BitVec 9) (m : BitVec 15) (f : BitVec 3) (lit : BitVec 32), Issues s c g →
    let rrr := fun (m f : Nat) => BitVec.ofNat 32 (m * 2 ^ 21 + d.toNat * 2 ^ 15 + a.toNat * 2 ^ 9 + b.toNat * 2 ^ 3 + f)
    let reads := fun (w : W32) (i : Instr) => ∀ x, ∃ y, decodeWords w x = .ok y ∧ y.instr = i
    let rri := fun (m : Nat) => BitVec.ofNat 32 (m * 2 ^ 21 + d.toNat * 2 ^ 15 + a.toNat * 2 ^ 9 + i.toNat)
    let A := fun l => (g.lane l).rv a.toNat
    let B := fun l => (g.lane l).rv b.toNat
    let x := g.rs a.toNat
    let y := g.rs b.toNat
    (∀ p ∈ ([(.iaddi d a i, fun l => BitVec.ofInt 32 ((A l).toInt + i.toInt)), (.iandi d a i, fun l => A l &&& BitVec.ofNat 32 i.toNat),
             (.iori d a i, fun l => A l ||| BitVec.ofNat 32 i.toNat), (.ixori d a i, fun l => A l ^^^ BitVec.ofNat 32 i.toNat),
             (.lea d a b f, fun l => BitVec.ofNat 32 ((A l).toNat + (B l).toNat * 2 ^ f.toNat)),
             (.movi d m, fun _ => BitVec.ofInt 32 m.toInt), (.movl d lit, fun _ => lit)] : List (Instr × (Nat → W32))),
      p.1.wf (s.regsOf g) = true → Gives p.1 s c 4 (vWrites c d p.2) []) ∧
    (∀ p ∈ ([(.movlSx d lit, BitVec.ofInt 64 lit.toInt), (.movlZx d lit, BitVec.ofNat 64 lit.toNat),
             (.movlHi d lit, BitVec.ofNat 64 (lit.toNat * 2 ^ 32 + (g.rs d.toNat).toNat % 2 ^ 32)),
             (.sadd d a b, BitVec.ofNat 64 (x.toNat + y.toNat)), (.ssub d a b, BitVec.ofInt 64 (x.toInt - y.toInt)),
             (.sand d a b, x &&& y), (.sor d a b, x ||| y), (.sxor d a b, x ^^^ y),
             (.sshl d a b, if y.toNat % 256 < 64 then BitVec.ofNat 64 (x.toNat * 2 ^ (y.toNat % 256)) else 0),
             (.sshr d a b, if y.toNat % 256 < 64 then BitVec.ofNat 64 (x.toNat / 2 ^ (y.toNat % 256)) else 0),
             (.smul d a b, BitVec.ofNat 64 (x.toNat * y.toNat)),
             (.saddi d a i, BitVec.ofInt 64 (x.toInt + i.toInt))] : List (Instr × W64)),
      p.1.wf (s.regsOf g) = true → Gives p.1 s c 4 [.s d.toNat p.2] []) ∧
    (∀ p ∈ ([(8, .iaddi d a i), (9, .iandi d a i), (10, .iori d a i), (11, .ixori d a i), (0x21, .saddi d a i)] : List (Nat × Instr)), reads (rri p.1) p.2) ∧
    reads (rrr 0x0E f.toNat) (.lea d a b f) ∧ reads (BitVec.ofNat 32 (0x0F * 2 ^ 21 + d.toNat * 2 ^ 15 + m.toNat)) (.movi d m) ∧
    (∀ p ∈ ([.sadd d a b, .ssub d a b, .sand d a b, .sor d a b, .sxor d a b, .sshl d a b, .sshr d a b, .smul d a b] : List Instr).zipIdx,
      reads (rrr 0x20 p.2) p.1)

/-- R164 to R167. SHFL and LANE complete after 6 cycles: a lane gets V[A] of its source lane where that lane is in Active(g) and its own
otherwise; votes, matches, reductions and the inclusive scan range over Active(g) alone.

R168. MOV: V to V, the halves of S to V, V of the lowest active lane to S, S to S, a P register into V and back; SEL writes V[D] only
in the lanes whose predicate holds. -/
def Obligations.LaneExchangeResults : Prop :=
  (∀ (s : State) (c : Issue) (g : Group) (d a b : BitVec 6), Issues s c g →
    let A := fun l => (g.lane l).rv a.toNat
    let sel := fun l => ((g.lane l).rv b.toNat).toNat
    let active := fun (l : Nat) => l < 32 ∧ c.mask.getLsbD l = true
    let holds := fun (i : Instr) (P : Nat → W32 → Prop) => i.wf (s.regsOf g) = true →
      ∃ f, Gives i s c 6 (vWrites c d f) [] ∧ ∀ l, active l → P l (f l)
    let from_ := fun (src : Nat → Int) (l : Nat) (r : W32) =>
      (∀ m, active m → src l = (m : Int) → r = A m) ∧ ((∀ m, active m → src l ≠ (m : Int)) → r = A l)
    holds (.shflIdx d a b) (from_ fun l => ((sel l % 32 : Nat) : Int)) ∧
    holds (.shflUp d a b) (from_ fun l => (l : Int) - ((sel l % 64 : Nat) : Int)) ∧
    holds (.shflDown d a b) (from_ fun l => (l : Int) + ((sel l % 64 : Nat) : Int)) ∧
    holds (.shflXor d a b) (from_ fun l => ((Nat.xor l (sel l % 32) : Nat) : Int)) ∧
    holds (.voteBal d a) (fun _ r => ∀ k < 32, r.getLsbD k = (c.mask.getLsbD k && (g.lane k).rp a.toNat)) ∧
    holds (.matchLanes d a) (fun l r => ∀ k < 32, r.getLsbD k = (c.mask.getLsbD k && decide (A k = A l))) ∧
    holds (.lredAdd d a) (fun _ r => r = BitVec.ofNat 32 ((lanesOf c.mask).map fun m => (A m).toNat).sum) ∧
    holds (.lredMin d a) (fun _ r => (∃ m, active m ∧ r = A m) ∧ ∀ m, active m → r.toInt ≤ (A m).toInt) ∧
    holds (.lredMax d a) (fun _ r => (∃ m, active m ∧ r = A m) ∧ ∀ m, active m → (A m).toInt ≤ r.toInt) ∧
    holds (.lscanAdd d a) (fun l r => r = BitVec.ofNat 32 (((lanesOf c.mask).filter fun m => decide (m ≤ l)).map fun m => (A m).toNat).sum) ∧
    ((Instr.voteAll d a).wf (s.regsOf g) = true →
      ∃ x : Bool, Gives (.voteAll d a) s c 6 (pWrites c d.toNat fun _ => x) [] ∧ (x = true ↔ ∀ m, active m → (g.lane m).rp a.toNat = true)) ∧
    ((Instr.voteAny d a).wf (s.regsOf g) = true →
      ∃ x : Bool, Gives (.voteAny d a) s c 6 (pWrites c d.toNat fun _ => x) [] ∧ (x = true ↔ ∃ m, active m ∧ (g.lane m).rp a.toNat = true))) ∧
  (∀ (s : State) (c : Issue) (g : Group) (d a : BitVec 6) (h n : BitVec 1) (k : BitVec 3), Issues s c g →
    let A := fun l => (g.lane l).rv a.toNat
    (∀ p ∈ ([(.mov d a, A),
             (.movs d a h, fun _ => BitVec.ofNat 32 ((g.rs a.toNat).toNat / 2 ^ (32 * h.toNat))),
             (.pmovVFromP d a, fun l => if (g.lane l).rp a.toNat then 1 else 0)] : List (Instr × (Nat → W32))),
      p.1.wf (s.regsOf g) = true → Gives p.1 s c 4 (vWrites c d p.2) []) ∧
    ((Instr.smov d a).wf (s.regsOf g) = true → ∀ l < 32, c.mask.getLsbD l = true → (∀ m < l, c.mask.getLsbD m = false) →
      Gives (.smov d a) s c 4 [.s d.toNat (BitVec.ofNat 64 (A l).toNat)] []) ∧
    ((Instr.smovs d a).wf (s.regsOf g) = true → Gives (.smovs d a) s c 4 [.s d.toNat (g.rs a.toNat)] []) ∧
    ((Instr.pmovPFromV d a).wf (s.regsOf g) = true →
      Gives (.pmovPFromV d a) s c 4 (pWrites c d.toNat fun l => decide (A l ≠ 0)) []) ∧
    ((Instr.sel d a n k).wf (s.regsOf g) = true →
      Gives (.sel d a n k) s c 4
        (((lanesOf c.mask).filter fun l => (g.lane l).rp k.toNat != (n == 1)).map fun l => .v l d.toNat (A l)) []))

/-- R93, R94, R149 to R151. FARITH and FFMA complete after 5 cycles with the one rounding of their exact result and the flags of each
lane; a packed form rounds its two halves apart and raises the flags of both. -/
def Obligations.FloatArithmeticResults : Prop :=
  ∀ (s : State) (c : Issue) (g : Group) (d a b : BitVec 6), Issues s c g →
    let A := fun l => ((g.lane l).rv a.toNat).toNat
    let B := fun l => ((g.lane l).rv b.toNat).toNat
    let D := fun l => ((g.lane l).rv d.toNat).toNat
    let round := fun (f : Fmt) (x : FV × Bool) => let r := f.ofFV .rne 0 x.1; (r.1, r.2 ||| flagIf x.2 flagNV)
    let fused := fun (f : Fmt) (np nq : Bool) (x y z : Nat) =>
      let p := (f.decode x).mul (f.decode y)
      let q := (if np then p.1.neg else p.1).add (if nq then (f.decode z).neg else f.decode z)
      round f (q.1, q.2 || p.2)
    let two := fun (h : Nat → Nat → Nat → Nat × BitVec 5) (l : Nat) =>
      let lo := h (A l % 65536) (B l % 65536) (D l % 65536)
      let hi := h (A l / 65536) (B l / 65536) (D l / 65536)
      (hi.1 * 65536 + lo.1, hi.2 ||| lo.2)
    ∀ p ∈ ([(.fadd d a b, fun l => round fp32 ((fp32.decode (A l)).add (fp32.decode (B l)))),
            (.fsub d a b, fun l => round fp32 ((fp32.decode (A l)).add (fp32.decode (B l)).neg)),
            (.fmul d a b, fun l => round fp32 ((fp32.decode (A l)).mul (fp32.decode (B l)))),
            (.fabsd d a b, fun l => let r := round fp32 ((fp32.decode (A l)).add (fp32.decode (B l)).neg); (r.1 % 2 ^ 31, r.2)),
            (.ffma d a b, fun l => fused fp32 false false (A l) (B l) (D l)),
            (.ffms d a b, fun l => fused fp32 false true (A l) (B l) (D l)),
            (.fnfma d a b, fun l => fused fp32 true true (A l) (B l) (D l)),
            (.fnfms d a b, fun l => fused fp32 true false (A l) (B l) (D l)),
            (.pkfma d a b, two (fused bf16 false false)),
            (.pkadd d a b, two fun x y _ => round bf16 ((bf16.decode x).add (bf16.decode y))),
            (.pkmul d a b, two fun x y _ => round bf16 ((bf16.decode x).mul (bf16.decode y))),
            (.pkfmaF16 d a b, two (fused fp16 false false))] : List (Instr × (Nat → Nat × BitVec 5))),
      p.1.wf (s.regsOf g) = true →
        Gives p.1 s c 5 (vWrites c d fun l => BitVec.ofNat 32 (p.2 l).1) (laneFlags c fun l => (p.2 l).2)

/-- R94, R149, R152. Minimum, maximum and FCMP complete after 5 cycles: FMIN and FMAX give way to a number, FMINM and FMAXM give the
canonical NaN for any NaN, -0 lies below +0; a comparison with a NaN is false but for NE and UNORD; only a NaN whose fraction MSB is 0
raises a flag, NV.

R93, R94. Every rounded result that is a NaN is the canonical NaN of its format: a NaN operand of an addition, a multiplication or a
fused multiply-add gives it, in FP32, FP16 and BF16, and raises NV only where a NaN operand has fraction MSB 0. -/
def Obligations.FloatOrderResults : Prop :=
  (∀ (s : State) (c : Issue) (g : Group) (d a b : BitVec 6) (k : BitVec 3), Issues s c g →
    let A := fun l => ((g.lane l).rv a.toNat).toNat
    let B := fun l => ((g.lane l).rv b.toNat).toNat
    let nan := fun (x : Nat) => x / 2 ^ 23 % 256 == 255 && x % 2 ^ 23 != 0
    let sig := fun (x : Nat) => nan x && x / 2 ^ 22 % 2 == 0
    let nv := fun (l : Nat) => if sig (A l) || sig (B l) then flagNV else 0
    let lt := fun (x y : Nat) => (fp32.decode x).lt (fp32.decode y)
    let eq := fun (x y : Nat) => (fp32.decode x).eq (fp32.decode y)
    let less := fun (x y : Nat) => lt x y || (eq x y && x == 2 ^ 31 && y == 0)
    let pick := fun (num big : Bool) (x y : Nat) =>
      if nan x && nan y then 0x7FC00000 else if nan x then (if num then y else 0x7FC00000)
      else if nan y then (if num then x else 0x7FC00000)
      else if big then (if less x y then y else x) else (if less y x then y else x)
    (∀ p ∈ ([(.fmin d a b, fun l => (pick true false (A l) (B l), nv l)), (.fmax d a b, fun l => (pick true true (A l) (B l), nv l)),
             (.fminm d a b, fun l => (pick false false (A l) (B l), nv l)), (.fmaxm d a b, fun l => (pick false true (A l) (B l), nv l))] :
              List (Instr × (Nat → Nat × BitVec 5))),
      p.1.wf (s.regsOf g) = true →
        Gives p.1 s c 5 (vWrites c d fun l => BitVec.ofNat 32 (p.2 l).1) (laneFlags c fun l => (p.2 l).2)) ∧
    ((Instr.fcmp d a b k).wf (s.regsOf g) = true →
      Gives (.fcmp d a b k) s c 5 (pWrites c d.toNat fun l => match k.toNat with
        | 0 => eq (A l) (B l) | 1 => !(eq (A l) (B l)) | 2 => lt (A l) (B l) && !(nan (A l)) && !(nan (B l))
        | 3 => (lt (A l) (B l) || eq (A l) (B l)) && !(nan (A l)) && !(nan (B l)) | 4 => !(nan (A l) || nan (B l)) | _ => nan (A l) || nan (B l))
        (laneFlags c nv))) ∧
  (∀ f ∈ [fp32, fp16, bf16], ∀ a b d : Nat,
    ((f.decode a).isNan = true ∨ (f.decode b).isNan = true → (f.add a b).1 = f.canon ∧ (f.sub a b).1 = f.canon ∧ (f.mul a b).1 = f.canon) ∧
    ((f.decode a).isNan = true ∨ (f.decode b).isNan = true ∨ (f.decode d).isNan = true →
      ∀ np nq, (f.fma np nq a b d).1 = f.canon) ∧
    ((f.decode a).isNan = true ∨ (f.decode b).isNan = true →
      ((f.add a b).2 = if (f.decode a).isSig || (f.decode b).isSig then flagNV else 0) ∧
      ((f.mul a b).2 = if (f.decode a).isSig || (f.decode b).isSig then flagNV else 0)) ∧
    fp32.canon = 0x7FC00000 ∧ fp16.canon = 0x7E00 ∧ bf16.canon = 0x7FC0)

/-- R93. Rounding by RNE delivers a nearest FP32 value: for every exact value (-1)^sg n 2^e whose rounding does not overflow, no finite
FP32 pattern lies nearer to it than the one delivered.

R93, R95. A value that the format represents is delivered as it is, with no flag, in every rounding mode and for every draw of SR: a
finite pattern of each format rounds to itself. -/
def Obligations.RoundingIsToNearest : Prop :=
  (∀ (sg : Bool) (n : Nat) (e : Int), n ≠ 0 → (fp32.ofFV .rne 0 (.fin sg n e)).2 &&& flagOF = 0 →
    let val := fun (v : FV) => match v with
      | .fin t m k => (if t then -(m : ℚ) else (m : ℚ)) * (2 : ℚ) ^ k
      | _ => 0
    ∀ z sz nz ez, fp32.decode z = .fin sz nz ez →
      |val (fp32.decode (fp32.ofFV .rne 0 (.fin sg n e)).1) - val (.fin sg n e)| ≤ |val (.fin sz nz ez) - val (.fin sg n e)|) ∧
  (∀ f ∈ [fp32, fp16, bf16, e4m3, e5m2, e2m1], ∀ (m : RMode) (u x : Nat), x < 2 ^ f.width →
    (∃ sg n e, f.decode x = .fin sg n e) → f.ofFV m u (f.decode x) = (x, 0))

/-- R153 to R159. The conversions and FMISC complete after 5 cycles. FCVT rounds the value of the source pattern once by its mode, SR
drawing u from the cycle, GSLOT and the lane. FRND gives the integer that its mode names, with the operand's sign and no flag; ICVTF rounds the
integer of its type once. FMISC scales with one rounding, takes apart, classifies and changes signs, a NaN giving the canonical NaN.

R97. FCVTI: a NaN gives 0 and NV; a rounded value outside the type gives the nearer end of the type and NV; any other gives the
rounded value, with NX where rounding changed it.

Model's readings: log entries 18, 20. -/
def Obligations.ConversionResults : Prop :=
  ∀ (s : State) (c : Issue) (g : Group) (d a b : BitVec 6) (sp t m : BitVec 3), Issues s c g →
    let A := fun l => (g.lane l).rv a.toNat
    let B := fun l => (g.lane l).rv b.toNat
    let nan := fun (x : Nat) => x / 2 ^ 23 % 256 = 255 ∧ x % 2 ^ 23 ≠ 0
    let quiet := fun (x : Nat) => x / 2 ^ 22 % 2 = 1
    let sign := fun (x : Nat) (neg : Bool) => if nan x then 0x7FC00000 else x % 2 ^ 31 + (if neg then 2 ^ 31 else 0)
    let val := fun (s : Bool) (n : Nat) (e : Int) => (if s then -(n : ℚ) else (n : ℚ)) * (2 : ℚ) ^ e
    let ofMode := fun (m : Nat) (x : ℚ) (v : Int) => match m with
      | 0 => |v - x| ≤ 1 / 2 ∧ (|v - x| = 1 / 2 → v % 2 = 0)
      | 1 => |(v : ℚ)| ≤ |x| ∧ |x| < |(v : ℚ)| + 1 ∧ 0 ≤ v * x
      | 2 => x ≤ v ∧ v < x + 1
      | 3 => v ≤ x ∧ x < v + 1
      | _ => |v - x| ≤ 1 / 2 ∧ (|v - x| = 1 / 2 → |x| ≤ |(v : ℚ)|)
    let holds := fun (i : Instr) (P : Nat → W32 → BitVec 5 → Prop) => i.wf (s.regsOf g) = true →
      ∃ f h, Gives i s c 5 (vWrites c d f) (laneFlags c h) ∧ ∀ l, P l (f l) (h l)
    let draw := fun (l : Nat) =>
      let h0 := BitVec.ofNat 32 (s.special g l 0x2A) ^^^ BitVec.ofNat 32 (s.special g l 0x01 * 0x9E3779B9) ^^^ BitVec.ofNat 32 (l * 0x85EBCA6B)
      let h1 := h0 ^^^ (h0 <<< 13)
      let h2 := h1 ^^^ (h1 >>> 17)
      (h2 ^^^ (h2 <<< 5)).toNat / 2 ^ 16
    let type := [((-2147483648, 2147483647) : Int × Int), (0, 4294967295), (-32768, 32767), (0, 65535), (-128, 127), (0, 255)].getD t.toNat (0, 0)
    let int := fun (x : W32) => [x.toInt, (x.toNat : Int), (x.setWidth 16).toInt, ((x.setWidth 16).toNat : Int), (x.setWidth 8).toInt,
      ((x.setWidth 8).toNat : Int)].getD t.toNat 0
    holds (.fcvt d a sp t m) (fun l r x =>
      let y := (fmtOf t.toNat).ofFV (RMode.ofCode m.toNat) (draw l) ((fmtOf sp.toNat).decode ((A l).toNat % 2 ^ (fmtOf sp.toNat).width))
      r = BitVec.ofNat 32 y.1 ∧ x = y.2) ∧
    holds (.frnd d a m) (fun l r x =>
      (∀ sig, fp32.decode (A l).toNat = .nan sig → r = 0x7FC00000#32 ∧ x = if sig then flagNV else 0) ∧
      (∀ sg, fp32.decode (A l).toNat = .inf sg → r = A l ∧ x = 0) ∧
      (∀ sg n e, fp32.decode (A l).toNat = .fin sg n e →
        ∃ k q v, fp32.decode r.toNat = .fin sg k q ∧ val sg k q = ((v : Int) : ℚ) ∧ ofMode m.toNat (val sg n e) v ∧ x = 0)) ∧
    holds (.fcvti d a t m) (fun l r x =>
      (∀ sig, fp32.decode (A l).toNat = .nan sig → r = 0 ∧ x = flagNV) ∧
      (∀ sg, fp32.decode (A l).toNat = .inf sg → r = BitVec.ofInt 32 (if sg then type.1 else type.2) ∧ x = flagNV) ∧
      (∀ sg n e, fp32.decode (A l).toNat = .fin sg n e → ∃ v, ofMode m.toNat (val sg n e) v ∧
        (type.2 < v → r = BitVec.ofInt 32 type.2 ∧ x = flagNV) ∧ (v < type.1 → r = BitVec.ofInt 32 type.1 ∧ x = flagNV) ∧
        (type.1 ≤ v → v ≤ type.2 → r = BitVec.ofInt 32 v ∧ x = if val sg n e = (v : ℚ) then 0 else flagNX))) ∧
    holds (.icvtf d a t m) (fun l r x =>
      let y := fp32.ofFV (RMode.ofCode m.toNat) 0 (.fin (decide (int (A l) < 0)) (int (A l)).natAbs 0)
      r = BitVec.ofNat 32 y.1 ∧ x = y.2) ∧
    holds (.fscaleb d a b) (fun l r x =>
      (nan (A l).toNat → r = 0x7FC00000#32 ∧ x = 0) ∧
      (∀ sg, fp32.decode (A l).toNat = .inf sg → r = A l ∧ x = 0) ∧
      (∀ sg n e, fp32.decode (A l).toNat = .fin sg n e → (n = 0 → r = A l ∧ x = 0) ∧
        (n ≠ 0 → let y := fp32.ofFV .rne 0 (.fin sg n (e + (B l).toInt)); r = BitVec.ofNat 32 y.1 ∧ x = y.2))) ∧
    holds (.frexpe d a) (fun l r x => x = 0 ∧ ((A l).toNat % 2 ^ 31 = 0 → r = 0x80000000#32) ∧
      ((A l).toNat / 2 ^ 23 % 256 = 255 → r = 0x7FFFFFFF#32) ∧
      ∀ sg n e, fp32.decode (A l).toNat = .fin sg n e → n ≠ 0 →
        ∃ k : Int, r = BitVec.ofInt 32 k ∧ (2 : ℚ) ^ k ≤ |val sg n e| ∧ |val sg n e| < (2 : ℚ) ^ (k + 1)) ∧
    holds (.frexpm d a) (fun l r x => x = 0 ∧ (nan (A l).toNat → r = 0x7FC00000#32) ∧
      ((A l).toNat % 2 ^ 31 = 0 ∨ (A l).toNat % 2 ^ 31 = 0x7F800000 → r = A l) ∧
      ∀ sg n e, fp32.decode (A l).toNat = .fin sg n e → n ≠ 0 → ∃ p q, ∃ k : Int, fp32.decode r.toNat = .fin sg p q ∧
        1 ≤ |val sg p q| ∧ |val sg p q| < 2 ∧ val sg n e = val sg p q * (2 : ℚ) ^ k) ∧
    holds (.fclass d a) (fun l r x => let y := (A l).toNat
      x = 0 ∧ r = BitVec.ofNat 32 (2 ^ (if y = 0 then 0 else if y = 2 ^ 31 then 1 else if y < 2 ^ 23 then 2
        else if 2 ^ 31 < y ∧ y < 2 ^ 31 + 2 ^ 23 then 3 else if y < 0x7F800000 then 4 else if 2 ^ 31 < y ∧ y < 0xFF800000 then 5
        else if y = 0x7F800000 then 6 else if y = 0xFF800000 then 7 else if quiet y then 8 else 9))) ∧
    holds (.fsgnj d a b) (fun l r x => r = BitVec.ofNat 32 (sign (A l).toNat (B l).msb) ∧ x = 0) ∧
    holds (.fsgnjn d a b) (fun l r x => r = BitVec.ofNat 32 (sign (A l).toNat (!(B l).msb)) ∧ x = 0) ∧
    holds (.fabs d a) (fun l r x => r = BitVec.ofNat 32 (sign (A l).toNat false) ∧ x = 0) ∧
    holds (.fneg d a) (fun l r x => r = BitVec.ofNat 32 (sign (A l).toNat (!(A l).msb)) ∧ x = 0)

/-- R100, R101, R160, R161. The special functions complete after 12 cycles (SFU) or 24 (FDIVX), with one result and its flags for each
lane. FDIV rounds the exact quotient and FSQRT delivers the FP32 value that lies nearest to the root, with NX where it is not the root itself;
FRCP of a normal value lies within 1 ulp and FRSQ within 2 ulp of the exact value. Operands without a finite result, and those that the spec names exact,
give the results listed; FSINCOS.T gives what FSINT and FCOST give, and the flags of both.

Which value the others deliver is free: log entry 21. Model's readings: log entries 19, 22. -/
def Obligations.SpecialFunctionResults : Prop :=
  ∀ (s : State) (c : Issue) (g : Group) (d a b : BitVec 6), Issues s c g →
    let A := fun l => (g.lane l).rv a.toNat
    let val := fun (s : Bool) (n : Nat) (e : Int) => (if s then -(n : ℚ) else (n : ℚ)) * (2 : ℚ) ^ e
    let gives := fun (i : Instr) (lat : Nat) (f : W32 → Nat × BitVec 5) => i.wf (s.regsOf g) = true →
      Gives i s c lat (vWrites c d fun l => BitVec.ofNat 32 (f (A l)).1) (laneFlags c fun l => (f (A l)).2)
    let special := fun (f : W32 → Nat × BitVec 5) (xs : List (Nat × Nat × BitVec 5)) => ∀ x ∈ xs, f (BitVec.ofNat 32 x.1) = (x.2.1, x.2.2)
    let ofNan := fun (f : W32 → Nat × BitVec 5) => ∀ x sig, fp32.decode x.toNat = .nan sig → f x = (0x7FC00000, if sig then flagNV else 0)
    let finite := fun (f : W32 → Nat × BitVec 5) (p : ℚ → Prop) (q : ℚ → ℚ → BitVec 5 → Prop) => ∀ (x : W32) sg n e, fp32.decode x.toNat = .fin sg n e →
      p (val sg n e) → ∃ tg k j, fp32.decode (f x).1 = .fin tg k j ∧ q (val sg n e) (val tg k j) (f x).2
    (∃ f, gives (.fsqrt d a) 12 f ∧ ofNan f ∧ special f [(0, 0, 0), (2 ^ 31, 2 ^ 31, 0), (0x7F800000, 0x7F800000, 0), (0xFF800000, 0x7FC00000, flagNV)] ∧
      (∀ (x : W32) n e, fp32.decode x.toNat = .fin true n e → n ≠ 0 → f x = (0x7FC00000, flagNV)) ∧
      finite f (fun x => 0 < x) fun x r fl => 0 < r ∧ (fl = if r * r = x then 0 else flagNX) ∧
        ∀ z sz nz ez, fp32.decode z = .fin sz nz ez → 0 ≤ val sz nz ez →
          (r < val sz nz ez → x < ((r + val sz nz ez) / 2) ^ 2) ∧ (val sz nz ez < r → ((r + val sz nz ez) / 2) ^ 2 < x)) ∧
    (∃ r : W32 → W32 → Nat × BitVec 5, ((Instr.fdiv d a b).wf (s.regsOf g) = true → Gives (.fdiv d a b) s c 24
        (vWrites c d fun l => BitVec.ofNat 32 (r (A l) ((g.lane l).rv b.toNat)).1) (laneFlags c fun l => (r (A l) ((g.lane l).rv b.toNat)).2)) ∧
      ∀ x y : W32, match fp32.decode x.toNat, fp32.decode y.toNat with
        | .nan p, .nan q => r x y = (0x7FC00000, if p || q then flagNV else 0)
        | .nan p, _ => r x y = (0x7FC00000, if p then flagNV else 0)
        | _, .nan q => r x y = (0x7FC00000, if q then flagNV else 0)
        | .inf _, .inf _ => r x y = (0x7FC00000, flagNV)
        | .inf t, .fin u _ _ => r x y = (if t != u then 0xFF800000 else 0x7F800000, 0)
        | .fin t _ _, .inf u => r x y = (if t != u then 2 ^ 31 else 0, 0)
        | .fin t m e, .fin u n k =>
          if m = 0 ∧ n = 0 then r x y = (0x7FC00000, flagNV)
          else if n = 0 then r x y = (if t != u then 0xFF800000 else 0x7F800000, flagDZ)
          else if m = 0 then r x y = (if t != u then 2 ^ 31 else 0, 0)
          else r x y = fp32.round .rne 0 (t != u) m n (e - k)) ∧
    (∃ f, gives (.frcp d a) 12 f ∧ ofNan f ∧ special f [(0, 0x7F800000, flagDZ), (2 ^ 31, 0xFF800000, flagDZ), (0x7F800000, 0, 0),
        (0xFF800000, 2 ^ 31, 0), (0x3F800000, 0x3F800000, 0), (0x40000000, 0x3F000000, 0)] ∧
      finite f (fun x => (2 : ℚ) ^ (-126 : Int) ≤ |x|) fun x r _ =>
        ∀ k : Int, (2 : ℚ) ^ k ≤ |x⁻¹| → |x⁻¹| < (2 : ℚ) ^ (k + 1) → |r - x⁻¹| ≤ (2 : ℚ) ^ (max (k - 23) (-149))) ∧
    (∃ f, gives (.frsq d a) 12 f ∧ ofNan f ∧ special f [(0, 0x7F800000, flagDZ), (2 ^ 31, 0xFF800000, flagDZ), (0x7F800000, 0, 0),
        (0xFF800000, 0x7FC00000, flagNV), (0xBF800000, 0x7FC00000, flagNV)] ∧
      finite f (fun x => 0 < x) fun x r _ => ∀ k : Int, (2 : ℚ) ^ (2 * k) ≤ x⁻¹ → x⁻¹ < (2 : ℚ) ^ (2 * k + 2) →
        let u := (2 : ℚ) ^ (k - 22)
        u < r ∧ (r - u) ^ 2 * x ≤ 1 ∧ 1 ≤ (r + u) ^ 2 * x) ∧
    (∃ f, gives (.fexp2 d a) 12 f ∧ ofNan f ∧ special f [(0x7F800000, 0x7F800000, 0), (0xFF800000, 0, 0), (0, 0x3F800000, 0), (0x40000000, 0x40800000, 0)]) ∧
    (∃ f, gives (.flog2 d a) 12 f ∧ ofNan f ∧ special f [(0, 0xFF800000, flagDZ), (2 ^ 31, 0xFF800000, flagDZ), (0x7F800000, 0x7F800000, 0),
      (0xFF800000, 0x7FC00000, flagNV), (0xBF800000, 0x7FC00000, flagNV), (0x40800000, 0x40000000, 0)]) ∧
    (∃ f h, gives (.fsint d a) 12 f ∧ ofNan f ∧ special f [(0x7F800000, 0x7FC00000, flagNV), (0xFF800000, 0x7FC00000, flagNV), (2 ^ 31, 2 ^ 31, 0),
        (0, 0, 0), (0x3F000000, 0, 0), (0x3E800000, 0x3F800000, 0), (0x3E000000, 0x3F3504F3, flagNX)] ∧
      gives (.fcost d a) 12 h ∧ ofNan h ∧ special h [(0x7F800000, 0x7FC00000, flagNV), (0xFF800000, 0x7FC00000, flagNV), (0, 0x3F800000, 0),
        (0x3E800000, 0, 0), (0x3F000000, 0xBF800000, 0), (0x3E000000, 0x3F3504F3, flagNX)] ∧
      ((Instr.fsincosT d a).wf (s.regsOf g) = true → Gives (.fsincosT d a) s c 24
        ((lanesOf c.mask).flatMap fun l => [.v l d.toNat (BitVec.ofNat 32 (f (A l)).1), .v l (d.toNat + 1) (BitVec.ofNat 32 (h (A l)).1)])
        (laneFlags c fun l => (f (A l)).2 ||| (h (A l)).2))) ∧
    (∃ f, gives (.ftanh d a) 12 f ∧ ofNan f ∧ special f [(0x7F800000, 0x3F800000, 0), (0xFF800000, 0xBF800000, 0), (0, 0, 0), (2 ^ 31, 2 ^ 31, 0)]) ∧
    (∃ f, gives (.ferf d a) 24 f ∧ ofNan f ∧ special f [(0x7F800000, 0x3F800000, 0), (0xFF800000, 0xBF800000, 0), (0, 0, 0), (2 ^ 31, 2 ^ 31, 0)])

/-- R66. A fixed-latency result that is due is written to its register, in the lanes that it still names and in no other place: every other
V register, P register, PC, lane state, S register and byte of memory is unchanged, and its flags are ORed into GST.

R66. A fixed-latency result whose cycle has not come is not written: RESULT_WRITE leaves the group as it is.

The model's event for a write: log entry 11. -/
def Obligations.DueResultIsWritten : Prop :=
  (∀ (s : State) (g : Group) (o : Outst) (m : BitVec 32) (d : Nat) (f : Nat → W32) (x : BitVec 5),
    s.group? s.ev.id = some g → s.ev.sub = 0 → g.frozen = false → g.outs = [o] → o.kind = .fixed → o.due ≤ s.cycleOn g.die →
    o.writes = (lanesOf m).map (fun l => .v l d (f l)) → o.flags = (lanesOf m).map (fun l => (l, x)) →
    g.lanes.length = 32 → (∀ l < 32, d < (g.lane l).v.length) →
    ∃ t g', exec .resultWrite s = .next t ∧ t.group? s.ev.id = some g' ∧ g'.outs = [] ∧
      (∀ l < 32, ∀ r, (g'.lane l).rv r = if m.getLsbD l && o.mask.getLsbD l && decide (r = d) then f l else (g.lane l).rv r) ∧
      (∀ l, (g'.lane l).p = (g.lane l).p ∧ (g'.lane l).pc = (g.lane l).pc ∧ (g'.lane l).st = (g.lane l).st ∧ (g'.lane l).lr = (g.lane l).lr) ∧
      g'.s = g.s ∧ g'.gst = (if m &&& o.mask = 0 then g.gst else orFlags g.gst x) ∧ g'.cause = g.cause ∧ g'.rgn = g.rgn ∧ g'.jc = g.jc ∧
      (∀ h, h ≠ s.ev.id → t.group? h = s.group? h) ∧ (∀ a, SameByte s t a)) ∧
  (∀ (s : State) (g : Group), s.group? s.ev.id = some g → s.ev.sub = 0 → (∀ o ∈ g.outs, o.kind = .fixed → s.cycleOn g.die < o.due) →
    ∃ t, exec .resultWrite s = .next t ∧ t.group? s.ev.id = some g ∧ ∀ a, SameByte s t a)

/-- R62, R65. An instruction that gives a result changes nothing but its group's outstanding results when it issues: every register, flag,
PC, special and exception register of every group, and every byte of memory, is unchanged until the result is written.

R99, R116, R128, R160, R161, R164, R168. Each arithmetic, conversion, special-function, lane and move instruction whose fields R71 allows completes so, with one
result, due the cycles after its issue that its row gives, that names only lanes of Active(g); a divide awaits the divider. -/
def Obligations.ResultFormsFrame : Prop :=
  (∀ (k : OutKind) (i : Instr) (s : State) (c : Issue) (lat : Nat) (ws : List RegWrite) (fs : List (Nat × BitVec 5)),
    GivesKind k i s c lat ws fs → ∃ t, exec i s = .next t ∧ (∀ a, SameByte s t a) ∧ SameMemory s t ∧
      (∀ h, (t.group? h).map (fun g => (g.lanes, g.s, g.jc, g.ejt, g.gst, g.rgn, g.cause, g.tfp)) =
            (s.group? h).map (fun g => (g.lanes, g.s, g.jc, g.ejt, g.gst, g.rgn, g.cause, g.tfp))) ∧
      t.bands = s.bands ∧ t.kernels = s.kernels ∧ t.ctxs = s.ctxs ∧ t.sync = s.sync ∧ t.mats = s.mats ∧ t.tab = s.tab ∧ t.obs = s.obs ∧
      t.out = s.out) ∧
  ∀ (s : State) (c : Issue) (g : Group) (d a b sp : BitVec 6) (f m q : BitVec 3) (h n : BitVec 1) (k : BitVec 5) (i : BitVec 9) (w : BitVec 15)
    (x : BitVec 32), Issues s c g →
    let completes := fun (kind : OutKind) (lat : Nat) (is : List Instr) => ∀ i ∈ is, i.wf (s.regsOf g) = true → ∃ ws fs, GivesKind kind i s c lat ws fs ∧
      (∀ l r v, RegWrite.v l r v ∈ ws → l < 32 ∧ c.mask.getLsbD l = true) ∧ (∀ l r v, RegWrite.p l r v ∈ ws → l < 32 ∧ c.mask.getLsbD l = true) ∧
      ∀ e ∈ fs, e.1 < 32 ∧ c.mask.getLsbD e.1 = true
    completes .fixed 4 [.iadd d a b, .isub d a b, .imin d a b, .imax d a b, .iminu d a b, .imaxu d a b, .iabsd d a b, .iaddc d a b] ∧
    completes .fixed 5 [.imul d a b, .imulh d a b, .imulhu d a b, .imad d a b] ∧
    completes .divide 1 [.idiv d a b, .idivu d a b, .irem d a b, .iremu d a b] ∧
    completes .fixed 4 [.andd d a b, .orr d a b, .xor d a b, .andn d a b, .orn d a b, .xnor d a b, .notb d a, .shl d a b, .shr d a b, .sar d a b,
      .rol d a b, .ror d a b, .fshl d a b, .fshr d a b, .clz d a, .ctz d a, .popc d a, .brev d a, .bitil d a sp, .bitdl d a sp, .bytep d a b,
      .bfe d a b, .bfeu d a b, .bfi d a b] ∧
    completes .fixed 4 [.icmp d a b f, .iaddi d a i, .iandi d a i, .iori d a i, .ixori d a i, .shli d a k, .shri d a k, .sari d a k, .roli d a k,
      .icmpi f q a i, .lea d a b f, .movi d w, .movl d x, .movlSx d x, .movlZx d x, .movlHi d x] ∧
    completes .fixed 5 [.fadd d a b, .fsub d a b, .fmul d a b, .fmin d a b, .fmax d a b, .fminm d a b, .fmaxm d a b, .fabsd d a b, .ffma d a b,
      .ffms d a b, .fnfma d a b, .fnfms d a b, .pkfma d a b, .pkadd d a b, .pkmul d a b, .pkfmaF16 d a b, .fcmp d a b f] ∧
    completes .fixed 5 [.fcvt d a f q m, .frnd d a m, .fcvti d a f m, .icvtf d a f m, .fscaleb d a b, .frexpe d a, .frexpm d a, .fclass d a,
      .fsgnj d a b, .fsgnjn d a b, .fabs d a, .fneg d a] ∧
    completes .fixed 12 [.frcp d a, .frsq d a, .fsqrt d a, .fexp2 d a, .flog2 d a, .fsint d a, .fcost d a, .ftanh d a] ∧
    completes .fixed 24 [.fdiv d a b, .fsincosT d a, .ferf d a] ∧
    completes .fixed 6 [.shflIdx d a b, .shflUp d a b, .shflDown d a b, .shflXor d a b, .voteAll d a, .voteAny d a, .voteBal d a, .matchLanes d a,
      .lredAdd d a, .lredMin d a, .lredMax d a, .lscanAdd d a] ∧
    completes .fixed 4 [.mov d a, .movs d a h, .smov d a, .smovs d a, .sel d a n f, .pmovPFromV d a, .pmovVFromP d a] ∧
    completes .fixed 4 [.sadd d a b, .ssub d a b, .sand d a b, .sor d a b, .sxor d a b, .sshl d a b, .sshr d a b, .smul d a b, .saddi d a i, .scmp d a b f] ∧
    (i.toNat < 0x100 ∨ g.firmware = true → completes .fixed 4 [.sread d h n i])

/-- R71, R81, R82. An ill-formed instruction of a program raises ILLEGAL, and nothing of it is executed; a transfer whose target is
misaligned raises PC_ALIGN, which ranks first.

R78, R81. Words that no row of the opcode map matches raise ILLEGAL when they are issued.

R81, R387. Outside firmware mode the PRIV minors, HALT, IDLE and SWRITE to a system register raise PRIV and have no other effect. -/
def Obligations.IllFormedRaisesIllegal : Prop :=
  (∀ (i : Instr) (s : State) (c : Issue) (g : Group), isEvent i = false → Issues s c g → i.wf (s.regsOf g) = false →
    exec i s = .next (s.takeTrap c g fcIllegal 0 0) ∨ exec i s = .next (s.takeTrap c g fcPcAlign 0 0)) ∧
  (∀ (s : State) (c : Issue) (g : Group) (m : W32 × W32 × W32 × W32), Issues s c g → decodeWords m.2.2.1 m.2.2.2 = .error .noRow →
    s.runMember m = .next (({ s with cur := some (c.withMember m) } : State).takeTrap (c.withMember m) g fcIllegal 0 0)) ∧
  (∀ (s : State) (c : Issue) (g : Group) (d a : BitVec 6) (k h : BitVec 1) (n : BitVec 9), Issues s c g → g.firmware = false →
    ∀ i ∈ ([.halt, .idle, .segld d a, .heapld d a, .tlbinv d a, .rtswapWrite d a, .rtswapRead, .rtswapSwap, .keysel d a,
            .divinstInstall d a, .divinstLink, .divinstDrain, .divinstRemove, .divinstRead, .ctxctlHold d a, .ctxctlUnhold, .ctxctlSave,
            .ctxctlRestore, .ctxctlRelease, .ctxctlKill, .ctxctlServe, .ctxctlDecline, .ctxctlFwret, .ctxctlReset, .swrite d k h n,
            .swriteRafbase d k h, .swriteClkmode d k h] : List Instr),
      i.wf (s.regsOf g) = true → exec i s = .next (s.takeTrap c g fcPriv 0 0))

/-- Nothing is refused and no step stops: every step of every state answers a next state.

An instruction of a program executed with no group that issues it stops with `noIssue`, the model's one fault.

The fault and the latch are the model's own: log entries 6, 9. -/
def Obligations.EveryStepGoesOn : Prop :=
  (∀ s : State, ∃ t, step s = .next t) ∧
  (∀ (i : Instr) (s : State), isEvent i = false → s.cur = none → exec i s = .fault .noIssue)

/-- R62. The issue latch is empty between steps: a step that starts with it empty ends with it empty, so that no chain is ever left part
issued.

The latch is the model's own: log entry 9. -/
def Obligations.StepsKeepLatchEmpty : Prop :=
  ∀ s t : State, s.cur = none → step s = .next t → t.cur = none

/-- R169 to R172. BR and CALL send the lanes whose predicate holds to PC + SX(O) and the others to the next PC; BRU takes the predicate of
the lowest lane for all; JMPX and RET take V[A] and LR; CALL brings LR := next PC 4 cycles later to the lanes that take it.

R170 to R172. A transfer sets the PC of each lane of Active(g) and of no other, and nothing else of the group. -/
def Obligations.BranchesTransfer : Prop :=
  (∀ (s : State) (c : Issue) (g : Group) (k : BitVec 4) (o : BitVec 17) (a : BitVec 6), Issues s c g →
    let takes := fun l => (g.lane l).rp (k.toNat % 8) != k.getLsbD 3
    let low := (lanesOf c.mask).headD 0
    let goal := c.pc + o.signExtend 32
    let some_ := ∃ l < 32, c.mask.getLsbD l = true ∧ takes l = true
    ((Instr.br k o).wf (s.regsOf g) = true → (some_ → goal.toNat % 4 ≠ 3) →
      exec (.br k o) s = .next (s.transfer c fun l => if takes l then goal else c.npc)) ∧
    ((Instr.bru k o).wf (s.regsOf g) = true → c.mask ≠ 0 → (takes low = true → goal.toNat % 4 ≠ 3) →
      exec (.bru k o) s = .next (s.transfer c fun _ => if takes low then goal else c.npc)) ∧
    ((Instr.call k o).wf (s.regsOf g) = true → (some_ → goal.toNat % 4 ≠ 3) →
      ∃ u, u = s.postFixed c g 4 (((lanesOf c.mask).filter takes).map fun l => .lr l c.npc) ∧
        exec (.call k o) s = .next (u.transfer c fun l => if takes l then goal else c.npc)) ∧
    ((Instr.jmpx a).wf (s.regsOf g) = true → (∀ l < 32, c.mask.getLsbD l = true → ((g.lane l).rv a.toNat).toNat % 4 ≠ 3) →
      exec (.jmpx a) s = .next (s.transfer c fun l => (g.lane l).rv a.toNat)) ∧
    (Instr.ret.wf (s.regsOf g) = true → (∀ l < 32, c.mask.getLsbD l = true → (g.lane l).lr.toNat % 4 ≠ 3) →
      exec .ret s = .next (s.transfer c fun l => (g.lane l).lr))) ∧
  (∀ (s : State) (c : Issue) (g : Group) (f : Nat → W32), s.group? c.gid = some g → g.lanes.length = 32 →
    ∃ g', (s.transfer c f).group? c.gid = some g' ∧
      (∀ l < 32, g'.lane l = if c.mask.getLsbD l then { g.lane l with pc := f l } else g.lane l) ∧
      g'.s = g.s ∧ g'.gst = g.gst ∧ g'.outs = g.outs ∧ g'.jc = g.jc ∧ g'.rgn = g.rgn ∧ SameMemory s (s.transfer c f))

/-- R42, R174. BRJ ejects the lanes that take it where the spec allows: they become EJECTED, their join counter rises by their number, each leaves a
record with its registers and the target as its PC in the core's pool, and the other lanes of Active(g) go to the next PC. Otherwise it branches as BR
does. -/
def Obligations.BrjEjectsOrBranches : Prop :=
  ∀ (s : State) (c : Issue) (g : Group) (k : BitVec 4) (j : BitVec 2) (o : BitVec 15), Ready (.brj k j o) s c g →
    let ls := (lanesOf c.mask).filter fun l => (g.lane l).rp (k.toNat % 8) != k.getLsbD 3
    let goal := c.pc + o.signExtend 32
    (ls ≠ [] → goal.toNat % 4 ≠ 3) →
    (s.ejects g ls = false → exec (.brj k j o) s = .next (s.transfer c fun l => if l ∈ ls then goal else c.npc)) ∧
    (s.ejects g ls = true → g.lanes.length = 32 → g.jc.length = 4 →
      ∃ t g', exec (.brj k j o) s = .next t ∧ t.group? c.gid = some g' ∧
        (∀ l < 32, (g'.lane l).st = if l ∈ ls then .ejected else (g.lane l).st) ∧
        (∀ l < 32, l ∉ ls → c.mask.getLsbD l = true → (g'.lane l).pc = c.npc) ∧
        (∀ n < 4, g'.jc.getD n 0 = g.jc.getD n 0 + if n = j.toNat then ls.length else 0) ∧
        (∀ l ∈ ls, (g'.lane l).pc = c.pc) ∧
        (∃ rs, t.pool = s.pool ++ rs ∧ rs.length = ls.length ∧ ∀ (i : Nat) (r : PoolRec), rs[i]? = some r → ∃ l, ls[i]? = some l ∧ r.die = g.die ∧
          r.core = g.core ∧ r.band = g.band ∧ r.pc = goal ∧ r.v = (g.lane l).v ∧ r.p = (g.lane l).p ∧ r.origin = .cont c.gid l j.toNat ∧
          r.place = .waiting) ∧ SameMemory s t)

/-- R46, R176. JOIN n acts on the lanes of Active(g) in ascending order, and RECONV has no effect of its own. In a home lane whose counter is 0
the lane goes on and wakes the lanes that wait for n; otherwise it waits. A continuation's lane exits and hands its registers to its home
lane, whose counter falls by one and which wakes at 0. A detached lane goes on.

R39, R177, R249. EXIT flushes the atomic buffer, then each lane of Active(g) exits; an exiting continuation makes its home lane exit and pays
the join counter that its BRJ raised. A group all of whose lanes have exited, and whose accesses have been performed, retires. -/
def Obligations.JoinMeetsHome : Prop :=
  (∀ (s : State) (c : Issue) (g : Group) (n : BitVec 6), Ready (.join n) s c g →
    exec (.join n) s = .next ((((lanesOf c.mask).foldl (fun s l => s.joinLane c n.toNat l) s).stay).retire c.gid) ∧
    exec .reconv s = .next s ∧
    ∀ l < 32, g.lanes.length = 32 → g.jc.length = 4 →
      let x := g.lane l
      let t := s.joinLane c n.toNat l
      (x.origin = .home → g.jc.getD n.toNat 0 ≠ 0 → ∃ g', t.group? c.gid = some g' ∧
        g'.lane l = { x with pc := c.npc, st := .joinwait, jsel := BitVec.ofNat 2 n.toNat } ∧ ∀ m, m ≠ l → g'.lane m = g.lane m) ∧
      (x.origin = .home → g.jc.getD n.toNat 0 = 0 → x.st = .active → ∃ g', t.group? c.gid = some g' ∧ g'.lane l = { x with pc := c.npc } ∧
        ∀ m < 32, m ≠ l → (g'.lane m).st =
          if (g.lane m).st = .joinwait ∧ (g.lane m).jsel.toNat = n.toNat then .active else (g.lane m).st) ∧
      (∀ h k j hg, x.origin = .cont h k j → h ≠ c.gid → s.group? h = some hg → hg.holds = false → hg.lanes.length = 32 → hg.jc.length = 4 →
        k < 32 → ∃ g' h', t.group? c.gid = some g' ∧ (g'.lane l).st = .exited ∧ t.group? h = some h' ∧
          (h'.lane k).v = x.v ∧ (h'.lane k).p = x.p ∧ (h'.lane k).pc = c.npc ∧ h'.jc.getD n.toNat 0 = hg.jc.getD n.toNat 0 - 1 ∧
          (h'.lane k).st = if hg.jc.getD n.toNat 0 ≤ 1 then .active else .joinwait) ∧
      (x.origin = .detached → ∃ g', t.group? c.gid = some g' ∧ g'.lane l = { x with pc := c.npc })) ∧
  (∀ (s : State) (c : Issue) (g : Group), Ready .exit s c g →
    exec .exit s = .next ((((lanesOf c.mask).foldl (fun s l => s.exitLane c l) (s.flushReds c.gid g.reds.length)).stay).retire c.gid) ∧
    ∀ (u : State) (x : Group) (l : Nat), u.group? c.gid = some x → x.lanes.length = 32 → l < 32 →
      let t := u.exitLane c l
      ((∀ h k j, (x.lane l).origin ≠ .cont h k j) → ∃ x', t.group? c.gid = some x' ∧ (x'.lane l).st = .exited ∧ ∀ m, m ≠ l → x'.lane m = x.lane m) ∧
      (∀ h k j hg, (x.lane l).origin = .cont h k j → h ≠ c.gid → u.group? h = some hg → hg.holds = false → hg.lanes.length = 32 →
        hg.jc.length = 4 → j < 4 → k < 32 → hg.allExited = false → (∃ m < 32, m ≠ k ∧ (hg.lane m).st ≠ .exited) →
        ∃ x' h', t.group? c.gid = some x' ∧ (x'.lane l).st = .exited ∧ t.group? h = some h' ∧ (h'.lane k).st = .exited ∧
          h'.jc.getD j 0 = hg.jc.getD j 0 - 1)) ∧
  (∀ (s : State) (h : Group), s.group? h.gid = some h →
    (h.allExited = false → s.retire h.gid = s) ∧
    (h.allExited = true → h.reds = [] → (∃ a ∈ s.mem.accs, a.gid = h.gid) → ((s.retire h.gid).group? h.gid).isSome = true) ∧
    (h.allExited = true → h.reds = [] → (∀ a ∈ s.mem.accs, a.gid ≠ h.gid) → (s.retire h.gid).group? h.gid = none))

/-- R48, R178. SPAWN starts one detached thread for each lane of Active(g), or none: REFUSED where the band has no continuation slots, NOSLOT
where the pool has no room for all of them, else OK with a record for each lane.

R179, R183, R387, R388. SETEJT writes EJT; NOP does nothing; in firmware mode HALT stops the group's issue, and IDLE waits unless the firmware
event queue of its die holds an event; FWCALL tells the die's firmware and waits; HALT_RESTART lets a halted group go on. Nothing else of the
group changes.

Model's choices: the order of the two statuses, log entry 89; what IDLE takes, log entry 113. -/
def Obligations.SpawnAnswersStatus : Prop :=
  (∀ (s : State) (c : Issue) (g : Group) (x : Band) (d a b : BitVec 6), Ready (.spawn d a b) s c g → s.band? g.band = some x →
    (∀ l < 32, c.mask.getLsbD l = true → ((g.lane l).rv a.toNat).toNat % 4 ≠ 3) →
    let status := fun (n : Nat) => statusWrites c.mask d.toNat n
    (x.contEver = false → GivesKind .unit (.spawn d a b) s c 1 (status stRefused) []) ∧
    (x.contEver = true → s.poolHas g.die g.core (lanesOf c.mask).length = false → GivesKind .unit (.spawn d a b) s c 1 (status stNoslot) []) ∧
    (x.contEver = true → s.poolHas g.die g.core (lanesOf c.mask).length = true →
      ∃ t g' o, exec (.spawn d a b) s = .next t ∧ t.group? c.gid = some g' ∧ g'.outs = g.outs ++ [o] ∧ o.writes = status stOk ∧
        g'.lanes = g.lanes ∧ g'.s = g.s ∧ t.pool.length = s.pool.length + (lanesOf c.mask).length ∧ SameMemory s t)) ∧
  (∀ (s : State) (c : Issue) (g : Group) (m : BitVec 6) (k : BitVec 18), Issues s c g →
    let only := fun (t : State) (g' : Group) => t.group? c.gid = some g' ∧ SameMemory s t ∧ ∀ h, h ≠ c.gid → t.group? h = s.group? h
    ((Instr.setejt m).wf (s.regsOf g) = true → ∃ t, exec (.setejt m) s = .next t ∧ only t { g with ejt := m.toNat }) ∧
    exec .nop s = .next s ∧
    (g.firmware = true → ∃ t, exec .halt s = .next t ∧ only t { g with blocked := some .halt }) ∧
    (g.firmware = true → (∃ e ∈ s.tab.fwq, e.die = g.die) → exec .idle s = .next s) ∧
    (g.firmware = true → (∀ e ∈ s.tab.fwq, e.die ≠ g.die) → ∃ t, exec .idle s = .next t ∧ only t { g with blocked := some .idle }) ∧
    (g.firmware = false → g.blocked ≠ some .idle → ∃ t e, exec (.fwcall k) s = .next t ∧
      t.group? c.gid = some { g with blocked := some .fwcall } ∧ t.tab.fwq = s.tab.fwq ++ [e] ∧ e.die = g.die ∧
      e.words.drop 3 = [k.setWidth 64, g.rs 1, g.rs 2, g.rs 3, g.rs 4] ∧ SameMemory s t) ∧
    (g.firmware = true → exec (.fwcall k) s = .next (s.takeTrap c g fcIllegal 0 0)) ∧
    (s.ev.id = c.gid → ∃ t g', exec .haltRestart s = .next t ∧ t.group? c.gid = some g' ∧
      g'.blocked = if g.blocked = some .halt then none else g.blocked))

/-- R365, R367, R387. TRAP, BKPT, UNDEF and major 0x3F of a group that has a handler begin its trap: the trap holds the code, the TCODE, the PC of the
instruction and Active(g); no register changes; and where the group awaits nothing, the handler is entered at once. TRAP raises TRAP with its
immediate as TCODE, the lanes' PCs standing past it; BKPT without a debug session raises BKPT, and with one halts the group; UNDEF and major 0x3F
raise ILLEGAL; ERET outside the handler raises ILLEGAL.

R367. A trap with nothing in flight enters its handler at once: the frame stands at TFP, S30 holds TFP and S31 the code and TCODE, every lane is
ACTIVE at the handler PC, the region stack is empty and the outstanding results have become the replay queue.

Model's readings: log entries 10, 12, 13. -/
def Obligations.SoftwareTraps : Prop :=
  (∀ (s : State) (c : Issue) (g : Group) (k : BitVec 18) (x : BitVec 21), Issues s c g →
    (exec (.trap k) s = .next ((s.modGroup c.gid fun g =>
      (lanesOf c.mask).foldl (fun g l => g.modLane l fun y => { y with pc := c.npc }) g).takeTrap c g fcTrap k 0)) ∧
    (∀ h, s.handlerPc g = some h → g.handler = false → s.allBack g = false → g.lanes.length = 32 →
      ∀ p ∈ ([(.trap k, fcTrap, k), (.undef k, fcIllegal, 0), (.undefMajor x, fcIllegal, 0)] ++
              (if s.debugged (s.ctxOf g) then [] else [(.bkpt k, fcBkpt, k)]) : List (Instr × Byte × BitVec 18)),
        ∃ t g' w, exec p.1 s = .next t ∧ t.group? c.gid = some g' ∧ g'.trapping = some w ∧ w.code = p.2.1 ∧ w.tcode = p.2.2 ∧ w.fpc = c.pc ∧
          w.lanes = c.mask ∧ (∀ l < 32, (g'.lane l).pc = if p.1 = .trap k ∧ c.mask.getLsbD l = true then c.npc else (g.lane l).pc) ∧
          g'.outs = g.outs ∧ g'.s = g.s ∧ SameMemory s t ∧ ∀ i, i ≠ c.gid → t.group? i = s.group? i) ∧
    (∀ h, s.handlerPc g = some h → g.handler = false → s.allBack g = true → g.lanes.length = 32 →
      ∀ p ∈ ([(.trap k, fcTrap, k), (.undef k, fcIllegal, 0), (.undefMajor x, fcIllegal, 0)] ++
              (if s.debugged (s.ctxOf g) then [] else [(.bkpt k, fcBkpt, k)]) : List (Instr × Byte × BitVec 18)),
        ∃ b g' w, exec p.1 s = .next (b.trapEnter c.gid) ∧ b.group? c.gid = some g' ∧ b.handlerPc g' = some h ∧ g'.trapping = some w ∧
          w.code = p.2.1 ∧ w.tcode = p.2.2 ∧ w.fpc = c.pc ∧ w.lanes = c.mask ∧
          (∀ l < 32, (g'.lane l).pc = if p.1 = .trap k ∧ c.mask.getLsbD l = true then c.npc else (g.lane l).pc) ∧
          g'.outs = g.outs ∧ g'.s = g.s ∧ SameMemory s b ∧ ∀ i, i ≠ c.gid → b.group? i = s.group? i) ∧
    (s.debugged (s.ctxOf g) = false → exec (.bkpt k) s = .next (s.takeTrap c g fcBkpt k 0)) ∧
    (s.debugged (s.ctxOf g) = true → ∃ t g', exec (.bkpt k) s = .next t ∧ t.group? c.gid = some g' ∧ g'.dbgHalt = true ∧ g'.lanes = g.lanes) ∧
    exec (.undef k) s = .next (s.takeTrap c g fcIllegal 0 0) ∧ exec (.undefMajor x) s = .next (s.takeTrap c g fcIllegal 0 0) ∧
    (g.handler = false → exec .eret s = .next (s.takeTrap c g fcIllegal 0 0))) ∧
  (∀ (s u : State) (g : Group) (t : TrapInfo) (h : W32), s.group? g.gid = some g → g.trapping = some t → s.handlerPc g = some h →
    g.s.length = 32 → g.lanes.length = 32 →
    (let reps := g.outs.map fun o => ({ state := o.replayState, out := o } : Replay)
     s.writeGlb g.die g.core (s.ctxOf g) g.tfp.toNat
       (g.frameHead t reps.length (fun l => (g.lane l).pc) ++ reps.flatMap Replay.bytes) = (u, none)) →
    u.group? g.gid = some g →
    ∃ g', (s.trapEnter g.gid).group? g.gid = some g' ∧ g'.rs 30 = g.tfp ∧
      g'.rs 31 = BitVec.ofNat 64 (t.code.toNat + t.tcode.toNat * 256) ∧ (∀ r < 30, g'.rs r = g.rs r) ∧
      (∀ l < 32, (g'.lane l).st = .active ∧ (g'.lane l).pc = h ∧ (g'.lane l).v = (g.lane l).v ∧ (g'.lane l).p = (g.lane l).p) ∧
      g'.rgn = [] ∧ g'.outs = [] ∧ g'.replay.length = g.outs.length ∧ g'.handler = true ∧ g'.trapping = none ∧ g'.gst = g.gst)

/-- R371. ERET in the handler, with a frame that can be read, returns: with action 0 and an accepted frame the group leaves the handler with the
registers that the frame gives; with action 1 every lane exits; with action 2 or 3 its kernel ends with the frame's code.

R368, R371. What ERET restores from a frame: the PCs and states of the lanes, S1 to S31, the P registers, GST, the join counters and EJT are the
fields of the frame; the V registers are not in it and stay.

Model's readings: log entries 18, 104. -/
def Obligations.EretReturns : Prop :=
  (∀ (s u : State) (c : Issue) (g : Group) (f : List Byte), Issues s c g → g.handler = true →
    s.readOwn g g.tfp.toNat 672 = (u, .ok f) →
    (fieldAt f 8 2 = 0 → frameBad f = false →
      let n := (g.replay.filter fun r => r.out.kind == .divide && r.state == .pending).length
      exec .eret s = .next ((((({ u with nextId := u.nextId + g.replay.length } : State).holdDivider g n).modGroup c.gid fun g =>
        { (((g.restore f).replayAll (s.cycleOn g.die) u.nextId).applyHeld.renewWait s.out.elapsed) with
          handler := false, entrySt := [], entryPark := [], entryRgn := [] }).stay).retire c.gid)) ∧
    (fieldAt f 8 2 = 1 →
      exec .eret s = .next (((u.modGroup c.gid fun g =>
        { g with lanes := g.lanes.map (fun l => { l with st := .exited }), handler := false, replay := [], outs := [], held := [] }).stay).retire c.gid)) ∧
    (2 ≤ fieldAt f 8 2 → exec .eret s = .next (u.stay.groupKernelFault g (BitVec.ofNat 8 (fieldAt f 0 8)) c.pc c.mask 0)) ∧
    (fieldAt f 8 2 = 0 → frameBad f = true → exec .eret s = .next (u.takeTrap c g fcIllegal 0 0))) ∧
  (∀ (g : Group) (f : List Byte), frameBad f = false →
    (∀ l < 32, ((g.restore f).lane l).pc = BitVec.ofNat 32 (fieldAt f ((0x40 + 8 * l) * 8) 32) ∧
      some ((g.restore f).lane l).st = LaneState.ofCode (fieldAt f ((0x44 + 8 * l) * 8) 3) ∧ ((g.restore f).lane l).v = (g.lane l).v ∧
      (∀ k < 7, ((g.restore f).lane l).rp k = (fieldAt f ((0x240 + 4 * k) * 8 + l) 1 == 1))) ∧
    (∀ r, 1 ≤ r → r < 32 → (g.restore f).rs r = BitVec.ofNat 64 (fieldAt f ((0x140 + 8 * r) * 8) 64)) ∧
    (g.restore f).gst = BitVec.ofNat 32 (fieldAt f 96 32) &&& 0x71F#32 ∧
    (∀ n < 4, (g.restore f).jc.getD n 0 = fieldAt f (42 + 6 * n) 6) ∧ (g.restore f).ejt = fieldAt f 38 4 ∧
    (g.restore f).rgn.length = fieldAt f 34 4)

/-- R113 to R116. SREAD completes after 4 cycles: into V, the low or with .H the high word of the value in each lane; into S, the value in the lowest
lane of Active(g). A system register is read in firmware mode.

R31, R113. The special registers show what the state holds: LANE, GSLOT, TCOORD, CORE, DIE, DEVICE, CTX, RCLK, RRATE, CYCLE, CAUSE, GST and
EJT.

R114. SREAD of TIME gives the time in whole nanoseconds and latches the fraction of the same sample; SREAD of TIMEF gives the latched fraction and
clears the latch, or a fresh fraction where none is latched.

Model's choices: log entries 2, 17. -/
def Obligations.SreadReadsRegister : Prop :=
  (∀ (s : State) (c : Issue) (g : Group) (d : BitVec 6) (k h : BitVec 1) (n : BitVec 9), Ready (.sread d k h n) s c g →
    (n.toNat < 0x100 ∨ g.firmware = true) →
    let v := fun l => s.special g l n.toNat
    (k = 1 → Gives (.sread d k h n) s c 4 [.s d.toNat (BitVec.ofNat 64 (v (lowLane c.mask)))] []) ∧
    (k = 0 → Gives (.sread d k h n) s c 4 (vWrites c d fun l => BitVec.ofNat 32 (v l / 2 ^ (32 * h.toNat))) [])) ∧
  (∀ (s : State) (g : Group) (b : Band) (l : Nat), s.band? g.band = some b →
    s.special g l 0x00 = l ∧ s.special g l 0x01 = (match g.helper with | none => g.quad * 32 + g.slot | some e => 128 + e) ∧
    (∀ i < 8, s.special g l (8 + i) = (g.lane l).coord.getD i 0 % 2 ^ 16) ∧
    s.special g l 0x18 = g.core ∧ s.special g l 0x19 = g.die ∧ s.special g l 0x1A = s.out.device ∧ s.special g l 0x1B = b.ctx ∧
    s.special g l 0x20 = b.rclk.toNat ∧ s.special g l 0x21 = b.rrate.toNat ∧ s.special g l 0x30 = g.cause.toNat ∧
    s.special g l 0x32 = g.gst.toNat ∧ s.special g l 0x33 = g.ejt ∧
    (∀ k y, s.kernel? b.kid = some k → k.startCycle = some y → s.special g l 0x2A = s.cycleOn g.die - y.getD g.die 0)) ∧
  (∀ (s : State) (c : Issue) (g : Group) (d : BitVec 6) (k h : BitVec 1), Issues s c g →
    let gives := fun (t : State) (v : Nat) (latch : Option (BitVec 16)) =>
      ∃ o, t.group? c.gid = some { g with outs := g.outs ++ [o], timeLatch := latch } ∧ o.due = s.cycleOn g.die + 4 ∧ SameMemory s t ∧
        (k = 1 → o.writes = [.s d.toNat (BitVec.ofNat 64 v)]) ∧
        (k = 0 → o.writes = vWrites c d fun _ => BitVec.ofNat 32 (v / 2 ^ (32 * h.toNat)))
    ((Instr.sreadTime d k h).wf (s.regsOf g) = true →
      ∃ t, exec (.sreadTime d k h) s = .next t ∧ gives t (s.timeOn g.die / 65536) (some (BitVec.ofNat 16 (s.timeOn g.die % 65536)))) ∧
    ((Instr.sreadTimef d k h).wf (s.regsOf g) = true →
      ∃ t, exec (.sreadTimef d k h) s = .next t ∧ gives t ((g.timeLatch.map fun x => x.toNat).getD (s.timeOn g.die % 65536)) none))

/-- R80, R115, R117. SWRITE takes the value of V[D] of the lowest lane or of S[D], in firmware mode for a system register, and is in effect from the
end of its issue cycle: it joins the writes of that cycle, which are made in the order of their issue and are then gone.

R117 to R120, R342, R396. What such a write does: GST keeps its reserved bits 0; TRAPVEC, TFP, the windows, the watchdog registers and TGTCTX
take their fields; RAFBASE takes the target context's TLB entries with it; CLKMODE sets locked-clock mode.

Model's choices: one TGTCTX and one WDSEL for the module, log entry 85; CLKMODE brings C0, log entry 86; an absent context, log entry 87. -/
def Obligations.SwriteWritesRegister : Prop :=
  (∀ (s : State) (c : Issue) (g : Group) (d : BitVec 6) (k h : BitVec 1) (n : BitVec 9), Issues s c g →
    let v := if k = 1 then (g.rs d.toNat).toNat else ((g.lane (lowLane c.mask)).rv d.toNat).toNat
    let wide := fun (old : Nat) => if k = 1 then v else if h = 1 then v * 2 ^ 32 + old % 2 ^ 32 else old / 2 ^ 32 * 2 ^ 32 + v
    let writes := fun (i : Instr) (reg x : Nat) => i.wf (s.regsOf g) = true →
      exec i s = .next { s with late := s.late ++ [{ gid := c.gid, die := g.die, reg := reg, val := x }] }
    writes (.swriteGst d k h) 0x32 v ∧
    (g.firmware = true → writes (.swrite d k h n) n.toNat (if swriteWide n.toNat then wide (s.sysReg g n.toNat) else v) ∧
      writes (.swriteRafbase d k h) 0x120 (wide (s.sysReg g 0x120)) ∧ writes (.swriteClkmode d k h) 0x138 v)) ∧
  (∀ (s : State) (ds : List Nat), (s.applyLates ds).late = s.late.filter fun w => !(ds.contains w.die)) ∧
  (∀ (s : State) (w : LateWrite) (g : Group), s.group? w.gid = some g →
    let t := s.applyLate w
    let v := w.val
    (w.reg = 0x32 → t.group? w.gid = some { g with gst := BitVec.ofNat 32 v &&& 0x71F#32 } ∧ SameMemory s t) ∧
    (w.reg = 0x121 → t.ctxs = s.ctxs.map (fun x => if x.ctx == s.tab.tgtctx then { x with trapvec := BitVec.ofNat 64 v } else x) ∧ t.groups = s.groups) ∧
    (w.reg = 0x123 → t.group? w.gid = some { g with tfp := BitVec.ofNat 64 v }) ∧
    (w.reg = 0x130 → t.tab.wdsel = v % 4096) ∧ (w.reg = 0x13F → t.tab.tgtctx = v % 256) ∧
    (w.reg = 0x131 → (t.wdQueue).wdPeriod = min (max (v % 2 ^ 32) 1000) 60000000) ∧ (w.reg = 0x132 → (t.wdQueue).wdAction = (v % 2 == 1)) ∧
    (w.reg = 0x128 → assoc g.die 0 t.tab.divwin = v % 16) ∧ (w.reg = 0x129 → assoc g.die 0 t.tab.rtwin = BitVec.ofNat 32 v &&& 0xC07F007F#32) ∧
    (w.reg = 0x120 → SameMemory s t ∧ (∀ e ∈ t.mem.tlb, e.ctx ≠ s.tab.tgtctx) ∧
      ∀ x ∈ t.ctxs, x.ctx = s.tab.tgtctx → x.rafbase = BitVec.ofNat 64 v &&& 0xFFFFFFFFFFFFF07F#64) ∧
    (w.reg = 0x138 → SameMemory s t ∧ t.groups = s.groups ∧ t.out.locked = (v % 2 == 1) ∧
      (v % 2 = 1 → ∀ d ∈ t.out.dies, d.clock = .c0 ∧ d.change = none)))

/-- R41, R58 to R62, R316, R317. CHAIN_ISSUE on a quadrant that has not issued in this cycle puts the chain of the group that R317 chooses into the
latch, with Active(g) at its issue address, and marks the quadrant as having issued; where its fetch faults, that fault is raised. A quadrant
with no eligible group, or that has issued, is left as it is.

The latch is the model's own: log entry 9. -/
def Obligations.ChainIssueFillsLatch : Prop :=
  ∀ (s : State), let q := (s.ev.die, s.ev.core, s.ev.quad)
    (s.mayChoose s.ev.die s.ev.core s.ev.quad = false ∨ s.choose s.ev.die s.ev.core s.ev.quad = none → exec .chainIssue s = .next s) ∧
    (s.issued.contains q = true → s.mayChoose s.ev.die s.ev.core s.ev.quad = false) ∧
    (∀ g a, s.mayChoose s.ev.die s.ev.core s.ev.quad = true → s.choose s.ev.die s.ev.core s.ev.quad = some g →
      (∀ ms, s.nextChain g = some (a, .ok ms) → ∃ t c, exec .chainIssue s = .next t ∧ t.cur = some c ∧ c.gid = g.gid ∧
        c.mask = g.activeAt (BitVec.ofNat 32 a) ∧ c.addr = BitVec.ofNat 32 a ∧ c.members = ms ∧ c.moved = false ∧ c.cause = g.cause ∧
        t.issued = q :: s.issued ∧ SameMemory s t ∧
        (t.group? g.gid).map (fun x => (x.lanes, x.s, x.gst, x.outs)) = (s.group? g.gid).map (fun x => (x.lanes, x.s, x.gst, x.outs))) ∧
      (∀ f, s.nextChain g = some (a, .error f) → ∃ u c, exec .chainIssue s = .next (u.takeTrap c g f 0 0) ∧ u.cur = some c ∧
        c.gid = g.gid ∧ SameMemory s u))

/-- A step runs the decoded instruction: where the next event is the issue of a quadrant whose chosen group has a chain of one instruction, and its words
decode to `d`, the step is `exec` of that instruction (for a word that stands for several rows, the one that its operand record names) on the
state with the latch set, followed by the end of the chain.

The latch and the agenda are the model's own: log entries 6, 9; the choice by the operand record is log entry 89. -/
def Obligations.StepRunsDecodedInstruction : Prop :=
  ∀ (s t : State) (g : Group) (m : W32 × W32 × W32 × W32) (d : Decoded) (r : List (Option Item)) (e : Ev) (c : Issue),
    s.agenda = some { instr := .chainIssue, ev := e } :: r → s.out.tripped = false →
    exec .chainIssue { s with agenda := r, ev := e } = .next t → t.cur = some c → c.members = [m] → t.group? c.gid = some g →
    decodeWords m.2.2.1 m.2.2.2 = .ok d →
    let u := { t with cur := some { c with pc := m.1, npc := m.2.1, w0 := m.2.2.1, w1 := m.2.2.2 } }
    step s = match exec (u.resolveOp { c with pc := m.1, npc := m.2.1, w0 := m.2.2.1, w1 := m.2.2.2 } d.instr) u with
      | .next v => .next (v.endChain [ctlOf m.2.2.1.toNat])
      | .fault f => .fault f
      | .refused f => .refused f

/-- R62, R64. The end of a chain: the lanes of Active(g), still at the chain's address, go to the next PC unless a member has moved them; the group is
parked by S only while a result is outstanding; its gap runs from this cycle; Y is taken once; the latch is empty. After a trap only the latch
is emptied.

The latch is the model's own: log entry 9. -/
def Obligations.ChainEndAdvancesLanes : Prop :=
  ∀ (s : State) (c : Issue) (g : Group) (x : Ctl), s.cur = some c → s.group? c.gid = some g → g.lanes.length = 32 →
    (s.trapNow.isSome = true → s.endChain [x] = { s with cur := none, trapNow := none }) ∧
    (s.trapNow = none → g.dbgHalt = false → ∃ g', (s.endChain [x]).cur = none ∧ (s.endChain [x]).group? c.gid = some g' ∧
      (∀ l < 32, (g'.lane l).pc =
        if c.moved = false ∧ c.mask.getLsbD l = true ∧ (g.lane l).st = .active ∧ (g.lane l).pc = c.addr then c.npc else (g.lane l).pc) ∧
      g'.sched.switched = (x.s == 1 && !g.outs.isEmpty) ∧ g'.sched.gapUntil = (if x.g = 0 then 0 else s.cycleOn g.die + x.g.toNat + 1) ∧
      g'.sched.gaveWay = (x.y == 1) ∧ g'.outs = g.outs ∧ g'.s = g.s ∧ SameMemory s (s.endChain [x]))

/-- R64, R316 to R318. GAP_EXPIRE ends a gap that has run out, SWITCH_RELEASE a switch marker's wait once no result is outstanding, and GUARD_PROMOTE
promotes a group whose guard count has reached 224, those of one cycle in the order in which they stand; each leaves a group alone whose
condition does not hold.

R41, R47, R51, R64, R66, R316. An eligible group is held by nothing: no switch marker, gap, block, trap, halt or save, its band on its core, and some
ACTIVE lane; and a quadrant chooses none that has a fixed result due and not written. -/
def Obligations.SchedulingEvents : Prop :=
  (∀ (s : State) (g : Group), s.group? s.ev.id = some g →
    (∃ t, exec .gapExpire s = .next t ∧ SameMemory s t ∧ t.group? s.ev.id =
      some (if g.sched.gapUntil ≤ s.cycleOn g.die then { g with sched := { g.sched with gapUntil := 0 } } else g)) ∧
    (∃ t, exec .switchRelease s = .next t ∧ SameMemory s t ∧ t.group? s.ev.id =
      some (if g.outs = [] then { g with sched := { g.sched with switched := false } } else g)) ∧
    (224 ≤ g.sched.guard → g.sched.promoted = false →
      ((s.quadOrder g.die g.core g.issueQuad).find? fun x => decide (224 ≤ x.sched.guard) && !x.sched.promoted) = some g → ∃ t, exec .guardPromote s = .next t ∧ SameMemory s t ∧
      t.group? s.ev.id = some { g with sched := { g.sched with promoted := true } } ∧ g.gid ∈ t.order) ∧
    (∀ x, ((s.quadOrder g.die g.core g.issueQuad).find? fun x => decide (224 ≤ x.sched.guard) && !x.sched.promoted) = some x → x.gid ≠ g.gid →
      exec .guardPromote s = .next s) ∧
    (g.sched.guard < 224 ∨ g.sched.promoted = true → exec .guardPromote s = .next s)) ∧
  (∀ (s : State) (g : Group), s.eligible g = true →
    (g.sched.switched = true → g.outs = []) ∧ g.sched.gapUntil ≤ s.cycleOn g.die ∧ g.blocked = none ∧ g.trapping = none ∧
    (g.dbgHalt = true → g.dbgStep = true) ∧
    g.saved = false ∧ s.resident g = true ∧ s.out.tripped = false ∧ ∃ l < 32, (g.lane l).st = .active) ∧
  (∀ (s : State) (die core quad : Nat) (g : Group), s.mayChoose die core quad = true → s.choose die core quad = some g →
    s.eligible g = true ∧ g.die = die ∧ g.core = core ∧ ∀ o ∈ g.outs, o.kind = .fixed → s.cycleOn die < o.due)

/-- R43 to R45, R314. The first waiting record of a core enters a bin that takes it; a bin of 32 records fires as a group when its band has a free
continuation slot, its records leaving the pool; an expired bin of at most 4 records goes to the helper unit's queue where there is room;
the helper unit starts the oldest queued record as a group of its own.

Model's choices: when, log entry 146; the quadrant of the slot, log entry 165. -/
def Obligations.RecordsReachGroups : Prop :=
  ∀ (s : State),
    (∀ r, s.pool.find? (fun r : PoolRec => r.die == s.ev.die && r.core == s.ev.core && r.place == .waiting && !r.saved && r.at_.isNone &&
        (s.binFor r.die r.core r.band r.pc).isSome) = some r →
      ∃ t b, exec .poolRecordEnterBin s = .next t ∧ s.binFor r.die r.core r.band r.pc = some b ∧
        t.pool = s.pool.map (fun x => if x.rid == r.rid then { x with place := .bin b } else x) ∧ SameMemory s t) ∧
    (∀ x b q rest, s.binAt s.ev.die s.ev.core s.ev.sub = some x → 32 ≤ x.recs.length → s.band? x.band = some b → b.st = .resident →
      s.binAfter x = false → b.freeCont = q :: rest → ∃ t g, exec .binFire s = .next t ∧ t.groups = s.groups ++ [g] ∧ g.band = b.bid ∧
        g.helper = none ∧ (g.quad, g.slot, g.frame) ∈ b.freeCont ∧ g.quad = q.1 ∧ (∀ y ∈ b.freeCont, y.1 = g.quad → g.slot ≤ y.2.1) ∧
        (∀ r ∈ t.pool, r.rid ∉ x.recs) ∧ t.order = s.order ++ [g.gid] ∧ SameMemory s t) ∧
    (∀ x, s.binAt s.ev.die s.ev.core s.ev.sub = some x → x.recs ≠ [] → x.firing = false → x.timerFrom + s.binTimer x ≤ s.cycleOn x.die →
      s.binAfter x = false → x.recs.length ≤ 4 → s.helperHeld x.die x.core + x.recs.length ≤ 256 →
      ∃ t, exec .binTimerExpire s = .next t ∧ SameMemory s t ∧ s.binAt x.die x.core x.bin = some x ∧ t.binAt x.die x.core x.bin = none ∧
        t.pool = s.pool.filter (fun r => !(x.recs.contains r.rid)) ++
          (s.pool.filter fun r => x.recs.contains r.rid).map fun r => { r with place := .helperQueue }) ∧
    (∀ r b e, (s.groups.find? fun g => g.die == s.ev.die && g.core == s.ev.core && g.helper.isSome && g.saved &&
        s.bandSt g.band == some .resident) = none →
      s.pool.find? (fun r : PoolRec => r.die == s.ev.die && r.core == s.ev.core && r.place == .helperQueue && !r.saved &&
        (match s.band? r.band with | some b => b.st == .resident | none => false)) = some r →
      s.band? r.band = some b → (List.range 8).find? (fun e => !((s.helperBusy s.ev.die s.ev.core).contains e)) = some e →
      ∃ t g, exec .helperStart s = .next t ∧ t.groups = s.groups ++ [g] ∧ g.helper = some e ∧ g.band = b.bid ∧ (g.lane 0).pc = r.pc ∧
        (g.lane 0).v = r.v ∧ (∀ l < 32, l ≠ 0 → (g.lane l).st = .exited) ∧ SameMemory s t)

/-- R212, R214, R345. Bytes written to consecutive physical addresses, no other key having written their sectors, read back at the point of coherence
as written; every other byte of memory reads as before; the canonical form is kept and no register, group or other unit changes.

R193, R195. A byte written to a core's stash reads back there; every other byte of every stash, and all of memory, reads as before.

Model's choices: log entries 1, 25, 37. -/
def Obligations.WriteReachesItsBytesOnly : Prop :=
  (∀ (s : State) (ctx pa : Nat) (bs : List Byte), MemInv s →
    (∀ k i, i < bs.length → s.keyGenOf ctx = some k → ∀ e ∈ s.mem.sectorKey, e.1 = (pa + i) / 32 → e.2 = k) →
    let t := s.writePlaces ctx ((List.range bs.length).map fun i => .mem (pa + i)) bs
    MemInv t ∧ (∀ i < bs.length, t.mem.coh (pa + i) = bs.getD i 0) ∧
    (∀ q, q < pa ∨ pa + bs.length ≤ q → t.mem.coh q = s.mem.coh q) ∧ t.mem.stash = s.mem.stash ∧
    t.groups = s.groups ∧ t.bands = s.bands ∧ t.sync = s.sync ∧ t.tab = s.tab ∧ t.obs = s.obs ∧ t.out = s.out) ∧
  (∀ (s : State) (die core off die' core' off' : Nat) (x : Byte), MemInv s → core < 97 → off < 524288 → core' < 97 → off' < 524288 →
    let t := s.writeStash die core off x
    MemInv t ∧ t.mem.bytes = s.mem.bytes ∧
    cellGet t.mem.stash (stashKey die' core' off') =
      if die' = die ∧ core' = core ∧ off' = off then x else cellGet s.mem.stash (stashKey die' core' off'))

/-- R235 to R244, R247. LD, ST, LDS, the atomics and the REDs complete by putting their accesses in flight: with no ALIGN or SEG_LIMIT in any lane of
Active(g), each lane adds the parts of its access at its effective address, and memory and every register are unchanged until they are performed; the
operands of a RED stand in flight while a lane still waits for its translation, then in the group's buffer or in applications from it. A lane at
fault makes the instruction raise ALIGN, before SEG_LIMIT, with the address. (What else an access in flight meets, a walk, an early drain or a late
fault, `startAll` says.)

R237, R238. The issue-time checks of a memory instruction: none fails exactly when every lane of Active(g) is aligned where alignment is required
and lies in its segment; ALIGN ranks before SEG_LIMIT.

R239, R241. What a load that has come writes: B and H forms sign-extend, BU and HU zero-extend, W, D and Q fill one, two or four registers, the low
word in the lowest register. -/
def Obligations.MemoryInstructionsIssue : Prop :=
  (∀ (s : State) (c : Issue) (g : Group) (d a b : BitVec 6) (f : BitVec 3) (m : Attr), Issues s c g →
    let ea := fun (scale l : Nat) =>
      (if m.seg = 0 ∨ m.seg = 4 then (((g.lane l).rv a.toNat).toNat + ((g.lane l).rv (a.toNat + 1)).toNat * 2 ^ 32 : Int)
       else ((g.lane l).rv a.toNat).toNat) + (if b = 0 then 0 else ((g.lane l).rv b.toNat).toInt) + m.off.toInt * scale
    let flies := fun (i : Instr) (s1 : State) (parts : List Acc) =>
      c.mask ≠ 0 → g.reds = [] → (∀ e ∈ s.mem.accs, e.gid = g.gid → e.iss ≠ s.nextId) → (∀ x ∈ parts, ∀ f, s1.tryAcc x ≠ .fault f) →
      ∃ t g', exec i s = .next t ∧ t.group? c.gid = some g' ∧ SameMemory s t ∧ SameRegisters s t ∧
        ((∀ x ∈ parts, x.kind.isRedIn = false) → ∃ xs, t.mem.accs = s.mem.accs ++ xs ∧
          (xs.map fun x => (x.lane, x.va, x.n, x.kind, x.d, x.mask)) = parts.map fun x => (x.lane, x.va, x.n, x.kind, x.d, x.mask)) ∧
        ∀ x ∈ parts, (∃ y ∈ t.mem.accs, y.gid = c.gid ∧ y.va = x.va) ∨ ∃ e ∈ g'.reds, e.va = x.va
    let runs := fun (i : Instr) (n : Nat) (strict wr res : Bool) (kind : Nat → Nat → Nat → AccKind) => i.wf (s.regsOf g) = true →
      (∀ x v, s.memCheck g c.mask m n strict wr (ea n) = some (x, v) → exec i s = .next (s.takeTrap c g x 0 (BitVec.ofInt 64 v))) ∧
      (s.memCheck g c.mask m n strict wr (ea n) = none →
        let s0 := { s with nextId := s.nextId + 1 }
        let s1 := if res then s0.postAwait c g .memory else s0
        let oid := if res then some s0.nextId else none
        let parts := fun (l : Nat) => s1.laneAccs c g m oid s.nextId l (1#32 <<< l) d.toNat (ea n l).toNat n (kind l)
        let t := s1.startAll c g s.nextId ((lanesOf c.mask).map parts)
        exec i s = .next (match oid with | some o => t.endResult c.gid o | none => t) ∧
        flies i s1 ((lanesOf c.mask).flatMap parts) ∧
        ∀ l, ∀ x ∈ parts l, x.lane = l ∧ x.d = d.toNat ∧ (m.seg ≠ 2 → m.seg ≠ 3 → x.va = (ea n l).toNat + x.part))
    let n := [1, 1, 2, 2, 4, 8, 16].getD f.toNat 1
    let strict := n == 16 || m.seg == 4 || !(m.ord == 0)
    let regs := fun (l k : Nat) => (List.range k).map fun j => (g.lane l).rv (d.toNat + j)
    runs (.ld d a b f m) n strict false true (fun _ _ _ => .load f.toNat) ∧
    runs (.st d a b f m) n strict true false (fun l p k => .store ((((g.lane l).regBytes d.toNat n).drop p).take k)) ∧
    (∀ q ∈ ([(.atomAdd d a b m, 0), (.atomMins d a b m, 1), (.atomMaxs d a b m, 2), (.atomMinu d a b m, 3), (.atomMaxu d a b m, 4),
             (.atomAnd d a b m, 5), (.atomOr d a b m, 6), (.atomXor d a b m, 7)] : List (Instr × Nat)),
      runs q.1 4 true true true (fun l _ _ => .atom false q.2 (regs l 1) 4)) ∧
    (∀ q ∈ ([(.atomxExch d a b m, 0, 4, 1), (.atomxCas32 d a b m, 1, 4, 2), (.atomxCas64 d a b m, 2, 8, 4), (.atomxCas128 d a b m, 3, 16, 8),
             (.atomxFadd32 d a b m, 4, 4, 1), (.atomxFmin32 d a b m, 5, 4, 1), (.atomxFmax32 d a b m, 6, 4, 1)] : List (Instr × Nat × Nat × Nat)),
      runs q.1 q.2.2.1 true true true (fun l _ _ => .atom true q.2.1 (regs l q.2.2.2) q.2.2.1)) ∧
    (∀ q ∈ ([(.redAddI32 d a b m, 0, 4), (.redAddF32 d a b m, 1, 4), (.redAddBf16x2 d a b m, 2, 4), (.redMinF32 d a b m, 3, 4),
             (.redMaxF32 d a b m, 4, 4), (.redAddI64 d a b m, 5, 8)] : List (Instr × Nat × Nat)),
      runs q.1 q.2.2 true true false (fun l _ _ => .redIn q.2.1 (regs l (q.2.2 / 4)) false)) ∧
    ((Instr.lds d a f m).wf (s.regsOf g) = true →
      let va : Int := ((g.rs a.toNat).toNat : Int) + m.off.toInt * n
      (∀ x v, s.memCheck g (1#32 <<< lowLane c.mask) m n true false (fun _ => va) = some (x, v) →
        exec (.lds d a f m) s = .next (s.takeTrap c g x 0 (BitVec.ofInt 64 v))) ∧
      (s.memCheck g (1#32 <<< lowLane c.mask) m n true false (fun _ => va) = none →
        let s1 := ({ s with nextId := s.nextId + 1 }).postAwait c g .memory
        let parts := s1.laneAccs c g m (some (s.nextId + 1)) s.nextId (lowLane c.mask) c.mask d.toNat va.toNat n (fun _ _ => .lds f.toNat)
        exec (.lds d a f m) s = .next ((s1.startAll c g s.nextId [parts]).endResult c.gid (s.nextId + 1)) ∧
        flies (.lds d a f m) s1 parts))) ∧
  (∀ (s : State) (g : Group) (mask : BitVec 32) (m : Attr) (n : Nat) (strict wr : Bool) (va : Nat → Int),
    let off := fun (l : Nat) => strict = true ∧ va l % n ≠ 0
    let out := fun (l : Nat) => s.segOk g (g.lane l) m.seg.toNat (va l) n wr = false
    let active := fun (l : Nat) => l < 32 ∧ mask.getLsbD l = true
    (s.memCheck g mask m n strict wr va = none ↔ ∀ l, active l → ¬ off l ∧ ¬ out l) ∧
    ((∃ l, active l ∧ off l) → ∃ l, active l ∧ off l ∧ s.memCheck g mask m n strict wr va = some (fcAlign, va l)) ∧
    ((∃ l, active l ∧ out l) → (∀ l, active l → ¬ off l) → ∃ l, active l ∧ out l ∧ s.memCheck g mask m n strict wr va = some (fcSegLimit, va l))) ∧
  (∀ (l d : Nat) (b0 b1 b2 b3 b4 b5 b6 b7 : Byte),
    let w := fun (a b c e : Byte) => e ++ c ++ b ++ a
    loadWrites (.load 0) l d [b0] = [.v l d (b0.signExtend 32)] ∧ loadWrites (.load 1) l d [b0] = [.v l d (b0.setWidth 32)] ∧
    loadWrites (.load 2) l d [b0, b1] = [.v l d ((b1 ++ b0).signExtend 32)] ∧
    loadWrites (.load 3) l d [b0, b1] = [.v l d ((b1 ++ b0).setWidth 32)] ∧
    loadWrites (.load 4) l d [b0, b1, b2, b3] = [.v l d (w b0 b1 b2 b3)] ∧
    loadWrites (.load 5) l d [b0, b1, b2, b3, b4, b5, b6, b7] = [.v l d (w b0 b1 b2 b3), .v l (d + 1) (w b4 b5 b6 b7)])

/-- R214, R239, R244, R250. The events that perform accesses, each on an access that R215 to R224 let be performed: a load of this module gives its result
the bytes of its places; a store or a buffer entry's application writes its places; a line operation acts on its line. An access that must
wait is left in flight.

R214, R239, R247. Where nothing else waits on the access: a store, and an application, after it each byte of its range reads as stored and every
other byte as before, with no register changed; a load, after it the registers of its lane hold the bytes at its address and the result is no
longer outstanding; a line operation, after it the access is gone, and memory is unchanged where no stash holds the line.

Model's choices: log entries 26, 29, 36, 78. -/
def Obligations.AccessesArePerformed : Prop :=
  ∀ (s : State) (a : Acc), s.mem.accs.find? (fun x => x.aid == s.ev.id) = some a →
    (s.canPerform a = false → exec .storePerform s = .next s) ∧
    (s.canPerform a = true → a.elsewhere = false →
      let calm := s.qops = [] ∧ s.sync.semMsgs = [] ∧ (∀ r ∈ s.sync.bars, r.stepf = false) ∧ ∀ g, s.group? a.gid = some g → g.allExited = false
      let writes := fun (bs : List Byte) => calm → MemInv s → ∀ pa, a.places = some ((List.range bs.length).map fun j => .mem (pa + j)) →
        (∀ k j, j < bs.length → s.keyGenOf (s.dataCtx a) = some k → ∀ e ∈ s.mem.sectorKey, e.1 = (pa + j) / 32 → e.2 = k) →
        ∃ t, exec .storePerform s = .next t ∧ (∀ j < bs.length, t.mem.coh (pa + j) = bs.getD j 0) ∧
          (∀ q, q < pa ∨ pa + bs.length ≤ q → t.mem.coh q = s.mem.coh q) ∧ t.mem.stash = s.mem.stash ∧ SameRegisters s t ∧
          ∀ x ∈ t.mem.accs, x.aid ≠ a.aid
      (∀ bs, a.kind = .store bs →
        exec .storePerform s = .next (((s.dropAccs [a.aid]).performWrite a bs .write true).performed a.gid) ∧ writes bs) ∧
      (∀ k v, a.kind = .red k v → a.seg ≠ 3 →
        let old := fun (n : Nat) => (List.range (n / 4)).map fun i => wordAt ((a.places.getD []).map fun p => s.readPlace (s.dataCtx a) p) i
        (k < 5 → v.length = 1 → a.n = 4 → writes (wordBytes (redStep k (old 4) v))) ∧
        (k = 5 → v.length = 2 → a.n = 8 → writes (wordBytes (redStep k (old 8) v)))) ∧
      (∀ f, a.kind = .load f → (s.together 32 [a]).all (fun x => s.canPerform x) = true →
        exec .loadReturn s = .next (s.performLoads (s.together 32 [a]))) ∧
      (∀ f oid pa g o, a.kind = .load f → calm → s.cur = none → s.mem.accs = [a] → a.oid = some oid → a.seg ≠ 3 → a.part = 0 → a.lane < 32 →
        a.allocL1 = false → (∀ l ∈ s.mem.lines, l.level ≠ .l1) →
        let n := [1, 1, 2, 2, 4, 8, 16].getD f 1
        a.places = some ((List.range n).map fun j => .mem (pa + j)) → s.group? a.gid = some g → g.frozen = false → g.lanes.length = 32 →
        (∀ l < 32, a.d + 4 ≤ (g.lane l).v.length) → g.outs = [o] → o.oid = oid → o.mask.getLsbD a.lane = true → o.got = [] → o.writes = [] → o.flags = [] →
        ∃ t g', exec .loadReturn s = .next t ∧ t.group? a.gid = some g' ∧ g'.outs = [] ∧ t.mem.accs = [] ∧
          (∀ r v, RegWrite.v a.lane r v ∈ loadWrites (.load f) a.lane a.d ((List.range n).map fun j => s.readPa (s.dataCtx a) (pa + j)) →
            (g'.lane a.lane).rv r = v) ∧
          (∀ l, l ≠ a.lane → g'.lane l = g.lane l) ∧ ∀ q, t.mem.coh q = s.mem.coh q) ∧
      (a.kind = .pref ∨ a.kind = .lock ∨ a.kind = .unlock ∨ a.kind = .cwb ∨ a.kind = .cinv ∨ a.kind = .cwbinv →
        let i := if a.kind = .pref ∨ a.kind = .lock ∨ a.kind = .unlock then Instr.loadReturn else .storePerform
        exec i s = .next (s.performLineOp a) ∧
        (calm → ∃ t, exec i s = .next t ∧ (∀ x ∈ t.mem.accs, x.aid ≠ a.aid) ∧
          ((∀ x ∈ s.mem.stashLines, x.pline ≠ (a.memLines.head?).getD 0) → SameMemory s t) ∧
          (a.kind = .cinv ∨ a.kind = .cwbinv → ∀ l ∈ t.mem.lines, l.level = .l1 → l.die = a.die → l.unit = a.core →
            l.line = (a.memLines.head?).getD 0 → l.lock.isSome = true ∧ l.data = []))))

/-- R223, R244 to R246. ATOM_PERFORM performs the atomics of one issue that lie in one line together, in ascending lane order, once each may be; each
returns the old value and stores the new one: wrapping sums, signed and unsigned minimum and maximum, bitwise results, exchange, FP32 sum and
minimum and maximum, and compare-and-swap, which stores nothing where the old value differs. An atomic that lies alone in its line, where nothing waits on
it, leaves its new value in its bytes, every other byte as before, and the old value in the registers of its lane. -/
def Obligations.AtomicsArePerformed : Prop :=
  (∀ (s : State) (a : Acc), s.mem.accs.find? (fun x => x.aid == s.ev.id) = some a → a.kind.isAtom = true → a.elsewhere = false →
    (∀ e ∈ s.mem.accs, e.gid = a.gid → e.iss = a.iss → e.places.isSome = true) →
    let line := fun (x : Acc) => ((x.places.getD []).map fun p => (s.locOf p).line).head?
    let as := sortBy (fun x => x.lane) (s.mem.accs.filter fun e => e.gid == a.gid && e.iss == a.iss && e.kind.isAtom && line e == line a)
    (as.all fun x => s.canFollow x) = true →
    (∃ t, exec .atomPerform s = .next t ∧
      t = (match a.oid with
        | some o => (as.foldl (fun (s : State) x => s.performAtom x) s).endResult a.gid o
        | none => as.foldl (fun (s : State) x => s.performAtom x) s).performed a.gid) ∧
    (∀ x k ops n oid pa g o, a.kind = .atom x k ops n → MemInv s → s.cur = none → s.mem.accs = [a] → a.oid = some oid → a.seg ≠ 3 → a.part = 0 → a.lane < 32 →
      s.qops = [] → s.sync.semMsgs = [] → (∀ r ∈ s.sync.bars, r.stepf = false) → n = 4 ∨ n = 8 ∨ n = 16 →
      a.places = some ((List.range n).map fun j => .mem (pa + j)) → pa % n = 0 → s.group? a.gid = some g → g.frozen = false → g.allExited = false →
      g.lanes.length = 32 → (∀ l < 32, a.d + 4 ≤ (g.lane l).v.length) → g.outs = [o] → o.oid = oid → o.mask.getLsbD a.lane = true → o.got = [] →
      o.writes = [] → o.flags = [] →
      (∀ k j, j < n → s.keyGenOf (s.dataCtx a) = some k → ∀ e ∈ s.mem.sectorKey, e.1 = (pa + j) / 32 → e.2 = k) →
      let old := (List.range n).map fun j => s.readPa (s.dataCtx a) (pa + j)
      ∃ t g', exec .atomPerform s = .next t ∧ t.group? a.gid = some g' ∧ g'.outs = [] ∧ t.mem.accs = [] ∧
        (∀ w, atomNew x k ops n (leNat old) = some w → ∀ j < n, t.mem.coh (pa + j) = (leBytes n w).getD j 0) ∧
        (atomNew x k ops n (leNat old) = none → ∀ q, t.mem.coh q = s.mem.coh q) ∧
        (∀ q, q < pa ∨ pa + n ≤ q → t.mem.coh q = s.mem.coh q) ∧
        (∀ i < n / 4, (g'.lane a.lane).rv (a.d + i) = wordAt old i) ∧ ∀ l, l ≠ a.lane → g'.lane l = g.lane l)) ∧
  ∀ v w x : W32,
    let one := fun (m : Nat) => (atomNew false m [v] 4 w.toNat).map (BitVec.ofNat 32)
    one 0 = some (w + v) ∧ one 1 = some (if w.toInt ≤ v.toInt then w else v) ∧ one 2 = some (if w.toInt ≤ v.toInt then v else w) ∧
    one 3 = some (if w.toNat ≤ v.toNat then w else v) ∧ one 4 = some (if w.toNat ≤ v.toNat then v else w) ∧ one 5 = some (w &&& v) ∧
    one 6 = some (w ||| v) ∧ one 7 = some (w ^^^ v) ∧ atomNew true 0 [v] 4 w.toNat = some v.toNat ∧
    atomNew true 1 [v, x] 4 w.toNat = (if w = v then some x.toNat else none) ∧ atomNew true 4 [v] 4 w.toNat = some (fp32.add w.toNat v.toNat).1 ∧
    atomNew true 5 [v] 4 w.toNat = some (fp32.minMax true false w.toNat v.toNat).1 ∧
    atomNew true 6 [v] 4 w.toNat = some (fp32.minMax true true w.toNat v.toNat).1 ∧
    ∀ v1 x1 : W32, ∀ y : Nat, atomNew true 2 [v, v1, x, x1] 8 y =
      if y = v.toNat + v1.toNat * 2 ^ 32 then some (x.toNat + x1.toNat * 2 ^ 32) else none

/-- R195, R321, R343, R347. WALK_START gives the oldest waiting miss of a die one of its 32 walk units; WALK_COMPLETE ends a walk, and an access that
waited for its page takes the outcome: it is translated and its group goes on, or its lane is PARKED on the page fault. STASH_FILL_COMPLETE fills an INVALID
mapped line, which is then CLEAN; STASH_PROBE by a load leaves a DIRTY line CLEAN with its bytes in memory, and by a write leaves no
holder; ATOMBUF_PARITY discards the entry and rolls the group back to its idempotent region.

R192, R205, R206, R208, R215. The events of a slice change no byte of memory: 2^20 closed trials end a window, whose kept fraction halves or doubles τ unless
locked-clock mode is on; a slice serves the first request waiting for a set; a sweep marks the lapsed lines of a set; a copy that leaves L1
leaves nothing but its lock.

Model's choices: log entries 28, 33, 35, 40. -/
def Obligations.WalksProbesAndParity : Prop :=
  (∀ (s : State),
    (∀ w x, s.mem.walks.find? (fun w => w.wid == s.ev.id) = some w → s.mem.walks.find? (fun x => x.die == w.die && !x.walking) = some x →
      (s.mem.walks.filter fun y => y.die == w.die && y.walking).length < 32 →
      ∃ t, exec .walkStart s = .next t ∧ SameMemory s t ∧ t.groups = s.groups ∧
        t.mem.walks = s.mem.walks.map fun y => if y.wid == x.wid then { y with walking := true } else y) ∧
    (∀ w, s.mem.walks.find? (fun w => w.wid == s.ev.id && w.walking) = some w →
      (∃ t, exec .walkComplete s = .next t ∧ ((∀ a ∈ s.mem.accs, a.places.isSome = true) → ∀ x ∈ t.mem.walks, x.wid ≠ w.wid)) ∧
      ∀ a g, s.mem.accs = [a] → a.places = none → a.die = w.die → s.accCtx a = w.ctx → s.pageOf w.ctx (s.firstBad a) = (w.region, w.page) →
        s.group? a.gid = some g → g.reds = [] → a.kind.isLoad = true ∨ a.kind.isStore = true →
        let s0 := s.modMem fun m => { m with walks := m.walks.filter fun x => !(x.wid == w.wid) }
        let need := a.kind.needs
        s0.lookup a.die a.core w.ctx (s.firstBad a) a.heap need.1 need.2 = .miss → ∀ u r, s0.walkEnd a.die a.core w.ctx (s.firstBad a) need.1 need.2 = (u, r) →
          u.group? a.gid = some g → u.mem.accs = [a] →
          (∀ y b, r = .ok y → u.tryAcc a = .done b → ∃ t, exec .walkComplete s = .next t ∧ t.mem.accs = [b] ∧
            (t.group? a.gid).map (fun g => g.blocked) = some (if g.blocked = some .walk then none else g.blocked)) ∧
          (∀ f, r = .error f → faultClass f = 1 → g.lanes.length = 32 → ∃ t g', exec .walkComplete s = .next t ∧ t.mem.accs = [] ∧
            t.group? a.gid = some g' ∧ ∀ l < 32, a.mask.getLsbD l = true → (g'.lane l).st = .parked)) ∧
    (∀ l, s.mem.stashLines.find? (fun l => l.die == s.ev.die && l.core == s.ev.core && l.sline == s.ev.id) = some l →
      ∃ t, exec .stashProbe s = .next t ∧ t.groups = s.groups ∧ t.mem.stash = s.mem.stash ∧
        (s.ev.sub = 0 → ∀ x ∈ t.mem.stashLines, x.pline = l.pline → x.dirty = false) ∧
        (s.ev.sub ≠ 0 → ∀ x ∈ t.mem.stashLines, x.pline ≠ l.pline) ∧ (MemInv s → MemInv t ∧ ∀ q, t.mem.coh q = s.mem.coh q)) ∧
    (∀ g e, s.group? s.ev.id = some g → g.reds[s.ev.sub]? = some e →
      exec .atombufParity s = .next ((s.modGroup g.gid fun g => { g with reds := g.reds.eraseIdx s.ev.sub }).rollback g.gid fcAtombufParity e.va) ∧
      ∀ i x, g.handler = false → g.held = [] → g.lanes.length = 32 → innermostIdem g.rgn = some i → g.rgn[i]? = some x →
        ∃ t g', exec .atombufParity s = .next t ∧ t.group? s.ev.id = some g' ∧ g'.outs = [] ∧ g'.trapping = none ∧ g'.rgn = g.rgn.take (i + 1) ∧
          (∀ r ∈ g'.reds, r.created < x.at_) ∧ ∀ l < 32, (g.lane l).st = .active ∨ (g.lane l).st = .parked → (g'.lane l).st = .active ∧ (g'.lane l).pc = x.pc) ∧
    (∀ bid x a pa u, s.mappedLine s.ev.die s.ev.core (128 * s.ev.id) = some (bid, x, false) →
      (s.mem.accs.filter fun a => a.onStashLine s.ev.die s.ev.core s.ev.id).head? = some a →
      s.translate s.ev.die s.ev.core a.ctx x true true a.kind.writes = (u, .ok pa) →
      exec .stashFillComplete s =
        .next ((u.fillStashLine s.ev.die s.ev.core s.ev.id bid a.ctx (pa / 128)).askSlice s.ev.die s.ev.core 0xF#4 (pa / 128) .read a.ctx 0 30
          a.rr) ∧
      ∃ t, exec .stashFillComplete s = .next t ∧
        ({ die := s.ev.die, core := s.ev.core, sline := s.ev.id, band := bid, pline := pa / 128, dirty := false } : StashLine) ∈ t.mem.stashLines)) ∧
  (∀ (s : State),
    (∀ c, s.ctx? s.ev.id = some c → s.ev.die < c.trust.length → s.ev.die < c.trials.length →
      let n := (c.trials.getD s.ev.die (0, 0)).1
      let kept := (c.trials.getD s.ev.die (0, 0)).2
      let tau := c.trust.getD s.ev.die 1
      (n < 2 ^ 20 → exec .tauWindow s = .next s) ∧
      (2 ^ 20 ≤ n → ∃ t d, exec .tauWindow s = .next t ∧ t.mem = s.mem ∧ t.groups = s.groups ∧ t.ctx? s.ev.id = some d ∧
        d.trials.getD s.ev.die (1, 1) = (0, 0) ∧ d.trust.getD s.ev.die 0 =
          if s.out.locked then tau else if 2 * kept < n then min 16 (2 * tau) else if 3 * n ≤ 4 * kept then max 1 (tau / 2) else tau)) ∧
    (∀ r, s.mem.reqs.find? (fun r => r.rid == s.ev.id) = some r → s.mem.reqs.find? (fun q => q.sameSet r) = some r →
      ∃ t, exec .sliceServeRequest s = .next t ∧ SameMemory s t ∧ t.groups = s.groups ∧ t.mem.reqs = s.mem.reqs.filter fun x => !(x.rid == r.rid)) ∧
    (∀ r, s.mem.reqs.find? (fun r => r.rid == s.ev.id) = some r → s.mem.reqs.find? (fun q => q.sameSet r) ≠ some r →
      exec .sliceServeRequest s = .next s) ∧
    (s.mem.reqs.find? (fun r => r.rid == s.ev.id) = none → exec .sliceServeRequest s = .next s) ∧
    (∃ t, exec .sliceSweep s = .next t ∧ SameMemory s t ∧ t.groups = s.groups ∧ t.mem.lines.length = s.mem.lines.length ∧ t.mem.reqs = s.mem.reqs ∧
      (s.ev.quad = 1 → t.mem.lines = s.mem.lines.map fun l =>
        if l.level = .msc ∧ l.die = s.ev.die ∧ l.unit = s.ev.core ∧ l.set = s.ev.sub ∧ l.hitAt ≠ some (s.cycleOn s.ev.die) then
          { l with md := l.md.sweep (s.sliceClock s.ev.die) } else l)) ∧
    (∃ t, exec .l1LineDrop s = .next t ∧ SameMemory s t ∧ t.groups = s.groups ∧ t.mem.reqs = s.mem.reqs ∧
      ∀ l ∈ t.mem.lines, l.level = .l1 → l.die = s.ev.die → l.unit = s.ev.core → l.line = s.ev.id → l.lock.isSome = true ∧ l.data = []))

/-- R221, R222, R254, R255. FENCE, FENCE.X and REDF put one order into their group and complete: FENCE orders every earlier access before every later
one of its stream, FENCE.X those of all the streams of its mask (a mask of 0 is every stream, bit 0 the default stream) together; FENCE.P to the
group's own path orders them too. What a fence orders before an access stands in that access's way at the fence's scope. REDF first turns every held
entry into an application and orders these before later accesses. REDF.ORD joins the next round of its tier and waits. No register and no byte of
memory changes. -/
def Obligations.FencesOrderAccesses : Prop :=
  ∀ (s : State) (c : Issue) (g : Group) (n sp : BitVec 3) (d a : BitVec 6), Issues s c g →
    let fenced := fun (i : Instr) (mask : BitVec 16) (each inv : Bool) (scp at_ : Nat) (red : Bool) =>
      i.wf (s.regsOf g) = true → ∃ t fs, exec i s = .next t ∧
        t.group? c.gid = some { g with
          fences := fs ++ [{ accs := [(c.gid, at_)], at_ := at_, mask := mask, each := each, redOnly := red, scp := scp,
                             inv := if inv then mask else 0, mats := [], recs := [] }],
          reds := if red then [] else g.reds } ∧
        SameMemory s t ∧ SameRegisters s t ∧ t.mem.accs.length = s.mem.accs.length + (if red then g.reds.length else 0)
    let x := g.rs a.toNat
    fenced (.fence sp) 0xFFFF#16 true (decide (2 ≤ sp.toNat)) (max 1 sp.toNat) s.mem.nextAid false ∧
    fenced (.fenceX a sp) (if x.setWidth 16 = 0#16 then 0xFFFF#16 else
      if x.getLsbD 0 then (x.setWidth 16 &&& 0xFFFE#16) ||| (1#16 <<< (s.launchOf g).strdef) else x.setWidth 16)
      false (decide (2 ≤ sp.toNat)) (max 1 sp.toNat) s.mem.nextAid false ∧
    fenced .redf 0xFFFF#16 false false scopeAll (s.mem.nextAid + g.reds.length) true ∧
    (∀ (f : Fence) (e y : Acc) (n : Nat), (e.gid, n) ∈ f.accs → e.aid < n → f.at_ ≤ y.aid → e.stream < 16 → y.stream < 16 → f.mask = 0xFFFF#16 →
      (f.each = true → e.stream = y.stream) → (f.redOnly = true → e.kind.isRed = true) → f.orders e y = true) ∧
    (∀ (f : Fence) (e y : Acc), f ∈ s.fencesOf y.gid → e ∈ s.mem.accs → f.orders e y = true → 0 < f.scp →
      ∃ k, f.scp ≤ k ∧ (e.aid, k) ∈ s.blockers (fun _ => false) y) ∧
    (∀ (y : Acc) (w : Nat × Nat), w ∈ s.blockers (fun _ => false) y → 4 < w.2 → s.canPerform y = false) ∧
    ((Instr.fenceP d a sp).wf (s.regsOf g) = true → exec (.fenceP d a sp) s = .next (s.fencePath c.gid d.toNat a.toNat) ∧
      ∃ g', (s.fencePath c.gid d.toNat a.toNat).group? c.gid = some g' ∧ SameRegisters s (s.fencePath c.gid d.toNat a.toNat) ∧
        SameMemory s (s.fencePath c.gid d.toNat a.toNat) ∧
        (a = 0 → g'.fences.length = g.fences.length + 1) ∧ (a ≠ 0 → g'.fences = g.fences ∧ (g'.pathNeeds.any fun y => y.1 == a.toNat) = true)) ∧
    ((Instr.redfOrd n).wf (s.regsOf g) = true → n.toNat < (s.launchOf g).tiers.length → g.idx ≠ none →
      ∃ t, exec (.redfOrd n) s = .next t ∧ SameMemory s t ∧
        t.group? c.gid = some { g with redRound := assocSet n.toNat (assoc n.toNat 0 g.redRound + 1) g.redRound,
                                       blocked := some (.redfOrd n.toNat (assoc n.toNat 0 g.redRound + 1)) }) ∧
    ((Instr.redfOrd n).wf (s.regsOf g) = true → (s.launchOf g).tiers.length ≤ n.toNat ∨ g.idx = none →
      exec (.redfOrd n) s = .next (s.takeTrap c g fcIllegal 0 0)) ∧
    (∀ r, s.ev.id = c.gid → g.blocked = some (.redfOrd n.toNat r) → s.unitPlaced g n.toNat = true →
      s.unitMembers g n.toNat = [g] → s.resident g = true → g.saved = false →
      ∃ t g', exec .redfOrdToken s = .next t ∧ t.group? c.gid = some g' ∧ SameMemory s t ∧ SameRegisters s t ∧
        (g.allExited = false → g'.blocked = none ∧ g'.reds = [] ∧ t.mem.accs.length = s.mem.accs.length + g.reds.length))

/-- R250 to R253. The line operations put one access per distinct line in flight, for the lowest lane that names it, and LOCK and UNLOCK await a
status; the STASH operations put the operation of the lowest lane of Active(g) in flight, with its line, V[D] and V[D + 1], and await a
status. Memory and registers are unchanged until they are served. A served STASH operation gives its status to V[D] of each lane of Active(g): MAP is
NOSLOT with 16 mappings and REFUSED for a range that R252 turns away, FLUSH is EMPTY where nothing is mapped, and QUERY reads 0xFFFFFF83 there.

Model's choices: log entries 31, 32. -/
def Obligations.LineAndStashOperationsIssue : Prop :=
  ∀ (s : State) (c : Issue) (g : Group) (d a b : BitVec 6) (m : Attr), Issues s c g →
    let ea := fun (l : Nat) => (g.lane l).ea m a.toNat b.toNat 128
    let line := fun (l : Nat) => (ea l).toNat / 128
    let low := (lanesOf c.mask).filter fun l => !((lanesOf c.mask).any fun k => decide (k < l) && line k == line l)
    let runs := fun (i : Instr) (kind : AccKind) (res : Bool) => i.wf (s.regsOf g) = true →
      (∀ x v, s.memCheck g c.mask m 1 false false ea = some (x, v) → exec i s = .next (s.takeTrap c g x 0 (BitVec.ofInt 64 v))) ∧
      (s.memCheck g c.mask m 1 false false ea = none →
        let s0 := { s with nextId := s.nextId + 1 }
        let s1 := if res then s0.postAwait c g .memory else s0
        let oid := if res then some (s.nextId + 1) else none
        let dd := if res then d.toNat else 0
        let part := fun (l : Nat) => s1.mkAcc c g m oid s.nextId l (maskOf fun k => c.mask.getLsbD k && line k == line l) dd (line l * 128) kind 0 1
        let t := s1.startAll c g s.nextId (low.map fun l => [part l])
        exec i s = .next (match oid with | some o => t.endResult c.gid o | none => t) ∧
        (c.mask ≠ 0 → g.reds = [] → (∀ e ∈ s.mem.accs, e.gid = g.gid → e.iss ≠ s.nextId) → (∀ l ∈ low, ∀ f, s1.tryAcc (part l) ≠ .fault f) →
          ∃ t xs, exec i s = .next t ∧ SameMemory s t ∧ SameRegisters s t ∧ t.mem.accs = s.mem.accs ++ xs ∧
            (xs.map fun x => (x.lane, x.va, x.kind, x.mask)) = low.map fun l =>
              (l, (part l).va, kind, maskOf fun k => c.mask.getLsbD k && line k == line l)))
    runs (.cachePref a b m) .pref false ∧ runs (.cacheLock d a b m) .lock true ∧ runs (.cacheUnlock d a b m) .unlock true ∧
    runs (.cacheCwb a b m) .cwb false ∧ runs (.cacheCinv a b m) .cinv false ∧ runs (.cacheCwbinv a b m) .cwbinv false ∧
    (∀ q ∈ ([(.stashMap d a b m, 0), (.stashUnmap d a b m, 1), (.stashFlush d a b m, 2), (.stashFill d a b m, 3),
             (.stashQuery d a b m, 4)] : List (Instr × Nat)), q.1.wf (s.regsOf g) = true →
      let l := lowLane c.mask
      ∃ t g' o x, exec q.1 s = .next t ∧ t.group? c.gid = some g' ∧ g'.outs = g.outs ++ [o] ∧ o.oid = s.nextId ∧ o.sent = true ∧
        SameMemory s t ∧ SameRegisters s t ∧ t.mem.accs = s.mem.accs ++ [x] ∧ x.oid = some s.nextId ∧ x.mask = c.mask ∧ x.d = d.toNat ∧
        x.kind = .stashOp q.2 (ea l - ea l % 128) ((g.lane l).rv d.toNat) ((g.lane l).rv (d.toNat + 1))) ∧
    (∀ x k lo tt n, s.mem.accs.find? (fun y => y.aid == s.ev.id) = some x → x.kind = .stashOp k lo tt n → s.canPerform x = true →
      s.stashReady x = true → exec .loadReturn s = .next ((s.performStash x).performed x.gid) ∧
      ∀ y o, s.cur = none → s.qops = [] → s.sync.semMsgs = [] → (∀ r ∈ s.sync.bars, r.stepf = false) → s.mem.accs = [x] → s.group? x.gid = some y →
        y.allExited = false → y.frozen = false → y.lanes.length = 32 → (∀ l < 32, x.d + 2 ≤ (y.lane l).v.length) → y.outs = [o] → x.oid = some o.oid → o.mask = x.mask →
        o.writes = [] → o.flags = [] →
        ∃ t y' st, exec .loadReturn s = .next t ∧ t.mem.accs = [] ∧ t.group? x.gid = some y' ∧ y'.outs = [] ∧
          st ∈ [stOk, stEmpty, stRefused, stNoslot] ∧ ∀ l < 32, x.mask.getLsbD l = true → (y'.lane l).rv x.d = BitVec.ofNat 32 st) ∧
    (∀ (x : Band), s.band? g.band = some x →
      ((∀ i < 16, (x.mapAt i).isSome = true) → ∀ lo t n, s.stashMapOp g x lo t n = (s, stNoslot)) ∧
      (∀ lo t n, t % 128 ≠ 0 ∨ n % 128 ≠ 0 ∨ n = 0 ∨ s.stashBytes g < t + n ∨ s.inGlb g lo n = false → (∃ i < 16, x.mapAt i = none) →
        s.stashMapOp g x lo t n = (s, stRefused)) ∧
      (∀ lo n, x.mappedIn lo n = [] → s.stashFlushOp x lo n = (s, stEmpty)) ∧
      (∀ lo, x.mapOf lo = none → s.stashQueryWord x lo = 0xFFFFFF83#32))

/-- R398, R399, R401, R403 to R406. RCLK.ADV, and a band's 1,024th counted instruction, ask for one advance of its reuse clock. A BAR of a tier or an
index that its group's kernel has not is ILLEGAL. ARRIVE counts its group in the open phase and the group goes on; SYNC and STEP count it and
wait for that phase, STEP marking the phase; a second arrival waits for the phase to complete first; WAIT waits for the open phase; EXPECT
raises EBYTES. The arrival that fills the record completes the phase and flips it.

R228, R290, R401, R404. An arrival, EXPECT or byte credit on its way is served at its record: an arrival once its group's earlier accesses have
been performed and its earlier messages served, and each in the order of its requester among those of one mesh cycle, which one that comes late
leaves for a later cycle. A served message is gone; an arrival counts one member, a credit adds its bytes and an EXPECT raises EBYTES, and the
completion test is made again.

Model's choices: log entries 43, 44, 45. -/
def Obligations.BarriersCountArrivals : Prop :=
  (∀ (s : State) (c : Issue) (g : Group) (a b d : BitVec 6), Issues s c g →
    (∃ t, exec .rclkAdv s = .next t ∧ SameMemory s t ∧ SameRegisters s t ∧
      ∀ x, s.band? g.band = some x → t.band? g.band = some { x with advReq := x.advReq + 1 }) ∧
    (∃ t, exec .rclkAutoAdvance s = .next t ∧ SameMemory s t ∧ t.groups = s.groups ∧
      ∀ x, s.band? s.ev.id = some x → t.band? s.ev.id = some (if 1024 ≤ x.adv then { x with advReq := max 1 x.advReq } else x)) ∧
    (∀ i ∈ ([.barArrive a b, .barSync a b, .barStep a b, .barWait a b, .barExpect d a b] : List Instr), i.wf (s.regsOf g) = true →
      a = 0 ∨ (s.launchOf g).tiers.length ≤ a.toNat ∨ (s.launchOf g).bars.getD a.toNat 0 ≤ b.toNat →
      exec i s = .next (s.takeTrap c g fcIllegal 0 0)) ∧
    (∀ r q, s.barOf g a.toNat b.toNat = some (r, q) →
      (∀ y ∈ ([(.barArrive a b, false, false), (.barSync a b, false, true), (.barStep a b, true, true)] : List (Instr × Bool × Bool)),
        y.1.wf (s.regsOf g) = true →
        ((s.token r.bar g.gid).pend = true → ∃ t, exec y.1 s = .next t ∧ SameMemory s t ∧ t.sync = s.sync ∧
          t.group? c.gid = some { g with blocked := some (.barArrive r.bar y.2.1 y.2.2) }) ∧
        ((s.token r.bar g.gid).pend = false → g.reds = [] → s.barAtOnce r g = true → r.narr + 1 < r.nmem → s.bar? r.bar = some r →
          ∃ t r', exec y.1 s = .next t ∧ SameMemory s t ∧ SameRegisters s t ∧ t.bar? r.bar = some r' ∧ r'.narr = r.narr + 1 ∧
            r'.phase = r.phase ∧ r'.stepf = (r.stepf || y.2.1) ∧ r'.ebytes = r.ebytes ∧ r'.cbytes = r.cbytes ∧
            t.token r.bar g.gid = { bar := r.bar, gid := g.gid, token := r.phase, pend := true } ∧
            (t.group? c.gid).map (fun g => g.blocked) =
              some (if y.2.2 then some (.barWait r.bar (if r.phase then 1 else 0) y.2.1) else g.blocked))) ∧
      ((Instr.barArrive a b).wf (s.regsOf g) = true → (s.token r.bar g.gid).pend = false → g.reds = [] → s.barAtOnce r g = true →
        r.narr + 1 = r.nmem → r.ebytes ≤ r.cbytes → r.stepf = false → s.bar? r.bar = some r → r.retired = [] →
        (∀ x ∈ s.groups, ∀ i p q, x.blocked ≠ some (.barArrive i p q)) →
        ∃ t r', exec (.barArrive a b) s = .next t ∧ t.bar? r.bar = some r' ∧ r'.phase = !r.phase ∧ r'.narr = 0 ∧ r'.ebytes = 0 ∧ r'.cbytes = 0) ∧
      ((Instr.barWait a b).wf (s.regsOf g) = true → ∃ t, exec (.barWait a b) s = .next t ∧ SameMemory s t ∧ t.sync = s.sync ∧
        t.group? c.gid = some { g with blocked := some (.barWait r.bar (if r.phase then 1 else 0) false) }) ∧
      ((Instr.barExpect d a b).wf (s.regsOf g) = true → r.band = g.band → r.shadow = false → s.barPending r.bar g.gid = false →
        s.barInTurn r (some g.gid) = true → s.bar? r.bar = some r → r.narr < r.nmem →
        ∃ t, exec (.barExpect d a b) s = .next t ∧ SameMemory s t ∧ t.groups = s.groups ∧
          t.bar? r.bar = some { r with ebytes := min (r.ebytes + ((g.lane (lowLane c.mask)).rv d.toNat).toNat) (2 ^ 48 - 1) }))) ∧
  (∀ (s : State) (m : BarMsg) (r : BarRec), s.sync.barMsgs.find? (fun m => m.mid == s.ev.id) = some m → s.bar? m.bar = some r →
    s.barDiverted m r = false →
    (s.barInTurn r m.from = false → exec .barForwardedArrival s = .next s ∧ exec .barCredit s = .next s) ∧
    (s.barInTurn r m.from = true →
    let u := (s.modSync fun y => { y with barMsgs := y.barMsgs.filter fun x => !(x.mid == m.mid) }).barTake r m.from
    let served := fun (t : State) => SameMemory s t ∧ t.groups = s.groups ∧ ∀ x ∈ t.sync.barMsgs, x.mid ≠ m.mid
    (∀ i b q x step after, m = .arrive i b q x step after → s.pendingBelow x after = false →
      s.sync.barMsgs.find? (fun y => y.bar == m.bar && y.from == m.from) = some m →
      exec .barForwardedArrival s = .next (u.barServe r.bar fun r => r.arrive q step) ∧
      (r.narr + 1 < r.nmem → ∃ t, exec .barForwardedArrival s = .next t ∧ served t ∧ t.bar? r.bar = some (r.arrive q step)) ∧
      (r.narr + 1 = r.nmem → r.ebytes ≤ r.cbytes → r.stepf = false → step = false → r.shadow = false → r.retired = [] →
        (∀ x ∈ s.groups, ∀ i p q, x.blocked ≠ some (.barArrive i p q)) → ∃ t r', exec .barForwardedArrival s = .next t ∧ SameMemory s t ∧
          t.bar? r.bar = some r' ∧ r'.phase = !r.phase ∧ r'.narr = 0 ∧ r'.ebytes = 0 ∧ r'.cbytes = 0)) ∧
    (∀ i b q x step after, m = .arrive i b q x step after → s.pendingBelow x after = true → exec .barForwardedArrival s = .next s) ∧
    (∀ i b x n, m = .expect i b x n → s.sync.barMsgs.find? (fun y => y.bar == m.bar && y.from == m.from) = some m →
      exec .barForwardedArrival s = .next (u.barServe r.bar fun r => r.expect n) ∧
      (r.narr < r.nmem → ∃ t, exec .barForwardedArrival s = .next t ∧ served t ∧ t.bar? r.bar = some (r.expect n))) ∧
    (∀ i b n, m = .credit i b n → exec .barCredit s = .next (u.barServe r.bar fun r => r.credit n) ∧
      (r.narr < r.nmem → ∃ t, exec .barCredit s = .next t ∧ served t ∧ t.bar? r.bar = some (r.credit n))) ∧
    (∀ n, (r.credit n).cbytes = min (r.cbytes + n) (2 ^ 48 - 1) ∧ (r.expect n).ebytes = min (r.ebytes + n) (2 ^ 48 - 1)) ∧
    ∀ q step, (r.arrive q step).narr = r.narr + 1 ∧ (r.arrive q step).phase = r.phase))

/-- R410 to R417. SEM.ACQ takes a unit or waits last in the slot's queue; TRYACQ takes one or answers BUSY; REL grants the oldest waiter or raises
COUNT, FULL at the largest count; an invalid handle is REFUSED. ACQ.M and REL.M put one access of 8 bytes in flight, which ATOM_PERFORM performs: a
REL.M adds one unit to the word, and an ACQ.M that finds one takes it, with its HOLDER, and otherwise waits; SEM_WORD_RETRY tries it again.
SYNCA.ALLOC reserves the lowest FREE slot of the die with COUNT V[D] or answers NOSLOT; SYNCA.FREE releases an allocated slot and raises its
generation, or waits for its waiters. Those of one mesh cycle are served in the order of their requesters: one that comes late is put on its way.

Model's choices: log entries 47, 48. -/
def Obligations.SemaphoresCountUnits : Prop :=
  ∀ (s : State) (c : Issue) (g : Group) (d a : BitVec 6), Issues s c g →
    let h := (g.lane (lowLane c.mask)).rv a.toNat
    let slot := s.semOf g.band (s.ctxOf g) h
    let told := fun (t : State) (n : Nat) => ∃ o, t.group? c.gid = some { g with outs := g.outs ++ [o] } ∧ o.kind = .unit ∧ o.mask = c.mask ∧
      o.writes = [.lstat (BitVec.ofNat 3 n)]
    let waits := fun (t : State) (m : SemMsg) (op : SemOp) => t.sync.semMsgs = s.sync.semMsgs ++ [m] ∧ t.sync.sems = s.sync.sems ∧
      m = s.semMsg c g op h ∧ m.gid = g.gid ∧ m.op = op ∧ m.handle = h
    let msg := fun (op : SemOp) => s.semMsg c g op h
    let tryOp := SemOp.tryAcq d.toNat
    let allocMsg := s.semMsg c g (.alloc ((g.lane (lowLane c.mask)).rv d.toNat) d.toNat a.toNat) 0
    ((Instr.semAcq a).wf (s.regsOf g) = true →
      (slot = none → GivesKind .unit (.semAcq a) s c 1 [.lstat (BitVec.ofNat 3 stRefused)] []) ∧
      (∀ x, slot = some x → s.semInTurn (msg .acq) = false → ∃ t m, exec (.semAcq a) s = .next t ∧ SameMemory s t ∧ waits t m .acq ∧
        t.group? c.gid = some { g with blocked := some (.sem x.key) }) ∧
      (∀ x, slot = some x → s.semInTurn (msg .acq) = true → x.count ≠ 0 → ∃ t, exec (.semAcq a) s = .next t ∧ told t stOk ∧ SameMemory s t ∧
        t.sync.sems = mapIf (fun y => y.key == x.key) (fun y => { y with count := y.count - 1, holder := some g.holder }) s.sync.sems) ∧
      (∀ x, slot = some x → s.semInTurn (msg .acq) = true → x.count = 0 → ∃ t, exec (.semAcq a) s = .next t ∧ SameMemory s t ∧
        t.group? c.gid = some { g with blocked := some (.sem x.key) } ∧
        t.sync.sems = mapIf (fun y => y.key == x.key) (fun y => { y with waiters := y.waiters ++ [g.gid] }) s.sync.sems)) ∧
    ((Instr.semTryacq d a).wf (s.regsOf g) = true →
      (slot = none → GivesKind .unit (.semTryacq d a) s c 1 (statusWrites c.mask d.toNat stRefused) []) ∧
      (∀ x, slot = some x → s.semInTurn (msg tryOp) = false → ∃ t m, exec (.semTryacq d a) s = .next t ∧ SameMemory s t ∧ SameRegisters s t ∧
        waits t m tryOp ∧ m.oid = s.nextId ∧ (t.group? c.gid).map (fun y => y.outs.length) = some (g.outs.length + 1)) ∧
      (∀ x, slot = some x → s.semInTurn (msg tryOp) = true → x.count = 0 →
        GivesServed (s.semTurn (msg tryOp)) (.semTryacq d a) s c (statusWrites c.mask d.toNat stBusy)) ∧
      (∀ x, slot = some x → s.semInTurn (msg tryOp) = true → x.count ≠ 0 → ∃ t g' o, exec (.semTryacq d a) s = .next t ∧ t.group? c.gid = some g' ∧ g'.outs = g.outs ++ [o] ∧
        o.writes = statusWrites c.mask d.toNat stOk ∧ SameMemory s t ∧ SameRegisters s t ∧
        t.sync.sems = mapIf (fun y => y.key == x.key) (fun y => { y with count := y.count - 1, holder := some g.holder }) s.sync.sems)) ∧
    ((Instr.semRel a).wf (s.regsOf g) = true →
      (slot = none → GivesKind .unit (.semRel a) s c 1 [.lstat (BitVec.ofNat 3 stRefused)] []) ∧
      (∀ x, slot = some x → g.reds = [] → s.pendingBelow g.gid s.mem.nextAid = true ∨ s.semInTurn (msg .rel) = false →
        ∃ t m, exec (.semRel a) s = .next t ∧ SameMemory s t ∧ SameRegisters s t ∧ waits t m .rel) ∧
      (∀ x, slot = some x → g.reds = [] → s.pendingBelow g.gid s.mem.nextAid = false → s.semInTurn (msg .rel) = true → x.waiters = [] →
        ∃ t, exec (.semRel a) s = .next t ∧ SameMemory s t ∧
          (x.count = 0xFFFFFFFF#32 → t.sync.sems = s.sync.sems ∧ told t stFull) ∧
          (x.count ≠ 0xFFFFFFFF#32 → told t stOk ∧
            t.sync.sems = mapIf (fun y => y.key == x.key) (fun y => { y with count := y.count + 1 }) s.sync.sems)) ∧
      (∀ x w ws y, slot = some x → g.reds = [] → s.pendingBelow g.gid s.mem.nextAid = false → s.semInTurn (msg .rel) = true → x.waiters = w :: ws →
        x.freer = none → w ≠ g.gid →
        s.sync.sems.find? (fun y => y.key == x.key) = some x → s.group? w = some y →
        ∃ t y', exec (.semRel a) s = .next t ∧ SameMemory s t ∧ told t stOk ∧ t.group? w = some y' ∧ y'.blocked = none ∧
          y'.gst = setLstat y.gst 0 ∧ t.sync.sems.find? (fun y => y.key == x.key) = some { x with waiters := ws, holder := some y.holder })) ∧
    (let m : Attr := { off := 0, seg := 0, str := 0, scp := 4, ru := 30, ord := 0, cp := 0 }
     let va := (g.lane (lowLane c.mask)).pair a.toNat
     ∀ q ∈ ([(.semAcqM a, .semAcq), (.semRelM a, .semRel)] : List (Instr × AccKind)), q.1.wf (s.regsOf g) = true → g.reds = [] →
       (∀ x v, s.memCheck g (1#32 <<< lowLane c.mask) m 8 true true (fun _ => va) = some (x, v) →
         exec q.1 s = .next (s.takeTrap c g x 0 (BitVec.ofInt 64 v))) ∧
       (s.memCheck g (1#32 <<< lowLane c.mask) m 8 true true (fun _ => va) = none → ∃ u as, exec q.1 s = .next ((u.startLane as).settle c.gid s.nextId) ∧
         SameMemory s u ∧ SameRegisters s u ∧ u.mem.accs = s.mem.accs ∧ (∀ x ∈ as, x.kind = q.2 ∧ x.gid = g.gid ∧ x.iss = s.nextId) ∧
         (as.map fun x => x.n).sum = 8) ∧
       (s.memCheck g (1#32 <<< lowLane c.mask) m 8 true true (fun _ => va) = none → (∀ e ∈ s.mem.accs, e.gid = g.gid → e.iss ≠ s.nextId) →
         (∀ x ∈ s.laneAccs c g m none s.nextId (lowLane c.mask) c.mask 0 va 8 (fun _ _ => q.2), ∀ f, s.tryAcc x ≠ .fault f) →
         ∃ t x, exec q.1 s = .next t ∧ SameMemory s t ∧ SameRegisters s t ∧ t.mem.accs = s.mem.accs ++ [x] ∧ x.kind = q.2 ∧ x.va = va ∧ x.n = 8 ∧
           x.mask = c.mask ∧ x.gid = c.gid ∧ (q.2 = .semAcq → (t.group? c.gid).any (fun y => y.blocked.isSome) = true))) ∧
    (∀ (pa gid : Nat) (x : Group), MemInv s → s.cur = none → s.group? gid = some x → pa ≠ 0 →
      (∀ k j, j < 8 → s.keyGenOf (s.ctxOf x) = some k → ∀ e ∈ s.mem.sectorKey, e.1 = (pa + j) / 32 → e.2 = k) →
      let w := leNat ((List.range 8).map fun j => s.readPa (s.ctxOf x) (pa + j))
      let holds := fun (t : State) (v : Nat) => (∀ j < 8, t.mem.coh (pa + j) = (leBytes 8 v).getD j 0) ∧
        ∀ q, q < pa ∨ pa + 8 ≤ q → t.mem.coh q = s.mem.coh q
      let taken := w % 2 ^ 32 - 1 + (x.die * 2 ^ 29 + x.core * 2 ^ 22 + x.gslot * 2 ^ 14) * 2 ^ 32
      (∀ n r, gid = s.ev.id → x.blocked = some (.semWord pa n r) →
        (w % 2 ^ 32 ≠ 0 → ∃ t, exec .semWordRetry s = .next t ∧ holds t taken ∧ (t.group? s.ev.id).map (fun y => y.blocked) = some none) ∧
        (w % 2 ^ 32 = 0 → ∃ t, exec .semWordRetry s = .next t ∧ (∀ q, t.mem.coh q = s.mem.coh q) ∧
          (t.group? s.ev.id).any (fun y => y.blocked.isSome) = true)) ∧
      (∀ e, s.mem.accs = [e] → e.aid = s.ev.id → e.gid = gid → e.ctx = s.ctxOf x → e.places = some ((List.range 8).map fun j => .mem (pa + j)) →
        s.canPerform e = true → s.qops = [] → s.sync.semMsgs = [] → (∀ r ∈ s.sync.bars, r.stepf = false) → x.allExited = false →
        (e.kind = .semRel → w % 2 ^ 32 ≠ 2 ^ 32 - 1 → ∃ t, exec .atomPerform s = .next t ∧ t.mem.accs = [] ∧ holds t (w + 1)) ∧
        (e.kind = .semAcq → w % 2 ^ 32 ≠ 0 → ∃ t, exec .atomPerform s = .next t ∧ t.mem.accs = [] ∧ holds t taken ∧
          (t.group? gid).map (fun y => y.blocked) = some none))) ∧
    (∀ x pa n r, s.group? s.ev.id = some x → x.blocked = some (.semWord pa n r) → pa ≠ 0 →
      exec .semWordRetry s = .next ((s.wordTry x ((List.range 8).map fun i => .mem (pa + i))).askSlice x.die x.core (secsOf [pa] (pa / 128)) (pa / 128)
        .write (s.ctxOf x) 0 30 (s.rrateOf x))) ∧
    ((Instr.syncaAlloc d a).wf (s.regsOf g) = true →
      (s.semInTurn allocMsg = false → ∃ t m, exec (.syncaAlloc d a) s = .next t ∧ SameMemory s t ∧ SameRegisters s t ∧
        t.sync.semMsgs = s.sync.semMsgs ++ [m] ∧ t.sync.sems = s.sync.sems ∧ m = allocMsg ∧ m.oid = s.nextId ∧
        (t.group? c.gid).map (fun y => y.outs.length) = some (g.outs.length + 1)) ∧
      (s.semInTurn allocMsg = true → s.freeSem g.die = none →
        GivesServed (s.semTurn allocMsg) (.syncaAlloc d a) s c (statusWrites c.mask a.toNat stNoslot)) ∧
      (∀ i, s.semInTurn allocMsg = true → s.freeSem g.die = some i → ∃ t g' o x, exec (.syncaAlloc d a) s = .next t ∧ t.group? c.gid = some g' ∧ g'.outs = g.outs ++ [o] ∧
        SameMemory s t ∧ SameRegisters s t ∧ t.sync.sems = s.sync.sems.filter (fun y => !(y.die == g.die && y.slot == i)) ++ [x] ∧
        x.st = .allocated ∧ x.die = g.die ∧ x.slot = i ∧ x.ctx = s.ctxOf g ∧ x.count = (g.lane (lowLane c.mask)).rv d.toNat ∧ x.waiters = [] ∧
        o.writes = (lanesOf c.mask).map (fun l => .v l d.toNat (semHandle x.gen g.die i)) ++ statusWrites c.mask a.toNat stOk)) ∧
    ((Instr.syncaFree a).wf (s.regsOf g) = true →
      (slot = none ∨ h.getLsbD 31 = true → GivesKind .unit (.syncaFree a) s c 1 [.lstat (BitVec.ofNat 3 stRefused)] []) ∧
      (∀ x, slot = some x → h.getLsbD 31 = false → s.semInTurn (msg .free) = false → ∃ t m, exec (.syncaFree a) s = .next t ∧ SameMemory s t ∧
        waits t m .free ∧ t.group? c.gid = some { g with blocked := some (.semFree x.key) }) ∧
      (∀ x, slot = some x → h.getLsbD 31 = false → s.semInTurn (msg .free) = true → x.waiters = [] → ∃ t, exec (.syncaFree a) s = .next t ∧ told t stOk ∧ SameMemory s t ∧
        t.sync.sems = mapIf (fun y => y.key == x.key) SemSlot.release s.sync.sems) ∧
      (∀ x, slot = some x → h.getLsbD 31 = false → s.semInTurn (msg .free) = true → x.waiters ≠ [] → ∃ t, exec (.syncaFree a) s = .next t ∧ SameMemory s t ∧
        t.group? c.gid = some { g with blocked := some (.semFree x.key) }))

/-- R325 to R328. The operations of a named queue that nothing else uses, in its group's turn and after its earlier accesses: a push of k words appends them, lowest
lane first, where the allowance suffices and otherwise waits (PUSH) or answers FULL (TRYPUSH); a pop takes the k oldest words where there are as many,
to be written from the next cycle on, and otherwise waits (POP) or answers EMPTY (TRYPOP); PEEK reads them and leaves them; ALLOW grants V[D] of the
lowest lane, the excess discarded. A queue that the kernel has not declared is ILLEGAL.

Model's choices: log entries 49, 50. -/
def Obligations.NamedQueuesServe : Prop :=
  ∀ (s : State) (c : Issue) (g : Group) (d a b : BitVec 6), Issues s c g →
    let x := s.namedQ g.band b.toNat
    let k := (lanesOf c.mask).length
    let words := (lanesOf c.mask).map fun l => (g.lane l).rv d.toNat
    let popped := (List.range k).map fun i => RegWrite.v ((lanesOf c.mask).getD i 0) d.toNat ((x.front k).getD i 0)
    let calm := s.qops = [] ∧ s.pendingBelow g.gid s.mem.nextAid = false ∧ x.pushW = [] ∧ x.popW = [] ∧ b.toNat < (s.launchOf g).nq ∧
      s.inTurn (.named g.band b.toNat) g.die (65536 * g.quad + g.gslot) = true ∧ ∀ o ∈ g.outs, o.oid ≠ s.nextId
    let gives := fun (t : State) (y : NamedQ) (ws : List RegWrite) => ∃ o, t.group? c.gid = some { g with outs := g.outs ++ [o] } ∧
      o.oid = s.nextId ∧ o.kind = .unit ∧ o.mask = c.mask ∧ o.sent = false ∧ o.due = s.cycleOn g.die + 1 ∧ o.writes = ws ∧
      t.namedQ g.band b.toNat = y ∧ SameMemory s t ∧ SameRegisters s t
    let st := fun (n : Nat) => statusWrites c.mask a.toNat n
    (∀ i ∈ ([.qopPush d b, .qopPop d b, .qopTrypush d a b, .qopTrypop d a b, .qopAllow d b, .qopPeek d a b] : List Instr),
      i.wf (s.regsOf g) = true → (s.launchOf g).nq ≤ b.toNat → exec i s = .next (s.takeTrap c g fcIllegal 0 0)) ∧
    ((Instr.qopPush d b).wf (s.regsOf g) = true → calm → ∃ t, exec (.qopPush d b) s = .next t ∧ SameMemory s t ∧ SameRegisters s t ∧
      (k ≤ x.allow → t.group? c.gid = some { g with blocked := none } ∧ t.namedQ g.band b.toNat = x.put words) ∧
      (x.allow < k → t.group? c.gid = some { g with blocked := some (.qpush b.toNat) } ∧
        ∃ o, t.namedQ g.band b.toNat = { x with pushW := [o] } ∧ o.pushed = words ∧ o.gid = g.gid)) ∧
    ((Instr.qopPop d b).wf (s.regsOf g) = true → calm → ∃ t, exec (.qopPop d b) s = .next t ∧ SameMemory s t ∧
      (k ≤ x.occ → ∃ o, t.group? c.gid = some { g with outs := g.outs ++ [o], blocked := none } ∧ o.kind = .unit ∧ o.mask = c.mask ∧
        o.sent = false ∧ o.due = s.cycleOn g.die + 1 ∧ o.writes = popped ∧ t.namedQ g.band b.toNat = x.take k) ∧
      (x.occ < k → (t.group? c.gid).map (fun g => g.blocked) = some (some (.qpop b.toNat)) ∧ SameRegisters s t ∧
        ∃ o, t.namedQ g.band b.toNat = { x with popW := [o] } ∧ o.gid = g.gid)) ∧
    ((Instr.qopTrypush d a b).wf (s.regsOf g) = true → calm → ∃ t, exec (.qopTrypush d a b) s = .next t ∧
      (k ≤ x.allow → gives t (x.put words) (st stOk)) ∧ (x.allow < k → gives t x (st stFull))) ∧
    ((Instr.qopTrypop d a b).wf (s.regsOf g) = true → calm → ∃ t, exec (.qopTrypop d a b) s = .next t ∧
      (k ≤ x.occ → gives t (x.take k) (popped ++ st stOk)) ∧ (x.occ < k → gives t x (st stEmpty))) ∧
    ((Instr.qopPeek d a b).wf (s.regsOf g) = true → calm → ∃ t, exec (.qopPeek d a b) s = .next t ∧
      (k ≤ x.occ → gives t x (popped ++ st stOk)) ∧ (x.occ < k → gives t x (st stEmpty))) ∧
    ((Instr.qopAllow d b).wf (s.regsOf g) = true → calm → ∃ t, exec (.qopAllow d b) s = .next t ∧ SameMemory s t ∧ t.groups = s.groups ∧
      t.namedQ g.band b.toNat = { x with allow := min (x.allow + (words.getD 0 0).toNat) (256 - x.occ) }) ∧
    (∀ (y : NamedQ) (vs : List W32), y.slots.length = 256 → y.head < 256 → y.occ + vs.length ≤ 256 →
      (y.put vs).front (y.occ + vs.length) = y.front y.occ ++ vs ∧ (y.put vs).allow = y.allow - vs.length ∧
      (y.put vs).occ = y.occ + vs.length)

/-- R329 to R332. An operation on a work queue that nothing else uses, in its group's turn at the unit: ENQ appends the four words of each lane while the window has room; TRYDEQ takes
the oldest entries, lane by lane, or answers EMPTY; DEQ and ENQW join the queue's waiters and are served while they can be, with one lane at
once; ENQW_TIMEOUT answers TIMEOUT to the lanes left after 64 µs; WQ_REFILL moves entries from the ring. A handle that is not valid is REFUSED,
and for DEQ it is ILLEGAL.

Model's choices: log entries 50, 51. -/
def Obligations.WorkQueuesServe : Prop :=
  ∀ (s : State) (c : Issue) (g : Group) (d a b : BitVec 6), Issues s c g →
    let q := s.workOf (s.ctxOf g) (g.rs a.toNat)
    let k := (lanesOf c.mask).length
    let entry := fun (l : Nat) => (List.range 4).map fun i => (g.lane l).rv (d.toNat + i)
    let entries := (lanesOf c.mask).map entry
    let calm := fun (x : WorkQ) => q = some x ∧ s.work? x.wid = some x ∧ s.qops = [] ∧ s.pendingBelow g.gid s.mem.nextAid = false ∧
      x.deqW = [] ∧ x.enqW = [] ∧ x.rocc = 0 ∧ x.stuck = none ∧ s.inTurn (.workUnit x.die x.unit) x.die (g.rankAt x.die) = true ∧
      ∀ o ∈ g.outs, o.oid ≠ s.nextId
    let status := fun (l n : Nat) => RegWrite.v l b.toNat (BitVec.ofNat 32 n) ::
      (if l = lowLane c.mask then [RegWrite.lstat (BitVec.ofNat 3 n)] else [])
    let words := fun (l : Nat) (e : List W32) => (List.range 4).map fun i => RegWrite.v l (d.toNat + i) (e.getD i 0)
    let holds := fun (o : Outst) (ws : List RegWrite) => o.kind = .unit ∧ o.mask = c.mask ∧ o.sent = false ∧ o.due = s.cycleOn g.die + 1 ∧ o.writes = ws
    let gives := fun (t : State) (y : WorkQ) (ws : List RegWrite) => ∃ o, t.group? c.gid = some { g with outs := g.outs ++ [o] } ∧
      holds o ws ∧ t.work? y.wid = some y ∧ SameMemory s t ∧ SameRegisters s t
    (∀ i ∈ ([.wqEnq d a b, .wqTrydeq d a b, .wqEnqw d a b] : List Instr), i.wf (s.regsOf g) = true → q = none →
      GivesKind .unit i s c 1 (statusWrites c.mask b.toNat stRefused) []) ∧
    ((Instr.wqDeq d a).wf (s.regsOf g) = true → q = none → exec (.wqDeq d a) s = .next (s.takeTrap c g fcIllegal 0 0)) ∧
    (∀ x, calm x →
      ((Instr.wqEnq d a b).wf (s.regsOf g) = true → x.window.length + k ≤ 64 → ∃ t, exec (.wqEnq d a b) s = .next t ∧
        gives t { x with window := x.window ++ entries } ((lanesOf c.mask).flatMap fun l => status l stOk)) ∧
      ((Instr.wqTrydeq d a b).wf (s.regsOf g) = true → k ≤ x.window.length → ∃ t, exec (.wqTrydeq d a b) s = .next t ∧
        gives t { x with window := x.window.drop k }
          ((List.range k).flatMap fun i => let l := (lanesOf c.mask).getD i 0
            words l (x.window.getD i []) ++ status l stOk)) ∧
      ((Instr.wqTrydeq d a b).wf (s.regsOf g) = true → x.window = [] → ∃ t, exec (.wqTrydeq d a b) s = .next t ∧
        gives t x ((lanesOf c.mask).flatMap fun l => status l stEmpty)) ∧
      (∀ l, lanesOf c.mask = [l] → g.holds = false → (∀ y ∈ s.mem.accs, y.oid ≠ some s.nextId) →
        ((Instr.wqDeq d a).wf (s.regsOf g) = true → ∀ e r, x.window = e :: r → ∃ t o, exec (.wqDeq d a) s = .next t ∧ SameMemory s t ∧
          t.work? x.wid = some { x with window := r } ∧ t.group? c.gid = some { g with outs := g.outs ++ [o], blocked := none } ∧
          holds o (words l e)) ∧
        ((Instr.wqDeq d a).wf (s.regsOf g) = true → x.window = [] → ∃ t o, exec (.wqDeq d a) s = .next t ∧ SameMemory s t ∧
          t.work? x.wid = some { x with deqW := [o] } ∧ o.gid = g.gid ∧
          (t.group? c.gid).map (fun g => g.blocked) = some (some (.wqDeq x.wid))) ∧
        ((Instr.wqEnqw d a b).wf (s.regsOf g) = true → x.window.length < 64 → ∃ t o, exec (.wqEnqw d a b) s = .next t ∧ SameMemory s t ∧
          t.work? x.wid = some { x with window := x.window ++ entries } ∧
          t.group? c.gid = some { g with outs := g.outs ++ [o], blocked := none } ∧ holds o (status l stOk)))) ∧
    (∀ x w t o y, s.group? s.ev.id = some x → x.blocked = some (.wqEnqw w t) → x.holds = false → t ≤ s.out.elapsed → s.qops = [] →
      s.work? w = some y → y.enqW = [o] → o.gid = x.gid → o.kind = .enqw →
      ∃ u, exec .enqwTimeout s = .next ((u.bringQ o (o.lanes.flatMap fun l => o.laneStatus l stTimeout)).endWork o) ∧ SameMemory s u ∧
        u.groups = s.groups ∧ u.work? w = some { y with enqW := [] } ∧
        ∀ p, s.cur = none → s.mem.accs = [] → x.frozen = false → x.lanes.length = 32 → (∀ l < 32, o.st < (x.lane l).v.length) → o.gid = s.ev.id → x.outs = [p] →
          o.oid = some p.oid → p.writes = [] → p.flags = [] → o.lanes.Nodup →
          ∃ t x', exec .enqwTimeout s = .next t ∧ t.group? s.ev.id = some x' ∧ x'.outs = [] ∧ x'.blocked = none ∧
            ∀ l ∈ o.lanes, l < 32 → p.mask.getLsbD l = true → (x'.lane l).rv o.st = BitVec.ofNat 32 stTimeout) ∧
    exec .wqRefill s = .next ((s.workRefill s.ev.id 64).workExam s.ev.id) ∧
    (∀ y u bs, s.work? s.ev.id = some y → y.rocc = 1 → y.window.length < 64 → y.stuck = none →
      s.readGlb y.die unitQueues y.ctx (y.base + 16 * y.rhead) 16 = (u, .ok bs) → (y.ring.headD []).length = 4 →
      let now := (List.range 4).map (wordAt bs)
      let was := y.ring.headD []
      ∃ e, (s.workRefill s.ev.id 64).work? s.ev.id =
          some { y with window := y.window ++ [e], rhead := (y.rhead + 1) % y.count, rocc := 0, ring := y.ring.drop 1 } ∧
        (y.deqW = [] → y.enqW = [] → ∃ t, exec .wqRefill s = .next t ∧ t.work? s.ev.id =
          some { y with window := y.window ++ [e], rhead := (y.rhead + 1) % y.count, rocc := 0, ring := y.ring.drop 1 }) ∧
        (was = now → e = now) ∧ ∀ i < 4, e.getD i 0 = now.getD i 0 ∨ e.getD i 0 = was.getD i 0)

/-- R276, R277, R292, R295. CHAN.POST and CHAN.COLL put a head into a channel of their class that holds fewer than four, FULL otherwise; a handle that is
not valid or of the other class, and a head that is 0 or not a multiple of 64, are REFUSED; STAT tells whether the channel is idle with nothing
posted; CANCEL ends its work. Requests of one mesh cycle are served in the order of their requesters: one that comes late is put on its way.

R288, R289, R296, R297. CREC looks at the slot at TAIL once its group's stores have been performed. POLL returns the record present there to eight
registers of every lane, or EMPTY; WAIT waits up to 64 µs where it is absent; ACK advances TAIL in memory; a descriptor that R297 turns away is
REFUSED. At the bound a WAIT with no record ends in TIMEOUT. A slot is present when it lies at TAIL mod COUNT and its PHASE is ((TAIL ÷ COUNT) + 1) mod 2;
a descriptor off a 64-byte boundary, or whose COUNT is not a power of two from 16 to 65,536, is turned away.

Model's choices: log entries 63, 68. -/
def Obligations.ChannelsTakePosts : Prop :=
  (∀ (s : State) (c : Issue) (g : Group) (d a b : BitVec 6), Issues s c g →
    let q := s.chanOf (s.ctxOf g) (g.rs a.toNat)
    let status := fun (n : Nat) => statusWrites c.mask d.toNat n
    let head := (g.rs b.toNat).toNat
    let mine := fun (x : Channel) => s.inTurn x.engine x.die (g.rankAt x.die)
    let turn := fun (x : Channel) => s.takeTurn x.engine x.die (g.rankAt x.die)
    let later := fun (t : State) (m : ChanMsg) => SameMemory s t ∧ SameRegisters s t ∧ t.chans = s.chans ∧ t.chanMsgs = s.chanMsgs ++ [m] ∧
      m.gid = g.gid ∧ m.handle = g.rs a.toNat ∧ m.oid = s.nextId ∧ (t.group? c.gid).map (fun y => y.outs.length) = some (g.outs.length + 1)
    (∀ y ∈ ([(.chanPost d a b, false), (.chanColl d a b, true)] : List (Instr × Bool)), y.1.wf (s.regsOf g) = true →
      (q = none → GivesKind .unit y.1 s c 1 (status stRefused) []) ∧
      (∀ x, q = some x → mine x = false → ∃ t m, exec y.1 s = .next t ∧ later t m ∧ ∃ p, m.op = .post p ∧ p.head = head ∧ p.coll = y.2 ∧ p.gid = g.gid) ∧
      (∀ x, q = some x → mine x = true → x.coll ≠ y.2 ∨ head = 0 ∨ head % 64 ≠ 0 → GivesServed (turn x) y.1 s c (status stRefused)) ∧
      (∀ x, q = some x → mine x = true → x.coll = y.2 → head ≠ 0 → head % 64 = 0 → 4 ≤ x.posts.length →
        GivesServed (turn x) y.1 s c (status stFull)) ∧
      (∀ x, q = some x → mine x = true → x.coll = y.2 → head ≠ 0 → head % 64 = 0 → x.posts.length < 4 →
        ∃ t o p, exec y.1 s = .next t ∧ t.group? c.gid = some { g with outs := g.outs ++ [o] } ∧ o.writes = status stOk ∧ SameMemory s t ∧
          t.chans = mapIf (fun z => z.cid == x.cid) (fun z => { z with posts := z.posts ++ [p] }) s.chans ∧ p.head = head ∧ p.coll = y.2 ∧
          p.gid = g.gid ∧ p.signet = g.cause ∧ p.ctx = s.ctxOf g ∧ p.band = g.band)) ∧
    ((Instr.chanStat d a).wf (s.regsOf g) = true →
      (q = none → GivesKind .unit (.chanStat d a) s c 1 (status stRefused) []) ∧
      (∀ x, q = some x → mine x = false → ∃ t m, exec (.chanStat d a) s = .next t ∧ later t m ∧ m.op = .stat) ∧
      (∀ x, q = some x → mine x = true →
        GivesServed (turn x) (.chanStat d a) s c (status (if x.st = .idle ∧ x.posts = [] then stOk else stBusy)))) ∧
    ((Instr.chanCancel d a).wf (s.regsOf g) = true →
      (q = none → GivesKind .unit (.chanCancel d a) s c 1 (status stRefused) []) ∧
      (∀ x, q = some x → mine x = false → ∃ t m, exec (.chanCancel d a) s = .next t ∧ later t m ∧ m.op = .cancel) ∧
      (∀ x, q = some x → mine x = true →
        exec (.chanCancel d a) s = .next (((turn x).cancelChan x.cid (fun _ => true) 0).postUnit c g (status stOk)) ∧
        ((turn x).cancelChan x.cid (fun _ => true) 0).groups = s.groups ∧ SameMemory s ((turn x).cancelChan x.cid (fun _ => true) 0)))) ∧
  (∀ (s : State) (c : Issue) (g : Group) (d a b : BitVec 6), Issues s c g →
    (∀ u r, s.crecLook g (g.rs a.toNat).toNat = (u, r) →
      let status := fun (n : Nat) => statusWrites c.mask b.toNat n
      ((Instr.crecPoll d a b).wf (s.regsOf g) = true →
        (∀ tail slot, r = .present tail slot →
          exec (.crecPoll d a b) s = .next ((u.l1Invalidate g.die g.core).postUnit c g (crecWrites c.mask d.toNat b.toNat slot))) ∧
        (r = .absent → exec (.crecPoll d a b) s = .next (u.postUnit c g (status stEmpty))) ∧
        (r = .refused → exec (.crecPoll d a b) s = .next (u.postUnit c g (status stRefused)))) ∧
      ((Instr.crecWait d a b).wf (s.regsOf g) = true →
        (∀ tail slot, r = .present tail slot →
          exec (.crecWait d a b) s = .next ((u.l1Invalidate g.die g.core).postUnit c g (crecWrites c.mask d.toNat b.toNat slot))) ∧
        (r = .absent → exec (.crecWait d a b) s = .next ((u.postAwait c g .unit).modGroup g.gid fun g =>
          { g with blocked := some (.crecWait (u.out.elapsed + usToUnits 64)) })) ∧
        (r = .refused → exec (.crecWait d a b) s = .next (u.postUnit c g (status stRefused)))) ∧
      ((Instr.crecAck a b).wf (s.regsOf g) = true →
        (∀ tail slot w, r = .present tail slot →
          u.writeGlb g.die g.core (u.ctxOf g) ((g.rs a.toNat).toNat + 24) (leBytes 8 (tail + 1)) = (w, none) →
          exec (.crecAck a b) s = .next (w.postUnit c g (status stOk))) ∧
        (r = .absent → exec (.crecAck a b) s = .next (u.postUnit c g (status stEmpty))) ∧
        (r = .refused → exec (.crecAck a b) s = .next (u.postUnit c g (status stRefused))))) ∧
    (∀ (mask : BitVec 32) (slot : List Byte), crecWrites mask d.toNat b.toNat slot =
      ((lanesOf mask).flatMap fun l => (List.range 8).map fun k => .v l (d.toNat + k) (wordAt slot k)) ++ statusWrites mask b.toNat stOk) ∧
    (∀ x t o u, s.group? s.ev.id = some x → x.blocked = some (.crecWait t) → t ≤ s.out.elapsed → x.holds = false → x.crecOut = some o →
      s.crecLook x (x.rs (bits o.w0.toNat 9 6)).toNat = (u, .absent) →
      exec .crecWaitTimeout s = .next ((u.deliver s.ev.id o.oid (statusWrites o.mask (bits o.w0.toNat 3 6) stTimeout)).modGroup s.ev.id fun g =>
        { g with blocked := none }))) ∧
  (∀ (s : State) (g : Group) (va : Nat),
    (va % 64 ≠ 0 → s.crecLook g va = (s, .refused)) ∧
    (∀ s1 bs, va % 64 = 0 → s.readOwn g va 64 = (s1, .ok bs) →
      let base := fieldAt bs 0 64
      let count := fieldAt bs 64 32
      let tail := fieldAt bs 192 64
      ((¬ ∃ n, 4 ≤ n ∧ n ≤ 16 ∧ count = 2 ^ n) → s.crecLook g va = (s1, .refused)) ∧
      (∀ n s2 slot, 4 ≤ n → n ≤ 16 → count = 2 ^ n → s1.readOwn g (base + 32 * (tail % count)) 32 = (s2, .ok slot) →
        s.crecLook g va = (s2, if fieldAt slot 255 1 = (tail / count + 1) % 2 then .present tail slot else .absent))))

/-- R77, R262 to R271. A matrix instruction whose operands pass its checks enters the queue of its group's unit, closing the open pass (MQ joins the open
pass or opens one), and completes: no register and no byte of memory changes until its item takes effect. MQ and MACCCVT take the lanes whose
stash lines can be filled; MLOADB and MSCL fill what they read. A row, slot or count out of range is ILLEGAL; MACCRD awaits its result.

R263 to R273. The items of a matrix unit's queue take effect in order. The open pass closes after cycle o + 7; a closed pass starts when it is first and
nothing runs, reading its rows, and runs for 4 n w + 6 cycles; then each lane writes its accumulator row, element by element, with the total
of its A row and the column, added to the old value where ACC is 1; a pass over a poisoned bank, or one that meets a parity error, writes
nothing and raises MACRO_PARITY. An MLD instruction first in the queue takes effect once what FENCE.P put before it is done: MLOADB fills the
shadow bank from the stash, MSWAP exchanges the banks, MSCL writes scale slots, MACCRD, MACCWR and MACCCLR read, write and clear the accumulator,
and MACCCVT stores a row converted.

Model's choices: log entries 23, 24, 70, 71, 74. -/
def Obligations.MatrixInstructionsEnterQueue : Prop :=
  (∀ (s : State) (c : Issue) (g : Group) (u : MatUnit) (x : Band) (d a b : BitVec 6) (m : MatWord) (n : BitVec 2) (tg y : BitVec 3),
    Issues s c g → s.mat? g = some u → s.band? g.band = some x →
    let va := fun (l : Nat) => ((g.lane l).rv a.toNat).toNat
    let vd := fun (l : Nat) => ((g.lane l).rv d.toNat).toNat
    let low := lowLane c.mask
    let accepts := fun (i : Instr) (v : MatUnit) (p : MldOp → Prop) => i.wf (s.regsOf g) = true →
      ∃ t op, exec i s = .next t ∧ SameMemory s t ∧ SameRegisters s t ∧ t.mat? g = some { v with queue := u.close.queue ++ [.mld op] } ∧
        op.gid = c.gid ∧ op.band = x.bid ∧ op.pc = c.pc ∧ op.needs = g.matNeeds ∧ p op
    let lanes := (lanesOf c.mask).map fun l => (l, (g.lane l).rv d.toNat, (g.lane l).rv a.toNat)
    let any := fun (p : Nat → Prop) => ∃ l < 32, c.mask.getLsbD l = true ∧ p l
    accepts .mswap { u.close with viewA := u.viewS, viewS := u.viewA } (fun op => op.minor = 1) ∧
    (¬ any (fun l => 16383 < va l) →
      accepts (.maccrd d a) u.close (fun op => op.minor = 3 ∧ op.d = d.toNat ∧ op.lanes = lanes ∧ op.oid = s.nextId) ∧
      accepts (.maccwr d a) u.close (fun op => op.minor = 4 ∧ op.lanes = lanes)) ∧
    (any (fun l => 16383 < va l) → ∀ i ∈ ([.maccrd d a, .maccwr d a] : List Instr), i.wf (s.regsOf g) = true →
      exec i s = .next (s.takeTrap c g fcIllegal 0 0)) ∧
    (¬ any (fun l => 127 < va l) → accepts (.maccclr a) u.close (fun op => op.minor = 5 ∧
      op.lanes = (lanesOf c.mask).map fun l => (l, (g.lane l).rv a.toNat, (g.lane l).rv a.toNat))) ∧
    (any (fun l => 127 < va l) → (Instr.maccclr a).wf (s.regsOf g) = true → exec (.maccclr a) s = .next (s.takeTrap c g fcIllegal 0 0)) ∧
    ((Instr.mloadb d a n tg).wf (s.regsOf g) = true →
      let size := 4096 * (n.toNat + 1)
      (va low % 128 ≠ 0 → exec (.mloadb d a n tg) s = .next (s.takeTrap c g fcAlign 0 (BitVec.ofNat 64 (va low)))) ∧
      (∀ w, va low % 128 = 0 → s.segOk g (g.lane low) 1 (va low) size false = true → s.fillBytes x (va low) size false = (w, none) →
        w.mat? g = some u → ∃ t op, exec (.mloadb d a n tg) s = .next t ∧ t.mem = w.mem ∧ t.groups = w.groups ∧
          t.mat? g = some { u.close with viewS := { loaded := true, tag := tg.toNat, fmt := d.toNat, kb := n.toNat },
                                         queue := u.close.queue ++ [.mld op] } ∧
          op.minor = 0 ∧ op.d = d.toNat ∧ op.b = n.toNat * 8 + tg.toNat ∧ (op.lanes.map fun e => (e.1, e.2.2)) = (lanesOf c.mask).map fun l => (l, (g.lane l).rv a.toNat))) ∧
    ((Instr.mscl d a b).wf (s.regsOf g) = true →
      let count := ((g.lane low).rv b.toNat).toNat
      (1023 < vd low ∨ count = 0 ∨ 1024 < vd low + count → exec (.mscl d a b) s = .next (s.takeTrap c g fcIllegal 0 0)) ∧
      (∀ w, vd low ≤ 1023 → count ≠ 0 → vd low + count ≤ 1024 → va low % 4 = 0 → s.segOk g (g.lane low) 1 (va low) (4 * count) false = true →
        s.fillBytes x (va low) (4 * count) false = (w, none) → w.mat? g = some u → ∃ t op, exec (.mscl d a b) s = .next t ∧ t.mem = w.mem ∧
          t.groups = w.groups ∧ t.mat? g = some { u.close with queue := u.close.queue ++ [.mld op] } ∧ op.minor = 2 ∧ op.count = count ∧
          op.lanes = lanes)) ∧
    ((Instr.macccvt d a y).wf (s.regsOf g) = true →
      let off := fun l => bits (va l) 0 19
      let bad := fun l => 127 < vd l ∨ bits (va l) 24 8 = 255 ∨ bits (va l) 19 5 ≠ 0
      (any bad → exec (.macccvt d a y) s = .next (s.takeTrap c g fcIllegal 0 0)) ∧
      (∀ w ls, ¬ any bad → (¬ any fun l => off l % 16 ≠ 0) → (¬ any fun l => s.segOk g (g.lane l) 1 (off l) (cvtRow y.toNat) true = false) →
        (s.censusSite g c.pc).fillLanes c x true (cvtRow y.toNat) off = (w, ls) → ls ≠ [] → (w.group? c.gid).isSome = true → w.mat? g = some u →
        ∃ t op, exec (.macccvt d a y) s = .next t ∧ t.mem = w.mem ∧ t.groups = w.groups ∧
          t.mat? g = some { u.close with queue := u.close.queue ++ [.mld op] } ∧ op.minor = 6 ∧ op.d = y.toNat ∧
          op.lanes = ls.map fun l => (l, (g.lane l).rv d.toNat, (g.lane l).rv a.toNat))) ∧
    ((Instr.mq d a m).wf (s.regsOf g) = true →
      let size := rowBytes m.afmt.toNat m.kb.toNat
      (mqBankOk u.viewA m = false ∨ any (fun l => mqRowOk m (vd l) = false) → exec (.mq d a m) s = .next (s.takeTrap c g fcIllegal 0 0)) ∧
      (∀ w ls, mqBankOk u.viewA m = true → (¬ any fun l => mqRowOk m (vd l) = false) → (¬ any fun l => va l % 16 ≠ 0) →
        (¬ any fun l => s.segOk g (g.lane l) 1 (va l) size false = false) →
        (s.censusSite g c.pc).fillLanes c x false size va = (w, ls) → (w.group? c.gid).isSome = true → w.mat? g = some u →
        ∃ t qs, exec (.mq d a m) s = .next t ∧ t.mem = w.mem ∧ t.groups = w.groups ∧ t.mat? g = some (u.addQuarters (s.cycleOn u.die) m qs) ∧
          (qs.map fun q => q.quarter) = quartersOf (maskOf fun l => ls.contains l) ∧
          ∀ q ∈ qs, q.gid = c.gid ∧ q.band = x.bid ∧ q.pc = c.pc ∧ q.word = m ∧
            (q.lanes.map fun e => (e.lane, e.row, e.off)) = (ls.filter fun l => l / 8 == q.quarter).map fun l => (l, vd l, va l)))) ∧
  (∀ (s : State) (u : MatUnit), s.matAt s.ev.die s.ev.core s.ev.quad = some u →
    (∀ o qs, u.queue.getLast? = some (.pass o false qs) →
      (o + 7 ≤ s.cycleOn u.die → ∃ t, exec .matrixPassClose s = .next t ∧ SameMemory s t ∧ t.groups = s.groups ∧ t.matAt u.die u.core u.quad = some u.close) ∧
      (s.cycleOn u.die < o + 7 → exec .matrixPassClose s = .next s)) ∧
    (∀ o qs rest, u.queue = .pass o true qs :: rest → u.running = none → (∀ q ∈ qs, s.needsMet q.needs = true ∧ q.lanes = []) →
      ∃ t, exec .matrixPassStart s = .next t ∧ SameMemory s t ∧ t.groups = s.groups ∧ t.matAt u.die u.core u.quad = some { u with
        queue := .pass o true qs :: rest, running := some (s.cycleOn u.die + 4 * qs.length * ((qs.head?.map fun q => matWidth q.word.afmt.toNat).getD 0) + 6) }) ∧
    (∀ o qs rest, u.queue = .pass o true qs :: rest → u.running = none → (∀ q ∈ qs, s.needsMet q.needs = true) →
      let r := qs.foldl (fun (r : State × List Quarter) q => let x := r.1.readQuarter q; (x.1, r.2 ++ [x.2])) (s, [])
      exec .matrixPassStart s = .next (r.1.modMat u.die u.core u.quad fun v => { v with
        queue := .pass o true r.2 :: rest, running := some (s.cycleOn u.die + 4 * qs.length * ((qs.head?.map fun q => matWidth q.word.afmt.toNat).getD 0) + 6) })) ∧
    (∀ o e qs rest n, u.queue = .pass o e qs :: rest → u.running = some n → n ≤ s.cycleOn u.die →
      let p := s.popMat u.die u.core u.quad
      (u.active.poisoned = true → exec .matrixPassComplete s = .next (p.passParity qs)) ∧
      (u.active.poisoned = false → exec .matrixPassComplete s = .next (qs.foldl (fun s q => s.quarterDone u.die u.core u.quad q) p)) ∧
      exec .macroParity s = .next ((p.modMat u.die u.core u.quad fun u => { u with active := { u.active with poisoned := true } }).passParity qs)) ∧
    (∀ (m : MatWord) (x : MatLane) (j : Nat), u.acc.Pairwise (fun p q => p.1 < q.1) → j ≤ m.ncol.toNat →
      (u.laneWrites m x).1.elem (x.row * 128 + j) = BitVec.ofNat 32 (if m.acc = 1
        then (fp32.add (u.elem (x.row * 128 + j)).toNat (u.total m x.bytes j)).1 else u.total m x.bytes j)) ∧
    (∀ op rest, u.queue = .mld op :: rest → u.running = none → s.needsMet op.needs = true →
      let p := s.popMat u.die u.core u.quad
      exec .mldComplete s = .next (p.mldEffect u op) ∧ p.matAt u.die u.core u.quad = some { u with queue := rest, running := none } ∧
      (op.minor = 1 → ∃ v, (p.mldEffect u op).matAt u.die u.core u.quad = some v ∧ v.active = u.shadow ∧ v.shadow = u.active ∧ v.acc = u.acc) ∧
      (op.minor = 3 → p.mldEffect u op = p.deliver op.gid op.oid (op.lanes.map fun x => .v x.1 op.d (u.elem x.2.2.toNat))) ∧
      (∀ l v e, op.minor = 4 → op.lanes = [(l, v, e)] → u.acc.Pairwise (fun p q => p.1 < q.1) →
        ∃ w, (p.mldEffect u op).matAt u.die u.core u.quad = some w ∧ ∀ n, w.elem n = if n = e.toNat then v else u.elem n) ∧
      (∀ l v e, op.minor = 5 → op.lanes = [(l, v, e)] →
        ∃ w, (p.mldEffect u op).matAt u.die u.core u.quad = some w ∧ ∀ n, w.elem n = if n / 128 = e.toNat then 0 else u.elem n) ∧
      (∀ l v e rest x w w', op.minor = 0 → op.lanes = (l, v, e) :: rest → p.band? op.band = some x →
        p.fillBytes x e.toNat (4096 * (op.b / 8 + 1)) false = (w, none) → w.matAt u.die u.core u.quad = some w' →
        ∃ sh, (p.mldEffect u op).matAt u.die u.core u.quad = some { w' with shadow := sh } ∧ sh.loaded = true ∧ sh.tag = op.b % 8 ∧ sh.fmt = op.d ∧
          sh.kb = op.b / 8 ∧ sh.poisoned = false ∧ (p.mldEffect u op).mem = w.mem ∧
          ∀ i < 4096 * (op.b / 8 + 1), cellGet sh.img i = (w.readSth x e.toNat (4096 * (op.b / 8 + 1))).getD i 0) ∧
      (∀ l v e rest x w w', op.minor = 2 → op.lanes = (l, v, e) :: rest → p.band? op.band = some x →
        p.fillBytes x e.toNat (4 * op.count) false = (w, none) → w.matAt u.die u.core u.quad = some w' → w'.scale.Pairwise (fun p q => p.1 < q.1) →
        ∃ sc, (p.mldEffect u op).matAt u.die u.core u.quad = some { w' with scale := sc } ∧ (p.mldEffect u op).mem = w.mem ∧
          ∀ i, sparseGet (0x7F : Byte) sc i = if 4 * v.toNat ≤ i ∧ i < 4 * (v.toNat + op.count)
            then (w.readSth x e.toNat (4 * op.count)).getD (i - 4 * v.toNat) 0 else sparseGet (0x7F : Byte) w'.scale i) ∧
      (∀ l v e x w, op.minor = 6 → op.lanes = [(l, v, e)] → p.band? op.band = some x →
        p.fillBytes x (bits e.toNat 0 19) (cvtRow op.d) true = (w, none) → w.obs.census = [] →
        p.mldEffect u op = w.writeSth x (bits e.toNat 0 19) (packElems (fmtOf op.d).width
          ((List.range 128).map fun k => (cvtElem (fmtOf op.d) (bits e.toNat 24 8) (u.elem (v.toNat * 128 + k))).1))))) ∧
  (∀ (s : State) (u : MatUnit) (q : Quarter) (x : MatLane), s.matAt u.die u.core u.quad = some u → q.lanes = [x] → s.obs.census = [] →
    (s.quarterDone u.die u.core u.quad q).matAt u.die u.core u.quad = some (u.laneWrites q.word x).1 ∧
    SameMemory s (s.quarterDone u.die u.core u.quad q) ∧ (s.quarterDone u.die u.core u.quad q).groups = s.groups) ∧
  (∀ (s : State) (qs : List Quarter) (gid bid : Nat), qs ≠ [] → (∀ q ∈ qs, q.gid = gid ∧ q.band = bid) → (s.group? gid).isSome = true →
    s.passParity qs = s.rollback gid fcMacroParity 0)

/-- R52, R429 to R431, R444 to R449. With no region watch, RGN.ENTER pushes an entry that holds the region, the next PC and the flag, ILLEGAL on a
full stack of 8, and RGN.LEAVE pops one. EMIT changes no register; one of user type, not switched off, is emitted for its group with its type and
payload. CAUSEGET reads CAUSE; CAUSESET writes it at the end of its cycle, a fresh signet for 0. PERFRD gives a counter that the table of R448 names
and OK, or 0 and REFUSED; CENSUSRD gives each lane the four counts of the site at its V[A], 0 where its band has no such site. -/
def Obligations.RegionsAndTrace : Prop :=
  ∀ (s : State) (c : Issue) (g : Group) (d a b : BitVec 6) (m : BitVec 1), Issues s c g →
    ((Instr.rgnEnter d a m).wf (s.regsOf g) = true →
      (8 ≤ g.rgn.length → exec (.rgnEnter d a m) s = .next (s.takeTrap c g fcIllegal 0 0)) ∧
      (g.rgn.length < 8 → (∀ x ∈ s.obs.dbg, x.watches = []) → ∃ t e, exec (.rgnEnter d a m) s = .next t ∧ SameMemory s t ∧
        t.group? c.gid = some { g with rgn := g.rgn ++ [e] } ∧ e.id = d ++ a ∧ e.pc = c.npc ∧ e.idem = (m == 1))) ∧
    ((∀ x ∈ s.obs.dbg, x.watches = []) → ∃ t, exec .rgnLeave s = .next t ∧ SameMemory s t ∧
      t.group? c.gid = some { g with rgn := g.rgn.dropLast }) ∧
    ((Instr.emit a b).wf (s.regsOf g) = true →
      (s.obs.userOff.contains (s.ctxOf g) = true → exec (.emit a b) s = .next s) ∧
      (s.obs.userOff.contains (s.ctxOf g) = false → exec (.emit a b) s = .next (s.emitGroup g (0x80 + b.toNat)
        (((g.lane (lowLane c.mask)).rv a.toNat).toNat + lowLane c.mask * 2 ^ 32))) ∧
      ∃ t, exec (.emit a b) s = .next t ∧ SameMemory s t ∧ t.groups = s.groups) ∧
    ((Instr.causeget d).wf (s.regsOf g) = true → GivesKind .unit (.causeget d) s c 1 [.s d.toNat g.cause] []) ∧
    ((Instr.causeset a).wf (s.regsOf g) = true → ∃ t, exec (.causeset a) s = .next t ∧ SameMemory s t ∧ t.groups = s.groups ∧
      t.late = s.late ++ [{ gid := c.gid, die := g.die, reg := causeReg,
                            val := (if g.rs a.toNat = 0 then s.freshSignet g.die 0 g.core else g.rs a.toNat).toNat }] ∧
      (g.rs a.toNat = 0 → t.seqOf g.die 0 g.core = (s.seqOf g.die 0 g.core + 1) % 2 ^ 40)) ∧
    (∀ v : W64, (s.applyLate { gid := c.gid, die := g.die, reg := causeReg, val := v.toNat }).group? c.gid = some { g with cause := v }) ∧
    ((Instr.perfrd d a).wf (s.regsOf g) = true → GivesKind .unit (.perfrd d a) s c 1 (match s.perfCounter g (g.rs a.toNat).toNat with
      | some n => [.s d.toNat (BitVec.ofNat 64 n), .lstat 0]
      | none => [.s d.toNat 0, .lstat 3]) []) ∧
    ((Instr.censusrd d a).wf (s.regsOf g) = true → GivesKind .unit (.censusrd d a) s c 1 ((lanesOf c.mask).flatMap fun l =>
      (List.range 4).map fun i => .v l (d.toNat + i) (BitVec.ofNat 32 ((s.siteCounts g ((g.lane l).rv a.toNat)).getD i 0))) []) ∧
    (∀ sel, (s.perfCounter g sel).isSome = true ↔ sel < 2 ^ 23 ∧
      let i := bits sel 0 12
      let site := bits sel 16 7
      match bits sel 12 4 with
      | 0 => site = 0 ∧ (i ≤ 8 ∨ (16 ≤ i ∧ i ≤ 49))
      | 1 => site = 0 ∧ i ≤ 3
      | 2 => g.firmware = true ∧ site ≤ 99 ∧ i ≤ 3
      | 3 => site = 0 ∧ g.firmware = true ∧ i ≤ 8 ∧ ∃ w ∈ s.obs.gateways, w.die = g.die
      | 4 => site = 0 ∧ i = 0
      | _ => False) ∧
    (∀ pc, (∀ x ∈ s.obs.census, x.die = g.die → x.core = g.core → x.band = g.band → x.pc ≠ pc) → s.siteCounts g pc = [0, 0, 0, 0]) ∧
    (∀ x ∈ s.obs.census, x.die = g.die → x.core = g.core → x.band = g.band →
      (∀ y ∈ s.obs.census, y.die = g.die → y.core = g.core → y.band = g.band → y.pc = x.pc → y = x) → s.siteCounts g x.pc = x.counts)

/-- R49, R333 to R336. LAUNCH answers REFUSED for a record or ring address that is misaligned, or with no budget, FULL with no free entry, and otherwise
takes the band's lowest free entry and sends the launch, awaiting its status. AMSG sends one message for each lane, in lane order, awaiting
their statuses. The next message of a group to a band arrives in the inbound buffer of the band's core, if one of its 64 places is free, and
the first there becomes a record and answers OK; one that nothing takes is REFUSED or ABSENT.

Model's choices: log entries 53, 54. -/
def Obligations.LaunchAndMessages : Prop :=
  ∀ (s : State) (c : Issue) (g : Group) (d a b : BitVec 6), Issues s c g →
    let r := (g.rs a.toNat).toNat
    let ring := (g.rs b.toNat).toNat
    let status := fun (n : Nat) => statusWrites c.mask d.toNat n
    ((Instr.launch d a b).wf (s.regsOf g) = true → ∀ x, s.band? g.band = some x →
      (r = 0 ∨ r % 128 ≠ 0 ∨ ring % 64 ≠ 0 ∨ x.budget = [] → GivesKind .unit (.launch d a b) s c 1 (status stRefused) []) ∧
      (r ≠ 0 → r % 128 = 0 → ring % 64 = 0 → x.budget ≠ [] → x.freeEntry = none → GivesKind .unit (.launch d a b) s c 1 (status stFull) []) ∧
      (∀ e, r ≠ 0 → r % 128 = 0 → ring % 64 = 0 → x.freeEntry = some e → ∃ o u, exec (.launch d a b) s = .next (u.sendQueue o) ∧
        o.kind = .launch ∧ o.gid = g.gid ∧ o.oid = some s.nextId ∧ o.q = r ∧ o.until_ = ring ∧ o.st = e ∧ SameMemory s u ∧ SameRegisters s u ∧
        u.band? x.bid = some { x with budget := x.budget.set e (some 0) } ∧ e < x.budget.length ∧ x.budget.getD e none = none ∧
        (u.group? c.gid).map (fun g => g.outs.length) = some (g.outs.length + 1))) ∧
    ((Instr.amsg d a b).wf (s.regsOf g) = true → ∃ t ms o, exec (.amsg d a b) s = .next t ∧ SameMemory s t ∧
      t.group? c.gid = some { g with outs := g.outs ++ [o] } ∧ o.oid = s.nextId ∧ o.sent = true ∧ t.msgs = s.msgs ++ ms ∧
      (ms.map fun m => m.lane) = lanesOf c.mask ∧ ∀ m ∈ ms, m.oid = s.nextId ∧ m.gid = g.gid ∧ m.band = bits r 0 32 ∧ m.hidx = bits r 32 8 ∧
        m.payload = (List.range 16).map (fun i => (g.lane m.lane).rv (b.toNat + i)) ∧ m.d = d.toNat ∧ m.cause = g.cause) ∧
    (∀ m, s.msgs.find? (fun m => m.mid == s.ev.id) = some m → s.amsgNext m = true →
      (s.amsgDest m = .refused → exec .amsgDeliver s = .next (s.amsgStatus m stRefused)) ∧
      (s.amsgDest m = .absent → exec .amsgDeliver s = .next (s.amsgStatus m stAbsent)) ∧
      (∀ x pc, s.amsgDest m = .resident x pc → m.inBuffer x.die x.core = false →
        let held := (s.msgs.filter fun y => y.inBuffer x.die x.core).length
        (64 ≤ held → exec .amsgDeliver s = .next s) ∧
        (held < 64 → ∃ t, exec .amsgDeliver s = .next t ∧ SameMemory s t ∧ t.groups = s.groups ∧
          t.msgs = s.msgs.map fun y => if y.mid == m.mid then { y with inb := some (x.die, x.core, s.nextId) } else y)) ∧
      (∀ x pc, s.amsgDest m = .resident x pc → m.inBuffer x.die x.core = true → s.amsgFirst x.die x.core = some m.mid →
        s.poolHas x.die x.core 1 = true → ∃ u y, exec .amsgDeliver s = .next (u.amsgStatus m stOk) ∧
        SameMemory s u ∧ u.groups = s.groups ∧ u.pool = s.pool ++ [y] ∧ y.band = x.bid ∧ y.pc = pc ∧ y.origin = .detached ∧ y.cause = m.cause ∧
        ∀ i < 16, i < y.v.length → i < m.payload.length → y.v.getD i 0 = m.payload.getD i 0))

/-- R36, R38, R39, R54, R55, R301 to R306, R310, R311. The launcher of a die: an OPEN queue with no submission in progress starts its next one; an
event wait whose word is nonzero completes; a kernel's code object is read once; the first candidate whose bands can all be reserved is placed; one
passed over for 100 µs becomes the blocking candidate; its bands stand on their cores with their groups, every lane at ENTRY; a band of which
everything has ended is released, and its stash reads zero; a kernel fault removes the kernel and its groups; a kernel with nothing left completes and
leaves the module.

Model's choices: log entries 55, 56, 57, 59, 60, 145. -/
def Obligations.LauncherRunsTasks : Prop :=
  ∀ (s : State),
    (let s0 := s.settleQueues
     (∀ h c base count rest, s0.hq? s.ev.id = some h → h.waiting = (base, count) :: rest → s0.ctx? h.ctx = some c → h.running = false →
       h.st = .open_ → ∃ (u : State) (h' : HostQ), exec .submissionStart s = .next u.launchers ∧ u.hq? h.q = some h' ∧ h'.running = true ∧
         h'.base = base ∧ h'.waiting = rest ∧ h'.nodes.length = count ∧ h'.signet = s0.freshSignet (h.q % 8) 3 0 ∧ u.groups = s0.groups) ∧
     (∀ h, s0.hq? s.ev.id = some h → h.running = true ∨ h.st ≠ .open_ → exec .submissionStart s = .next s0)) ∧
    (∀ h n, s.hq? s.ev.id = some h → h.nodes.find? (fun n => n.idx == s.ev.sub && n.kind == 3 && n.st == .running) = some n →
      (∀ ctx va u bs, n.evop = false → s.eventAt h.ctx n.body false = .here ctx va → s.readGlb (h.q % 8) unitLauncher ctx va 8 = (u, .ok bs) →
        exec .eventWaitSatisfied s = .next (if leNat bs = 0 then u else (u.doneNode h.q n.idx).launchers)) ∧
      (s.eventAt h.ctx n.body n.evop = .away → s.ev.lane = 0 → exec .eventWaitSatisfied s =
        .next (if n.evop = false ∧ leNat s.ev.bytes = 0 then s else (s.doneNode h.q n.idx).launchers))) ∧
    (∀ k u v bs hb, s.kernel? s.ev.id = some k → k.loaded = false →
      s.readGlb k.die unitLauncher k.ctx k.launch.code (12 * k.launch.clen) = (u, .ok bs) →
      u.readGlb k.die unitLauncher k.ctx (k.launch.code - 1024) 1024 = (v, .ok hb) → u.kernels = s.kernels → v.kernels = s.kernels → v.codes = s.codes →
      ∃ t o, exec .codeObjectLoad s = .next t ∧ t.codes = s.codes ++ [o] ∧ o.die = k.die ∧ o.ctx = k.ctx ∧ o.addr = k.launch.code ∧
        o.words = (List.range (3 * k.launch.clen)).map (wordAt bs) ∧ o.handlers = (List.range 256).map (wordAt hb) ∧ t.mem = v.mem ∧
        (t.kernel? k.kid).map (fun x => x.loaded) = some true) ∧
    (∀ k r ps, s.unblocked s.ev.die (s.launchCands s.ev.die) = k :: r → s.placesNow k = some ps →
      exec .bandPlace s = .next (s.placeAll k ps)) ∧
    (s.unblocked s.ev.die (s.launchCands s.ev.die) = [] → exec .bandPlace s = .next s) ∧
    (∀ k, (∀ x ∈ s.kernels, x.die = s.ev.die → x.blocking = false) →
      (sortBy (fun (k : Kernel) => k.readyAt) ((s.launchCands s.ev.die).filter fun (k : Kernel) => match k.passedAt with
        | some t => decide (t + usToUnits 100 ≤ s.out.elapsed)
        | none => false)).head? = some k →
      (s.everFits k = true → exec .blockingCandidate s = .next (s.modKernel k.kid fun k => { k with blocking := true })) ∧
      (s.everFits k = false → exec .blockingCandidate s = .next (s.kernelFault k.kid fcIllegal).settleQueues)) ∧
    (∀ b, s.band? s.ev.id = some b →
      (s.bandDone b = true → exec .bandRelease s = .next (s.releaseBand b)) ∧
      (s.bandDone b = false → b.st ≠ .dying ∨ s.ghostsQuiet b = false → exec .bandRelease s = .next s) ∧
      (b.st = .dying → s.ghostsQuiet b = true → exec .bandRelease s = .next (s.freeBand b))) ∧
    (∀ (k : Kernel) (i die core : Nat), ∃ (b : Band) (gs : List Group), (s.placeBand k i die core).bands = s.bands ++ [b] ∧
      (s.placeBand k i die core).groups = s.groups ++ gs ∧ b.kid = k.kid ∧ b.index = i ∧ b.die = die ∧ b.core = core ∧ b.ctx = k.ctx ∧
      b.st = .resident ∧ gs.length = k.launch.bandGroups ∧ SameMemory s (s.placeBand k i die core) ∧
      ∀ x ∈ gs, x.band = b.bid ∧ x.die = die ∧ x.core = core ∧ x.cause = k.signet ∧ x.gst = 0 ∧ x.ejt = 4 ∧
        ∀ l < 32, (x.lane l).pc = BitVec.ofNat 32 k.launch.entry ∧ (∀ n, (x.lane l).rv n = 0) ∧ (x.lane l).p = 0x80) ∧
    (∀ b : Band, (s.releaseBand b).band? b.bid = none ∧ (s.freeBand b).band? b.bid = none ∧
      (b.st ≠ .saved → ∀ off, 128 * b.stashBase ≤ off → off < 128 * (b.stashBase + b.stashLines) →
        cellGet (s.freeBand b).mem.stash (stashKey b.die b.core off) = 0)) ∧
    (∀ (k : Kernel) (code : Byte), s.kernel? k.kid = some k → (∀ x ∈ (s.kernelFault k.kid code).kernels, x.kid ≠ k.kid) ∧
      ∀ b ∈ s.bands, b.kid = k.kid → ∀ x ∈ (s.kernelFault k.kid code).groups, x.band ≠ b.bid) ∧
    (∀ k t, s.kernel? s.ev.id = some k → k.parent = .host t → k.launch.bandCount ≤ k.placed → k.launch.bandCount ≤ k.released → k.raised = [] →
      (∀ x ∈ s.kernels, ∀ p b e n v w, x.parent = .launch p b e n v w → p ≠ k.kid) →
      ∃ u, exec .taskComplete s = .next u ∧ u.out.sent = s.out.sent ++ [HostMsg.event 0x101 [BitVec.ofNat 64 t]] ∧
        (∀ x ∈ u.kernels, x.kid ≠ k.kid) ∧ u.groups = s.groups ∧ SameMemory s u) ∧
    (∀ k q n, s.kernel? s.ev.id = some k → k.parent = .node q n → k.launch.bandCount ≤ k.placed → k.launch.bandCount ≤ k.released → k.raised = [] →
      (∀ x ∈ s.kernels, ∀ p b e n v w, x.parent = .launch p b e n v w → p ≠ k.kid) →
      ∃ u : State, exec .taskComplete s = .next (((u.modHq q HostQ.reload).doneNode q n).launchers) ∧ (∀ x ∈ u.kernels, x.kid ≠ k.kid))

/-- R353, R354, R356 to R364. In firmware mode, with a readable operand record: a misaligned record is REFUSED. SEGLD loads a segment of the target
context and its resident bands' copies, and HEAPLD its heap triple, what they replace being kept until their status is written; TLBINV drops the
entries of its range and answers at once or when the walks and accesses that used them have ended; RTSWAP writes a standby block, reads an active one,
or starts a swap, which RTSWAP_TIMEOUT ends after 2 µs; KEYSEL binds a key slot. A record that breaks a rule is REFUSED.

Model's choices: log entries 75, 76, 79, 80, 81, 82, 83. -/
def Obligations.PrivilegedTablesChange : Prop :=
  ∀ (s : State) (c : Issue) (g : Group) (d a : BitVec 6), Issues s c g → g.firmware = true →
    d.toNat = bits c.w0.toNat 15 6 → a.toNat = bits c.w0.toNat 9 6 →
    let va := (g.rs a.toNat).toNat
    let fin := fun (u : State) (n : Nat) => u.postUnit c g (statusWrites c.mask d.toNat n)
    (va % 32 ≠ 0 → ∀ i ∈ ([.segld d a, .heapld d a, .tlbinv d a, .rtswapWrite d a, .rtswapRead, .rtswapSwap, .keysel d a, .divinstInstall d a,
        .divinstLink, .divinstDrain, .divinstRemove, .divinstRead, .ctxctlHold d a, .ctxctlUnhold, .ctxctlSave, .ctxctlRestore, .ctxctlRelease,
        .ctxctlKill, .ctxctlServe, .ctxctlDecline, .ctxctlFwret, .ctxctlReset] : List Instr), i.wf (s.regsOf g) = true →
      GivesKind .unit i s c 1 (statusWrites c.mask d.toNat stRefused) []) ∧
    (∀ u bs, va % 32 = 0 → s.readOwn g va 32 = (u, .ok bs) →
      let t := u.tab.tgtctx
      ((Instr.segld d a).wf (s.regsOf g) = true →
        (segldOk bs = false → exec (.segld d a) s = .next (fin u stRefused)) ∧
        (segldOk bs = true → ∃ v, exec (.segld d a) s = .next (fin v stOk) ∧ v.mem = u.mem ∧ v.groups = u.groups ∧
          (∀ x ∈ u.bands, x.ctx = t → ∃ y ∈ v.tab.segWas, y.gid = c.gid ∧ y.oid = u.nextId ∧ y.band = x.bid ∧ y.seg = fieldAt bs 160 8 ∧
            y.was = x.segs.getD (fieldAt bs 160 8) Segment.zero) ∧
          v.ctxs = mapIf (fun x => x.ctx == t) (fun x => { x with segs := x.segs.modify (fieldAt bs 160 8) fun y => y.load bs }) u.ctxs ∧
          v.bands = mapIf (fun x => x.ctx == t && !(x.st == .saved)) (fun x => { x with segs := x.segs.modify (fieldAt bs 160 8) fun y => y.load bs }) u.bands)) ∧
      (∀ y : Segment, fieldAt bs 160 8 ≠ 1 → y.load bs = { base := fieldAt bs 0 64, limit := fieldAt bs 64 64, valid := fieldAt bs 128 1 == 1, wr := fieldAt bs 129 1 == 1 }) ∧
      ((Instr.heapld d a).wf (s.regsOf g) = true →
        let base := fieldAt bs 0 64
        let lim := fieldAt bs 64 64
        let off := fieldAt bs 128 64
        let lo := (base + off) % 2 ^ 64
        (fieldAt bs 192 64 ≠ 0 ∨ lim < base ∨ base % 65536 ≠ 0 ∨ lim % 65536 ≠ 0 ∨ off % 65536 ≠ 0 → exec (.heapld d a) s = .next (fin u stRefused)) ∧
        (∀ x, u.ctx? t = some x → fieldAt bs 192 64 = 0 → base ≤ lim → base % 65536 = 0 → lim % 65536 = 0 → off % 65536 = 0 →
          x.granted lo (lim - base) = true → u.inUndercroft lo (lim - base) = false →
          ∃ v, exec (.heapld d a) s = .next (fin v stOk) ∧ v.mem = u.mem ∧ v.groups = u.groups ∧
            v.ctxs = mapIf (fun x => x.ctx == t) (fun x => { x with heapBase := base, heapLim := lim, heapOff := off }) u.ctxs ∧
            ∃ y ∈ v.tab.heapWas, y.gid = c.gid ∧ y.oid = u.nextId ∧ y.ctx = x.ctx ∧ y.base = x.heapBase ∧ y.lim = x.heapLim ∧ y.off = x.heapOff)) ∧
      ((Instr.tlbinv d a).wf (s.regsOf g) = true →
        let start := fieldAt bs 0 64
        let len := fieldAt bs 64 64
        let ctx := fieldAt bs 128 8
        (fieldAt bs 136 120 ≠ 0 ∨ start % 4096 ≠ 0 → exec (.tlbinv d a) s = .next (fin u stRefused)) ∧
        (fieldAt bs 136 120 = 0 → start % 4096 = 0 → ∃ v, v.mem.tlb = u.mem.tlb.filter (fun e => !(e.ctx == ctx && invHits len start e.vbase e.size)) ∧
          SameMemory u v ∧ v.groups = u.groups ∧
          (u.mem.accs = [] → (∀ w ∈ u.mem.walks, w.ctx ≠ ctx ∨ w.walking = false) → exec (.tlbinv d a) s = .next (fin v stOk)) ∧
          ((∃ w ∈ u.mem.walks, w.ctx = ctx ∧ w.walking = true) → ∃ x, exec (.tlbinv d a) s = .next ((v.postAwait c g .unit).modTab fun t => { t with invs := t.invs ++ [x] })))) ∧
      (let w := u.rtwinOf g.die
       let r := u.routerAt g.die (bits w 30 2) (bits w 16 7)
       let addr := fieldAt bs 0 64
       let ok := fieldAt bs 66 190 = 0 ∧ fieldAt bs 64 2 ≠ 3 ∧ bits w 30 2 ≠ 3 ∧ (bits w 30 2 = 2 → bits w 16 7 < 4)
       ((Instr.rtswapWrite d a).wf (s.regsOf g) = true →
         (¬ ok ∨ addr % 64 ≠ 0 → exec (.rtswapWrite d a) s = .next (fin u stRefused)) ∧
         (∀ v xs, ok → addr % 64 = 0 → u.readOwn g addr 64 = (v, .ok xs) →
           exec (.rtswapWrite d a) s = .next (fin (v.setRouter { r with standby := bankPut r.standby (w % 128) xs }) stOk))) ∧
       (∀ v, ok → addr % 64 = 0 → u.writeGlb g.die g.core (u.ctxOf g) addr ((List.range 64).map fun i => bankEntry r.active (w % 128 * 64 + i)) = (v, none) →
         exec .rtswapRead s = .next (fin v stOk)) ∧
       (ok → r.swap = none → exec .rtswapSwap s = .next ((u.postAwait c g .unit).setRouter { r with swap := some (u.out.elapsed, c.gid, u.nextId) })) ∧
       (ok → r.swap ≠ none → exec .rtswapSwap s = .next ((u.postAwait c g .unit).setRouter { r with queue := r.queue ++ [(c.gid, u.nextId)] }))) ∧
      ((Instr.keysel d a).wf (s.regsOf g) = true →
        let n := fieldAt bs 0 10
        let k := u.keySlot n
        (fieldAt bs 10 246 ≠ 0 ∨ 1007 < n ∨ k.st = .empty ∨ k.st = .persistent ∨ (k.st = .bound ∧ k.ctx ≠ some t) →
          exec (.keysel d a) s = .next (fin u stRefused)) ∧
        (fieldAt bs 10 246 = 0 → n ≤ 1007 → k.st ≠ .empty → k.st ≠ .persistent → (k.st = .bound → k.ctx = some t) →
          ((∃ x ∈ u.bands, x.ctx = t) → exec (.keysel d a) s = .next (fin u stBusy)) ∧
          (∀ x, (∀ x ∈ u.bands, x.ctx ≠ t) → u.chans = [] → u.ctx? t = some x → ∃ v, exec (.keysel d a) s = .next (fin v stOk) ∧
            (v.keySlot n).st = .bound ∧ (v.keySlot n).ctx = some t ∧ (v.ctx? t).map (fun x => x.keyslot) = some (some n) ∧ v.groups = u.groups)))) ∧
    (∀ at_ gid oid, (s.routerAt s.ev.die s.ev.sub s.ev.id).swap = some (at_, gid, oid) →
      (s.out.elapsed < at_ + usToUnits 2 → exec .rtswapTimeout s = .next s) ∧
      (at_ + usToUnits 2 ≤ s.out.elapsed → ∀ x o, s.group? gid = some x → x.out? oid = some o → exec .rtswapTimeout s =
        .next ((s.setRouter ((s.routerAt s.ev.die s.ev.sub s.ev.id).endSwap s.out.elapsed)).deliver gid oid
          (statusWrites o.mask (bits o.w0.toNat 15 6) stTimeout)))) ∧
    ∀ (r : Router) (n : Nat), (r.queue = [] → (r.endSwap n).swap = none) ∧
      ∀ x y q, r.queue = (x, y) :: q → (r.endSwap n).swap = some (n, x, y) ∧ (r.endSwap n).queue = q

/-- R189, R340, R355, R367. A request of another module is answered with PEER_UNREACHABLE where no context exports its partition, NO_MAPPING outside
the exporter's segment, the fault of its translation, or the data; a load changes no byte of memory. A packet that comes back raises PEER_UNREACHABLE
in its access; a request that meets a page fault is held for the target's firmware. TRAP_ENTRY enters the handler of a trapping group once everything
that it has sent is back.

R374, R375, R382, R383, R385, R386, R429. The events of firmware: at a suspension's deadline, with nothing left to save, the suspension ends; a save
not complete 2 ms after it began is abandoned and its partition reset; a partition's reset ends when no engine works for it, its queues OPEN. A
watchdog that has run out is held while a band is saved, and otherwise takes a snapshot and runs its action. A remote query that has had no answer for
1 ms keeps its edge marked; a query within 8 hops is answered.

Model's choices: log entries 77, 84, 105, 106, 110. -/
def Obligations.PeerPacketsAndTrapEntry : Prop :=
  (∀ (s : State),
    let w := fun i => (s.ev.words.getD i 0).toNat
    let n := max 1 (min (w 4) 128)
    let off := w 3 % 2 ^ 47
    let exporter := (s.parts.find? fun p => p.routing == w 1 % 16 && p.exporter.isSome).bind fun p => p.exporter.bind s.ctx?
    let answers := fun (u : State) (code : Byte) (bs : List Byte) => u.modOut fun o => { o with replies := o.replies ++ [(w 0 % 512, w 6, code, bs)] }
    (s.ev.sub ≠ 1 → exporter = none → exec .peerRequest s = .next (answers s fcPeerUnreachable [])) ∧
    (s.ev.sub = 1 → (s.band? s.ev.id = none → exec .peerRequest s = .next (answers s fcPeerUnreachable [])) ∧
      ∀ b k, s.band? s.ev.id = some b → s.kernel? b.kid = some k → k.launch.stash < off + n →
        exec .peerRequest s = .next (answers s fcSegLimit [])) ∧
    (∀ x, s.ev.sub ≠ 1 → exporter = some x →
      let y := x.segs.getD 0 Segment.zero
      let inside := y.valid = true ∧ y.base ≤ off ∧ off + n ≤ y.limit ∧ (w 2 % 4 ≠ 0 → y.wr = true)
      let way := s.translateN s.ev.die unitPeer x.ctx (w 2 % 4 == 0 || w 2 % 4 == 2) (w 2 % 4 != 0) n off
      (y.valid = false ∨ off < y.base ∨ y.limit < off + n ∨ (w 2 % 4 ≠ 0 ∧ y.wr = false) → exec .peerRequest s = .next (answers s fcNoMapping [])) ∧
      (∀ u pas, w 2 % 4 = 0 → inside → way = (u, .ok pas) →
        ∃ v, exec .peerRequest s = .next (answers v 0 (pas.map fun pa => u.readPa x.ctx pa)) ∧ v.groups = u.groups ∧ v.mem.stash = u.mem.stash) ∧
      (∀ u pas, w 2 % 4 = 1 → inside → way = (u, .ok pas) →
        ∃ v, exec .peerRequest s = .next (answers v 0 []) ∧ v.groups = u.groups ∧
          v.mem.bytes = (u.writePas x.ctx pas s.ev.bytes).mem.bytes) ∧
      (∀ u pas, w 2 % 4 = 2 → inside → way = (u, .ok pas) →
        ∃ v, exec .peerRequest s = .next (answers v 0 (pas.map fun pa => u.readPa x.ctx pa)) ∧ v.groups = u.groups) ∧
      (∀ u f, inside → way = (u, .error f) → faultClass f.1 ≠ 1 → exec .peerRequest s = .next (answers u f.1 [])) ∧
      (∀ u f, inside → way = (u, .error f) → faultClass f.1 = 1 → ∃ t r, exec .peerRequest s = .next t ∧
        t.out.replies = u.out.replies ∧ t.out.peerHeld = u.out.peerHeld ++ [r] ∧ r.pid = w 6 ∧ r.ctx = x.ctx ∧ r.code = f.1 ∧ r.va = f.2 ∧
        t.tab.fwq.length = u.tab.fwq.length + 1)) ∧
    (∀ x, s.mem.accs.find? (fun a => a.aid == s.ev.id && s.ev.sub == 0) = some x →
      (x.elsewhere = true → exec .packetReturn s = .next ((s.lateFault x fcPeerUnreachable (x.va % 2 ^ 47)).performed x.gid)) ∧
      (x.elsewhere = false → exec .packetReturn s = .next s)) ∧
    (∀ g, s.group? s.ev.id = some g →
      (g.trapping.isSome = true → s.allBack g = true → exec .trapEntry s = .next (s.trapEnter g.gid)) ∧
      (g.trapping = none ∨ s.allBack g = false → exec .trapEntry s = .next s))) ∧
  (∀ (s : State),
    let sig := s.freshSignet 0 5 96
    let ends := fun (u : State) => u.modObs fun o => { o with act := none }
    let told := fun (h : HostQ) (c : Context) (n : Nat) =>
      ((((s.bumpSeq 0 5 96).modObs fun o => { o with act := some sig }).emitUnit 0 5 96 0 h.ctx sig 0x20 n).snapshot c.part).modHq h.q fun h =>
        { h.reload with wdHeld := false }
    ((∀ x ∈ s.tab.suspends, x.1 = s.ev.id → s.out.elapsed < x.2) → exec .suspendDeadline s = .next s) ∧
    (∀ x ∈ s.tab.suspends, x.1 = s.ev.id → x.2 ≤ s.out.elapsed → s.tab.saves = [] → (∀ b ∈ s.bands, b.ctx ≠ s.ev.id) →
      ∃ t, exec .suspendDeadline s = .next t ∧ t.tab.suspends = s.tab.suspends.filter (fun x => !(x.1 == s.ev.id)) ∧ t.groups = s.groups ∧ SameMemory s t) ∧
    (∀ x ∈ s.tab.suspends, ∀ b r e, x.1 = s.ev.id → x.2 ≤ s.out.elapsed → s.tab.saves = [] → s.bandsIn s.ev.id .resident = b :: r →
      s.updating b.die = false → s.divOf b.bid = some e → s.band? b.bid = some b →
      ∃ t, exec .suspendDeadline s = .next t ∧ t.band? b.bid = some { b with st := .saving, saveArea := (s.ev.words.getD 1 0).toNat } ∧
        (∀ y ∈ t.groups, y.band = b.bid → y.saved = true) ∧ SameMemory s t) ∧
    (∀ x b, s.tab.saves.find? (fun x => x.bid == s.ev.id) = some x → s.band? s.ev.id = some b →
      (s.out.elapsed < x.since + usToUnits 2000 → exec .saveAbandon s = .next s) ∧
      (∀ c p, x.since + usToUnits 2000 ≤ s.out.elapsed → s.ctx? b.ctx = some c → s.part? c.part = some p → p.resetting = false →
        ∃ u t : State, exec .saveAbandon s = .next t ∧ t.groups = (u.resetPart p).groups ∧ t.mem = (u.resetPart p).mem ∧
          u.mem.stash = s.mem.stash ∧
          u.tab.saves = s.tab.saves.filter (fun y => !(y.bid == b.bid)) ∧ ∀ h ∈ t.hqs, h.ctx = b.ctx → h.wdHeld = false)) ∧
    (∀ p, s.part? s.ev.id = some p → p.resetting = true → (∀ b ∈ s.bands, b.ctx ∉ s.ctxsOf p.part) → s.chans = [] → ∃ t, exec .partitionResetComplete s = .next t ∧ SameMemory s t ∧
      (∀ h ∈ t.hqs, h.ctx ∈ s.ctxsOf p.part → h.st ≠ .resetting) ∧ (t.part? s.ev.id).map (fun p => p.resetting) = some false) ∧
    (∀ p, s.part? s.ev.id = some p → p.resetting = false → exec .partitionResetComplete s = .next s) ∧
    (∀ h, s.hq? s.ev.id = some h → h.running = true →
      (0 < h.wdRemain → h.wdHeld = false → exec .watchdogExpire s = .next s) ∧
      (h.st = .open_ → h.wdRemain = 0 → (∃ b ∈ s.bands, b.ctx = h.ctx ∧ b.st = .saving) →
        exec .watchdogExpire s = .next (s.modHq h.q fun h => { h with wdHeld := true })) ∧
      (∀ c, h.st = .open_ → h.wdRemain = 0 → (∀ b ∈ s.bands, b.ctx = h.ctx → b.st ≠ .saving) → h.dumpFlag = false → h.wdAction = false →
        s.ctx? h.ctx = some c → exec .watchdogExpire s = .next (ends ((told h c h.q).abortTask h.q))) ∧
      (∀ c p, h.st = .open_ → h.wdRemain = 0 → (∀ b ∈ s.bands, b.ctx = h.ctx → b.st ≠ .saving) → h.dumpFlag = false → h.wdAction = true →
        s.ctx? h.ctx = some c → (told h c (h.q + 4096)).part? c.part = some p → p.resetting = false →
        exec .watchdogExpire s = .next (ends ((told h c (h.q + 4096)).resetPart p)))) ∧
    (∀ i ctx va n, s.obs.queries.find? (fun x => x.1 == s.ev.id) = some (i, ctx, va, n) →
      (s.out.elapsed < n + usToUnits 1000 → exec .wfgRemoteTimeout s = .next s) ∧
      (n + usToUnits 1000 ≤ s.out.elapsed → ∀ u bs,
        (s.modObs fun o => { o with queries := o.queries.filter fun x => !(x.1 == i) }).readGlb 0 96 ctx (va + 24) 1 = (u, .ok bs) →
        exec .wfgRemoteTimeout s = .next (u.writeGlb 0 96 ctx (va + 24) [bs.getD 0 0 ||| 1]).1)) ∧
    ((s.ev.words.getD 2 0).toNat ≤ 8 → ∃ t bs, exec .wfgRemoteQuery s = .next t ∧ SameMemory s t ∧ t.groups = s.groups ∧
      t.out.replies = s.out.replies ++ [((s.ev.words.getD 0 0).toNat % 512, (s.ev.words.getD 1 0).toNat, 0, bs)] ∧ bs.length % 32 = 0) ∧
    (8 < (s.ev.words.getD 2 0).toNat → exec .wfgRemoteQuery s = .next s))

/-- R377 to R380, R390, R513. DIVINST with an acceptable record: INSTALL puts an entry for a band of the core into a free place, BUSY where the place is
taken; LINK goes on in another segment; DRAIN replays the log, ending the entry, or waits; REMOVE ends the entry; READ writes the entry's 64
bytes. A message for a suspended band is appended to the log of its entry, where there is room for it.

Model's choices: log entries 91, 93, 94, 95, 96, 97. -/
def Obligations.DiversionEntries : Prop :=
  (∀ (s u : State) (c : Issue) (g : Group) (d a : BitVec 6) (bs : List Byte), Issues s c g → g.firmware = true →
    d.toNat = bits c.w0.toNat 15 6 → a.toNat = bits c.w0.toNat 9 6 → (g.rs a.toNat).toNat % 32 = 0 →
    s.readOwn g (g.rs a.toNat).toNat 32 = (u, .ok bs) →
    let r := ctlRec bs
    let idx := u.divwinOf g.die
    let core := r.arg % 128
    let fin := fun (v : State) (n : Nat) => v.postUnit c g (statusWrites c.mask d.toNat n)
    (r.bad = true → ∀ i ∈ ([.divinstInstall d a, .divinstLink, .divinstDrain, .divinstRemove, .divinstRead] : List Instr),
      i.wf (s.regsOf g) = true → exec i s = .next (fin u stRefused)) ∧
    (r.bad = false →
      ((Instr.divinstInstall d a).wf (s.regsOf g) = true → r.op ≠ 0 → exec (.divinstInstall d a) s = .next (fin u stRefused)) ∧
      ((Instr.divinstInstall d a).wf (s.regsOf g) = true → r.op = 0 →
        (∀ e, u.divAt g.die core idx = some e → exec (.divinstInstall d a) s = .next (fin u stBusy)) ∧
        (u.divAt g.die core idx = none → u.bandNamed r = none → exec (.divinstInstall d a) s = .next (fin u stRefused)) ∧
        (∀ b, u.divAt g.die core idx = none → u.bandNamed r = some b → u.divOf b.bid = none → b.die = g.die → b.core = core →
          u.garretOk b r.addr = true → ∃ e, exec (.divinstInstall d a) s = .next (fin (u.modTab fun t => { t with divs := t.divs ++ [e] }) stOk) ∧
            e.die = g.die ∧ e.core = core ∧ e.idx = idx ∧ e.bid = b.bid ∧ e.garret = r.addr ∧ e.nextSeq = 0 ∧ e.repSeq = 0 ∧ e.drain = false)) ∧
      (∀ e, u.divAt g.die core idx = some e →
        exec .divinstLink s = .next (fin ((u.writePaBytes e.ctx (e.seg + e.segOff)
          (logEntry 0 e.nextSeq 0 5 0 16 0 (leBytes 8 r.addr ++ leBytes 4 (r.arg / 2 ^ 32) ++ leBytes 4 0))).modDiv e.bid fun e =>
            { e with seg := r.addr, segFree := r.arg / 2 ^ 32, segOff := 0, fullTold := false, links := e.links + 1 }) stOk) ∧
        (u.bandSt e.bid = some .saved ∨ e.drainer.isSome = true → exec .divinstDrain s = .next (fin u stRefused)) ∧
        (∀ v, u.bandSt e.bid ≠ some .saved → e.drainer = none → u.drainLog e.bid = (v, true) → exec .divinstDrain s = .next (fin v stOk)) ∧
        (∀ v, u.bandSt e.bid ≠ some .saved → e.drainer = none → u.drainLog e.bid = (v, false) →
          exec .divinstDrain s = .next ((v.postAwait c g .unit).modDiv e.bid fun e => { e with drainer := some (c.gid, v.nextId) })) ∧
        (∃ v, exec .divinstRemove s = .next (fin v stOk) ∧ v.tab.divs = u.tab.divs.filter (fun x => !(x.bid == e.bid)) ∧ v.mem = u.mem ∧ v.groups = u.groups) ∧
        exec .divinstRead s = .next (fin (u.writePaBytes (u.ctxOf g) r.addr (leBytes 64 e.word)) stOk)) ∧
      (u.divAt g.die core idx = none → exec .divinstLink s = .next (fin u stRefused) ∧ exec .divinstDrain s = .next (fin u stRefused) ∧
        exec .divinstRemove s = .next (fin u stOk) ∧ exec .divinstRead s = .next (fin (u.writePaBytes (u.ctxOf g) r.addr (leBytes 64 0)) stOk)))) ∧
  (∀ (s : State) (m : Msg) (b : Band) (e : DivEntry), s.msgs.find? (fun m => m.mid == s.ev.id) = some m →
    s.amsgNext m = true → s.needsMet m.needs = true →
    s.amsgDest m = .suspended b → s.divOf b.bid = some e →
    let u := s.takeTurn (.log e.bid) e.die (rankOf m.die m.core e.die)
    (s.inTurn (.log e.bid) e.die (rankOf m.die m.core e.die) = false → exec .diversionAppend s = .next s) ∧
    (s.inTurn (.log e.bid) e.die (rankOf m.die m.core e.die) = true →
    exec .diversionAppend s = .next (u.appendMsg m e) ∧
    (m.payload.length = 16 → 192 ≤ e.segFree → ∃ u : State, exec .diversionAppend s = .next (u.amsgStatus m stOk) ∧
      (u.divOf b.bid).map (fun e => (e.nextSeq, e.segFree, e.segOff)) = some ((e.nextSeq + 1) % 2 ^ 32, e.segFree - 128, e.segOff + 128)) ∧
    (m.payload.length = 16 → e.segFree < 192 → exec .diversionAppend s = .next (u.divFull e))))

/-- R373 to R376, R381, R388, R391. CTXCTL with an acceptable record: HOLD and UNHOLD hold and open a context's queues; SAVE starts the save of a
resident band that has an entry; RESTORE brings a saved band back, BUSY where its core has no room, and RELEASE lets it go on, BUSY while its entry
stands; KILL ends the kernel of the band with the code; SERVE makes the lanes parked in a range ACTIVE; DECLINE records them; FWRET puts ADDR into S1
of the group that waits in FWCALL; RESET starts a partition's reset.

Model's choices: log entries 90, 97, 102. -/
def Obligations.ContextControl : Prop :=
  ∀ (s u : State) (c : Issue) (g : Group) (d a : BitVec 6) (bs : List Byte), Issues s c g → g.firmware = true →
    d.toNat = bits c.w0.toNat 15 6 → a.toNat = bits c.w0.toNat 9 6 → (g.rs a.toNat).toNat % 32 = 0 →
    s.readOwn g (g.rs a.toNat).toNat 32 = (u, .ok bs) →
    let r := ctlRec bs
    let lo := r.addr
    let hi := r.addr + r.arg
    let code : Byte := BitVec.ofNat 8 r.arg
    let declined := fun (v : State) => ((v.declineEngines r.ctx lo hi).declineReplays r.ctx lo hi).declinePeers r.ctx lo hi
    let fin := fun (v : State) (n : Nat) => v.postUnit c g (statusWrites c.mask d.toNat n)
    let named := u.bandNamed r
    let hold := (Instr.ctxctlHold d a).wf (s.regsOf g) = true
    (r.bad = true → ∀ i ∈ ([.ctxctlHold d a, .ctxctlUnhold, .ctxctlSave, .ctxctlRestore, .ctxctlRelease, .ctxctlKill, .ctxctlServe,
        .ctxctlDecline, .ctxctlFwret, .ctxctlReset] : List Instr), i.wf (s.regsOf g) = true → exec i s = .next (fin u stRefused)) ∧
    (r.bad = false →
      (hold → r.op ≠ 0 → exec (.ctxctlHold d a) s = .next (fin u stRefused)) ∧
      (hold → r.op = 0 → exec (.ctxctlHold d a) s = .next (fin (u.holdCtx r.ctx) stOk) ∧ (u.holdCtx r.ctx).groups = u.groups ∧
        ∀ h ∈ (u.holdCtx r.ctx).hqs, h.ctx = r.ctx → h.st ≠ .open_) ∧
      (exec .ctxctlUnhold s = .next (if u.ctxSaved r.ctx then fin u stBusy else fin (u.unholdCtx r.ctx) stOk)) ∧
      (named = none → ∀ i ∈ ([.ctxctlSave, .ctxctlRestore, .ctxctlRelease, .ctxctlKill] : List Instr), exec i s = .next (fin u stRefused)) ∧
      (∀ b, named = some b →
        (b.st ≠ .resident ∨ u.divOf b.bid = none → exec .ctxctlSave s = .next (fin u stRefused)) ∧
        (b.st = .resident → (u.divOf b.bid).isSome = true → ∃ t, exec .ctxctlSave s = .next t ∧ SameMemory u t ∧
          (∀ y, u.band? b.bid = some y → t.band? b.bid = some { y with st := .saving, saveArea := r.addr }) ∧
          (∀ x ∈ t.groups, x.band = b.bid → x.saved = true) ∧ t.tab.saves.length = u.tab.saves.length + 1) ∧
        exec .ctxctlRestore s = .next (fin (u.restoreBand b).1 (u.restoreBand b).2) ∧
        (b.st = .restored → (u.kernel? b.kid).isSome = true → u.restoreBand b = (u, stOk)) ∧
        exec .ctxctlRelease s = .next (fin (u.unsaveBand b).1 (u.unsaveBand b).2) ∧
        (u.kernel? b.kid = none ∨ (b.st ≠ .restored ∧ b.st ≠ .saved) → u.restoreBand b = (u, stRefused)) ∧
        (∀ k, u.kernel? b.kid = some k → b.st = .saved → (b.die, b.core) ∉ u.out.retired →
          (u.formerFits b k.launch (u.isMatrix k) = false → u.restoreBand b = (u, stBusy)) ∧
          (u.formerFits b k.launch (u.isMatrix k) = true → u.band? b.bid = some b → (u.restoreBand b).2 = stOk ∧
            ((u.restoreBand b).1.band? b.bid).map (fun x => (x.st, x.die, x.core)) = some (.restored, b.die, b.core))) ∧
        ((u.divOf b.bid).isSome = true → u.unsaveBand b = (u, stBusy)) ∧
        (u.divOf b.bid = none → b.st ≠ .restored → u.unsaveBand b = (u, stRefused)) ∧
        (u.divOf b.bid = none → b.st = .restored → u.tab.absents = [] → b.savedBins = [] → b.savedOrder = [] → u.band? b.bid = some b →
          (u.unsaveBand b).2 = stOk ∧ ((u.unsaveBand b).1.band? b.bid).map (fun x => x.st) = some .resident) ∧
        (2 ≤ faultClass code → exec .ctxctlKill s = .next (fin (u.actFault b.kid code).launchers stOk)) ∧
        (faultClass code < 2 → exec .ctxctlKill s = .next (fin (u.kernelFault b.kid code).launchers stOk))) ∧
      (∃ v : State, exec .ctxctlServe s = .next (fin (((((v.serveEngines r.ctx lo hi).serveReplays r.ctx lo hi).servePeers r.ctx lo hi).serveWork2
          r.ctx lo hi).launchers) stOk) ∧
        v.mem = u.mem ∧ v.groups.length = u.groups.length ∧
        ∀ y, u.group? y.gid = some y → y.trapping = none →
          (y.handler = false → v.group? y.gid = some (y.serve r.ctx lo hi)) ∧
          (y.handler = true → ∃ z, v.group? y.gid = some z ∧ z.lanes = (y.serve r.ctx lo hi).lanes ∧ z.held = y.held ++ [.serve r.ctx lo hi])) ∧
      (∀ (y : Group) (l : Nat) (p : ParkInfo), (y.lane l).st = .parked → (y.lane l).park = some p → p.ctx = r.ctx → r.addr ≤ p.va →
        p.va < r.addr + r.arg → l < y.lanes.length → ((y.serve r.ctx r.addr (r.addr + r.arg)).lane l).st = .active) ∧
      ((∀ y ∈ u.groups, ∀ l < 32, (y.lane l).park = none) →
        exec .ctxctlDecline s = .next (fin (declined u) stOk)) ∧
      (∃ v : State, exec .ctxctlDecline s = .next (fin (declined v) stOk)) ∧
      (∀ x, r.arg < 128 → u.groups.find? (fun x => x.die == g.die && x.core == r.arg % 128 && x.gslot == r.band % 256 && u.ctxOf x == r.ctx &&
          x.blocked == some .fwcall) = some x →
        exec .ctxctlFwret s = .next (fin (u.modGroup x.gid fun x => { (x.ws 1 (BitVec.ofNat 64 r.addr)) with blocked := none }) stOk)) ∧
      (128 ≤ r.arg → exec .ctxctlFwret s = .next (fin u stRefused)) ∧
      (u.part? (r.arg % 16) = none → exec .ctxctlReset s = .next (fin u stRefused)) ∧
      (∀ p, u.part? (r.arg % 16) = some p → ∃ v, (v.tab.resets = u.tab.resets ++ [(p.part, c.gid, u.nextId)]) ∧ v.mem = u.mem ∧
        exec .ctxctlReset s = .next (if p.resetting then v else v.resetPart p)))

/-- R53, R200, R275, R278 to R293, R430. The engines: an IDLE channel starts its next chain; a channel with fewer than 8 records in flight starts the
record that its walk has come to, once what its post waits for is done, and a record that breaks a rule of its fields ends FAULTED with COPY_FAULT; a
record whose OWN is clear ends the walk; a record moves its next bytes, a collective's from SEND and then to RECV; a collective starts its step, hears
its peers, and takes their data, a disagreement ending it with COPY_FAULT; a step that is late ends with COLL_TIMEOUT; an ended record writes its
completion; an uncorrectable error rolls an access's group back, or ends a record.

Model's choices: log entries 61, 62, 63, 64, 67, 144. -/
def Obligations.EnginesRunRecords : Prop :=
  (∀ (s : State) (c : Channel), s.chan? s.ev.id = some c →
    (∀ p ps, c.posts = p :: ps → c.st = .idle → ∃ u : State, exec .chanChainStart s = .next u.launchers ∧ u.groups = s.groups ∧ SameMemory s u ∧
      u.chan? c.cid = some { c with posts := ps, cur := some (p.head, p), st := .running, node := p.node, failed := none, part := [], page := none }) ∧
    (c.posts = [] ∨ c.st ≠ .idle → exec .chanChainStart s = .next s) ∧
    (8 ≤ c.recs.length → exec .engineRecordStart s = .next s) ∧
    (∀ ctx a (v : Nat → State) (bs : Nat → List Byte), s.ev.lane % 256 = 0 → c.part = [] → v 0 = s →
      (∀ k < 8, (v k).readGlb c.die c.unit ctx (a + 8 * k) 8 = (v (k + 1), .ok (bs k))) →
      s.readRecord c ctx a = ((v 8).modChan c.cid fun c => { c with part := [] }, .whole ((List.range 8).flatMap bs))) ∧
    (∀ a p u f va, c.recs.length < 8 → c.doomed = [] → c.cur = some (a, p) → c.page = none → s.needsMet p.needs = true →
      s.readRecord c p.ctx a = (u, .fault f va) →
      (faultClass f = 1 → ∃ t, exec .engineRecordStart s = .next t ∧ SameMemory u t ∧ ∀ x, u.chan? c.cid = some x →
        t.chan? c.cid = some { x with page := some { code := f, ctx := p.ctx, va := va, declined := none } }) ∧
      (faultClass f ≠ 1 → exec .engineRecordStart s = .next (u.declineChan c f))) ∧
    (∀ a p u raw, c.recs.length < 8 → c.doomed = [] → c.cur = some (a, p) → c.page = none → s.needsMet p.needs = true →
      s.readRecord c p.ctx a = (u, .whole raw) →
      (fieldAt raw 0 1 = 0 → exec .engineRecordStart s = .next ((u.modChan c.cid fun c => { c with cur := none }).settleChan c.cid)) ∧
      (fieldAt raw 0 1 = 1 → fieldAt raw 1 1 = 1 → c.recs ≠ [] →
        exec .engineRecordStart s = .next (s.modChan c.cid fun c => { c with part := [] })) ∧
      (fieldAt raw 0 1 = 1 → fieldAt raw 1 1 = 0 ∨ c.recs = [] →
        let ring := fieldAt raw (if p.coll then 320 else 256) 64
        let r := EngRec.new u.nextId a raw p (if ring = 0 ∨ ring % 64 ≠ 0 then c.ring else ring) (if p.coll then .gather else .moving)
        let v := (({ u with nextId := u.nextId + 1 }).modChan c.cid fun x => { x with recs := x.recs ++ [r] }).modChan c.cid fun x =>
          { x with cur := (nextOf raw).map fun n => (n, p) }
        ((if p.coll then collFieldsOk raw else copyFieldsOk raw) && v.recBarOk p raw = true → exec .engineRecordStart s = .next v) ∧
        ((if p.coll then collFieldsOk raw else copyFieldsOk raw) && v.recBarOk p raw = false →
          exec .engineRecordStart s = .next (v.finishRec u.nextId 2 fcCopyFault)))) ∧
    (∀ a p code rest, c.recs.length < 8 → c.page = none → c.doomed = (a, p, code) :: rest → exec .engineRecordStart s = .next (s.walkDoomed c a p code rest))) ∧
  (∀ (s : State) (c : Channel) (r : EngRec), s.engRec? s.ev.id = some (c, r) →
    let want := if s.ev.lane = 0 then 128 else min 128 s.ev.lane
    (r.page ≠ none ∨ r.divert ≠ none → exec .engineAccess s = .next s) ∧
    (r.page = none → r.divert = none → r.phase = .gather ∨ r.phase = .moving →
      exec .engineAccess s = .next (if r.coll then s.collAccess c r want else s.copyAccess c r want)) ∧
    (∀ s1 bs e, r.page = none → r.divert = none → r.phase = .gather → r.coll = true → r.team ≠ [] →
      s.engRead c r.post 0 (fun i => (fieldAt r.raw 128 64 : Int) + r.own.length + (i : Nat)) (min want (r.sendBytes - r.own.length)) = (s1, bs, e) →
      bs ≠ [] → exec .engineAccess s = .next (s1.modRec r.rid fun r =>
        { r with own := r.own ++ bs, phase := if r.sendBytes ≤ r.own.length + bs.length then .exchange else .gather })) ∧
    (r.page = none → r.divert = none → r.phase = .moving → r.coll = true → r.team ≠ [] → let esz := collEsz r.type
      exec .engineAccess s = .next (s.writeSome c r 0 esz (fun i => (fieldAt r.raw 192 64 : Int) + r.moved + (i : Nat))
        (r.own.take (max esz (want / esz * esz))) (r.moved + r.own.length))) ∧
    (∀ seg esz addr bs total s1 ps, s.engPlaces c r.post seg addr true bs.length 0 = (s1, ps, .none) → ps.length = bs.length → 0 < esz →
      bs.length % esz = 0 → bs ≠ [] → (s.writeSome c r seg esz addr bs total).mem.bytes = (s1.writeAt (ps.zip bs)).mem.bytes ∧
        (s.writeSome c r seg esz addr bs total).mem.stash = (s1.writeAt (ps.zip bs)).mem.stash ∧
        (r.moved + bs.length < total → s.writeSome c r seg esz addr bs total = ((s1.writeAt (ps.zip bs)).engAsk c r.post ps .write).modRec r.rid fun r =>
          { r with moved := r.moved + bs.length, own := r.own.drop bs.length })) ∧
    (r.phase = .exchange → r.stepAt = none → exec .collStepStart s =
      .next (let u := (s.modRec r.rid fun r => { r with stepAt := some s.out.elapsed }).sendStep r
        if r.needed = [] then u.startRecv r.rid else u)) ∧
    (r.phase ≠ .exchange ∨ r.stepAt ≠ none → exec .collStepStart s = .next s) ∧
    (r.coll = true → s.ev.sub ∈ r.needed → s.ev.sub ∉ r.notices → s.memberHere r s.ev.sub = false →
      exec .collBeginNotice s = .next (s.modRec r.rid fun r => { r with notices := r.notices ++ [s.ev.sub] })) ∧
    (∀ n, r.phase = .exchange → r.stepAt = some n → s.ev.sub ∈ r.needed → (∀ a ∈ r.arrivals, a.1 ≠ s.ev.sub) → s.memberHere r s.ev.sub = false →
      ((s.ev.words.map fun w => w.toNat) ≠ r.agree → exec .collStepData s = .next (s.finishRec r.rid 2 fcCopyFault)) ∧
      ((s.ev.words.map fun w => w.toNat) = r.agree → (∃ j ∈ r.needed, j ≠ s.ev.sub ∧ ∀ a ∈ r.arrivals, a.1 ≠ j) →
        exec .collStepData s = .next (s.modRec r.rid fun _ => { r with arrivals := r.arrivals ++ [(s.ev.sub, s.timeNs, s.ev.bytes)] })) ∧
      ((s.ev.words.map fun w => w.toNat) = r.agree → (∀ j ∈ r.needed, j ≠ s.ev.sub → ∃ a ∈ r.arrivals, a.1 = j) →
        exec .collStepData s = .next (((s.modRec r.rid fun _ => { r with arrivals := r.arrivals ++ [(s.ev.sub, s.timeNs, s.ev.bytes)] }).emitUnit
          c.die 2 c.eng c.chn r.post.ctx r.post.signet 0x11 (s.ev.sub * 2 ^ 16)).startRecv r.rid))) ∧
    (∀ n, r.phase = .exchange → r.stepAt = some n →
      let us := fieldAt r.raw 448 32
      (s.out.elapsed < n + usToUnits (if us = 0 then 1000 else us) → exec .collStepTimeout s = .next s) ∧
      (n + usToUnits (if us = 0 then 1000 else us) ≤ s.out.elapsed → ∃ u : State, exec .collStepTimeout s = .next (u.finishRec r.rid 2 0x31) ∧
        u.chans = s.chans ∧ u.groups = s.groups ∧ SameMemory s u)) ∧
    (∀ status code, r.phase = .done status code → r.page = none →
      (∀ u va ph, r.slot = some (va, ph) →
        s.writeGlb c.die c.unit r.post.ctx va (leBytes 32 (ph * 2 ^ 255 + s.completionWord r status code)) = (u, none) →
        exec .completionRecordWrite s = .next (u.recWritten c r)) ∧
      (∀ u f va ph, r.slot = some (va, ph) →
        s.writeGlb c.die c.unit r.post.ctx va (leBytes 32 (ph * 2 ^ 255 + s.completionWord r status code)) = (u, some f) → faultClass f.1 ≠ 1 →
        exec .completionRecordWrite s = .next ((u.engFault c r.post r.addr fcCopyFault).recWritten c r)) ∧
      (∀ u va ph, r.slot = none → s.ringReserve c.die c.unit r.post.ctx r.ring 32 = (u, .slot va ph) →
        exec .completionRecordWrite s = .next ((u.modRec r.rid fun r => { r with slot := some (va, ph) }).putCompletion c r status code va ph)) ∧
      (∀ u, r.slot = none → s.ringReserve c.die c.unit r.post.ctx r.ring 32 = (u, .full) → exec .completionRecordWrite s = .next u)) ∧
    (∀ u pa, r.phase = .clearing → r.page = none → r.raw ≠ [] → s.translate c.die c.unit r.post.ctx r.addr true true true = (u, .ok pa) →
      exec .completionRecordWrite s =
        .next (((u.writePa r.post.ctx pa (u.readPa r.post.ctx pa &&& 0xFE)).askLines c.die c.unit [pa] .write r.post.ctx).recGone c r)) ∧
    (∀ status code, fcCopyFault = 0x30 ∧ s.completionWord r status code = r.addr % 2 ^ 56 * 2 ^ 192 + s.timeNs % 2 ^ 64 * 2 ^ 128 +
      r.post.signet.toNat * 2 ^ 64 + r.moved % 2 ^ 32 * 2 ^ 32 + s.timeF * 2 ^ 16 + code.toNat * 2 ^ 8 + status) ∧
    (s.ev.sub = 0 → s.mem.accs = [] → r.page = none → r.divert = none →
      (r.phase = .gather ∨ r.phase = .moving ∧ r.coll = false → exec .dataUncorrectable s = .next (s.finishRec r.rid 2 fcDataUncorrectable)) ∧
      (∀ status code, r.phase = .done status code →
        exec .dataUncorrectable s = .next ((s.engFault c r.post r.addr fcCopyFault).recWritten c r)))) ∧
  (∀ (s : State) (a : Acc), s.mem.accs.find? (fun a => a.aid == s.ev.id && s.ev.sub == 0) = some a →
    s.canPerform a = true → a.kind.isLoad = true ∨ a.kind.isAtom = true →
    exec .dataUncorrectable s = .next ((s.dropAccs [a.aid]).rollback a.gid fcDataUncorrectable a.va)) ∧
  (∀ (esz n rop t : Nat) (a b : List Byte), a.length = esz * n → b.length = esz * n → (collCombine rop t esz n a b).length = esz * n)

/-- R451, R452, R454. A frame whose checks fail, that names no session, or whose SEQ its session drops, has no effect; one ahead of a gap is held; a frame
taken in order runs its command, and the frames that it lets in come next. HELLO draws a nonce, KEYX opens a session for it, a session without a
frame for 60 s closes, and a gap of 1 ms counts as lost.

Model's choices: the words of a frame, log entry 115; failed checks, log entry 116; the first SEQ, log entry 117. -/
def Obligations.SessionsOrderFrames : Prop :=
  ∀ (s : State),
    let frames := ([.qbind, .submit, .hostLaunch, .ctxnew, .ctxend, .suspend, .resume, .keyload, .keydestroy, .partdef, .power, .clock, .retain,
      .retainRestore, .retireCore, .retireLayer, .retireLane, .update, .traceread, .snapshot, .hostMark, .attest, .debug] : List Instr)
    let w := fun i => (s.ev.words.getD i 0).toNat
    let head := fun (i : Instr) => s.ev.headOk i = true ∧ s.ev.head 96 32 = 0
    s.ev.sub ≠ 1 →
    (s.out.tripped = true → ∀ i ∈ frames ++ [.hello, .keyx], exec i s = .next s) ∧
    (w 0 ≠ acceptedMark → s.session? (w 0) = none → ∀ i ∈ frames, exec i s = .next s) ∧
    (∀ x, w 0 ≠ acceptedMark → s.session? (w 0) = some x →
      (x.drops (w 1) = true → ∀ i ∈ frames, exec i s = .next s) ∧
      (∀ i ∈ frames, s.ev.head 224 32 ≠ 0xA1AE1101 ∨ s.ev.head 216 8 ≠ 1 ∨ s.ev.head 128 64 ≠ w 1 ∨ s.ev.head 192 16 ≠ (s.ev.payload i).length ∨
        ((s.ev.frame.drop 4).flatMap fun x => leBytes 8 x.toNat) ≠
          hmacSha512 (leBytes 64 x.key.toNat) ((s.ev.frame.take 4).flatMap (fun w => leBytes 8 w.toNat) ++ s.ev.payload i) → exec i s = .next s) ∧
      (x.drops (w 1) = false → w 1 ≤ x.seqNext → s.inTurn .host 0 (w 0) = false → ∀ i ∈ frames, exec i s = .next s) ∧
      (s.out.tripped = false → x.drops (w 1) = false → w 1 ≤ x.seqNext → s.inTurn .host 0 (w 0) = true → ∀ i ∈ frames, s.ev.frameOk i x = true →
        s.ev.head 208 8 ∉ frameTypes → exec i s =
          .next ((((s.takeTurn .host 0 (w 0)).modSession (w 0) fun y => y.accept (w 1) s.out.elapsed).tell (.ack (w 2) stRefused)).closeGap (w 0))) ∧
      (s.out.tripped = false → x.drops (w 1) = false → x.seqNext < w 1 → (∀ h ∈ x.heldFrames, h.1 ≠ w 1) → ∀ i ∈ frames, s.ev.frameOk i x = true →
        ∃ t, exec i s = .next t ∧ (t.session? (w 0)).map (fun y => y.heldFrames) = some (x.heldFrames ++ [(w 1, { instr := i, ev := s.ev })]) ∧
          t.groups = s.groups ∧ t.hqs = s.hqs ∧ t.out.sent = s.out.sent ∧ SameMemory s t)) ∧
    (s.out.tripped = false →
      (head .hello → ∃ t n p, exec .hello s = .next t ∧ SameMemory s t ∧ t.out.nonce = n ∧ n.length = 4 ∧
        t.out.sent = s.out.sent ++ [.data (w 2) (n ++ p)] ∧ t.out.sessions = s.out.sessions) ∧
      (¬ head .hello → exec .hello s = .next s) ∧
      (head .keyx → s.out.nonce ≠ [] → (s.ev.words.drop 3).take 4 = s.out.nonce → ∃ t x, exec .keyx s = .next t ∧ SameMemory s t ∧ t.out.nonce = [] ∧
        t.out.sent = s.out.sent ++ [.data (w 2) [BitVec.ofNat 64 s.out.nextSession]] ∧ x ∈ t.out.sessions ∧ x.sid = s.out.nextSession ∧ x.seqNext = 1 ∧
        x.key = Config.openedKey ((s.ev.words.drop 7).take 64) ∧ (s.out.sessions.length < 16 → t.out.sessions = s.out.sessions ++ [x])) ∧
      (¬ head .keyx ∨ s.out.nonce = [] ∨ (s.ev.words.drop 3).take 4 ≠ s.out.nonce → exec .keyx s = .next s)) ∧
    (∃ t, exec .sessionTimeout s = .next t ∧ SameMemory s t ∧ ∀ x, x ∈ t.out.sessions ↔
      x ∈ s.out.sessions ∧ ¬ (x.sid = s.ev.id ∧ x.lastFrame + usToUnits 60000000 ≤ s.out.elapsed)) ∧
    (∀ x n, s.session? s.ev.id = some x → leastOf (x.heldFrames.map fun h => h.1) = some n →
      (s.out.elapsed < x.heldSince + usToUnits 1000 ∨ s.inTurn .host 0 x.sid = false → exec .alaellGapTimeout s = .next s) ∧
      (x.heldSince + usToUnits 1000 ≤ s.out.elapsed → s.inTurn .host 0 x.sid = true →
        exec .alaellGapTimeout s = .next (((s.takeTurn .host 0 x.sid).modSession x.sid fun y => { y with seqNext := n }).closeGap x.sid))) ∧
    (∀ sid x, s.session? sid = some x → (∀ h ∈ x.heldFrames, h.1 ≠ x.seqNext) → s.closeGap sid = s)

/-- R20, R119, R301, R356, R374, R376, R453. The commands on queues, kernels, contexts, keys and partitions, each taken by its session and answered with its
status: QBIND binds a queue; SUBMIT queues a graph, FULL with 64 waiting; LAUNCH makes a kernel or is REFUSED; CTXNEW and CTXEND make and end a
context; SUSPEND holds one with a deadline and RESUME brings it back; KEYLOAD and KEYDESTROY fill and empty a slot; PARTDEF sets a partition.

Model's choices: the words of a frame, log entries 52, 115; statuses, log entries 118, 119, 120, 121, 122. -/
def Obligations.HostCommandsRun : Prop :=
  ∀ (s u : State) (sid tag : Nat) (ws : List Nat), s.ev.sub ≠ 1 →
    let at_ := fun (i : Instr) => Taken i s u sid tag ws
    let w := fun i => ws.getD i 0
    let fin := fun (t : State) (n : Nat) => (Host.Outcome.next ((t.tell (.ack tag n)).closeGap sid) : Host.Outcome State Fault Refusal)
    let free := fun (q : Nat) => u.queueResetting q = false
    (at_ .qbind → w 1 = 0 → free (w 0) → exec .qbind s = fin (u.bindQueue (w 0) (ws.drop 2)).1 (u.bindQueue (w 0) (ws.drop 2)).2) ∧
    (at_ .qbind → w 1 = 1 → exec .qbind s = fin (u.bindChannel (ws.drop 2)).1 (u.bindChannel (ws.drop 2)).2) ∧
    (at_ .qbind → w 1 = 2 → exec .qbind s = fin (u.bindWork (ws.drop 2)).1 (u.bindWork (ws.drop 2)).2) ∧
    (∀ q xs c, u.ctx? (xs.getD 0 0) = some c → q < 4096 → xs.getD 1 0 < 8 → xs.getD 4 0 ≠ 1 → (u.queueAt q).inUse = false →
      (u.bindQueue q xs).2 = stOk ∧ ∃ h, (u.bindQueue q xs).1.hq? q = some h ∧ h.ctx = c.ctx ∧ h.prio = xs.getD 1 0 ∧
        h.st = (if (u.part? c.part).any (fun p => p.resetting) then .resetting else if c.held then .held else .open_) ∧ h.wdPeriod = clampPeriod (xs.getD 2 0)) ∧
    (∀ h, at_ .submit → free (w 0) → u.hq? (w 0) = some h →
      (h.st = .unbound ∨ w 1 % 64 ≠ 0 ∨ w 2 = 0 ∨ 2 ^ 24 < w 2 → exec .submit s = fin u stRefused) ∧
      (h.st ≠ .unbound → w 1 % 64 = 0 → w 2 ≠ 0 → w 2 ≤ 2 ^ 24 →
        (64 ≤ h.waiting.length → exec .submit s = fin u stFull) ∧
        (h.waiting.length < 64 → exec .submit s = fin (u.modHq h.q fun h => { h with waiting := h.waiting ++ [(w 1, w 2)] }) stOk))) ∧
    (∀ v l, at_ .hostLaunch → (u.ctx? (w 0)).isSome = true → w 2 < 8 → w 3 < 8 → u.readLaunch (w 3) (w 0) (w 1) = (v, some l) →
      let k := v.newKernel (w 0) (w 3) 4096 (w 2) (.host tag) l false [] none
      (k.1.gangOk k.2 = true → exec .hostLaunch s = fin k.1 stOk) ∧ (k.1.gangOk k.2 = false → exec .hostLaunch s = fin v stRefused)) ∧
    (at_ .hostLaunch → (u.ctx? (w 0)).isNone = true ∨ 8 ≤ w 2 ∨ 8 ≤ w 3 → exec .hostLaunch s = fin u stRefused) ∧
    (at_ .ctxnew → w 6 ≠ 0 → w 6 < 64 ∨ 65536 < w 6 → exec .ctxnew s = fin u stRefused) ∧
    (at_ .ctxnew → w 0 < 256 → (u.part? (w 1)).isSome = true → w 3 ≤ 16 → (w 6 ≠ 0 → 64 ≤ w 6 ∧ w 6 ≤ 65536) → w 14 ≤ 2 ^ 24 →
      (newContext ws).allot.length ≤ 16 → (newContext ws).allot.all u.grantable = true →
      ((u.ctx? (w 0)).isSome = true → exec .ctxnew s = fin u stBusy) ∧
      (u.ctx? (w 0) = none → ∃ t, exec .ctxnew s = fin t stOk ∧ t.ctxs = u.ctxs ++ [newContext ws] ∧ t.mem = u.mem ∧ t.groups = u.groups)) ∧
    ((∀ q ∈ u.queuesOf (w 0), free q) →
      (u.ctx? (w 0) = none → (at_ .ctxend → exec .ctxend s = fin u stRefused) ∧ (at_ .suspend → exec .suspend s = fin u stRefused) ∧
        (at_ .resume → exec .resume s = fin u stRefused)) ∧
      ((u.ctx? (w 0)).isSome = true →
        (at_ .ctxend → u.ctxBusy (w 0) = true → exec .ctxend s = fin u stBusy) ∧
        (at_ .ctxend → u.ctxBusy (w 0) = false → exec .ctxend s = fin (u.dropCtx (w 0)) stOk ∧ (u.dropCtx (w 0)).ctx? (w 0) = none) ∧
        (∀ r, at_ .suspend → ws = w 0 :: r → r.headD 100 ≤ 10000 → w 0 ∉ u.tab.resuming → exec .suspend s = fin ((u.holdCtx (w 0)).modTab fun t =>
          { t with suspends := t.suspends.filter (fun x => !(x.1 == w 0)) ++ [(w 0, u.out.elapsed + usToUnits (r.headD 100))] }) stOk) ∧
        (at_ .resume → (∃ b ∈ u.bands, b.ctx = w 0 ∧ b.st = .saving) → exec .resume s = fin u stBusy) ∧
        (at_ .resume → (∀ b ∈ u.bands, b.ctx = w 0 → b.st ≠ .saving) → exec .resume s = fin ((u.modTab fun t =>
          { t with suspends := t.suspends.filter (fun x => !(x.1 == w 0)), resuming := w 0 :: t.resuming.filter fun x => !(x == w 0) }).resumeRound (w 0)) stOk))) ∧
    (at_ .keyload → w 0 ≤ 1007 → (u.keySlot (w 0)).st ≠ .bound → ∃ t, exec .keyload s = fin t stOk ∧ (t.keySlot (w 0)).st = .loaded ∧
      (t.keySlot (w 0)).gen = u.tab.keyGen + 1 ∧ t.tab.keyGen = u.tab.keyGen + 1 ∧ t.mem = u.mem) ∧
    (at_ .keyload → w 0 ≤ 1007 → (u.keySlot (w 0)).st = .bound → exec .keyload s = fin u stBusy) ∧
    (at_ .keydestroy → w 0 ≤ 1007 → ∃ t, exec .keydestroy s = fin t stOk ∧ (t.keySlot (w 0)).st = .empty ∧ t.mem = u.mem) ∧
    (1007 < w 0 → (at_ .keyload → exec .keyload s = fin u stRefused) ∧ (at_ .keydestroy → exec .keydestroy s = fin u stRefused)) ∧
    (at_ .partdef → w 0 < 16 → w 1 < 16 → w 3 < 512 → (∀ x ∈ u.parts, x.part = w 0) → u.bands = [] → w 6 = 0 → ∃ t x, exec .partdef s = fin t stOk ∧ t.parts = [x] ∧
      x.part = w 0 ∧ x.routing = w 1 ∧ x.cores = [] ∧ x.share = w 5 ∧ x.exporter = (if w 2 = 0 then none else some (w 2 - 1)) ∧ t.out.device = w 3 ∧ t.mem = u.mem) ∧
    (at_ .partdef → 16 ≤ w 0 ∨ 16 ≤ w 1 ∨ 512 ≤ w 3 → exec .partdef s = fin u stRefused)

/-- R201, R351, R352, R396, R458 to R463. The commands on power, clocks, layers, cores, lanes and firmware, each taken by its session and answered with its
status: POWER sets the limit and CLOCK begins a change, BUSY in locked-clock mode; RETAIN and RETIRE empty a layer and power it off, BUSY with
the context named where a heap triple touches it, FULL where frames run out; ATTEST answers with a report that covers the host's nonce.

Model's choices: the words of a frame, log entry 115; statuses and events, log entries 123, 124, 125, 126, 127, 128. -/
def Obligations.ServiceCommandsRun : Prop :=
  ∀ (s u : State) (sid tag : Nat) (ws : List Nat), s.ev.sub ≠ 1 →
    let at_ := fun (i : Instr) => Taken i s u sid tag ws
    let w := fun i => ws.getD i 0
    let fin := fun (t : State) (n : Nat) => (Host.Outcome.next ((t.tell (.ack tag n)).closeGap sid) : Host.Outcome State Fault Refusal)
    (at_ .power → w 0 < 1000 ∨ 2800 < w 0 → exec .power s = fin u stRefused) ∧
    (at_ .power → 1000 ≤ w 0 → w 0 ≤ 2800 → exec .power s = if u.out.locked then fin u stBusy else fin (u.modOut fun o => { o with powerLimit := w 0 }) stOk) ∧
    (∀ d c, at_ .clock → u.out.dies.find? (fun d => d.die == w 0) = some d → ClockState.ofCode (ws.getD 1 4) = some c →
      exec .clock s = if u.out.locked = true ∨ d.change.isSome = true then fin u stBusy
        else fin (u.modDie d.die fun d => { d with change := some (c, u.out.elapsed) }) stOk) ∧
    (w 0 < 16 → w 1 < 16 → (w 0, w 1) ∉ u.out.layersGone →
      (∀ c, at_ .retireLayer → u.heapOn (w 1) = some c → exec .retireLayer s = fin (u.tell (.data tag [BitVec.ofNat 64 c.ctx])) stBusy) ∧
      (∀ v, at_ .retireLayer → u.heapOn (w 1) = none → State.movePages (w 0) (w 1) false (ws.drop 2) u = (v, true) →
        exec .retireLayer s = fin (((v.layerOff (w 0, w 1)).modOut fun o => { o with
          layersOff := o.layersOff.filter (fun y => !(y == (w 0, w 1))), layersGone := (w 0, w 1) :: o.layersGone }).tell
            (.event 0x104 [BitVec.ofNat 64 (w 0), BitVec.ofNat 64 (w 1)])) stOk) ∧
      (∀ v, at_ .retireLayer → u.heapOn (w 1) = none → State.movePages (w 0) (w 1) false (ws.drop 2) u = (v, false) → exec .retireLayer s = fin v stFull) ∧
      (at_ .retain → (w 0, w 1) ∉ u.out.layersOff → ∀ v, u.heapOn (w 1) = none → State.movePages (w 0) (w 1) true (ws.drop 2) u = (v, true) →
        exec .retain s = fin (((v.layerOff (w 0, w 1)).modOut fun o => { o with layersOff := (w 0, w 1) :: o.layersOff }).tell
          (.event 0x108 [BitVec.ofNat 64 (w 0), BitVec.ofNat 64 (w 1)])) stOk)) ∧
    (at_ .retainRestore → (w 0, w 1) ∈ u.out.layersOff → exec .retainRestore s = fin ((u.modOut fun o => { o with
      layersOff := o.layersOff.filter fun y => !(y == (w 0, w 1)) }).tell (.event 0x109 [BitVec.ofNat 64 (w 0), BitVec.ofNat 64 (w 1)])) stOk) ∧
    (at_ .retainRestore → (w 0, w 1) ∉ u.out.layersOff → exec .retainRestore s = fin u stRefused) ∧
    (at_ .retireCore → w 0 < 8 → w 1 < 96 → (w 0, w 1) ∉ u.out.retired → exec .retireCore s = fin (((u.modOut fun o => { o with
      retired := o.retired ++ [(w 0, w 1)] }).tell (.event 0x104 [BitVec.ofNat 64 (w 0), BitVec.ofNat 64 (w 1)])).retireRound (w 0) (w 1) (w 2) (w 3)) stOk) ∧
    (∀ l, at_ .retireLane → u.link? (w 0) = some l → exec .retireLane s = if l.lanes = 0 then fin u stRefused else if l.training then fin u stBusy
      else fin (((u.modLink l.lid fun l => { l with lanes := l.lanes - 1, training := true }).modOut fun o =>
        { o with lanesGone := l.die :: o.lanesGone }).tell (.event 0x104 [BitVec.ofNat 64 l.lid])) stOk) ∧
    (∀ d, at_ .update → u.out.dies.find? (fun d => d.die == ws.getD 0 8) = some d →
      (d.update.isSome = true → exec .update s = fin u stBusy) ∧
      (d.update = none → (checkImage (ws.drop 1) = none → exec .update s = fin u stRefused) ∧
        ∀ x, checkImage (ws.drop 1) = some x → exec .update s = fin (u.modDie d.die fun d => { d with update := some (x, u.out.elapsed) }) stOk)) ∧
    (∀ xs x, checkImage xs = some x → let img := xs.take 1 ++ xs.drop 130
      beNat (sha512 (((xs.drop 1).take 65).flatMap fun w => leBytes 8 w)) = Config.fusedKey.toNat ∧
      x.digest.toNat = beNat (sha512 (img.flatMap fun w => leBytes 8 w)) % 2 ^ 512 ∧
      rsaPssOk (wordsNat ((xs.drop 2).take 64)) (((xs.drop 1).take 65).getD 0 0) (wordsNat ((xs.drop 66).take 64))
        (sha512 (img.flatMap fun w => leBytes 8 w)) = true) ∧
    (at_ .attest → 4 ≤ ws.length → ∃ v r, exec .attest s = fin (v.tell (.data tag r)) stOk ∧ r.take 4 = (ws.take 4).map (fun x => BitVec.ofNat 64 x) ∧
      (∀ d ∈ u.out.dies, ∀ k < 8, BitVec.ofNat 64 (d.firmware.digest.toNat / 2 ^ (64 * k)) ∈ r) ∧ SameMemory u v ∧ v.groups = u.groups ∧ v.out = u.out)

/-- R423, R425, R429, R436, R437, R439, R440, R446. The host's commands on traces and debug: TRACEREAD answers with the records that still stand, MARK emits
HOST_MARK, SNAPSHOT writes one of a partition; DEBUG is REFUSED for a context without the debug right, opens a session, shows and releases a halted
group, and sets the sampling period.

Model's choices: the codes of DEBUG, log entry 133; the words of a frame, log entry 115; snapshots, log entry 109. -/
def Obligations.DebugCommandsRun : Prop :=
  ∀ (s u : State) (sid tag : Nat) (ws : List Nat),
    let at_ := fun (i : Instr) => Taken i s u sid tag ws
    let w := fun i => ws.getD i 0
    let fin := fun (t : State) (n : Nat) => (Host.Outcome.next ((t.tell (.ack tag n)).closeGap sid) : Host.Outcome State Fault Refusal)
    (∀ g, at_ .traceread → u.obs.gateways.find? (fun g => g.die == w 0) = some g → ∃ out, exec .traceread s = fin (u.tell (.data tag out)) stOk ∧
      ∀ n r, (w 0, n, r) ∈ u.obs.undercroft → w 1 ≤ n → n < w 1 + w 2 → g.w ≤ n + g.share / 32 →
        BitVec.ofNat 64 n ∈ out ∧ BitVec.ofNat 64 r.word ∈ out) ∧
    (at_ .traceread → u.obs.gateways.find? (fun g => g.die == w 0) = none → exec .traceread s = fin u stRefused) ∧
    (at_ .hostMark → exec .hostMark s = fin (u.emitUnit 0 7 0 0 256 0 0x3F (w 0)) stOk) ∧
    (at_ .snapshot → exec .snapshot s = if (u.part? (w 0)).isNone then fin u stRefused else fin ((u.modObs fun o => { o with
      snaps := (w 0, w 1, w 2, w 3) :: o.snaps.filter fun x => !(x.1 == w 0) }).snapshot (w 0)) stOk) ∧
    (at_ .debug → u.ctx? (w 1) = none → exec .debug s = fin u stRefused) ∧
    (∀ x, at_ .debug → u.ctx? (w 1) = some x →
      (w 0 = 0 → exec .debug s = if x.dbgRight = false ∨ 8 < w 3 ∨ 4 < w 4 then fin u stRefused else
        fin (u.modObs fun o => { o with dbg := sessionOf (w 1) (ws.drop 2) :: o.dbg.filter fun d => !(d.ctx == w 1) }) stOk) ∧
      (∀ g, u.haltedAt (w 1) (w 2) (w 3) (w 4) = some g →
        (w 0 = 1 → s.ev.bytes = [] ∨ frameBad s.ev.bytes = false → exec .debug s = fin (u.debugRelease g s.ev.bytes) stOk) ∧
        (w 0 = 1 → s.ev.bytes ≠ [] → frameBad s.ev.bytes = true → exec .debug s = fin u stRefused) ∧
        (w 0 = 2 → exec .debug s = fin (u.tell (.data tag ((u.haltFrame g).map fun b => b.setWidth 64))) stOk)) ∧
      (u.haltedAt (w 1) (w 2) (w 3) (w 4) = none → w 0 = 1 ∨ w 0 = 2 → exec .debug s = fin u stRefused) ∧
      (w 0 = 3 → exec .debug s = if w 2 = 0 then fin (u.modObs fun o => { o with sampling := o.sampling.filter fun y => !(y.ctx == w 1) }) stOk
        else if w 2 < 1024 ∨ 2 ^ 24 < w 2 then fin u stRefused else fin (u.modObs fun o => { o with
          sampling := { ctx := w 1, period := w 2, since := dieList.map u.cycleOn, nextAt := [] } :: o.sampling.filter fun y => !(y.ctx == w 1) }) stOk) ∧
      (w 0 = 4 → exec .debug s = fin (u.modObs fun o => { o with userOff := (if w 2 = 0 then [w 1] else []) ++ o.userOff.filter fun y => !(y == w 1) }) stOk) ∧
      (w 0 = 5 → exec .debug s = fin (u.modObs fun o => { o with copyDone := w 2 == 1 }) stOk) ∧
      (w 0 = 6 → exec .debug s = fin (u.modObs fun o => { o with elig := [], eligFrom := dieList.map fun d => (d, u.cycleOn d) }) stOk))

/-- R201, R202, R423, R459, R460, R462. A trip stops the machine: no event but a reset is taken and no group is eligible. POWER_MEASURE reports a
measurement that is due and trips the module after 1 ms over the limit; CLOCK_CHANGE_COMPLETE and FIRMWARE_UPDATE_COMPLETE end a change; DEVICE_RESET keeps
memory, TIME, the Undercroft and persistent keys and emits RESET records; POWER_ON gives the memory at power-on.

Model's choices: log entries 124, 125, 127, 129, 130. -/
def Obligations.TripStopsMachine : Prop :=
  ∀ (s : State),
    (s.out.tripped = true → (∀ i e, i ≠ .deviceReset → i ≠ .powerOn → s.take i e = .next s) ∧ (∀ g, s.eligible g = false) ∧ s.tick = s) ∧
    (s.out.tripped = true ∨ s.out.elapsed < s.out.measuredAt + usToUnits 100 → exec .powerMeasure s = .next s) ∧
    (s.out.tripped = false → s.out.measuredAt + usToUnits 100 ≤ s.out.elapsed → let n := (s.ev.words.getD 0 0).toNat
      ∃ t, exec .powerMeasure s = .next t ∧ SameMemory s t ∧ t.groups = s.groups ∧ t.out.measured = n ∧ t.out.measuredAt = s.out.elapsed ∧
        (n ≤ s.out.powerLimit → t.out.overSince = none ∧ t.out.tripped = false ∧ t.out.sent = s.out.sent ++ [.event 0x107 [BitVec.ofNat 64 n]]) ∧
        (s.out.powerLimit < n → s.out.overSince = none → t.out.overSince = some s.out.elapsed ∧ t.out.tripped = false) ∧
        (∀ a, s.out.powerLimit < n → s.out.overSince = some a → t.out.tripped = decide (a + usToUnits 1000 ≤ s.out.elapsed))) ∧
    (s.out.tripped = false → ∃ t, exec .temperatureTrip s = .next t ∧ t.out.tripped = true ∧ SameMemory s t ∧ t.groups = s.groups ∧
      t.out.sent = s.out.sent ++ [.event 0x106 [1, BitVec.ofNat 64 s.ev.die]]) ∧
    (∃ t, exec .clockChangeComplete s = .next t ∧ SameMemory s t ∧ t.groups = s.groups ∧ t.out.dies.length = s.out.dies.length ∧
      ∀ (n : Nat) (d : DiePair), s.out.dies[n]? = some d →
        (d.die ≠ s.ev.die ∨ d.change = none → t.out.dies[n]? = some d) ∧
        (∀ x m, d.die = s.ev.die → d.change = some (x, m) →
          t.out.dies[n]? = some { d with clock := x, change := none, left := x.period, now := s.out.time })) ∧
    (∀ d, s.out.dies.find? (fun d => d.die == s.ev.die) = some d →
      (d.update = none → exec .firmwareUpdateComplete s = .next s) ∧
      (∀ x, d.update = some x → exec .firmwareUpdateComplete s =
        .next ((s.modDie s.ev.die fun d => { d with firmware := x.1, update := none }).bootDie s.ev.die))) ∧
    (∀ n d, s.out.dies.find? (fun d => d.die == n) = some d → let e := s.endFirmware n
      (∀ b ∈ e.bands, b.die = n → b.core ≠ 96) ∧
      (d.firmware.words = [] → s.bootDie n = e) ∧
      (d.firmware.words ≠ [] → (∀ k ∈ e.kernels, k.kid ≠ e.nextId) → ∃ b g, b ∈ (s.bootDie n).bands ∧ b.die = n ∧ b.core = 96 ∧ b.ctx = 255 ∧
        g ∈ (s.bootDie n).groups ∧ g.die = n ∧ g.core = 96 ∧ g.band = b.bid)) ∧
    (∃ t : State, exec .deviceReset s = .next t.boot ∧ t.mem.bytes = s.mem.bytes ∧ t.mem.stash = [] ∧ t.mem.lines = [] ∧ t.groups = [] ∧ t.kernels = [] ∧ t.ctxs = State.reset.ctxs ∧
      t.out.tripped = false ∧ t.out.time = s.out.time ∧ t.out.retired = s.out.retired ∧ t.out.lanesGone = s.out.lanesGone ∧
      t.out.dies = s.out.dies.map (fun d => { DiePair.reset d.die with firmware := d.firmware }) ∧ t.obs.undercroft = s.obs.undercroft ∧ t.obs.seqs = s.obs.seqs ∧
      t.tab.keys = s.keptKeys ∧ (∀ g ∈ s.obs.gateways, ∃ p ∈ t.obs.ports, p.die = g.die ∧ ∃ r ∈ p.recs, r.type = 0x3E ∧ r.payload = g.w % 2 ^ 40)) ∧
    (∃ t : State, exec .powerOn s = .next t.boot ∧ t.mem = State.reset.mem ∧ t.groups = [] ∧ t.obs = State.reset.obs ∧ t.tab = State.reset.tab ∧
      t.out.time = 0 ∧ t.out.tripped = false ∧ t.out.retired = s.out.retired ∧ t.out.layersGone = s.out.layersGone ∧ t.out.lanesGone = s.out.lanesGone ∧
      t.out.dies = s.out.dies.map (fun d => { DiePair.reset d.die with firmware := d.firmware }))

/-- R202, R420, R423 to R425, R437 to R440. A gateway takes the record at the head of a port, sources of one mesh cycle in the requester order, and writes what
it holds as record n = W of its source's die, and W rises by 1; one that finds no space is counted unless it has priority; LOSS tells the counts; a changed share sets W to 0; a sample is due once per period; a group at a
breakpoint halts with DEBUG_HALT, DEBUG_STEP lets it issue one chain, and a session that ends releases its groups.

Model's choices: log entries 16, 131, 132, 134, 135, 136. -/
def Obligations.TraceAndDebugEvents : Prop :=
  ∀ (s : State),
    (∀ p r rest g, s.ev.lane ≠ 1 → s.obs.ports.find? (fun p => p.die == s.ev.die && p.scls == s.ev.sub && p.unit == s.ev.core) = some p →
      p.recs = r :: rest → r.needs = none → s.obs.gateways.find? (fun g => g.die == s.ev.die) = some g →
      (s.inTurn (.gateway p.die) p.die p.rank = false → exec .traceRecordAccept s = .next s) ∧
      (s.inTurn (.gateway p.die) p.die p.rank = true →
      let full := if priorityType r.type then 4096 else 3840
      (g.buf.length < full → ∃ t, exec .traceRecordAccept s = .next t ∧ SameMemory s t ∧ t.groups = s.groups ∧ t.obs.undercroft = s.obs.undercroft ∧
        t.obs.ports.find? (fun p => p.die == s.ev.die && p.scls == s.ev.sub && p.unit == s.ev.core) = some { p with recs := rest } ∧
        (t.obs.gateways.find? fun g => g.die == s.ev.die) = some { g with buf := g.buf ++ [r] }) ∧
      (full ≤ g.buf.length → priorityType r.type = true → exec .traceRecordAccept s = .next s) ∧
      (full ≤ g.buf.length → priorityType r.type = false → ∃ t, exec .traceRecordAccept s = .next t ∧ SameMemory s t ∧ t.groups = s.groups ∧
        t.obs.undercroft = s.obs.undercroft ∧
        t.obs.ports.find? (fun p => p.die == s.ev.die && p.scls == s.ev.sub && p.unit == s.ev.core) = some { p with recs := rest } ∧
        ∀ y, s.obs.gateways.find? (fun g => g.die == r.sdie) = some y →
          (t.obs.gateways.find? fun g => g.die == r.sdie) = some { y with loss := y.loss.modify r.scls fun n => (n + 1) % 2 ^ 64 }))) ∧
    (∀ g, s.ev.lane = 1 → s.obs.gateways.find? (fun g => g.die == s.ev.die) = some g →
      (g.buf = [] ∨ g.wroteAt = some (s.cycleOn s.ev.die) → exec .traceRecordAccept s = .next s) ∧
      (∀ r rest, g.buf = r :: rest → g.wroteAt ≠ some (s.cycleOn s.ev.die) → ∃ t, exec .traceRecordAccept s = .next t ∧ SameMemory s t ∧
        t.groups = s.groups ∧ (s.ev.die, g.w, r) ∈ t.obs.undercroft ∧ (t.obs.gateways.find? fun g => g.die == s.ev.die) =
          some { g with buf := rest, wroteAt := some (s.cycleOn s.ev.die), w := (g.w + 1) % 2 ^ 64 })) ∧
    (∀ g, s.obs.gateways.find? (fun g => g.die == s.ev.die) = some g → ∃ t, exec .loss s = .next t ∧ SameMemory s t ∧ t.groups = s.groups ∧
      (t.obs.gateways.find? fun g => g.die == s.ev.die) = some { g with lossTold := g.loss } ∧
      ∀ k < 8, let n := (g.loss.getD k 0 + 2 ^ 64 - g.lossTold.getD k 0) % 2 ^ 64
        n ≠ 0 → ∃ p ∈ t.obs.ports, p.die = g.die ∧ p.scls = 6 ∧ ∃ r ∈ p.recs, r.type = 0x38 ∧ r.payload = min n (2 ^ 32 - 1) + k * 2 ^ 32) ∧
    (∀ k < 7, (s.ev.words.getD 0 0).toNat = 2 ^ (27 + k) → ∃ t, exec .undercroftShareChange s = .next t ∧ SameMemory s t ∧ t.groups = s.groups ∧
      (∀ g ∈ t.obs.gateways, g.die = s.ev.die → g.share = 2 ^ (27 + k) ∧ g.w = 0) ∧ ∀ x, x ∈ t.obs.undercroft ↔ x ∈ s.obs.undercroft ∧ x.1 ≠ s.ev.die) ∧
    (∀ x, s.obs.sampling.find? (fun x => x.ctx == s.ev.id) = some x → let q := (s.ev.die, s.ev.core, s.ev.quad)
      let at_ := assoc q (x.since.getD s.ev.die 0 + x.period, 0) x.nextAt
      (s.cycleOn s.ev.die < at_.1 → exec .sample s = .next s) ∧
      (at_.1 ≤ s.cycleOn s.ev.die → ∃ t, exec .sample s = .next t ∧ SameMemory s t ∧ t.groups = s.groups ∧
        (∃ y, t.obs.sampling.find? (fun x => x.ctx == s.ev.id) = some y ∧ (assoc q (0, 0) y.nextAt).1 = at_.1 + x.period) ∧
        (∀ g, s.sampled x.ctx q at_.2 = some g → (∀ p ∈ s.obs.ports, p.recs.length < 16) →
          ∃ p ∈ t.obs.ports, ∃ r ∈ p.recs, r.type = 0x34 ∧ r.gid = g.gid))) ∧
    (∀ g a, s.group? s.ev.id = some g → g.issueAddr = some a → s.unheld g = true → g.dbgHalt = false → g.dbgStep = false →
      (s.breakAt g a = false → exec .breakpointHalt s = .next s) ∧
      (s.breakAt g a = true → ∃ t, exec .breakpointHalt s = .next t ∧ SameMemory s t ∧ (t.group? s.ev.id).map (fun x => x.dbgHalt) = some true ∧
        ((∀ p ∈ s.obs.ports, p.recs.length < 16) → ∃ p ∈ t.obs.ports, ∃ r ∈ p.recs, r.type = 0x32 ∧ r.gid = g.gid ∧ r.payload = (BitVec.ofNat 32 a).toNat))) ∧
    (∀ g, s.group? s.ev.id = some g → ∃ t, exec .debugStep s = .next t ∧ SameMemory s t ∧
      t.group? s.ev.id = some (if g.dbgHalt = true ∧ g.blocked = none ∧ g.stepPc = none then { g with dbgStep := true } else g)) ∧
    (s.ev.sub ≠ 1 → exec .debugRevoke s = .next (if s.debugged s.ev.id then s.debugEnd s.ev.id else s))

/-- R393, R394, R455, R457, R463. Clasp links deliver flits once and in sequence and resend from the first unacknowledged one; a link without lanes goes down.
A scale-out connection delivers in sequence, resends after 50 µs at half its window and is lost after 100 ms. A Sync slews TIME at no more
than 500 ppm, its response gives the delay, 2 s without one is holdover, and a step moves TIME forward.

Model's choices: the events' words, log entry 137; log entries 139, 140, 142, 143. -/
def Obligations.LinksAndTimeUnit : Prop :=
  ∀ (s : State), let w := fun i => (s.ev.words.getD i 0).toNat
    (∀ l, s.link? s.ev.id = some l →
      (∃ t m, exec .claspFlit s = .next t ∧ t.link? s.ev.id = some m ∧ SameMemory s t ∧ t.groups = s.groups ∧
        (l.up = false ∨ w 1 ≠ 1 → m = l) ∧
        (l.up = true → w 1 = 1 → w 0 % 4096 = l.recvSeq → m.recvSeq = (l.recvSeq + 1) % 4096 ∧ m.delivered = l.delivered ++ [s.ev.words.drop 3]) ∧
        (w 0 % 4096 ≠ l.recvSeq → m.recvSeq = l.recvSeq ∧ m.delivered = l.delivered)) ∧
      (∃ t m, exec .claspRetry s = .next t ∧ t.link? s.ev.id = some m ∧ SameMemory s t ∧ t.groups = s.groups ∧
        (l.up = true → l.training = false → (l.wire ++ l.retry) <+: m.wire ∧ l.retry <+: m.retry) ∧ (l.up = false ∨ l.training = true → m = l)) ∧
      (l.training = false → exec .linkTrainingComplete s = .next s) ∧
      (l.training = true → ∃ t m, exec .linkTrainingComplete s = .next t ∧ t.link? s.ev.id = some m ∧ m.training = false ∧ SameMemory s t ∧
        (l.lanes = 0 → m.up = false ∧ m.retry = []) ∧ (l.lanes ≠ 0 → m.up = true ∧ (l.wire ++ l.retry) <+: m.wire))) ∧
    (s.link? s.ev.id = none → 1 ≤ s.ev.sub → s.ev.sub ≤ 9 →
      ((s.out.links.filter fun x => x.die == s.ev.die % 8).map fun x => x.lanes).sum + (s.out.lanesGone.filter fun d => d == s.ev.die % 8).length + s.ev.sub ≤ 18 →
      ∃ t m, exec .linkTrainingComplete s = .next t ∧ t.link? s.ev.id = some m ∧ m.lanes = s.ev.sub ∧ m.up = true ∧ m.die = s.ev.die % 8) ∧
    (w 1 ≠ 1 ∨ 8 ≤ s.ev.die ∨ 4 ≤ s.ev.quad → exec .scaleoutPacket s = .next s) ∧
    (∀ c, s.conn? s.ev.id = some c → c.lost = false →
      (w 1 = 1 → s.ev.die < 8 → s.ev.quad < 4 → ∃ t d, exec .scaleoutPacket s = .next t ∧ t.conn? s.ev.id = some d ∧ SameMemory s t ∧ t.groups = s.groups ∧
        (w 0 = c.recvSeq → c.ahead = [] → d.recvSeq = c.recvSeq + 1 ∧ d.delivered = c.delivered ++ [s.ev.words.drop (5 + w 4)]) ∧
        (w 0 < c.recvSeq → d.recvSeq = c.recvSeq ∧ d.delivered = c.delivered) ∧
        (∀ x, x ∈ d.unacked ↔ x ∈ c.unacked ∧ w 2 ≤ x.1 ∧ x.1 ∉ ((s.ev.words.drop 5).take (w 4)).map fun x => x.toNat)) ∧
      (c.unacked ≠ [] → c.sentAt + usToUnits 50 ≤ s.out.elapsed → ∃ t, exec .scaleoutRetransmit s = .next t ∧ SameMemory s t ∧ t.conn? s.ev.id =
        some { c with wire := c.wire ++ c.unacked, sentAt := s.out.elapsed, window := max 1 (c.window / 2) }) ∧
      (c.unacked = [] ∨ s.out.elapsed < c.lastAck + usToUnits 100000 → exec .scaleoutConnLost s = .next s) ∧
      (c.unacked ≠ [] → c.lastAck + usToUnits 100000 ≤ s.out.elapsed → exec .scaleoutConnLost s =
        .next (((s.chans.flatMap fun ch => ch.recs).filter fun r => s.recOver c r).foldl (fun (s : State) (r : EngRec) => s.finishRec r.rid 2 fcPeerUnreachable)
          (s.modConn c.id fun c => { c with lost := true })))) ∧
    (w 0 ≠ s.out.ptpDomain → exec .ptpSync s = .next s ∧ exec .ptpDelayResp s = .next s) ∧
    (w 0 = s.out.ptpDomain → let offset : Int := (w 1 : Int) + s.out.delay - s.out.time
      (∃ t, exec .ptpSync s = .next t ∧ SameMemory s t ∧ t.groups = s.groups ∧ t.out.time = s.out.time ∧ t.out.slew = offset ∧ -500 ≤ t.out.rate ∧
        t.out.rate ≤ 500 ∧ (0 ≤ offset → 0 ≤ t.out.rate) ∧ (offset ≤ 0 → t.out.rate ≤ 0) ∧ t.out.lastSync = s.out.elapsed ∧
        t.out.holdover = false ∧ t.out.delayReq = some s.out.time) ∧
      (∀ a, s.out.delayReq = some a → ∃ t, exec .ptpDelayResp s = .next t ∧ SameMemory s t ∧ t.groups = s.groups ∧ t.out.delayReq = none ∧
        t.out.delay = ((s.out.delay - s.out.slew) + ((w 1 : Int) - a)) / 2)) ∧
    (s.out.holdover = false → exec .ptpHoldover s = if s.out.elapsed < s.out.lastSync + usToUnits 2000000 then .next s
      else .next ((s.modOut fun o => { o with holdover := true }).tell (.event 0x105 []))) ∧
    (∃ t, exec .timeStep s = .next t ∧ SameMemory s t ∧ t.groups = s.groups ∧ t.out.dies = s.out.dies ∧ t.out.time = s.out.time + w 0 * 65536 ∧
      t.out.elapsed = if s.out.locked then s.out.elapsed else s.out.elapsed + w 0 * 65536)

/-- R123, R140, R162, R184, R235, R274, R338. Words that the spec writes out bit by bit decode to the instructions beside them, with the control fields that
they hold. -/
def Obligations.DecodeKnownWords : Prop :=
  let m := fun (off seg scp ru ord cp : Nat) => Attr.mk (BitVec.ofNat 12 off) (BitVec.ofNat 3 seg) 0 (BitVec.ofNat 3 scp) (BitVec.ofNat 5 ru)
    (BitVec.ofNat 2 ord) (BitVec.ofNat 3 cp)
  (∀ p ∈ ([(0x00208418, 0, .iadd 1 2 3), (0x0043041B, 0, .imad 6 2 3), (0x00A20214, 0, .bitil 4 1 2), (0x01A98E64, 0, .icmpi 2 3 7 100),
           (0x01849307, 0, .sari 9 9 7), (0x01C5041B, 0, .lea 10 2 3 3), (0x01E17FFB, 0, .movi 2 (-5)), (0x02020003, 0x12345678, .movlHi 4 0x12345678),
           (0x04028C38, 0, .sadd 5 6 7), (0x0220841A, 0, .fmul 1 2 3), (0x02451664, 0, .pkfma 10 11 12), (0x0261082A, 0, .fcmp 2 4 5 2),
           (0x02828C1D, 0, .fcvt 5 6 0 3 5), (0x02C39011, 0, .fcvti 7 8 2 1), (0x03218602, 0, .fsqrt 3 3), (0x034A1201, 0, .fsincosT 20 9),
           (0x03618423, 0, .shflXor 3 2 4), (0x03830202, 0, .voteBal 6 1), (0x03A20609, 0, .movs 4 3 1), (0x03A0845C, 0, .sel 1 2 1 3),
           (0x048FFFFA, 0, .bru 7 (-6)), (0x04AE0028, 0, .call 7 40), (0x04C01800, 0, .jmpx 12), (0x04C00001, 0, .ret), (0x04E00010, 0, .join 2),
           (0x04E00002, 0, .exit), (0x04E28C43, 0, .spawn 5 6 8), (0x04E00014, 0, .setejt 2), (0x07648014, 0, .brj 2 1 20),
           (0x05038601, 0x080207C0, .ld 7 3 0 1 (m 128 1 1 30 0 0)), (0x05211404, 0x000013D0, .st 2 10 0 4 (m 0 0 4 30 2 0)),
           (0x05428604, 0x004607C0, .lds 5 3 4 (m 4 3 1 30 0 0)), (0x05840403, 0x000013D8, .atomxCas128 8 2 0 (m 0 0 4 30 3 0)),
           (0x05A28419, 0x000007C6, .redAddF32 5 2 3 (m 0 0 1 30 0 6)), (0x05C30401, 0x00000BC0, .cacheLock 6 2 0 (m 0 0 2 30 0 0)),
           (0x05E20400, 0x000007C0, .stashMap 4 2 0 (m 0 0 1 30 0 0)),
           (0x07240800, 0x1C007F50, .mq 8 4 { afmt := 1, kb := 3, sco := 0, ncol := 127, bid := 2, acc := 1, rsv := 0 }),
           (0x07400001, 0, .mswap), (0x07428C3A, 0, .mscl 5 6 7), (0x07461A03, 0, .maccrd 12 13), (0x0744941E, 0, .macccvt 9 10 3),
           (0x06820010, 0, .qopPush 4 2), (0x06830E1B, 0, .qopTrypop 6 7 3), (0x06A4060B, 0, .wqEnqw 8 3 1), (0x06C28C38, 0, .launch 5 6 7),
           (0x06C18881, 0, .amsg 3 4 16)] : List (W32 × W32 × Instr)),
    (decodeWords p.1 p.2.1).toOption.map (fun d => (d.ctl, d.instr)) = some ({ c := 0, s := 0, g := 0, y := 0 }, p.2.2)) ∧
  (decodeWords 0x8502041C 0x01000560).toOption =
    some { ctl := { c := 1, s := 0, g := 0, y := 0 }, instr := .ld 4 2 3 4 (m 16 0 1 11 0 0), words := 2 } ∧
  (decodeWords 0x02440C38 0).toOption = some { ctl := { c := 0, s := 0, g := 0, y := 0 }, instr := .ffma 8 6 7, words := 1 }

/-- R2, R58, R61, R70 to R80. Decoding undoes encoding: the bytes of every instruction that has words of its own, with every control field and every operand
at every value of its field, decode to that instruction, those control fields and the bytes after it; an SREAD or SWRITE of a register that has a row of
its own decodes to that row. Every instruction of a program has words, but for the rows that share another's word.

The choice of a row for a shared word is log entry 89. -/
def Obligations.EncodeDecodeRoundTrip : Prop :=
  (∀ (c : Ctl) (i : Instr) (ws : List W32) (rest : List Byte), encode c i = some ws →
    (∀ d k h n, i = .sread d k h n → n ≠ 0x28 ∧ n ≠ 0x29) → (∀ d k h n, i = .swrite d k h n → n ≠ 0x32 ∧ n ≠ 0x120 ∧ n ≠ 0x138) →
    decodeBytes (ws.flatMap bytesOfWord ++ rest) = .ok ({ ctl := c, instr := i, words := ws.length }, rest)) ∧
  (∀ (c : Ctl) (d : BitVec 6) (k h : BitVec 1) (x : W32) (w : W32),
    (encode c (.sread d k h 0x28) = some [w] → decodeWords w x = .ok { ctl := c, instr := .sreadTime d k h, words := 1 }) ∧
    (encode c (.swrite d k h 0x32) = some [w] → decodeWords w x = .ok { ctl := c, instr := .swriteGst d k h, words := 1 })) ∧
  ∀ (c : Ctl) (i : Instr), isEvent i = false → i ∉ ([.divinstLink, .divinstDrain, .divinstRemove, .divinstRead, .rtswapRead, .rtswapSwap, .ctxctlUnhold,
      .ctxctlSave, .ctxctlRestore, .ctxctlRelease, .ctxctlKill, .ctxctlServe, .ctxctlDecline, .ctxctlFwret, .ctxctlReset] : List Instr) →
    ∃ ws, encode c i = some ws ∧ (ws.length = 1 ∨ ws.length = 2)

/-- R12, R202, R257, R425, R459, R460. After reset nothing runs and nothing is listed: each of the eight die pairs is in C2 and no change is under
way, locked-clock mode is off, the power limit is 1,000 W, every Undercroft share is 2 GiB with W = 0, and the invariants of memory and of issue hold.

Every quadrant's matrix state is the one of R257: banks, queue and pass empty, every accumulator element +0, every scale byte 0x7F.

Model's choices: memory and identity numbers at reset, log entries 1, 3; how a quadrant without a matrix band is listed, log entry 171. -/
def Obligations.ResetValues : Prop :=
  let s := State.reset
  MemInv s ∧ LatchInv s ∧ s.groups = [] ∧ s.kernels = [] ∧ s.bands = [] ∧ s.ctxs = [] ∧ s.out.dies.length = 8 ∧
  (∀ d ∈ s.out.dies, d.die < 8 ∧ d.clock = .c2 ∧ d.change = none) ∧ s.out.locked = false ∧ s.out.powerLimit = 1000 ∧ s.out.tripped = false ∧
  s.obs.gateways.length = 8 ∧ (∀ g ∈ s.obs.gateways, g.share = 2 ^ 31 ∧ g.w = 0) ∧ (∀ a, s.mem.coh a = 0) ∧
  (∀ n, 1008 ≤ n → n < 1024 → (s.keySlot n).st = .persistent) ∧ (∀ n < 1008, (s.keySlot n).st = .empty) ∧
  ∀ die core quad, let u := s.matState die core quad
    u.active = Bank.empty ∧ u.shadow = Bank.empty ∧ u.queue = [] ∧ u.running = none ∧ (∀ e, u.elem e = 0) ∧ ∀ n b, u.scaleAt n b = 0x7F
end

