-- ==== Sys2Proof/Laws/Crypto.lean ====
section
/-!
SUPPORT. Laws of the trailers of frames: their length, and that bytes come back from the words that hold them.
-/
namespace Sys2Proof.Machine

@[simp] theorem length_leBytes : ∀ n x : Nat, (leBytes n x).length = n
  | 0, _ => rfl
  | n + 1, x => congrArg (fun k => k + 1) (length_leBytes n (x / 256))

/-- The value of bytes gives the bytes back. -/
theorem leBytes_leNat : ∀ bs : List Byte, leBytes bs.length (leNat bs) = bs
  | [] => rfl
  | b :: bs => by
    have hb := b.isLt
    have h1 : (b.toNat + 256 * leNat bs) % 256 = b.toNat := by omega
    have h2 : (b.toNat + 256 * leNat bs) / 256 = leNat bs := by omega
    simp [leBytes, leNat, h1, h2, leBytes_leNat bs]

theorem leNat_lt : ∀ bs : List Byte, leNat bs < 256 ^ bs.length
  | [] => by simp [leNat]
  | b :: bs => by
    have hb := b.isLt
    have h := leNat_lt bs
    simp only [leNat, List.length_cons, Nat.pow_succ]
    omega

/-- Eight words of 64 bits hold 64 bytes. -/
def words8 (bs : List Byte) : List W64 := (List.range 8).map fun i => BitVec.ofNat 64 (leNat ((bs.drop (8 * i)).take 8))

theorem words8_bytes (bs : List Byte) (h : bs.length = 64) : ((words8 bs).flatMap fun w => leBytes 8 w.toNat) = bs := by
  have part : ∀ i < 8, leBytes 8 (BitVec.ofNat 64 (leNat ((bs.drop (8 * i)).take 8))).toNat = (bs.drop (8 * i)).take 8 := by
    intro i hi
    have hn : ((bs.drop (8 * i)).take 8).length = 8 := by simp [h]; omega
    have hlt := leNat_lt ((bs.drop (8 * i)).take 8)
    rw [hn] at hlt
    have hb := leBytes_leNat ((bs.drop (8 * i)).take 8)
    rw [hn] at hb
    rw [BitVec.toNat_ofNat, Nat.mod_eq_of_lt (by simpa using hlt), hb]
  have cut : ∀ n, ((List.range n).flatMap fun i => (bs.drop (8 * i)).take 8) = bs.take (8 * n) := by
    intro n
    induction n with
    | zero => simp
    | succ n ih => rw [List.range_succ, List.flatMap_append, ih, Nat.mul_succ, List.take_add]; simp
  rw [words8, List.flatMap_map]
  have := cut 8
  rw [List.take_of_length_le (by omega)] at this
  rw [← this]
  refine congrArg List.flatten (List.map_congr_left fun i hi => ?_)
  rw [this]
  exact part i (by simpa using hi)

@[simp] theorem length_shaRound (h : List W64) (x : W64) : (shaRound h x).length = 8 := rfl

theorem length_shaBlock (h : List W64) (bs : List Byte) (hh : h.length = 8) : (shaBlock h bs).length = 8 := by
  have : ∀ (l : List W64) (x : List W64), x.length = 8 → (l.foldl shaRound x).length = 8 := by
    intro l
    induction l with
    | nil => intro x hx; exact hx
    | cons w l ih => intro x _; exact ih _ (length_shaRound x w)
  simp [shaBlock, this _ h hh, hh]

/-- SHA-512 gives 64 bytes. -/
theorem length_sha512 (bs : List Byte) : (sha512 bs).length = 64 := by
  have h0 : shaInit.length = 8 := by decide
  have : ∀ (l : List Nat) (x : List W64), x.length = 8 →
      (l.foldl (fun h i => shaBlock h (((shaPad bs).drop (128 * i)).take 128)) x).length = 8 := by
    intro l
    induction l with
    | nil => intro x hx; exact hx
    | cons i l ih => intro x hx; exact ih _ (length_shaBlock x _ hx)
  simp [sha512, List.length_flatMap, this _ _ h0]

/-- A trailer has 64 bytes (R451). -/
theorem length_hmacSha512 (key msg : List Byte) : (hmacSha512 key msg).length = 64 := length_sha512 _

end Sys2Proof.Machine
end

