-- ==== Sys2Proof/Laws/Encode.lean ====
section
/-!
SUPPORT. The control fields of encoded words (R61): the first word of every form holds the control fields that it was made with.
-/
namespace Sys2Proof

/-- A body below bit 27 leaves the control fields as they are. -/
theorem ctlOf_word (c : Ctl) (x : Nat) (h : x < 2 ^ 27) : ctlOf (word c x).toNat = c := by
  obtain ⟨cc, s, g, y⟩ := c
  have h1 := cc.isLt
  have h2 := s.isLt
  have h3 := g.isLt
  have h4 := y.isLt
  simp only [ctlOf, word, fld, BitVec.toNat_ofNat, Ctl.mk.injEq]
  refine ⟨?_, ?_, ?_, ?_⟩ <;> apply BitVec.eq_of_toNat_eq <;> simp only [BitVec.toNat_ofNat] <;> omega

theorem ctlOf_bodyOf_3w18 (c : Ctl) (base : Nat) (x0 : BitVec 18) (h : base + 2097144 < 2 ^ 27) : ctlOf (bodyOf_3w18 c base x0).toNat = c := by
  have := x0.isLt
  exact ctlOf_word c _ (by omega)

theorem ctlOf_bodyOf_0w21 (c : Ctl) (base : Nat) (x0 : BitVec 21) (h : base + 2097151 < 2 ^ 27) : ctlOf (bodyOf_0w21 c base x0).toNat = c := by
  have := x0.isLt
  exact ctlOf_word c _ (by omega)

theorem ctlOf_bodyOf_15_9_3 (c : Ctl) (base : Nat) (x0 : BitVec 6) (x1 : BitVec 6) (x2 : BitVec 6) (h : base + 2097144 < 2 ^ 27) : ctlOf (bodyOf_15_9_3 c base x0 x1 x2).toNat = c := by
  have := x0.isLt
  have := x1.isLt
  have := x2.isLt
  exact ctlOf_word c _ (by omega)

theorem ctlOf_bodyOf_15_9 (c : Ctl) (base : Nat) (x0 : BitVec 6) (x1 : BitVec 6) (h : base + 2096640 < 2 ^ 27) : ctlOf (bodyOf_15_9 c base x0 x1).toNat = c := by
  have := x0.isLt
  have := x1.isLt
  exact ctlOf_word c _ (by omega)

theorem ctlOf_bodyOf_15_9_3_0w6w6w6w3 (c : Ctl) (base : Nat) (x0 : BitVec 6) (x1 : BitVec 6) (x2 : BitVec 6) (x3 : BitVec 3) (h : base + 2097151 < 2 ^ 27) : ctlOf (bodyOf_15_9_3_0w6w6w6w3 c base x0 x1 x2 x3).toNat = c := by
  have := x0.isLt
  have := x1.isLt
  have := x2.isLt
  have := x3.isLt
  exact ctlOf_word c _ (by omega)

theorem ctlOf_bodyOf_15_9_0w6w6w9 (c : Ctl) (base : Nat) (x0 : BitVec 6) (x1 : BitVec 6) (x2 : BitVec 9) (h : base + 2097151 < 2 ^ 27) : ctlOf (bodyOf_15_9_0w6w6w9 c base x0 x1 x2).toNat = c := by
  have := x0.isLt
  have := x1.isLt
  have := x2.isLt
  exact ctlOf_word c _ (by omega)

theorem ctlOf_bodyOf_15_9_0w6w6w5 (c : Ctl) (base : Nat) (x0 : BitVec 6) (x1 : BitVec 6) (x2 : BitVec 5) (h : base + 2096671 < 2 ^ 27) : ctlOf (bodyOf_15_9_0w6w6w5 c base x0 x1 x2).toNat = c := by
  have := x0.isLt
  have := x1.isLt
  have := x2.isLt
  exact ctlOf_word c _ (by omega)

theorem ctlOf_bodyOf_18_15_9_0w3w3w6w9 (c : Ctl) (base : Nat) (x0 : BitVec 3) (x1 : BitVec 3) (x2 : BitVec 6) (x3 : BitVec 9) (h : base + 2097151 < 2 ^ 27) : ctlOf (bodyOf_18_15_9_0w3w3w6w9 c base x0 x1 x2 x3).toNat = c := by
  have := x0.isLt
  have := x1.isLt
  have := x2.isLt
  have := x3.isLt
  exact ctlOf_word c _ (by omega)

theorem ctlOf_bodyOf_15_0w6w15 (c : Ctl) (base : Nat) (x0 : BitVec 6) (x1 : BitVec 15) (h : base + 2097151 < 2 ^ 27) : ctlOf (bodyOf_15_0w6w15 c base x0 x1).toNat = c := by
  have := x0.isLt
  have := x1.isLt
  exact ctlOf_word c _ (by omega)

theorem ctlOf_bodyOf_15 (c : Ctl) (base : Nat) (x0 : BitVec 6) (h : base + 2064384 < 2 ^ 27) : ctlOf (bodyOf_15 c base x0).toNat = c := by
  have := x0.isLt
  exact ctlOf_word c _ (by omega)

theorem ctlOf_bodyOf_15_9_6_3_0w6w6w3w3w3 (c : Ctl) (base : Nat) (x0 : BitVec 6) (x1 : BitVec 6) (x2 : BitVec 3) (x3 : BitVec 3) (x4 : BitVec 3) (h : base + 2097151 < 2 ^ 27) : ctlOf (bodyOf_15_9_6_3_0w6w6w3w3w3 c base x0 x1 x2 x3 x4).toNat = c := by
  have := x0.isLt
  have := x1.isLt
  have := x2.isLt
  have := x3.isLt
  have := x4.isLt
  exact ctlOf_word c _ (by omega)

theorem ctlOf_bodyOf_15_9_0w6w6w3 (c : Ctl) (base : Nat) (x0 : BitVec 6) (x1 : BitVec 6) (x2 : BitVec 3) (h : base + 2096647 < 2 ^ 27) : ctlOf (bodyOf_15_9_0w6w6w3 c base x0 x1 x2).toNat = c := by
  have := x0.isLt
  have := x1.isLt
  have := x2.isLt
  exact ctlOf_word c _ (by omega)

theorem ctlOf_bodyOf_15_9_3_0w6w6w3w3 (c : Ctl) (base : Nat) (x0 : BitVec 6) (x1 : BitVec 6) (x2 : BitVec 3) (x3 : BitVec 3) (h : base + 2096703 < 2 ^ 27) : ctlOf (bodyOf_15_9_3_0w6w6w3w3 c base x0 x1 x2 x3).toNat = c := by
  have := x0.isLt
  have := x1.isLt
  have := x2.isLt
  have := x3.isLt
  exact ctlOf_word c _ (by omega)

theorem ctlOf_bodyOf_15_9_3w6w6w1 (c : Ctl) (base : Nat) (x0 : BitVec 6) (x1 : BitVec 6) (x2 : BitVec 1) (h : base + 2096648 < 2 ^ 27) : ctlOf (bodyOf_15_9_3w6w6w1 c base x0 x1 x2).toNat = c := by
  have := x0.isLt
  have := x1.isLt
  have := x2.isLt
  exact ctlOf_word c _ (by omega)

theorem ctlOf_bodyOf_15_9_6_3w6w6w1w3 (c : Ctl) (base : Nat) (x0 : BitVec 6) (x1 : BitVec 6) (x2 : BitVec 1) (x3 : BitVec 3) (h : base + 2096760 < 2 ^ 27) : ctlOf (bodyOf_15_9_6_3w6w6w1w3 c base x0 x1 x2 x3).toNat = c := by
  have := x0.isLt
  have := x1.isLt
  have := x2.isLt
  have := x3.isLt
  exact ctlOf_word c _ (by omega)

theorem ctlOf_bodyOf_15_14_13_0w6w1w1w9 (c : Ctl) (base : Nat) (x0 : BitVec 6) (x1 : BitVec 1) (x2 : BitVec 1) (x3 : BitVec 9) (h : base + 2089471 < 2 ^ 27) : ctlOf (bodyOf_15_14_13_0w6w1w1w9 c base x0 x1 x2 x3).toNat = c := by
  have := x0.isLt
  have := x1.isLt
  have := x2.isLt
  have := x3.isLt
  exact ctlOf_word c _ (by omega)

theorem ctlOf_bodyOf_15_14_13w6w1w1 (c : Ctl) (base : Nat) (x0 : BitVec 6) (x1 : BitVec 1) (x2 : BitVec 1) (h : base + 2088960 < 2 ^ 27) : ctlOf (bodyOf_15_14_13w6w1w1 c base x0 x1 x2).toNat = c := by
  have := x0.isLt
  have := x1.isLt
  have := x2.isLt
  exact ctlOf_word c _ (by omega)

theorem ctlOf_bodyOf_17_0w4w17 (c : Ctl) (base : Nat) (x0 : BitVec 4) (x1 : BitVec 17) (h : base + 2097151 < 2 ^ 27) : ctlOf (bodyOf_17_0w4w17 c base x0 x1).toNat = c := by
  have := x0.isLt
  have := x1.isLt
  exact ctlOf_word c _ (by omega)

theorem ctlOf_bodyOf_9 (c : Ctl) (base : Nat) (x0 : BitVec 6) (h : base + 32256 < 2 ^ 27) : ctlOf (bodyOf_9 c base x0).toNat = c := by
  have := x0.isLt
  exact ctlOf_word c _ (by omega)

theorem ctlOf_bodyOf_17_15_0w4w2w15 (c : Ctl) (base : Nat) (x0 : BitVec 4) (x1 : BitVec 2) (x2 : BitVec 15) (h : base + 2097151 < 2 ^ 27) : ctlOf (bodyOf_17_15_0w4w2w15 c base x0 x1 x2).toNat = c := by
  have := x0.isLt
  have := x1.isLt
  have := x2.isLt
  exact ctlOf_word c _ (by omega)

theorem ctlOf_bodyOf_3 (c : Ctl) (base : Nat) (x0 : BitVec 6) (h : base + 504 < 2 ^ 27) : ctlOf (bodyOf_3 c base x0).toNat = c := by
  have := x0.isLt
  exact ctlOf_word c _ (by omega)

theorem ctlOf_bodyOf_9_3 (c : Ctl) (base : Nat) (x0 : BitVec 6) (x1 : BitVec 6) (h : base + 32760 < 2 ^ 27) : ctlOf (bodyOf_9_3 c base x0 x1).toNat = c := by
  have := x0.isLt
  have := x1.isLt
  exact ctlOf_word c _ (by omega)

theorem ctlOf_bodyOf_3w3 (c : Ctl) (base : Nat) (x0 : BitVec 3) (h : base + 56 < 2 ^ 27) : ctlOf (bodyOf_3w3 c base x0).toNat = c := by
  have := x0.isLt
  exact ctlOf_word c _ (by omega)

theorem ctlOf_bodyOf_9_3w6w3 (c : Ctl) (base : Nat) (x0 : BitVec 6) (x1 : BitVec 3) (h : base + 32312 < 2 ^ 27) : ctlOf (bodyOf_9_3w6w3 c base x0 x1).toNat = c := by
  have := x0.isLt
  have := x1.isLt
  exact ctlOf_word c _ (by omega)

theorem ctlOf_bodyOf_15_9_3w6w6w3 (c : Ctl) (base : Nat) (x0 : BitVec 6) (x1 : BitVec 6) (x2 : BitVec 3) (h : base + 2096696 < 2 ^ 27) : ctlOf (bodyOf_15_9_3w6w6w3 c base x0 x1 x2).toNat = c := by
  have := x0.isLt
  have := x1.isLt
  have := x2.isLt
  exact ctlOf_word c _ (by omega)

theorem ctlOf_bodyOf_15_3 (c : Ctl) (base : Nat) (x0 : BitVec 6) (x1 : BitVec 6) (h : base + 2064888 < 2 ^ 27) : ctlOf (bodyOf_15_3 c base x0 x1).toNat = c := by
  have := x0.isLt
  have := x1.isLt
  exact ctlOf_word c _ (by omega)

theorem ctlOf_bodyOf_15_9_6_3w6w6w2w3 (c : Ctl) (base : Nat) (x0 : BitVec 6) (x1 : BitVec 6) (x2 : BitVec 2) (x3 : BitVec 3) (h : base + 2096888 < 2 ^ 27) : ctlOf (bodyOf_15_9_6_3w6w6w2w3 c base x0 x1 x2 x3).toNat = c := by
  have := x0.isLt
  have := x1.isLt
  have := x2.isLt
  have := x3.isLt
  exact ctlOf_word c _ (by omega)

theorem ctlOf_bodyOf_15_9_7w6w6w1 (c : Ctl) (base : Nat) (x0 : BitVec 6) (x1 : BitVec 6) (x2 : BitVec 1) (h : base + 2096768 < 2 ^ 27) : ctlOf (bodyOf_15_9_7w6w6w1 c base x0 x1 x2).toNat = c := by
  have := x0.isLt
  have := x1.isLt
  have := x2.isLt
  exact ctlOf_word c _ (by omega)

end Sys2Proof
end

