-- ==== Sys2Proof/Laws/State.lean ====
section
/-!
SUPPORT. What each update of the state leaves and changes: one lemma for each field and each update.
-/
namespace Sys2Proof.Machine

@[simp] theorem State.modGroup_groups (s : State) (gid : Nat) (f : Group → Group) : (s.modGroup gid f).groups = mapIf (fun g => g.gid == gid) f s.groups := rfl
@[simp] theorem State.modGroup_order (s : State) (gid : Nat) (f : Group → Group) : (s.modGroup gid f).order = s.order := rfl
@[simp] theorem State.modGroup_kernels (s : State) (gid : Nat) (f : Group → Group) : (s.modGroup gid f).kernels = s.kernels := rfl
@[simp] theorem State.modGroup_bands (s : State) (gid : Nat) (f : Group → Group) : (s.modGroup gid f).bands = s.bands := rfl
@[simp] theorem State.modGroup_ctxs (s : State) (gid : Nat) (f : Group → Group) : (s.modGroup gid f).ctxs = s.ctxs := rfl
@[simp] theorem State.modGroup_parts (s : State) (gid : Nat) (f : Group → Group) : (s.modGroup gid f).parts = s.parts := rfl
@[simp] theorem State.modGroup_codes (s : State) (gid : Nat) (f : Group → Group) : (s.modGroup gid f).codes = s.codes := rfl
@[simp] theorem State.modGroup_pool (s : State) (gid : Nat) (f : Group → Group) : (s.modGroup gid f).pool = s.pool := rfl
@[simp] theorem State.modGroup_bins (s : State) (gid : Nat) (f : Group → Group) : (s.modGroup gid f).bins = s.bins := rfl
@[simp] theorem State.modGroup_msgs (s : State) (gid : Nat) (f : Group → Group) : (s.modGroup gid f).msgs = s.msgs := rfl
@[simp] theorem State.modGroup_mem (s : State) (gid : Nat) (f : Group → Group) : (s.modGroup gid f).mem = s.mem := rfl
@[simp] theorem State.modGroup_sync (s : State) (gid : Nat) (f : Group → Group) : (s.modGroup gid f).sync = s.sync := rfl
@[simp] theorem State.modGroup_mats (s : State) (gid : Nat) (f : Group → Group) : (s.modGroup gid f).mats = s.mats := rfl
@[simp] theorem State.modGroup_hqs (s : State) (gid : Nat) (f : Group → Group) : (s.modGroup gid f).hqs = s.hqs := rfl
@[simp] theorem State.modGroup_named (s : State) (gid : Nat) (f : Group → Group) : (s.modGroup gid f).named = s.named := rfl
@[simp] theorem State.modGroup_work (s : State) (gid : Nat) (f : Group → Group) : (s.modGroup gid f).work = s.work := rfl
@[simp] theorem State.modGroup_qops (s : State) (gid : Nat) (f : Group → Group) : (s.modGroup gid f).qops = s.qops := rfl
@[simp] theorem State.modGroup_chans (s : State) (gid : Nat) (f : Group → Group) : (s.modGroup gid f).chans = s.chans := rfl
@[simp] theorem State.modGroup_pkts (s : State) (gid : Nat) (f : Group → Group) : (s.modGroup gid f).pkts = s.pkts := rfl
@[simp] theorem State.modGroup_collSeqs (s : State) (gid : Nat) (f : Group → Group) : (s.modGroup gid f).collSeqs = s.collSeqs := rfl
@[simp] theorem State.modGroup_obs (s : State) (gid : Nat) (f : Group → Group) : (s.modGroup gid f).obs = s.obs := rfl
@[simp] theorem State.modGroup_tab (s : State) (gid : Nat) (f : Group → Group) : (s.modGroup gid f).tab = s.tab := rfl
@[simp] theorem State.modGroup_out (s : State) (gid : Nat) (f : Group → Group) : (s.modGroup gid f).out = s.out := rfl
@[simp] theorem State.modGroup_busy (s : State) (gid : Nat) (f : Group → Group) : (s.modGroup gid f).busy = s.busy := rfl
@[simp] theorem State.modGroup_late (s : State) (gid : Nat) (f : Group → Group) : (s.modGroup gid f).late = s.late := rfl
@[simp] theorem State.modGroup_issued (s : State) (gid : Nat) (f : Group → Group) : (s.modGroup gid f).issued = s.issued := rfl
@[simp] theorem State.modGroup_issuers (s : State) (gid : Nat) (f : Group → Group) : (s.modGroup gid f).issuers = s.issuers := rfl
@[simp] theorem State.modGroup_waited (s : State) (gid : Nat) (f : Group → Group) : (s.modGroup gid f).waited = s.waited := rfl
@[simp] theorem State.modGroup_turns (s : State) (gid : Nat) (f : Group → Group) : (s.modGroup gid f).turns = s.turns := rfl
@[simp] theorem State.modGroup_chanMsgs (s : State) (gid : Nat) (f : Group → Group) : (s.modGroup gid f).chanMsgs = s.chanMsgs := rfl
@[simp] theorem State.modGroup_cur (s : State) (gid : Nat) (f : Group → Group) : (s.modGroup gid f).cur = s.cur := rfl
@[simp] theorem State.modGroup_ev (s : State) (gid : Nat) (f : Group → Group) : (s.modGroup gid f).ev = s.ev := rfl
@[simp] theorem State.modGroup_agenda (s : State) (gid : Nat) (f : Group → Group) : (s.modGroup gid f).agenda = s.agenda := rfl
@[simp] theorem State.modGroup_trapNow (s : State) (gid : Nat) (f : Group → Group) : (s.modGroup gid f).trapNow = s.trapNow := rfl
@[simp] theorem State.modGroup_nextId (s : State) (gid : Nat) (f : Group → Group) : (s.modGroup gid f).nextId = s.nextId := rfl
@[simp] theorem State.modGroup_free (s : State) (gid : Nat) (f : Group → Group) : (s.modGroup gid f).free = s.free := rfl

@[simp] theorem State.modKernel_groups (s : State) (kid : Nat) (f : Kernel → Kernel) : (s.modKernel kid f).groups = s.groups := rfl
@[simp] theorem State.modKernel_order (s : State) (kid : Nat) (f : Kernel → Kernel) : (s.modKernel kid f).order = s.order := rfl
@[simp] theorem State.modKernel_kernels (s : State) (kid : Nat) (f : Kernel → Kernel) : (s.modKernel kid f).kernels = mapIf (fun k => k.kid == kid) f s.kernels := rfl
@[simp] theorem State.modKernel_bands (s : State) (kid : Nat) (f : Kernel → Kernel) : (s.modKernel kid f).bands = s.bands := rfl
@[simp] theorem State.modKernel_ctxs (s : State) (kid : Nat) (f : Kernel → Kernel) : (s.modKernel kid f).ctxs = s.ctxs := rfl
@[simp] theorem State.modKernel_parts (s : State) (kid : Nat) (f : Kernel → Kernel) : (s.modKernel kid f).parts = s.parts := rfl
@[simp] theorem State.modKernel_codes (s : State) (kid : Nat) (f : Kernel → Kernel) : (s.modKernel kid f).codes = s.codes := rfl
@[simp] theorem State.modKernel_pool (s : State) (kid : Nat) (f : Kernel → Kernel) : (s.modKernel kid f).pool = s.pool := rfl
@[simp] theorem State.modKernel_bins (s : State) (kid : Nat) (f : Kernel → Kernel) : (s.modKernel kid f).bins = s.bins := rfl
@[simp] theorem State.modKernel_msgs (s : State) (kid : Nat) (f : Kernel → Kernel) : (s.modKernel kid f).msgs = s.msgs := rfl
@[simp] theorem State.modKernel_mem (s : State) (kid : Nat) (f : Kernel → Kernel) : (s.modKernel kid f).mem = s.mem := rfl
@[simp] theorem State.modKernel_sync (s : State) (kid : Nat) (f : Kernel → Kernel) : (s.modKernel kid f).sync = s.sync := rfl
@[simp] theorem State.modKernel_mats (s : State) (kid : Nat) (f : Kernel → Kernel) : (s.modKernel kid f).mats = s.mats := rfl
@[simp] theorem State.modKernel_hqs (s : State) (kid : Nat) (f : Kernel → Kernel) : (s.modKernel kid f).hqs = s.hqs := rfl
@[simp] theorem State.modKernel_named (s : State) (kid : Nat) (f : Kernel → Kernel) : (s.modKernel kid f).named = s.named := rfl
@[simp] theorem State.modKernel_work (s : State) (kid : Nat) (f : Kernel → Kernel) : (s.modKernel kid f).work = s.work := rfl
@[simp] theorem State.modKernel_qops (s : State) (kid : Nat) (f : Kernel → Kernel) : (s.modKernel kid f).qops = s.qops := rfl
@[simp] theorem State.modKernel_chans (s : State) (kid : Nat) (f : Kernel → Kernel) : (s.modKernel kid f).chans = s.chans := rfl
@[simp] theorem State.modKernel_pkts (s : State) (kid : Nat) (f : Kernel → Kernel) : (s.modKernel kid f).pkts = s.pkts := rfl
@[simp] theorem State.modKernel_collSeqs (s : State) (kid : Nat) (f : Kernel → Kernel) : (s.modKernel kid f).collSeqs = s.collSeqs := rfl
@[simp] theorem State.modKernel_obs (s : State) (kid : Nat) (f : Kernel → Kernel) : (s.modKernel kid f).obs = s.obs := rfl
@[simp] theorem State.modKernel_tab (s : State) (kid : Nat) (f : Kernel → Kernel) : (s.modKernel kid f).tab = s.tab := rfl
@[simp] theorem State.modKernel_out (s : State) (kid : Nat) (f : Kernel → Kernel) : (s.modKernel kid f).out = s.out := rfl
@[simp] theorem State.modKernel_busy (s : State) (kid : Nat) (f : Kernel → Kernel) : (s.modKernel kid f).busy = s.busy := rfl
@[simp] theorem State.modKernel_late (s : State) (kid : Nat) (f : Kernel → Kernel) : (s.modKernel kid f).late = s.late := rfl
@[simp] theorem State.modKernel_issued (s : State) (kid : Nat) (f : Kernel → Kernel) : (s.modKernel kid f).issued = s.issued := rfl
@[simp] theorem State.modKernel_issuers (s : State) (kid : Nat) (f : Kernel → Kernel) : (s.modKernel kid f).issuers = s.issuers := rfl
@[simp] theorem State.modKernel_waited (s : State) (kid : Nat) (f : Kernel → Kernel) : (s.modKernel kid f).waited = s.waited := rfl
@[simp] theorem State.modKernel_turns (s : State) (kid : Nat) (f : Kernel → Kernel) : (s.modKernel kid f).turns = s.turns := rfl
@[simp] theorem State.modKernel_chanMsgs (s : State) (kid : Nat) (f : Kernel → Kernel) : (s.modKernel kid f).chanMsgs = s.chanMsgs := rfl
@[simp] theorem State.modKernel_cur (s : State) (kid : Nat) (f : Kernel → Kernel) : (s.modKernel kid f).cur = s.cur := rfl
@[simp] theorem State.modKernel_ev (s : State) (kid : Nat) (f : Kernel → Kernel) : (s.modKernel kid f).ev = s.ev := rfl
@[simp] theorem State.modKernel_agenda (s : State) (kid : Nat) (f : Kernel → Kernel) : (s.modKernel kid f).agenda = s.agenda := rfl
@[simp] theorem State.modKernel_trapNow (s : State) (kid : Nat) (f : Kernel → Kernel) : (s.modKernel kid f).trapNow = s.trapNow := rfl
@[simp] theorem State.modKernel_nextId (s : State) (kid : Nat) (f : Kernel → Kernel) : (s.modKernel kid f).nextId = s.nextId := rfl
@[simp] theorem State.modKernel_free (s : State) (kid : Nat) (f : Kernel → Kernel) : (s.modKernel kid f).free = s.free := rfl

@[simp] theorem State.modBand_groups (s : State) (bid : Nat) (f : Band → Band) : (s.modBand bid f).groups = s.groups := rfl
@[simp] theorem State.modBand_order (s : State) (bid : Nat) (f : Band → Band) : (s.modBand bid f).order = s.order := rfl
@[simp] theorem State.modBand_kernels (s : State) (bid : Nat) (f : Band → Band) : (s.modBand bid f).kernels = s.kernels := rfl
@[simp] theorem State.modBand_bands (s : State) (bid : Nat) (f : Band → Band) : (s.modBand bid f).bands = mapIf (fun b => b.bid == bid) f s.bands := rfl
@[simp] theorem State.modBand_ctxs (s : State) (bid : Nat) (f : Band → Band) : (s.modBand bid f).ctxs = s.ctxs := rfl
@[simp] theorem State.modBand_parts (s : State) (bid : Nat) (f : Band → Band) : (s.modBand bid f).parts = s.parts := rfl
@[simp] theorem State.modBand_codes (s : State) (bid : Nat) (f : Band → Band) : (s.modBand bid f).codes = s.codes := rfl
@[simp] theorem State.modBand_pool (s : State) (bid : Nat) (f : Band → Band) : (s.modBand bid f).pool = s.pool := rfl
@[simp] theorem State.modBand_bins (s : State) (bid : Nat) (f : Band → Band) : (s.modBand bid f).bins = s.bins := rfl
@[simp] theorem State.modBand_msgs (s : State) (bid : Nat) (f : Band → Band) : (s.modBand bid f).msgs = s.msgs := rfl
@[simp] theorem State.modBand_mem (s : State) (bid : Nat) (f : Band → Band) : (s.modBand bid f).mem = s.mem := rfl
@[simp] theorem State.modBand_sync (s : State) (bid : Nat) (f : Band → Band) : (s.modBand bid f).sync = s.sync := rfl
@[simp] theorem State.modBand_mats (s : State) (bid : Nat) (f : Band → Band) : (s.modBand bid f).mats = s.mats := rfl
@[simp] theorem State.modBand_hqs (s : State) (bid : Nat) (f : Band → Band) : (s.modBand bid f).hqs = s.hqs := rfl
@[simp] theorem State.modBand_named (s : State) (bid : Nat) (f : Band → Band) : (s.modBand bid f).named = s.named := rfl
@[simp] theorem State.modBand_work (s : State) (bid : Nat) (f : Band → Band) : (s.modBand bid f).work = s.work := rfl
@[simp] theorem State.modBand_qops (s : State) (bid : Nat) (f : Band → Band) : (s.modBand bid f).qops = s.qops := rfl
@[simp] theorem State.modBand_chans (s : State) (bid : Nat) (f : Band → Band) : (s.modBand bid f).chans = s.chans := rfl
@[simp] theorem State.modBand_pkts (s : State) (bid : Nat) (f : Band → Band) : (s.modBand bid f).pkts = s.pkts := rfl
@[simp] theorem State.modBand_collSeqs (s : State) (bid : Nat) (f : Band → Band) : (s.modBand bid f).collSeqs = s.collSeqs := rfl
@[simp] theorem State.modBand_obs (s : State) (bid : Nat) (f : Band → Band) : (s.modBand bid f).obs = s.obs := rfl
@[simp] theorem State.modBand_tab (s : State) (bid : Nat) (f : Band → Band) : (s.modBand bid f).tab = s.tab := rfl
@[simp] theorem State.modBand_out (s : State) (bid : Nat) (f : Band → Band) : (s.modBand bid f).out = s.out := rfl
@[simp] theorem State.modBand_busy (s : State) (bid : Nat) (f : Band → Band) : (s.modBand bid f).busy = s.busy := rfl
@[simp] theorem State.modBand_late (s : State) (bid : Nat) (f : Band → Band) : (s.modBand bid f).late = s.late := rfl
@[simp] theorem State.modBand_issued (s : State) (bid : Nat) (f : Band → Band) : (s.modBand bid f).issued = s.issued := rfl
@[simp] theorem State.modBand_issuers (s : State) (bid : Nat) (f : Band → Band) : (s.modBand bid f).issuers = s.issuers := rfl
@[simp] theorem State.modBand_waited (s : State) (bid : Nat) (f : Band → Band) : (s.modBand bid f).waited = s.waited := rfl
@[simp] theorem State.modBand_turns (s : State) (bid : Nat) (f : Band → Band) : (s.modBand bid f).turns = s.turns := rfl
@[simp] theorem State.modBand_chanMsgs (s : State) (bid : Nat) (f : Band → Band) : (s.modBand bid f).chanMsgs = s.chanMsgs := rfl
@[simp] theorem State.modBand_cur (s : State) (bid : Nat) (f : Band → Band) : (s.modBand bid f).cur = s.cur := rfl
@[simp] theorem State.modBand_ev (s : State) (bid : Nat) (f : Band → Band) : (s.modBand bid f).ev = s.ev := rfl
@[simp] theorem State.modBand_agenda (s : State) (bid : Nat) (f : Band → Band) : (s.modBand bid f).agenda = s.agenda := rfl
@[simp] theorem State.modBand_trapNow (s : State) (bid : Nat) (f : Band → Band) : (s.modBand bid f).trapNow = s.trapNow := rfl
@[simp] theorem State.modBand_nextId (s : State) (bid : Nat) (f : Band → Band) : (s.modBand bid f).nextId = s.nextId := rfl
@[simp] theorem State.modBand_free (s : State) (bid : Nat) (f : Band → Band) : (s.modBand bid f).free = s.free := rfl

@[simp] theorem State.modCtx_groups (s : State) (c : Nat) (f : Context → Context) : (s.modCtx c f).groups = s.groups := rfl
@[simp] theorem State.modCtx_order (s : State) (c : Nat) (f : Context → Context) : (s.modCtx c f).order = s.order := rfl
@[simp] theorem State.modCtx_kernels (s : State) (c : Nat) (f : Context → Context) : (s.modCtx c f).kernels = s.kernels := rfl
@[simp] theorem State.modCtx_bands (s : State) (c : Nat) (f : Context → Context) : (s.modCtx c f).bands = s.bands := rfl
@[simp] theorem State.modCtx_ctxs (s : State) (c : Nat) (f : Context → Context) : (s.modCtx c f).ctxs = mapIf (fun x => x.ctx == c) f s.ctxs := rfl
@[simp] theorem State.modCtx_parts (s : State) (c : Nat) (f : Context → Context) : (s.modCtx c f).parts = s.parts := rfl
@[simp] theorem State.modCtx_codes (s : State) (c : Nat) (f : Context → Context) : (s.modCtx c f).codes = s.codes := rfl
@[simp] theorem State.modCtx_pool (s : State) (c : Nat) (f : Context → Context) : (s.modCtx c f).pool = s.pool := rfl
@[simp] theorem State.modCtx_bins (s : State) (c : Nat) (f : Context → Context) : (s.modCtx c f).bins = s.bins := rfl
@[simp] theorem State.modCtx_msgs (s : State) (c : Nat) (f : Context → Context) : (s.modCtx c f).msgs = s.msgs := rfl
@[simp] theorem State.modCtx_mem (s : State) (c : Nat) (f : Context → Context) : (s.modCtx c f).mem = s.mem := rfl
@[simp] theorem State.modCtx_sync (s : State) (c : Nat) (f : Context → Context) : (s.modCtx c f).sync = s.sync := rfl
@[simp] theorem State.modCtx_mats (s : State) (c : Nat) (f : Context → Context) : (s.modCtx c f).mats = s.mats := rfl
@[simp] theorem State.modCtx_hqs (s : State) (c : Nat) (f : Context → Context) : (s.modCtx c f).hqs = s.hqs := rfl
@[simp] theorem State.modCtx_named (s : State) (c : Nat) (f : Context → Context) : (s.modCtx c f).named = s.named := rfl
@[simp] theorem State.modCtx_work (s : State) (c : Nat) (f : Context → Context) : (s.modCtx c f).work = s.work := rfl
@[simp] theorem State.modCtx_qops (s : State) (c : Nat) (f : Context → Context) : (s.modCtx c f).qops = s.qops := rfl
@[simp] theorem State.modCtx_chans (s : State) (c : Nat) (f : Context → Context) : (s.modCtx c f).chans = s.chans := rfl
@[simp] theorem State.modCtx_pkts (s : State) (c : Nat) (f : Context → Context) : (s.modCtx c f).pkts = s.pkts := rfl
@[simp] theorem State.modCtx_collSeqs (s : State) (c : Nat) (f : Context → Context) : (s.modCtx c f).collSeqs = s.collSeqs := rfl
@[simp] theorem State.modCtx_obs (s : State) (c : Nat) (f : Context → Context) : (s.modCtx c f).obs = s.obs := rfl
@[simp] theorem State.modCtx_tab (s : State) (c : Nat) (f : Context → Context) : (s.modCtx c f).tab = s.tab := rfl
@[simp] theorem State.modCtx_out (s : State) (c : Nat) (f : Context → Context) : (s.modCtx c f).out = s.out := rfl
@[simp] theorem State.modCtx_busy (s : State) (c : Nat) (f : Context → Context) : (s.modCtx c f).busy = s.busy := rfl
@[simp] theorem State.modCtx_late (s : State) (c : Nat) (f : Context → Context) : (s.modCtx c f).late = s.late := rfl
@[simp] theorem State.modCtx_issued (s : State) (c : Nat) (f : Context → Context) : (s.modCtx c f).issued = s.issued := rfl
@[simp] theorem State.modCtx_issuers (s : State) (c : Nat) (f : Context → Context) : (s.modCtx c f).issuers = s.issuers := rfl
@[simp] theorem State.modCtx_waited (s : State) (c : Nat) (f : Context → Context) : (s.modCtx c f).waited = s.waited := rfl
@[simp] theorem State.modCtx_turns (s : State) (c : Nat) (f : Context → Context) : (s.modCtx c f).turns = s.turns := rfl
@[simp] theorem State.modCtx_chanMsgs (s : State) (c : Nat) (f : Context → Context) : (s.modCtx c f).chanMsgs = s.chanMsgs := rfl
@[simp] theorem State.modCtx_cur (s : State) (c : Nat) (f : Context → Context) : (s.modCtx c f).cur = s.cur := rfl
@[simp] theorem State.modCtx_ev (s : State) (c : Nat) (f : Context → Context) : (s.modCtx c f).ev = s.ev := rfl
@[simp] theorem State.modCtx_agenda (s : State) (c : Nat) (f : Context → Context) : (s.modCtx c f).agenda = s.agenda := rfl
@[simp] theorem State.modCtx_trapNow (s : State) (c : Nat) (f : Context → Context) : (s.modCtx c f).trapNow = s.trapNow := rfl
@[simp] theorem State.modCtx_nextId (s : State) (c : Nat) (f : Context → Context) : (s.modCtx c f).nextId = s.nextId := rfl
@[simp] theorem State.modCtx_free (s : State) (c : Nat) (f : Context → Context) : (s.modCtx c f).free = s.free := rfl

@[simp] theorem State.modHq_groups (s : State) (q : Nat) (f : HostQ → HostQ) : (s.modHq q f).groups = s.groups := rfl
@[simp] theorem State.modHq_order (s : State) (q : Nat) (f : HostQ → HostQ) : (s.modHq q f).order = s.order := rfl
@[simp] theorem State.modHq_kernels (s : State) (q : Nat) (f : HostQ → HostQ) : (s.modHq q f).kernels = s.kernels := rfl
@[simp] theorem State.modHq_bands (s : State) (q : Nat) (f : HostQ → HostQ) : (s.modHq q f).bands = s.bands := rfl
@[simp] theorem State.modHq_ctxs (s : State) (q : Nat) (f : HostQ → HostQ) : (s.modHq q f).ctxs = s.ctxs := rfl
@[simp] theorem State.modHq_parts (s : State) (q : Nat) (f : HostQ → HostQ) : (s.modHq q f).parts = s.parts := rfl
@[simp] theorem State.modHq_codes (s : State) (q : Nat) (f : HostQ → HostQ) : (s.modHq q f).codes = s.codes := rfl
@[simp] theorem State.modHq_pool (s : State) (q : Nat) (f : HostQ → HostQ) : (s.modHq q f).pool = s.pool := rfl
@[simp] theorem State.modHq_bins (s : State) (q : Nat) (f : HostQ → HostQ) : (s.modHq q f).bins = s.bins := rfl
@[simp] theorem State.modHq_msgs (s : State) (q : Nat) (f : HostQ → HostQ) : (s.modHq q f).msgs = s.msgs := rfl
@[simp] theorem State.modHq_mem (s : State) (q : Nat) (f : HostQ → HostQ) : (s.modHq q f).mem = s.mem := rfl
@[simp] theorem State.modHq_sync (s : State) (q : Nat) (f : HostQ → HostQ) : (s.modHq q f).sync = s.sync := rfl
@[simp] theorem State.modHq_mats (s : State) (q : Nat) (f : HostQ → HostQ) : (s.modHq q f).mats = s.mats := rfl
@[simp] theorem State.modHq_hqs (s : State) (q : Nat) (f : HostQ → HostQ) : (s.modHq q f).hqs = mapIf (fun x => x.q == q) f s.hqs := rfl
@[simp] theorem State.modHq_named (s : State) (q : Nat) (f : HostQ → HostQ) : (s.modHq q f).named = s.named := rfl
@[simp] theorem State.modHq_work (s : State) (q : Nat) (f : HostQ → HostQ) : (s.modHq q f).work = s.work := rfl
@[simp] theorem State.modHq_qops (s : State) (q : Nat) (f : HostQ → HostQ) : (s.modHq q f).qops = s.qops := rfl
@[simp] theorem State.modHq_chans (s : State) (q : Nat) (f : HostQ → HostQ) : (s.modHq q f).chans = s.chans := rfl
@[simp] theorem State.modHq_pkts (s : State) (q : Nat) (f : HostQ → HostQ) : (s.modHq q f).pkts = s.pkts := rfl
@[simp] theorem State.modHq_collSeqs (s : State) (q : Nat) (f : HostQ → HostQ) : (s.modHq q f).collSeqs = s.collSeqs := rfl
@[simp] theorem State.modHq_obs (s : State) (q : Nat) (f : HostQ → HostQ) : (s.modHq q f).obs = s.obs := rfl
@[simp] theorem State.modHq_tab (s : State) (q : Nat) (f : HostQ → HostQ) : (s.modHq q f).tab = s.tab := rfl
@[simp] theorem State.modHq_out (s : State) (q : Nat) (f : HostQ → HostQ) : (s.modHq q f).out = s.out := rfl
@[simp] theorem State.modHq_busy (s : State) (q : Nat) (f : HostQ → HostQ) : (s.modHq q f).busy = s.busy := rfl
@[simp] theorem State.modHq_late (s : State) (q : Nat) (f : HostQ → HostQ) : (s.modHq q f).late = s.late := rfl
@[simp] theorem State.modHq_issued (s : State) (q : Nat) (f : HostQ → HostQ) : (s.modHq q f).issued = s.issued := rfl
@[simp] theorem State.modHq_issuers (s : State) (q : Nat) (f : HostQ → HostQ) : (s.modHq q f).issuers = s.issuers := rfl
@[simp] theorem State.modHq_waited (s : State) (q : Nat) (f : HostQ → HostQ) : (s.modHq q f).waited = s.waited := rfl
@[simp] theorem State.modHq_turns (s : State) (q : Nat) (f : HostQ → HostQ) : (s.modHq q f).turns = s.turns := rfl
@[simp] theorem State.modHq_chanMsgs (s : State) (q : Nat) (f : HostQ → HostQ) : (s.modHq q f).chanMsgs = s.chanMsgs := rfl
@[simp] theorem State.modHq_cur (s : State) (q : Nat) (f : HostQ → HostQ) : (s.modHq q f).cur = s.cur := rfl
@[simp] theorem State.modHq_ev (s : State) (q : Nat) (f : HostQ → HostQ) : (s.modHq q f).ev = s.ev := rfl
@[simp] theorem State.modHq_agenda (s : State) (q : Nat) (f : HostQ → HostQ) : (s.modHq q f).agenda = s.agenda := rfl
@[simp] theorem State.modHq_trapNow (s : State) (q : Nat) (f : HostQ → HostQ) : (s.modHq q f).trapNow = s.trapNow := rfl
@[simp] theorem State.modHq_nextId (s : State) (q : Nat) (f : HostQ → HostQ) : (s.modHq q f).nextId = s.nextId := rfl
@[simp] theorem State.modHq_free (s : State) (q : Nat) (f : HostQ → HostQ) : (s.modHq q f).free = s.free := rfl

@[simp] theorem State.modChan_groups (s : State) (c : Nat) (f : Channel → Channel) : (s.modChan c f).groups = s.groups := rfl
@[simp] theorem State.modChan_order (s : State) (c : Nat) (f : Channel → Channel) : (s.modChan c f).order = s.order := rfl
@[simp] theorem State.modChan_kernels (s : State) (c : Nat) (f : Channel → Channel) : (s.modChan c f).kernels = s.kernels := rfl
@[simp] theorem State.modChan_bands (s : State) (c : Nat) (f : Channel → Channel) : (s.modChan c f).bands = s.bands := rfl
@[simp] theorem State.modChan_ctxs (s : State) (c : Nat) (f : Channel → Channel) : (s.modChan c f).ctxs = s.ctxs := rfl
@[simp] theorem State.modChan_parts (s : State) (c : Nat) (f : Channel → Channel) : (s.modChan c f).parts = s.parts := rfl
@[simp] theorem State.modChan_codes (s : State) (c : Nat) (f : Channel → Channel) : (s.modChan c f).codes = s.codes := rfl
@[simp] theorem State.modChan_pool (s : State) (c : Nat) (f : Channel → Channel) : (s.modChan c f).pool = s.pool := rfl
@[simp] theorem State.modChan_bins (s : State) (c : Nat) (f : Channel → Channel) : (s.modChan c f).bins = s.bins := rfl
@[simp] theorem State.modChan_msgs (s : State) (c : Nat) (f : Channel → Channel) : (s.modChan c f).msgs = s.msgs := rfl
@[simp] theorem State.modChan_mem (s : State) (c : Nat) (f : Channel → Channel) : (s.modChan c f).mem = s.mem := rfl
@[simp] theorem State.modChan_sync (s : State) (c : Nat) (f : Channel → Channel) : (s.modChan c f).sync = s.sync := rfl
@[simp] theorem State.modChan_mats (s : State) (c : Nat) (f : Channel → Channel) : (s.modChan c f).mats = s.mats := rfl
@[simp] theorem State.modChan_hqs (s : State) (c : Nat) (f : Channel → Channel) : (s.modChan c f).hqs = s.hqs := rfl
@[simp] theorem State.modChan_named (s : State) (c : Nat) (f : Channel → Channel) : (s.modChan c f).named = s.named := rfl
@[simp] theorem State.modChan_work (s : State) (c : Nat) (f : Channel → Channel) : (s.modChan c f).work = s.work := rfl
@[simp] theorem State.modChan_qops (s : State) (c : Nat) (f : Channel → Channel) : (s.modChan c f).qops = s.qops := rfl
@[simp] theorem State.modChan_chans (s : State) (c : Nat) (f : Channel → Channel) : (s.modChan c f).chans = mapIf (fun x => x.cid == c) f s.chans := rfl
@[simp] theorem State.modChan_pkts (s : State) (c : Nat) (f : Channel → Channel) : (s.modChan c f).pkts = s.pkts := rfl
@[simp] theorem State.modChan_collSeqs (s : State) (c : Nat) (f : Channel → Channel) : (s.modChan c f).collSeqs = s.collSeqs := rfl
@[simp] theorem State.modChan_obs (s : State) (c : Nat) (f : Channel → Channel) : (s.modChan c f).obs = s.obs := rfl
@[simp] theorem State.modChan_tab (s : State) (c : Nat) (f : Channel → Channel) : (s.modChan c f).tab = s.tab := rfl
@[simp] theorem State.modChan_out (s : State) (c : Nat) (f : Channel → Channel) : (s.modChan c f).out = s.out := rfl
@[simp] theorem State.modChan_busy (s : State) (c : Nat) (f : Channel → Channel) : (s.modChan c f).busy = s.busy := rfl
@[simp] theorem State.modChan_late (s : State) (c : Nat) (f : Channel → Channel) : (s.modChan c f).late = s.late := rfl
@[simp] theorem State.modChan_issued (s : State) (c : Nat) (f : Channel → Channel) : (s.modChan c f).issued = s.issued := rfl
@[simp] theorem State.modChan_issuers (s : State) (c : Nat) (f : Channel → Channel) : (s.modChan c f).issuers = s.issuers := rfl
@[simp] theorem State.modChan_waited (s : State) (c : Nat) (f : Channel → Channel) : (s.modChan c f).waited = s.waited := rfl
@[simp] theorem State.modChan_turns (s : State) (c : Nat) (f : Channel → Channel) : (s.modChan c f).turns = s.turns := rfl
@[simp] theorem State.modChan_chanMsgs (s : State) (c : Nat) (f : Channel → Channel) : (s.modChan c f).chanMsgs = s.chanMsgs := rfl
@[simp] theorem State.modChan_cur (s : State) (c : Nat) (f : Channel → Channel) : (s.modChan c f).cur = s.cur := rfl
@[simp] theorem State.modChan_ev (s : State) (c : Nat) (f : Channel → Channel) : (s.modChan c f).ev = s.ev := rfl
@[simp] theorem State.modChan_agenda (s : State) (c : Nat) (f : Channel → Channel) : (s.modChan c f).agenda = s.agenda := rfl
@[simp] theorem State.modChan_trapNow (s : State) (c : Nat) (f : Channel → Channel) : (s.modChan c f).trapNow = s.trapNow := rfl
@[simp] theorem State.modChan_nextId (s : State) (c : Nat) (f : Channel → Channel) : (s.modChan c f).nextId = s.nextId := rfl
@[simp] theorem State.modChan_free (s : State) (c : Nat) (f : Channel → Channel) : (s.modChan c f).free = s.free := rfl

@[simp] theorem State.setMem_groups (s : State) (m : MemState) : (s.setMem m).groups = s.groups := rfl
@[simp] theorem State.setMem_order (s : State) (m : MemState) : (s.setMem m).order = s.order := rfl
@[simp] theorem State.setMem_kernels (s : State) (m : MemState) : (s.setMem m).kernels = s.kernels := rfl
@[simp] theorem State.setMem_bands (s : State) (m : MemState) : (s.setMem m).bands = s.bands := rfl
@[simp] theorem State.setMem_ctxs (s : State) (m : MemState) : (s.setMem m).ctxs = s.ctxs := rfl
@[simp] theorem State.setMem_parts (s : State) (m : MemState) : (s.setMem m).parts = s.parts := rfl
@[simp] theorem State.setMem_codes (s : State) (m : MemState) : (s.setMem m).codes = s.codes := rfl
@[simp] theorem State.setMem_pool (s : State) (m : MemState) : (s.setMem m).pool = s.pool := rfl
@[simp] theorem State.setMem_bins (s : State) (m : MemState) : (s.setMem m).bins = s.bins := rfl
@[simp] theorem State.setMem_msgs (s : State) (m : MemState) : (s.setMem m).msgs = s.msgs := rfl
@[simp] theorem State.setMem_mem (s : State) (m : MemState) : (s.setMem m).mem = m := rfl
@[simp] theorem State.setMem_sync (s : State) (m : MemState) : (s.setMem m).sync = s.sync := rfl
@[simp] theorem State.setMem_mats (s : State) (m : MemState) : (s.setMem m).mats = s.mats := rfl
@[simp] theorem State.setMem_hqs (s : State) (m : MemState) : (s.setMem m).hqs = s.hqs := rfl
@[simp] theorem State.setMem_named (s : State) (m : MemState) : (s.setMem m).named = s.named := rfl
@[simp] theorem State.setMem_work (s : State) (m : MemState) : (s.setMem m).work = s.work := rfl
@[simp] theorem State.setMem_qops (s : State) (m : MemState) : (s.setMem m).qops = s.qops := rfl
@[simp] theorem State.setMem_chans (s : State) (m : MemState) : (s.setMem m).chans = s.chans := rfl
@[simp] theorem State.setMem_pkts (s : State) (m : MemState) : (s.setMem m).pkts = s.pkts := rfl
@[simp] theorem State.setMem_collSeqs (s : State) (m : MemState) : (s.setMem m).collSeqs = s.collSeqs := rfl
@[simp] theorem State.setMem_obs (s : State) (m : MemState) : (s.setMem m).obs = s.obs := rfl
@[simp] theorem State.setMem_tab (s : State) (m : MemState) : (s.setMem m).tab = s.tab := rfl
@[simp] theorem State.setMem_out (s : State) (m : MemState) : (s.setMem m).out = s.out := rfl
@[simp] theorem State.setMem_busy (s : State) (m : MemState) : (s.setMem m).busy = s.busy := rfl
@[simp] theorem State.setMem_late (s : State) (m : MemState) : (s.setMem m).late = s.late := rfl
@[simp] theorem State.setMem_issued (s : State) (m : MemState) : (s.setMem m).issued = s.issued := rfl
@[simp] theorem State.setMem_issuers (s : State) (m : MemState) : (s.setMem m).issuers = s.issuers := rfl
@[simp] theorem State.setMem_waited (s : State) (m : MemState) : (s.setMem m).waited = s.waited := rfl
@[simp] theorem State.setMem_turns (s : State) (m : MemState) : (s.setMem m).turns = s.turns := rfl
@[simp] theorem State.setMem_chanMsgs (s : State) (m : MemState) : (s.setMem m).chanMsgs = s.chanMsgs := rfl
@[simp] theorem State.setMem_cur (s : State) (m : MemState) : (s.setMem m).cur = s.cur := rfl
@[simp] theorem State.setMem_ev (s : State) (m : MemState) : (s.setMem m).ev = s.ev := rfl
@[simp] theorem State.setMem_agenda (s : State) (m : MemState) : (s.setMem m).agenda = s.agenda := rfl
@[simp] theorem State.setMem_trapNow (s : State) (m : MemState) : (s.setMem m).trapNow = s.trapNow := rfl
@[simp] theorem State.setMem_nextId (s : State) (m : MemState) : (s.setMem m).nextId = s.nextId := rfl
@[simp] theorem State.setMem_free (s : State) (m : MemState) : (s.setMem m).free = s.free := rfl

@[simp] theorem State.modMem_groups (s : State) (f : MemState → MemState) : (s.modMem f).groups = s.groups := rfl
@[simp] theorem State.modMem_order (s : State) (f : MemState → MemState) : (s.modMem f).order = s.order := rfl
@[simp] theorem State.modMem_kernels (s : State) (f : MemState → MemState) : (s.modMem f).kernels = s.kernels := rfl
@[simp] theorem State.modMem_bands (s : State) (f : MemState → MemState) : (s.modMem f).bands = s.bands := rfl
@[simp] theorem State.modMem_ctxs (s : State) (f : MemState → MemState) : (s.modMem f).ctxs = s.ctxs := rfl
@[simp] theorem State.modMem_parts (s : State) (f : MemState → MemState) : (s.modMem f).parts = s.parts := rfl
@[simp] theorem State.modMem_codes (s : State) (f : MemState → MemState) : (s.modMem f).codes = s.codes := rfl
@[simp] theorem State.modMem_pool (s : State) (f : MemState → MemState) : (s.modMem f).pool = s.pool := rfl
@[simp] theorem State.modMem_bins (s : State) (f : MemState → MemState) : (s.modMem f).bins = s.bins := rfl
@[simp] theorem State.modMem_msgs (s : State) (f : MemState → MemState) : (s.modMem f).msgs = s.msgs := rfl
@[simp] theorem State.modMem_mem (s : State) (f : MemState → MemState) : (s.modMem f).mem = f s.mem := rfl
@[simp] theorem State.modMem_sync (s : State) (f : MemState → MemState) : (s.modMem f).sync = s.sync := rfl
@[simp] theorem State.modMem_mats (s : State) (f : MemState → MemState) : (s.modMem f).mats = s.mats := rfl
@[simp] theorem State.modMem_hqs (s : State) (f : MemState → MemState) : (s.modMem f).hqs = s.hqs := rfl
@[simp] theorem State.modMem_named (s : State) (f : MemState → MemState) : (s.modMem f).named = s.named := rfl
@[simp] theorem State.modMem_work (s : State) (f : MemState → MemState) : (s.modMem f).work = s.work := rfl
@[simp] theorem State.modMem_qops (s : State) (f : MemState → MemState) : (s.modMem f).qops = s.qops := rfl
@[simp] theorem State.modMem_chans (s : State) (f : MemState → MemState) : (s.modMem f).chans = s.chans := rfl
@[simp] theorem State.modMem_pkts (s : State) (f : MemState → MemState) : (s.modMem f).pkts = s.pkts := rfl
@[simp] theorem State.modMem_collSeqs (s : State) (f : MemState → MemState) : (s.modMem f).collSeqs = s.collSeqs := rfl
@[simp] theorem State.modMem_obs (s : State) (f : MemState → MemState) : (s.modMem f).obs = s.obs := rfl
@[simp] theorem State.modMem_tab (s : State) (f : MemState → MemState) : (s.modMem f).tab = s.tab := rfl
@[simp] theorem State.modMem_out (s : State) (f : MemState → MemState) : (s.modMem f).out = s.out := rfl
@[simp] theorem State.modMem_busy (s : State) (f : MemState → MemState) : (s.modMem f).busy = s.busy := rfl
@[simp] theorem State.modMem_late (s : State) (f : MemState → MemState) : (s.modMem f).late = s.late := rfl
@[simp] theorem State.modMem_issued (s : State) (f : MemState → MemState) : (s.modMem f).issued = s.issued := rfl
@[simp] theorem State.modMem_issuers (s : State) (f : MemState → MemState) : (s.modMem f).issuers = s.issuers := rfl
@[simp] theorem State.modMem_waited (s : State) (f : MemState → MemState) : (s.modMem f).waited = s.waited := rfl
@[simp] theorem State.modMem_turns (s : State) (f : MemState → MemState) : (s.modMem f).turns = s.turns := rfl
@[simp] theorem State.modMem_chanMsgs (s : State) (f : MemState → MemState) : (s.modMem f).chanMsgs = s.chanMsgs := rfl
@[simp] theorem State.modMem_cur (s : State) (f : MemState → MemState) : (s.modMem f).cur = s.cur := rfl
@[simp] theorem State.modMem_ev (s : State) (f : MemState → MemState) : (s.modMem f).ev = s.ev := rfl
@[simp] theorem State.modMem_agenda (s : State) (f : MemState → MemState) : (s.modMem f).agenda = s.agenda := rfl
@[simp] theorem State.modMem_trapNow (s : State) (f : MemState → MemState) : (s.modMem f).trapNow = s.trapNow := rfl
@[simp] theorem State.modMem_nextId (s : State) (f : MemState → MemState) : (s.modMem f).nextId = s.nextId := rfl
@[simp] theorem State.modMem_free (s : State) (f : MemState → MemState) : (s.modMem f).free = s.free := rfl

@[simp] theorem State.modSync_groups (s : State) (f : SyncState → SyncState) : (s.modSync f).groups = s.groups := rfl
@[simp] theorem State.modSync_order (s : State) (f : SyncState → SyncState) : (s.modSync f).order = s.order := rfl
@[simp] theorem State.modSync_kernels (s : State) (f : SyncState → SyncState) : (s.modSync f).kernels = s.kernels := rfl
@[simp] theorem State.modSync_bands (s : State) (f : SyncState → SyncState) : (s.modSync f).bands = s.bands := rfl
@[simp] theorem State.modSync_ctxs (s : State) (f : SyncState → SyncState) : (s.modSync f).ctxs = s.ctxs := rfl
@[simp] theorem State.modSync_parts (s : State) (f : SyncState → SyncState) : (s.modSync f).parts = s.parts := rfl
@[simp] theorem State.modSync_codes (s : State) (f : SyncState → SyncState) : (s.modSync f).codes = s.codes := rfl
@[simp] theorem State.modSync_pool (s : State) (f : SyncState → SyncState) : (s.modSync f).pool = s.pool := rfl
@[simp] theorem State.modSync_bins (s : State) (f : SyncState → SyncState) : (s.modSync f).bins = s.bins := rfl
@[simp] theorem State.modSync_msgs (s : State) (f : SyncState → SyncState) : (s.modSync f).msgs = s.msgs := rfl
@[simp] theorem State.modSync_mem (s : State) (f : SyncState → SyncState) : (s.modSync f).mem = s.mem := rfl
@[simp] theorem State.modSync_sync (s : State) (f : SyncState → SyncState) : (s.modSync f).sync = f s.sync := rfl
@[simp] theorem State.modSync_mats (s : State) (f : SyncState → SyncState) : (s.modSync f).mats = s.mats := rfl
@[simp] theorem State.modSync_hqs (s : State) (f : SyncState → SyncState) : (s.modSync f).hqs = s.hqs := rfl
@[simp] theorem State.modSync_named (s : State) (f : SyncState → SyncState) : (s.modSync f).named = s.named := rfl
@[simp] theorem State.modSync_work (s : State) (f : SyncState → SyncState) : (s.modSync f).work = s.work := rfl
@[simp] theorem State.modSync_qops (s : State) (f : SyncState → SyncState) : (s.modSync f).qops = s.qops := rfl
@[simp] theorem State.modSync_chans (s : State) (f : SyncState → SyncState) : (s.modSync f).chans = s.chans := rfl
@[simp] theorem State.modSync_pkts (s : State) (f : SyncState → SyncState) : (s.modSync f).pkts = s.pkts := rfl
@[simp] theorem State.modSync_collSeqs (s : State) (f : SyncState → SyncState) : (s.modSync f).collSeqs = s.collSeqs := rfl
@[simp] theorem State.modSync_obs (s : State) (f : SyncState → SyncState) : (s.modSync f).obs = s.obs := rfl
@[simp] theorem State.modSync_tab (s : State) (f : SyncState → SyncState) : (s.modSync f).tab = s.tab := rfl
@[simp] theorem State.modSync_out (s : State) (f : SyncState → SyncState) : (s.modSync f).out = s.out := rfl
@[simp] theorem State.modSync_busy (s : State) (f : SyncState → SyncState) : (s.modSync f).busy = s.busy := rfl
@[simp] theorem State.modSync_late (s : State) (f : SyncState → SyncState) : (s.modSync f).late = s.late := rfl
@[simp] theorem State.modSync_issued (s : State) (f : SyncState → SyncState) : (s.modSync f).issued = s.issued := rfl
@[simp] theorem State.modSync_issuers (s : State) (f : SyncState → SyncState) : (s.modSync f).issuers = s.issuers := rfl
@[simp] theorem State.modSync_waited (s : State) (f : SyncState → SyncState) : (s.modSync f).waited = s.waited := rfl
@[simp] theorem State.modSync_turns (s : State) (f : SyncState → SyncState) : (s.modSync f).turns = s.turns := rfl
@[simp] theorem State.modSync_chanMsgs (s : State) (f : SyncState → SyncState) : (s.modSync f).chanMsgs = s.chanMsgs := rfl
@[simp] theorem State.modSync_cur (s : State) (f : SyncState → SyncState) : (s.modSync f).cur = s.cur := rfl
@[simp] theorem State.modSync_ev (s : State) (f : SyncState → SyncState) : (s.modSync f).ev = s.ev := rfl
@[simp] theorem State.modSync_agenda (s : State) (f : SyncState → SyncState) : (s.modSync f).agenda = s.agenda := rfl
@[simp] theorem State.modSync_trapNow (s : State) (f : SyncState → SyncState) : (s.modSync f).trapNow = s.trapNow := rfl
@[simp] theorem State.modSync_nextId (s : State) (f : SyncState → SyncState) : (s.modSync f).nextId = s.nextId := rfl
@[simp] theorem State.modSync_free (s : State) (f : SyncState → SyncState) : (s.modSync f).free = s.free := rfl

@[simp] theorem State.modObs_groups (s : State) (f : ObsState → ObsState) : (s.modObs f).groups = s.groups := rfl
@[simp] theorem State.modObs_order (s : State) (f : ObsState → ObsState) : (s.modObs f).order = s.order := rfl
@[simp] theorem State.modObs_kernels (s : State) (f : ObsState → ObsState) : (s.modObs f).kernels = s.kernels := rfl
@[simp] theorem State.modObs_bands (s : State) (f : ObsState → ObsState) : (s.modObs f).bands = s.bands := rfl
@[simp] theorem State.modObs_ctxs (s : State) (f : ObsState → ObsState) : (s.modObs f).ctxs = s.ctxs := rfl
@[simp] theorem State.modObs_parts (s : State) (f : ObsState → ObsState) : (s.modObs f).parts = s.parts := rfl
@[simp] theorem State.modObs_codes (s : State) (f : ObsState → ObsState) : (s.modObs f).codes = s.codes := rfl
@[simp] theorem State.modObs_pool (s : State) (f : ObsState → ObsState) : (s.modObs f).pool = s.pool := rfl
@[simp] theorem State.modObs_bins (s : State) (f : ObsState → ObsState) : (s.modObs f).bins = s.bins := rfl
@[simp] theorem State.modObs_msgs (s : State) (f : ObsState → ObsState) : (s.modObs f).msgs = s.msgs := rfl
@[simp] theorem State.modObs_mem (s : State) (f : ObsState → ObsState) : (s.modObs f).mem = s.mem := rfl
@[simp] theorem State.modObs_sync (s : State) (f : ObsState → ObsState) : (s.modObs f).sync = s.sync := rfl
@[simp] theorem State.modObs_mats (s : State) (f : ObsState → ObsState) : (s.modObs f).mats = s.mats := rfl
@[simp] theorem State.modObs_hqs (s : State) (f : ObsState → ObsState) : (s.modObs f).hqs = s.hqs := rfl
@[simp] theorem State.modObs_named (s : State) (f : ObsState → ObsState) : (s.modObs f).named = s.named := rfl
@[simp] theorem State.modObs_work (s : State) (f : ObsState → ObsState) : (s.modObs f).work = s.work := rfl
@[simp] theorem State.modObs_qops (s : State) (f : ObsState → ObsState) : (s.modObs f).qops = s.qops := rfl
@[simp] theorem State.modObs_chans (s : State) (f : ObsState → ObsState) : (s.modObs f).chans = s.chans := rfl
@[simp] theorem State.modObs_pkts (s : State) (f : ObsState → ObsState) : (s.modObs f).pkts = s.pkts := rfl
@[simp] theorem State.modObs_collSeqs (s : State) (f : ObsState → ObsState) : (s.modObs f).collSeqs = s.collSeqs := rfl
@[simp] theorem State.modObs_obs (s : State) (f : ObsState → ObsState) : (s.modObs f).obs = f s.obs := rfl
@[simp] theorem State.modObs_tab (s : State) (f : ObsState → ObsState) : (s.modObs f).tab = s.tab := rfl
@[simp] theorem State.modObs_out (s : State) (f : ObsState → ObsState) : (s.modObs f).out = s.out := rfl
@[simp] theorem State.modObs_busy (s : State) (f : ObsState → ObsState) : (s.modObs f).busy = s.busy := rfl
@[simp] theorem State.modObs_late (s : State) (f : ObsState → ObsState) : (s.modObs f).late = s.late := rfl
@[simp] theorem State.modObs_issued (s : State) (f : ObsState → ObsState) : (s.modObs f).issued = s.issued := rfl
@[simp] theorem State.modObs_issuers (s : State) (f : ObsState → ObsState) : (s.modObs f).issuers = s.issuers := rfl
@[simp] theorem State.modObs_waited (s : State) (f : ObsState → ObsState) : (s.modObs f).waited = s.waited := rfl
@[simp] theorem State.modObs_turns (s : State) (f : ObsState → ObsState) : (s.modObs f).turns = s.turns := rfl
@[simp] theorem State.modObs_chanMsgs (s : State) (f : ObsState → ObsState) : (s.modObs f).chanMsgs = s.chanMsgs := rfl
@[simp] theorem State.modObs_cur (s : State) (f : ObsState → ObsState) : (s.modObs f).cur = s.cur := rfl
@[simp] theorem State.modObs_ev (s : State) (f : ObsState → ObsState) : (s.modObs f).ev = s.ev := rfl
@[simp] theorem State.modObs_agenda (s : State) (f : ObsState → ObsState) : (s.modObs f).agenda = s.agenda := rfl
@[simp] theorem State.modObs_trapNow (s : State) (f : ObsState → ObsState) : (s.modObs f).trapNow = s.trapNow := rfl
@[simp] theorem State.modObs_nextId (s : State) (f : ObsState → ObsState) : (s.modObs f).nextId = s.nextId := rfl
@[simp] theorem State.modObs_free (s : State) (f : ObsState → ObsState) : (s.modObs f).free = s.free := rfl

@[simp] theorem State.modTab_groups (s : State) (f : TabState → TabState) : (s.modTab f).groups = s.groups := rfl
@[simp] theorem State.modTab_order (s : State) (f : TabState → TabState) : (s.modTab f).order = s.order := rfl
@[simp] theorem State.modTab_kernels (s : State) (f : TabState → TabState) : (s.modTab f).kernels = s.kernels := rfl
@[simp] theorem State.modTab_bands (s : State) (f : TabState → TabState) : (s.modTab f).bands = s.bands := rfl
@[simp] theorem State.modTab_ctxs (s : State) (f : TabState → TabState) : (s.modTab f).ctxs = s.ctxs := rfl
@[simp] theorem State.modTab_parts (s : State) (f : TabState → TabState) : (s.modTab f).parts = s.parts := rfl
@[simp] theorem State.modTab_codes (s : State) (f : TabState → TabState) : (s.modTab f).codes = s.codes := rfl
@[simp] theorem State.modTab_pool (s : State) (f : TabState → TabState) : (s.modTab f).pool = s.pool := rfl
@[simp] theorem State.modTab_bins (s : State) (f : TabState → TabState) : (s.modTab f).bins = s.bins := rfl
@[simp] theorem State.modTab_msgs (s : State) (f : TabState → TabState) : (s.modTab f).msgs = s.msgs := rfl
@[simp] theorem State.modTab_mem (s : State) (f : TabState → TabState) : (s.modTab f).mem = s.mem := rfl
@[simp] theorem State.modTab_sync (s : State) (f : TabState → TabState) : (s.modTab f).sync = s.sync := rfl
@[simp] theorem State.modTab_mats (s : State) (f : TabState → TabState) : (s.modTab f).mats = s.mats := rfl
@[simp] theorem State.modTab_hqs (s : State) (f : TabState → TabState) : (s.modTab f).hqs = s.hqs := rfl
@[simp] theorem State.modTab_named (s : State) (f : TabState → TabState) : (s.modTab f).named = s.named := rfl
@[simp] theorem State.modTab_work (s : State) (f : TabState → TabState) : (s.modTab f).work = s.work := rfl
@[simp] theorem State.modTab_qops (s : State) (f : TabState → TabState) : (s.modTab f).qops = s.qops := rfl
@[simp] theorem State.modTab_chans (s : State) (f : TabState → TabState) : (s.modTab f).chans = s.chans := rfl
@[simp] theorem State.modTab_pkts (s : State) (f : TabState → TabState) : (s.modTab f).pkts = s.pkts := rfl
@[simp] theorem State.modTab_collSeqs (s : State) (f : TabState → TabState) : (s.modTab f).collSeqs = s.collSeqs := rfl
@[simp] theorem State.modTab_obs (s : State) (f : TabState → TabState) : (s.modTab f).obs = s.obs := rfl
@[simp] theorem State.modTab_tab (s : State) (f : TabState → TabState) : (s.modTab f).tab = f s.tab := rfl
@[simp] theorem State.modTab_out (s : State) (f : TabState → TabState) : (s.modTab f).out = s.out := rfl
@[simp] theorem State.modTab_busy (s : State) (f : TabState → TabState) : (s.modTab f).busy = s.busy := rfl
@[simp] theorem State.modTab_late (s : State) (f : TabState → TabState) : (s.modTab f).late = s.late := rfl
@[simp] theorem State.modTab_issued (s : State) (f : TabState → TabState) : (s.modTab f).issued = s.issued := rfl
@[simp] theorem State.modTab_issuers (s : State) (f : TabState → TabState) : (s.modTab f).issuers = s.issuers := rfl
@[simp] theorem State.modTab_waited (s : State) (f : TabState → TabState) : (s.modTab f).waited = s.waited := rfl
@[simp] theorem State.modTab_turns (s : State) (f : TabState → TabState) : (s.modTab f).turns = s.turns := rfl
@[simp] theorem State.modTab_chanMsgs (s : State) (f : TabState → TabState) : (s.modTab f).chanMsgs = s.chanMsgs := rfl
@[simp] theorem State.modTab_cur (s : State) (f : TabState → TabState) : (s.modTab f).cur = s.cur := rfl
@[simp] theorem State.modTab_ev (s : State) (f : TabState → TabState) : (s.modTab f).ev = s.ev := rfl
@[simp] theorem State.modTab_agenda (s : State) (f : TabState → TabState) : (s.modTab f).agenda = s.agenda := rfl
@[simp] theorem State.modTab_trapNow (s : State) (f : TabState → TabState) : (s.modTab f).trapNow = s.trapNow := rfl
@[simp] theorem State.modTab_nextId (s : State) (f : TabState → TabState) : (s.modTab f).nextId = s.nextId := rfl
@[simp] theorem State.modTab_free (s : State) (f : TabState → TabState) : (s.modTab f).free = s.free := rfl

@[simp] theorem State.modOut_groups (s : State) (f : OutState → OutState) : (s.modOut f).groups = s.groups := rfl
@[simp] theorem State.modOut_order (s : State) (f : OutState → OutState) : (s.modOut f).order = s.order := rfl
@[simp] theorem State.modOut_kernels (s : State) (f : OutState → OutState) : (s.modOut f).kernels = s.kernels := rfl
@[simp] theorem State.modOut_bands (s : State) (f : OutState → OutState) : (s.modOut f).bands = s.bands := rfl
@[simp] theorem State.modOut_ctxs (s : State) (f : OutState → OutState) : (s.modOut f).ctxs = s.ctxs := rfl
@[simp] theorem State.modOut_parts (s : State) (f : OutState → OutState) : (s.modOut f).parts = s.parts := rfl
@[simp] theorem State.modOut_codes (s : State) (f : OutState → OutState) : (s.modOut f).codes = s.codes := rfl
@[simp] theorem State.modOut_pool (s : State) (f : OutState → OutState) : (s.modOut f).pool = s.pool := rfl
@[simp] theorem State.modOut_bins (s : State) (f : OutState → OutState) : (s.modOut f).bins = s.bins := rfl
@[simp] theorem State.modOut_msgs (s : State) (f : OutState → OutState) : (s.modOut f).msgs = s.msgs := rfl
@[simp] theorem State.modOut_mem (s : State) (f : OutState → OutState) : (s.modOut f).mem = s.mem := rfl
@[simp] theorem State.modOut_sync (s : State) (f : OutState → OutState) : (s.modOut f).sync = s.sync := rfl
@[simp] theorem State.modOut_mats (s : State) (f : OutState → OutState) : (s.modOut f).mats = s.mats := rfl
@[simp] theorem State.modOut_hqs (s : State) (f : OutState → OutState) : (s.modOut f).hqs = s.hqs := rfl
@[simp] theorem State.modOut_named (s : State) (f : OutState → OutState) : (s.modOut f).named = s.named := rfl
@[simp] theorem State.modOut_work (s : State) (f : OutState → OutState) : (s.modOut f).work = s.work := rfl
@[simp] theorem State.modOut_qops (s : State) (f : OutState → OutState) : (s.modOut f).qops = s.qops := rfl
@[simp] theorem State.modOut_chans (s : State) (f : OutState → OutState) : (s.modOut f).chans = s.chans := rfl
@[simp] theorem State.modOut_pkts (s : State) (f : OutState → OutState) : (s.modOut f).pkts = s.pkts := rfl
@[simp] theorem State.modOut_collSeqs (s : State) (f : OutState → OutState) : (s.modOut f).collSeqs = s.collSeqs := rfl
@[simp] theorem State.modOut_obs (s : State) (f : OutState → OutState) : (s.modOut f).obs = s.obs := rfl
@[simp] theorem State.modOut_tab (s : State) (f : OutState → OutState) : (s.modOut f).tab = s.tab := rfl
@[simp] theorem State.modOut_out (s : State) (f : OutState → OutState) : (s.modOut f).out = f s.out := rfl
@[simp] theorem State.modOut_busy (s : State) (f : OutState → OutState) : (s.modOut f).busy = s.busy := rfl
@[simp] theorem State.modOut_late (s : State) (f : OutState → OutState) : (s.modOut f).late = s.late := rfl
@[simp] theorem State.modOut_issued (s : State) (f : OutState → OutState) : (s.modOut f).issued = s.issued := rfl
@[simp] theorem State.modOut_issuers (s : State) (f : OutState → OutState) : (s.modOut f).issuers = s.issuers := rfl
@[simp] theorem State.modOut_waited (s : State) (f : OutState → OutState) : (s.modOut f).waited = s.waited := rfl
@[simp] theorem State.modOut_turns (s : State) (f : OutState → OutState) : (s.modOut f).turns = s.turns := rfl
@[simp] theorem State.modOut_chanMsgs (s : State) (f : OutState → OutState) : (s.modOut f).chanMsgs = s.chanMsgs := rfl
@[simp] theorem State.modOut_cur (s : State) (f : OutState → OutState) : (s.modOut f).cur = s.cur := rfl
@[simp] theorem State.modOut_ev (s : State) (f : OutState → OutState) : (s.modOut f).ev = s.ev := rfl
@[simp] theorem State.modOut_agenda (s : State) (f : OutState → OutState) : (s.modOut f).agenda = s.agenda := rfl
@[simp] theorem State.modOut_trapNow (s : State) (f : OutState → OutState) : (s.modOut f).trapNow = s.trapNow := rfl
@[simp] theorem State.modOut_nextId (s : State) (f : OutState → OutState) : (s.modOut f).nextId = s.nextId := rfl
@[simp] theorem State.modOut_free (s : State) (f : OutState → OutState) : (s.modOut f).free = s.free := rfl

@[simp] theorem State.modCur_groups (s : State) (f : Issue → Issue) : (s.modCur f).groups = s.groups := rfl
@[simp] theorem State.modCur_order (s : State) (f : Issue → Issue) : (s.modCur f).order = s.order := rfl
@[simp] theorem State.modCur_kernels (s : State) (f : Issue → Issue) : (s.modCur f).kernels = s.kernels := rfl
@[simp] theorem State.modCur_bands (s : State) (f : Issue → Issue) : (s.modCur f).bands = s.bands := rfl
@[simp] theorem State.modCur_ctxs (s : State) (f : Issue → Issue) : (s.modCur f).ctxs = s.ctxs := rfl
@[simp] theorem State.modCur_parts (s : State) (f : Issue → Issue) : (s.modCur f).parts = s.parts := rfl
@[simp] theorem State.modCur_codes (s : State) (f : Issue → Issue) : (s.modCur f).codes = s.codes := rfl
@[simp] theorem State.modCur_pool (s : State) (f : Issue → Issue) : (s.modCur f).pool = s.pool := rfl
@[simp] theorem State.modCur_bins (s : State) (f : Issue → Issue) : (s.modCur f).bins = s.bins := rfl
@[simp] theorem State.modCur_msgs (s : State) (f : Issue → Issue) : (s.modCur f).msgs = s.msgs := rfl
@[simp] theorem State.modCur_mem (s : State) (f : Issue → Issue) : (s.modCur f).mem = s.mem := rfl
@[simp] theorem State.modCur_sync (s : State) (f : Issue → Issue) : (s.modCur f).sync = s.sync := rfl
@[simp] theorem State.modCur_mats (s : State) (f : Issue → Issue) : (s.modCur f).mats = s.mats := rfl
@[simp] theorem State.modCur_hqs (s : State) (f : Issue → Issue) : (s.modCur f).hqs = s.hqs := rfl
@[simp] theorem State.modCur_named (s : State) (f : Issue → Issue) : (s.modCur f).named = s.named := rfl
@[simp] theorem State.modCur_work (s : State) (f : Issue → Issue) : (s.modCur f).work = s.work := rfl
@[simp] theorem State.modCur_qops (s : State) (f : Issue → Issue) : (s.modCur f).qops = s.qops := rfl
@[simp] theorem State.modCur_chans (s : State) (f : Issue → Issue) : (s.modCur f).chans = s.chans := rfl
@[simp] theorem State.modCur_pkts (s : State) (f : Issue → Issue) : (s.modCur f).pkts = s.pkts := rfl
@[simp] theorem State.modCur_collSeqs (s : State) (f : Issue → Issue) : (s.modCur f).collSeqs = s.collSeqs := rfl
@[simp] theorem State.modCur_obs (s : State) (f : Issue → Issue) : (s.modCur f).obs = s.obs := rfl
@[simp] theorem State.modCur_tab (s : State) (f : Issue → Issue) : (s.modCur f).tab = s.tab := rfl
@[simp] theorem State.modCur_out (s : State) (f : Issue → Issue) : (s.modCur f).out = s.out := rfl
@[simp] theorem State.modCur_busy (s : State) (f : Issue → Issue) : (s.modCur f).busy = s.busy := rfl
@[simp] theorem State.modCur_late (s : State) (f : Issue → Issue) : (s.modCur f).late = s.late := rfl
@[simp] theorem State.modCur_issued (s : State) (f : Issue → Issue) : (s.modCur f).issued = s.issued := rfl
@[simp] theorem State.modCur_issuers (s : State) (f : Issue → Issue) : (s.modCur f).issuers = s.issuers := rfl
@[simp] theorem State.modCur_waited (s : State) (f : Issue → Issue) : (s.modCur f).waited = s.waited := rfl
@[simp] theorem State.modCur_turns (s : State) (f : Issue → Issue) : (s.modCur f).turns = s.turns := rfl
@[simp] theorem State.modCur_chanMsgs (s : State) (f : Issue → Issue) : (s.modCur f).chanMsgs = s.chanMsgs := rfl
@[simp] theorem State.modCur_cur (s : State) (f : Issue → Issue) : (s.modCur f).cur = s.cur.map f := rfl
@[simp] theorem State.modCur_ev (s : State) (f : Issue → Issue) : (s.modCur f).ev = s.ev := rfl
@[simp] theorem State.modCur_agenda (s : State) (f : Issue → Issue) : (s.modCur f).agenda = s.agenda := rfl
@[simp] theorem State.modCur_trapNow (s : State) (f : Issue → Issue) : (s.modCur f).trapNow = s.trapNow := rfl
@[simp] theorem State.modCur_nextId (s : State) (f : Issue → Issue) : (s.modCur f).nextId = s.nextId := rfl
@[simp] theorem State.modCur_free (s : State) (f : Issue → Issue) : (s.modCur f).free = s.free := rfl

@[simp] theorem State.fresh_groups (s : State) : (s.fresh).groups = s.groups := rfl
@[simp] theorem State.fresh_order (s : State) : (s.fresh).order = s.order := rfl
@[simp] theorem State.fresh_kernels (s : State) : (s.fresh).kernels = s.kernels := rfl
@[simp] theorem State.fresh_bands (s : State) : (s.fresh).bands = s.bands := rfl
@[simp] theorem State.fresh_ctxs (s : State) : (s.fresh).ctxs = s.ctxs := rfl
@[simp] theorem State.fresh_parts (s : State) : (s.fresh).parts = s.parts := rfl
@[simp] theorem State.fresh_codes (s : State) : (s.fresh).codes = s.codes := rfl
@[simp] theorem State.fresh_pool (s : State) : (s.fresh).pool = s.pool := rfl
@[simp] theorem State.fresh_bins (s : State) : (s.fresh).bins = s.bins := rfl
@[simp] theorem State.fresh_msgs (s : State) : (s.fresh).msgs = s.msgs := rfl
@[simp] theorem State.fresh_mem (s : State) : (s.fresh).mem = s.mem := rfl
@[simp] theorem State.fresh_sync (s : State) : (s.fresh).sync = s.sync := rfl
@[simp] theorem State.fresh_mats (s : State) : (s.fresh).mats = s.mats := rfl
@[simp] theorem State.fresh_hqs (s : State) : (s.fresh).hqs = s.hqs := rfl
@[simp] theorem State.fresh_named (s : State) : (s.fresh).named = s.named := rfl
@[simp] theorem State.fresh_work (s : State) : (s.fresh).work = s.work := rfl
@[simp] theorem State.fresh_qops (s : State) : (s.fresh).qops = s.qops := rfl
@[simp] theorem State.fresh_chans (s : State) : (s.fresh).chans = s.chans := rfl
@[simp] theorem State.fresh_pkts (s : State) : (s.fresh).pkts = s.pkts := rfl
@[simp] theorem State.fresh_collSeqs (s : State) : (s.fresh).collSeqs = s.collSeqs := rfl
@[simp] theorem State.fresh_obs (s : State) : (s.fresh).obs = s.obs := rfl
@[simp] theorem State.fresh_tab (s : State) : (s.fresh).tab = s.tab := rfl
@[simp] theorem State.fresh_out (s : State) : (s.fresh).out = s.out := rfl
@[simp] theorem State.fresh_busy (s : State) : (s.fresh).busy = s.busy := rfl
@[simp] theorem State.fresh_late (s : State) : (s.fresh).late = s.late := rfl
@[simp] theorem State.fresh_issued (s : State) : (s.fresh).issued = s.issued := rfl
@[simp] theorem State.fresh_issuers (s : State) : (s.fresh).issuers = s.issuers := rfl
@[simp] theorem State.fresh_waited (s : State) : (s.fresh).waited = s.waited := rfl
@[simp] theorem State.fresh_turns (s : State) : (s.fresh).turns = s.turns := rfl
@[simp] theorem State.fresh_chanMsgs (s : State) : (s.fresh).chanMsgs = s.chanMsgs := rfl
@[simp] theorem State.fresh_cur (s : State) : (s.fresh).cur = s.cur := rfl
@[simp] theorem State.fresh_ev (s : State) : (s.fresh).ev = s.ev := rfl
@[simp] theorem State.fresh_agenda (s : State) : (s.fresh).agenda = s.agenda := rfl
@[simp] theorem State.fresh_trapNow (s : State) : (s.fresh).trapNow = s.trapNow := rfl
@[simp] theorem State.fresh_nextId (s : State) : (s.fresh).nextId = s.nextId + 1 := rfl
@[simp] theorem State.fresh_free (s : State) : (s.fresh).free = s.free := rfl

@[simp] theorem State.nextFree_groups (s : State) : (s.nextFree).groups = s.groups := rfl
@[simp] theorem State.nextFree_order (s : State) : (s.nextFree).order = s.order := rfl
@[simp] theorem State.nextFree_kernels (s : State) : (s.nextFree).kernels = s.kernels := rfl
@[simp] theorem State.nextFree_bands (s : State) : (s.nextFree).bands = s.bands := rfl
@[simp] theorem State.nextFree_ctxs (s : State) : (s.nextFree).ctxs = s.ctxs := rfl
@[simp] theorem State.nextFree_parts (s : State) : (s.nextFree).parts = s.parts := rfl
@[simp] theorem State.nextFree_codes (s : State) : (s.nextFree).codes = s.codes := rfl
@[simp] theorem State.nextFree_pool (s : State) : (s.nextFree).pool = s.pool := rfl
@[simp] theorem State.nextFree_bins (s : State) : (s.nextFree).bins = s.bins := rfl
@[simp] theorem State.nextFree_msgs (s : State) : (s.nextFree).msgs = s.msgs := rfl
@[simp] theorem State.nextFree_mem (s : State) : (s.nextFree).mem = s.mem := rfl
@[simp] theorem State.nextFree_sync (s : State) : (s.nextFree).sync = s.sync := rfl
@[simp] theorem State.nextFree_mats (s : State) : (s.nextFree).mats = s.mats := rfl
@[simp] theorem State.nextFree_hqs (s : State) : (s.nextFree).hqs = s.hqs := rfl
@[simp] theorem State.nextFree_named (s : State) : (s.nextFree).named = s.named := rfl
@[simp] theorem State.nextFree_work (s : State) : (s.nextFree).work = s.work := rfl
@[simp] theorem State.nextFree_qops (s : State) : (s.nextFree).qops = s.qops := rfl
@[simp] theorem State.nextFree_chans (s : State) : (s.nextFree).chans = s.chans := rfl
@[simp] theorem State.nextFree_pkts (s : State) : (s.nextFree).pkts = s.pkts := rfl
@[simp] theorem State.nextFree_collSeqs (s : State) : (s.nextFree).collSeqs = s.collSeqs := rfl
@[simp] theorem State.nextFree_obs (s : State) : (s.nextFree).obs = s.obs := rfl
@[simp] theorem State.nextFree_tab (s : State) : (s.nextFree).tab = s.tab := rfl
@[simp] theorem State.nextFree_out (s : State) : (s.nextFree).out = s.out := rfl
@[simp] theorem State.nextFree_busy (s : State) : (s.nextFree).busy = s.busy := rfl
@[simp] theorem State.nextFree_late (s : State) : (s.nextFree).late = s.late := rfl
@[simp] theorem State.nextFree_issued (s : State) : (s.nextFree).issued = s.issued := rfl
@[simp] theorem State.nextFree_issuers (s : State) : (s.nextFree).issuers = s.issuers := rfl
@[simp] theorem State.nextFree_waited (s : State) : (s.nextFree).waited = s.waited := rfl
@[simp] theorem State.nextFree_turns (s : State) : (s.nextFree).turns = s.turns := rfl
@[simp] theorem State.nextFree_chanMsgs (s : State) : (s.nextFree).chanMsgs = s.chanMsgs := rfl
@[simp] theorem State.nextFree_cur (s : State) : (s.nextFree).cur = s.cur := rfl
@[simp] theorem State.nextFree_ev (s : State) : (s.nextFree).ev = s.ev := rfl
@[simp] theorem State.nextFree_agenda (s : State) : (s.nextFree).agenda = s.agenda := rfl
@[simp] theorem State.nextFree_trapNow (s : State) : (s.nextFree).trapNow = s.trapNow := rfl
@[simp] theorem State.nextFree_nextId (s : State) : (s.nextFree).nextId = s.nextId := rfl
@[simp] theorem State.nextFree_free (s : State) : (s.nextFree).free = s.free + 1 := rfl

@[simp] theorem State.addOut_groups (s : State) (gid : Nat) (o : Outst) : (s.addOut gid o).groups = mapIf (fun g => g.gid == gid) (fun g => { g with outs := g.outs ++ [o] }) s.groups := rfl
@[simp] theorem State.addOut_order (s : State) (gid : Nat) (o : Outst) : (s.addOut gid o).order = s.order := rfl
@[simp] theorem State.addOut_kernels (s : State) (gid : Nat) (o : Outst) : (s.addOut gid o).kernels = s.kernels := rfl
@[simp] theorem State.addOut_bands (s : State) (gid : Nat) (o : Outst) : (s.addOut gid o).bands = s.bands := rfl
@[simp] theorem State.addOut_ctxs (s : State) (gid : Nat) (o : Outst) : (s.addOut gid o).ctxs = s.ctxs := rfl
@[simp] theorem State.addOut_parts (s : State) (gid : Nat) (o : Outst) : (s.addOut gid o).parts = s.parts := rfl
@[simp] theorem State.addOut_codes (s : State) (gid : Nat) (o : Outst) : (s.addOut gid o).codes = s.codes := rfl
@[simp] theorem State.addOut_pool (s : State) (gid : Nat) (o : Outst) : (s.addOut gid o).pool = s.pool := rfl
@[simp] theorem State.addOut_bins (s : State) (gid : Nat) (o : Outst) : (s.addOut gid o).bins = s.bins := rfl
@[simp] theorem State.addOut_msgs (s : State) (gid : Nat) (o : Outst) : (s.addOut gid o).msgs = s.msgs := rfl
@[simp] theorem State.addOut_mem (s : State) (gid : Nat) (o : Outst) : (s.addOut gid o).mem = s.mem := rfl
@[simp] theorem State.addOut_sync (s : State) (gid : Nat) (o : Outst) : (s.addOut gid o).sync = s.sync := rfl
@[simp] theorem State.addOut_mats (s : State) (gid : Nat) (o : Outst) : (s.addOut gid o).mats = s.mats := rfl
@[simp] theorem State.addOut_hqs (s : State) (gid : Nat) (o : Outst) : (s.addOut gid o).hqs = s.hqs := rfl
@[simp] theorem State.addOut_named (s : State) (gid : Nat) (o : Outst) : (s.addOut gid o).named = s.named := rfl
@[simp] theorem State.addOut_work (s : State) (gid : Nat) (o : Outst) : (s.addOut gid o).work = s.work := rfl
@[simp] theorem State.addOut_qops (s : State) (gid : Nat) (o : Outst) : (s.addOut gid o).qops = s.qops := rfl
@[simp] theorem State.addOut_chans (s : State) (gid : Nat) (o : Outst) : (s.addOut gid o).chans = s.chans := rfl
@[simp] theorem State.addOut_pkts (s : State) (gid : Nat) (o : Outst) : (s.addOut gid o).pkts = s.pkts := rfl
@[simp] theorem State.addOut_collSeqs (s : State) (gid : Nat) (o : Outst) : (s.addOut gid o).collSeqs = s.collSeqs := rfl
@[simp] theorem State.addOut_obs (s : State) (gid : Nat) (o : Outst) : (s.addOut gid o).obs = s.obs := rfl
@[simp] theorem State.addOut_tab (s : State) (gid : Nat) (o : Outst) : (s.addOut gid o).tab = s.tab := rfl
@[simp] theorem State.addOut_out (s : State) (gid : Nat) (o : Outst) : (s.addOut gid o).out = s.out := rfl
@[simp] theorem State.addOut_busy (s : State) (gid : Nat) (o : Outst) : (s.addOut gid o).busy = s.busy := rfl
@[simp] theorem State.addOut_late (s : State) (gid : Nat) (o : Outst) : (s.addOut gid o).late = s.late := rfl
@[simp] theorem State.addOut_issued (s : State) (gid : Nat) (o : Outst) : (s.addOut gid o).issued = s.issued := rfl
@[simp] theorem State.addOut_issuers (s : State) (gid : Nat) (o : Outst) : (s.addOut gid o).issuers = s.issuers := rfl
@[simp] theorem State.addOut_waited (s : State) (gid : Nat) (o : Outst) : (s.addOut gid o).waited = s.waited := rfl
@[simp] theorem State.addOut_turns (s : State) (gid : Nat) (o : Outst) : (s.addOut gid o).turns = s.turns := rfl
@[simp] theorem State.addOut_chanMsgs (s : State) (gid : Nat) (o : Outst) : (s.addOut gid o).chanMsgs = s.chanMsgs := rfl
@[simp] theorem State.addOut_cur (s : State) (gid : Nat) (o : Outst) : (s.addOut gid o).cur = s.cur := rfl
@[simp] theorem State.addOut_ev (s : State) (gid : Nat) (o : Outst) : (s.addOut gid o).ev = s.ev := rfl
@[simp] theorem State.addOut_agenda (s : State) (gid : Nat) (o : Outst) : (s.addOut gid o).agenda = s.agenda := rfl
@[simp] theorem State.addOut_trapNow (s : State) (gid : Nat) (o : Outst) : (s.addOut gid o).trapNow = s.trapNow := rfl
@[simp] theorem State.addOut_nextId (s : State) (gid : Nat) (o : Outst) : (s.addOut gid o).nextId = s.nextId + 1 := rfl
@[simp] theorem State.addOut_free (s : State) (gid : Nat) (o : Outst) : (s.addOut gid o).free = s.free := rfl

/-! ## Records found after an update -/

theorem mapIf_find {α : Type} (p q : α → Bool) (f : α → α) (l : List α) (h : ∀ x, p (f x) = p x) :
    (mapIf q f l).find? p = (l.find? p).map fun x => if q x then f x else x := by
  have hp : (p ∘ fun x => if q x then f x else x) = p := by
    funext x; simp only [Function.comp]; split <;> simp [h]
  rw [mapIf, List.find?_map, hp]

/-- The group that an update names, found after it. -/
theorem State.modGroup_group (s : State) (gid : Nat) (f : Group → Group) (hf : ∀ g, (f g).gid = g.gid) :
    (s.modGroup gid f).group? gid = (s.group? gid).map f := by
  unfold State.group? State.modGroup
  rw [mapIf_find _ _ _ _ (fun x => by simp [hf])]
  cases h : s.groups.find? (fun g => g.gid == gid) with
  | none => rfl
  | some g => have := List.find?_some h; simp_all

/-- Another group, found after an update. -/
theorem State.modGroup_other (s : State) (gid h : Nat) (f : Group → Group) (hf : ∀ g, (f g).gid = g.gid) (hne : h ≠ gid) :
    (s.modGroup gid f).group? h = s.group? h := by
  unfold State.group? State.modGroup
  rw [mapIf_find _ _ _ _ (fun x => by simp [hf])]
  cases hg : s.groups.find? (fun g => g.gid == h) with
  | none => rfl
  | some g => have := List.find?_some hg; simp at this; simp [this, hne]

@[simp] theorem State.modGroup_kernel? (s : State) (gid k : Nat) (f : Group → Group) : (s.modGroup gid f).kernel? k = s.kernel? k := rfl
@[simp] theorem State.modGroup_band? (s : State) (gid b : Nat) (f : Group → Group) : (s.modGroup gid f).band? b = s.band? b := rfl
@[simp] theorem State.modGroup_ctx? (s : State) (gid c : Nat) (f : Group → Group) : (s.modGroup gid f).ctx? c = s.ctx? c := rfl
@[simp] theorem State.modMem_group? (s : State) (gid : Nat) (f : MemState → MemState) : (s.modMem f).group? gid = s.group? gid := rfl
@[simp] theorem State.modMem_band? (s : State) (b : Nat) (f : MemState → MemState) : (s.modMem f).band? b = s.band? b := rfl
@[simp] theorem State.modObs_group? (s : State) (gid : Nat) (f : ObsState → ObsState) : (s.modObs f).group? gid = s.group? gid := rfl

/-- A result added to its group. -/
theorem State.addOut_group (s : State) (gid : Nat) (o : Outst) :
    (s.addOut gid o).group? gid = (s.group? gid).map fun g => { g with outs := g.outs ++ [o] } :=
  State.modGroup_group s gid _ fun _ => rfl

theorem State.addOut_other (s : State) (gid h : Nat) (o : Outst) (hne : h ≠ gid) : (s.addOut gid o).group? h = s.group? h :=
  State.modGroup_other s gid h _ (fun _ => rfl) hne

end Sys2Proof.Machine
end

