-- ==== Sys2Proof/Laws/Forms.lean ====
section
/-!
SUPPORT. What the shared forms of a meaning do: an instruction that issues, one that R71 or R81 turns away, and the one outstanding
result that each register form posts.
-/
namespace Sys2Proof
open Machine

/-! ## Issue -/

theorem issue_ready {i : Instr} {s : State} {c : Issue} {g : Group} (h : Ready i s c g) (k : Issue → Group → State) :
    issue i s k = .next (k c g) := by
  obtain ⟨⟨h1, h2⟩, h3⟩ := h
  simp [issue, h1, h2, h3]

theorem issue_illegal {i : Instr} {s : State} {c : Issue} {g : Group} (h : Issues s c g) (hw : i.wf (s.regsOf g) = false)
    (k : Issue → Group → State) : issue i s k = .next (s.takeTrap c g fcIllegal 0 0) := by
  obtain ⟨h1, h2⟩ := h
  simp [issue, h1, h2, hw]

theorem issue_idle {i : Instr} {s : State} (h : s.cur = none) (k : Issue → Group → State) : issue i s k = .fault .noIssue := by
  simp [issue, h]

theorem issuePriv_firmware {i : Instr} {s : State} {c : Issue} {g : Group} (h : Ready i s c g) (hf : g.firmware = true)
    (k : Issue → Group → State) : issuePriv i s k = .next (k c g) := by
  simp [issuePriv, issue_ready h, hf]

theorem issuePriv_user {i : Instr} {s : State} {c : Issue} {g : Group} (h : Ready i s c g) (hf : g.firmware = false)
    (k : Issue → Group → State) : issuePriv i s k = .next (s.takeTrap c g fcPriv 0 0) := by
  simp [issuePriv, issue_ready h, hf]

theorem issueAlign_ready {i : Instr} {s : State} {c : Issue} {g : Group} (h : Ready i s c g) (bad : Issue → Group → Bool)
    (hb : bad c g = false) (k : Issue → Group → State) : issueAlign i bad s k = .next (k c g) := by
  obtain ⟨⟨h1, h2⟩, h3⟩ := h
  simp [issueAlign, h1, h2, h3, hb]

theorem issueAlign_bad {i : Instr} {s : State} {c : Issue} {g : Group} (h : Issues s c g) (bad : Issue → Group → Bool)
    (hb : bad c g = true) (k : Issue → Group → State) : issueAlign i bad s k = .next (s.takeTrap c g fcPcAlign 0 0) := by
  obtain ⟨h1, h2⟩ := h
  simp [issueAlign, h1, h2, hb]

/-! ## Results -/

theorem lanesDo_v (c : Issue) (d : BitVec 6) (f : Nat → W32) : lanesDo c.mask (fun l => [.v l d.toNat (f l)]) = vWrites c d f := by
  simp [lanesDo, vWrites]
  induction lanesOf c.mask <;> simp_all

theorem lanesDo_p (c : Issue) (d : Nat) (f : Nat → Bool) : lanesDo c.mask (fun l => [.p l d (f l)]) = pWrites c d f := by
  simp [lanesDo, pWrites]
  induction lanesOf c.mask <;> simp_all

/-- A result that an instruction posts is due a latency from the cycle of its group's die. -/
theorem outst_due {s : State} {c : Issue} {g : Group} (hg : s.group? c.gid = some g) (kind : OutKind) (lat : Nat) (sent : Bool)
    (ws : List RegWrite) (fs : List (Nat × BitVec 5)) (u : BitVec 32) :
    ∀ h, s.group? c.gid = some h → (c.outst g s kind lat sent ws fs u).due = s.cycleOn h.die + lat := by
  intro h hh
  rw [hg] at hh
  cases hh
  rfl

/-- A fixed-latency result is one outstanding result and nothing else. -/
theorem postFixed_gives {i : Instr} {s : State} {c : Issue} {g : Group} {lat : Nat} {ws : List RegWrite}
    (hg : s.group? c.gid = some g) (h : exec i s = .next (s.postFixed c g lat ws)) : Gives i s c lat ws [] :=
  ⟨c.outst g s .fixed lat false ws [] 0, h, rfl, rfl, outst_due hg _ _ _ _ _ _, rfl, rfl, rfl, rfl⟩

theorem postFlags_gives {i : Instr} {s : State} {c : Issue} {g : Group} {lat : Nat} {ws : List RegWrite} {fs : List (Nat × BitVec 5)}
    {u : BitVec 32} (hg : s.group? c.gid = some g) (h : exec i s = .next (s.postFlags c g lat ws fs u)) : Gives i s c lat ws fs :=
  ⟨c.outst g s .fixed lat false ws fs u, h, rfl, rfl, outst_due hg _ _ _ _ _ _, rfl, rfl, rfl, rfl⟩

theorem formVVV_gives {i : Instr} {s : State} {c : Issue} {g : Group} {lat : Nat} {d a b : BitVec 6} {f : W32 → W32 → W32 → W32}
    (h : Ready i s c g) (he : exec i s = formVVV i lat d a b f s) :
    Gives i s c lat (vWrites c d fun l => f ((g.lane l).rv a.toNat) ((g.lane l).rv b.toNat) ((g.lane l).rv d.toNat)) [] := by
  apply postFixed_gives (g := g) h.1.2
  rw [he, formVVV, issue_ready h, lanesDo_v]

theorem formVV_gives {i : Instr} {s : State} {c : Issue} {g : Group} {lat : Nat} {d a : BitVec 6} {f : W32 → W32}
    (h : Ready i s c g) (he : exec i s = formVV i lat d a f s) :
    Gives i s c lat (vWrites c d fun l => f ((g.lane l).rv a.toNat)) [] := by
  apply postFixed_gives (g := g) h.1.2
  rw [he, formVV, issue_ready h, lanesDo_v]

theorem formV_gives {i : Instr} {s : State} {c : Issue} {g : Group} {lat : Nat} {d : BitVec 6} {f : Issue → Group → Nat → W32}
    (h : Ready i s c g) (he : exec i s = formV i lat d f s) : Gives i s c lat (vWrites c d (f c g)) [] := by
  apply postFixed_gives (g := g) h.1.2
  rw [he, formV, issue_ready h, lanesDo_v]

theorem formP_gives {i : Instr} {s : State} {c : Issue} {g : Group} {lat d : Nat} {f : Issue → Group → Nat → Bool}
    (h : Ready i s c g) (he : exec i s = formP i lat d f s) : Gives i s c lat (pWrites c d (f c g)) [] := by
  apply postFixed_gives (g := g) h.1.2
  rw [he, formP, issue_ready h, lanesDo_p]

theorem formS_gives {i : Instr} {s : State} {c : Issue} {g : Group} {lat : Nat} {d : BitVec 6} {f : Issue → Group → W64}
    (h : Ready i s c g) (he : exec i s = formS i lat d f s) : Gives i s c lat [.s d.toNat (f c g)] [] := by
  apply postFixed_gives (g := g) h.1.2
  rw [he, formS, issue_ready h]

theorem formFlags_gives {i : Instr} {s : State} {c : Issue} {g : Group} {lat : Nat} {f : Issue → Group → Nat → List RegWrite × BitVec 5}
    (h : Ready i s c g) (he : exec i s = formFlags i lat f s) :
    Gives i s c lat (lanesDo c.mask fun l => (f c g l).1) (laneFlags c fun l => (f c g l).2) := by
  apply postFlags_gives (g := g) (u := 0) h.1.2
  rw [he, formFlags, issue_ready h]; rfl

theorem formDivide_gives {i : Instr} {s : State} {c : Issue} {g : Group} {d a b : BitVec 6} {f : W32 → W32 → W32}
    (h : Ready i s c g) (he : exec i s = formDivide i d a b f s) :
    GivesKind .divide i s c 1 (vWrites c d fun l => f ((g.lane l).rv a.toNat) ((g.lane l).rv b.toNat)) [] := by
  refine ⟨c.outst g s .divide 1 false (vWrites c d fun l => f ((g.lane l).rv a.toNat) ((g.lane l).rv b.toNat)) [] 0, ?_, rfl, rfl,
    outst_due h.1.2 _ _ _ _ _ _, rfl, rfl, rfl, rfl⟩
  rw [he, formDivide, issue_ready h, ← lanesDo_v]

end Sys2Proof
end

