-- ==== Sys2Proof/Laws/Frames.lean ====
section
/-!
SUPPORT. Frames that a host sends as R451 and R452 lay them out, and that they pass the checks.
-/
namespace Sys2Proof.Machine

/-- A frame of row `i` with a TYPE, for session `sid` under a key: the header of R451, the payload's words, and the trailer of R452. -/
def frameEv (i : Instr) (ty : Nat) (key : BitVec 512) (sid seq tag : Nat) (ws : List Nat) : Ev :=
  let w := fun k => (sid :: seq :: tag :: ws).getD k 0
  let e := { Ev.none with words := (sid :: seq :: tag :: ws).map (BitVec.ofNat 64) }
  let queue := ((frameNames i).1.map w).getD 0
  let part := ((frameNames i).2.map w).getD 0
  let head := [BitVec.ofNat 64 tag, BitVec.ofNat 64 (sid * 2 ^ 32 + queue * 2 ^ 20 + part * 2 ^ 16), BitVec.ofNat 64 seq,
    BitVec.ofNat 64 (0xA1AE1101 * 2 ^ 32 + 2 ^ 24 + ty * 2 ^ 16 + (e.payload i).length)]
  { e with frame := head ++ words8 ({ e with frame := head }.trailer i key) }

/-- The words of a frame come back as they were given. -/
theorem toNat_words : ∀ ws : List Nat, (∀ w ∈ ws, w < 2 ^ 64) → (ws.map (BitVec.ofNat 64)).map (fun w => w.toNat) = ws
  | [], _ => rfl
  | w :: ws, h => by
    have h1 := h w (by simp)
    simp only [List.map_cons, toNat_words ws fun x hx => h x (by simp [hx]), BitVec.toNat_ofNat, Nat.mod_eq_of_lt h1]

theorem getD_words (ws : List Nat) (h : ∀ w ∈ ws, w < 2 ^ 64) (k : Nat) : ((ws.map (BitVec.ofNat 64)).getD k 0).toNat = ws.getD k 0 := by
  simp only [List.getD_eq_getElem?_getD, List.getElem?_map]
  cases hk : ws[k]? with
  | none => simp
  | some x => simpa using h x (List.mem_of_getElem? hk)

/-- A frame's payload has at most 8 bytes for each of its words. -/
theorem length_payload (e : Ev) (i : Instr) (h : e.bytes = []) : (e.payload i).length ≤ 8 * (e.words.length - 3) := by
  simp only [Ev.payload, h, List.append_nil, List.length_flatMap, length_leBytes, List.map_const', List.sum_replicate, smul_eq_mul]
  have := List.length_filter_le (fun k => !((frameNames i).1 == some k || (frameNames i).2 == some k)) ((List.range e.words.length).drop 3)
  simp only [List.length_drop, List.length_range] at this
  omega

/-- A frame that is laid out so, of its row's TYPE or one that R453 does not list, passes the checks. -/
theorem frameEv_ok (i : Instr) (ty : Nat) (x : Session) (sid seq tag : Nat) (ws : List Nat)
    (hty : ty < 256) (ht : frameType i = some ty ∨ frameTypes.contains ty = false)
    (hs : sid < 2 ^ 32) (hw : ∀ w ∈ sid :: seq :: tag :: ws, w < 2 ^ 64) (hl : ws.length ≤ 1104)
    (hq : ((frameNames i).1.map fun k => (sid :: seq :: tag :: ws).getD k 0).getD 0 < 2 ^ 12)
    (hp : ((frameNames i).2.map fun k => (sid :: seq :: tag :: ws).getD k 0).getD 0 < 2 ^ 4) :
    (frameEv i ty x.key sid seq tag ws).frameOk i x = true ∧ (frameEv i ty x.key sid seq tag ws).head 208 8 = ty ∧
      (frameEv i ty x.key sid seq tag ws).head 96 32 = sid := by
  have hn := length_payload { Ev.none with words := (sid :: seq :: tag :: ws).map (BitVec.ofNat 64) } i rfl
  simp only [List.length_map, List.length_cons] at hn
  have hg := getD_words _ hw
  have hseq : seq < 2 ^ 64 := hw seq (by simp)
  have htag : tag < 2 ^ 64 := hw tag (by simp)
  have htrail : ((frameEv i ty x.key sid seq tag ws).frame.drop 4).flatMap (fun w => leBytes 8 w.toNat) =
      (frameEv i ty x.key sid seq tag ws).trailer i x.key := words8_bytes _ (length_hmacSha512 _ _)
  generalize hN : (({ Ev.none with words := (sid :: seq :: tag :: ws).map (BitVec.ofNat 64) } : Ev).payload i).length = n at hn
  have hpay : ((frameEv i ty x.key sid seq tag ws).payload i).length = n := hN
  have h3 : (frameEv i ty x.key sid seq tag ws).frame.getD 3 0 = BitVec.ofNat 64 (0xA1AE1101 * 2 ^ 32 + 2 ^ 24 + ty * 2 ^ 16 + n) := by rw [← hN]; rfl
  have h2 : (frameEv i ty x.key sid seq tag ws).frame.getD 2 0 = BitVec.ofNat 64 seq := rfl
  have h0 : (frameEv i ty x.key sid seq tag ws).frame.getD 0 0 = BitVec.ofNat 64 tag := rfl
  generalize hQ : ((frameNames i).1.map fun k => (sid :: seq :: tag :: ws).getD k 0).getD 0 = q at hq
  generalize hP : ((frameNames i).2.map fun k => (sid :: seq :: tag :: ws).getD k 0).getD 0 = p at hp
  have h1 : (frameEv i ty x.key sid seq tag ws).frame.getD 1 0 = BitVec.ofNat 64 (sid * 2 ^ 32 + q * 2 ^ 20 + p * 2 ^ 16) := by rw [← hQ, ← hP]; rfl
  have hws : (frameEv i ty x.key sid seq tag ws).words = (sid :: seq :: tag :: ws).map (BitVec.ofNat 64) := rfl
  have hw0 : (sid :: seq :: tag :: ws).getD 0 0 = sid := rfl
  have hw1 : (sid :: seq :: tag :: ws).getD 1 0 = seq := rfl
  have hw2 : (sid :: seq :: tag :: ws).getD 2 0 = tag := rfl
  have e224 : (frameEv i ty x.key sid seq tag ws).head 224 32 = 0xA1AE1101 := by
    have : (frameEv i ty x.key sid seq tag ws).head 224 32 = ((frameEv i ty x.key sid seq tag ws).frame.getD 3 0).toNat / 2 ^ 32 % 2 ^ 32 := rfl
    rw [this, h3, BitVec.toNat_ofNat]; omega
  have e216 : (frameEv i ty x.key sid seq tag ws).head 216 8 = 1 := by
    have : (frameEv i ty x.key sid seq tag ws).head 216 8 = ((frameEv i ty x.key sid seq tag ws).frame.getD 3 0).toNat / 2 ^ 24 % 2 ^ 8 := rfl
    rw [this, h3, BitVec.toNat_ofNat]; omega
  have e208 : (frameEv i ty x.key sid seq tag ws).head 208 8 = ty := by
    have : (frameEv i ty x.key sid seq tag ws).head 208 8 = ((frameEv i ty x.key sid seq tag ws).frame.getD 3 0).toNat / 2 ^ 16 % 2 ^ 8 := rfl
    rw [this, h3, BitVec.toNat_ofNat]; omega
  have e192 : (frameEv i ty x.key sid seq tag ws).head 192 16 = n := by
    have : (frameEv i ty x.key sid seq tag ws).head 192 16 = ((frameEv i ty x.key sid seq tag ws).frame.getD 3 0).toNat / 2 ^ 0 % 2 ^ 16 := rfl
    rw [this, h3, BitVec.toNat_ofNat]; omega
  have e128 : (frameEv i ty x.key sid seq tag ws).head 128 64 = seq := by
    have : (frameEv i ty x.key sid seq tag ws).head 128 64 = ((frameEv i ty x.key sid seq tag ws).frame.getD 2 0).toNat / 2 ^ 0 % 2 ^ 64 := rfl
    rw [this, h2, BitVec.toNat_ofNat]; omega
  have e96 : (frameEv i ty x.key sid seq tag ws).head 96 32 = sid := by
    have : (frameEv i ty x.key sid seq tag ws).head 96 32 = ((frameEv i ty x.key sid seq tag ws).frame.getD 1 0).toNat / 2 ^ 32 % 2 ^ 32 := rfl
    rw [this, h1, BitVec.toNat_ofNat]; omega
  have e84 : (frameEv i ty x.key sid seq tag ws).head 84 12 = q := by
    have : (frameEv i ty x.key sid seq tag ws).head 84 12 = ((frameEv i ty x.key sid seq tag ws).frame.getD 1 0).toNat / 2 ^ 20 % 2 ^ 12 := rfl
    rw [this, h1, BitVec.toNat_ofNat]; omega
  have e80 : (frameEv i ty x.key sid seq tag ws).head 80 4 = p := by
    have : (frameEv i ty x.key sid seq tag ws).head 80 4 = ((frameEv i ty x.key sid seq tag ws).frame.getD 1 0).toNat / 2 ^ 16 % 2 ^ 4 := rfl
    rw [this, h1, BitVec.toNat_ofNat]; omega
  have e64 : (frameEv i ty x.key sid seq tag ws).head 64 16 = 0 := by
    have : (frameEv i ty x.key sid seq tag ws).head 64 16 = ((frameEv i ty x.key sid seq tag ws).frame.getD 1 0).toNat / 2 ^ 0 % 2 ^ 16 := rfl
    rw [this, h1, BitVec.toNat_ofNat]; omega
  have e0 : (frameEv i ty x.key sid seq tag ws).head 0 64 = tag := by
    have : (frameEv i ty x.key sid seq tag ws).head 0 64 = ((frameEv i ty x.key sid seq tag ws).frame.getD 0 0).toNat / 2 ^ 0 % 2 ^ 64 := rfl
    rw [this, h0, BitVec.toNat_ofNat]; omega
  refine ⟨?_, e208, e96⟩
  simp only [Ev.frameOk, Ev.headOk, hpay, htrail, hws, hg, hw0, hw1, hw2, hQ, hP, e224, e216, e208, e192, e128, e96, e84, e80, e64, e0, beq_self_eq_true,
    Bool.true_and, Bool.and_true, Bool.and_eq_true, beq_iff_eq, decide_eq_true_eq, Bool.or_eq_true, Bool.not_eq_true']
  exact ⟨by omega, ht⟩

end Sys2Proof.Machine
end

