-- ==== Sys2Proof/Laws/Groups.lean ====
section
/-!
SUPPORT. Finding a record after a record has changed, and what the shared group operations leave as it was.
-/
namespace Sys2Proof
open Machine

/-! ## Lists of records -/

/-- A change of the records of one key, which keeps their keys, changes what is found under that key and nothing else. -/
theorem find?_mapIf {α : Type} (key : α → Nat) (k : Nat) (f : α → α) (hf : ∀ x, key (f x) = key x) (j : Nat) : ∀ l : List α,
    (mapIf (fun x => key x == k) f l).find? (fun x => key x == j) = (l.find? fun x => key x == j).map fun x => if j = k then f x else x
  | [] => rfl
  | x :: l => by
    have ih := find?_mapIf key k f hf j l
    simp only [mapIf, List.map_cons, List.find?_cons] at ih ⊢
    by_cases h1 : key x = j
    · by_cases h2 : key x = k
      · have h3 : j = k := by omega
        simp [h2, h3, hf]
      · have h3 : ¬ j = k := by omega
        have h4 : ¬ key x = k := h2
        simp [h1, h3]
    · have h5 : key (if (key x == k) = true then f x else x) = key x := by split <;> simp [hf]
      simp only [h5]
      have h6 : (key x == j) = false := by simpa using h1
      simp only [h6]
      exact ih

theorem group?_modGroup (s : State) (gid h : Nat) (f : Group → Group) (hf : ∀ g, (f g).gid = g.gid) :
    (s.modGroup gid f).group? h = (s.group? h).map fun g => if h = gid then f g else g :=
  find?_mapIf (fun (g : Group) => g.gid) gid f hf h s.groups

theorem group?_modGroup_same (s : State) (gid : Nat) (f : Group → Group) (hf : ∀ g, (f g).gid = g.gid) :
    (s.modGroup gid f).group? gid = (s.group? gid).map f := by
  rw [group?_modGroup s gid gid f hf]; simp

theorem group?_modGroup_ne (s : State) {gid h : Nat} (f : Group → Group) (hf : ∀ g, (f g).gid = g.gid) (hne : h ≠ gid) :
    (s.modGroup gid f).group? h = s.group? h := by
  rw [group?_modGroup s gid h f hf]; simp [hne]

theorem kernel?_modKernel (s : State) (k h : Nat) (f : Kernel → Kernel) (hf : ∀ x, (f x).kid = x.kid) :
    (s.modKernel k f).kernel? h = (s.kernel? h).map fun x => if h = k then f x else x :=
  find?_mapIf (fun (x : Kernel) => x.kid) k f hf h s.kernels

theorem band?_modBand (s : State) (b h : Nat) (f : Band → Band) (hf : ∀ x, (f x).bid = x.bid) :
    (s.modBand b f).band? h = (s.band? h).map fun x => if h = b then f x else x :=
  find?_mapIf (fun (x : Band) => x.bid) b f hf h s.bands

theorem ctx?_modCtx (s : State) (c h : Nat) (f : Context → Context) (hf : ∀ x, (f x).ctx = x.ctx) :
    (s.modCtx c f).ctx? h = (s.ctx? h).map fun x => if h = c then f x else x :=
  find?_mapIf (fun (x : Context) => x.ctx) c f hf h s.ctxs

theorem hq?_modHq (s : State) (q h : Nat) (f : HostQ → HostQ) (hf : ∀ x, (f x).q = x.q) :
    (s.modHq q f).hq? h = (s.hq? h).map fun x => if h = q then f x else x :=
  find?_mapIf (fun (x : HostQ) => x.q) q f hf h s.hqs

/-! ## Results -/

theorem addOut_group? (s : State) (gid h : Nat) (o : Outst) :
    (s.addOut gid o).group? h = (s.group? h).map fun g => if h = gid then { g with outs := g.outs ++ [o] } else g :=
  group?_modGroup s gid h _ fun _ => rfl

/-- An outstanding result changes no register of any group. -/
theorem addOut_registers (s : State) (gid : Nat) (o : Outst) : SameRegisters s (s.addOut gid o) := by
  intro h
  rw [addOut_group?]
  cases s.group? h with
  | none => rfl
  | some g =>
    simp only [Option.map_some]
    split <;> rfl

theorem addOut_memory (s : State) (gid : Nat) (o : Outst) : SameMemory s (s.addOut gid o) := ⟨rfl, rfl⟩

/-! ## Transfers -/

theorem transfer_memory (s : State) (c : Issue) (f : Nat → W32) : SameMemory s (s.transfer c f) := ⟨rfl, rfl⟩

theorem modLane_gid (g : Group) (l : Nat) (f : Lane → Lane) : (g.modLane l f).gid = g.gid := rfl

theorem foldl_modLane_gid (f : Nat → Lane → Lane) : ∀ (ls : List Nat) (g : Group), (ls.foldl (fun g l => g.modLane l (f l)) g).gid = g.gid
  | [], _ => rfl
  | l :: ls, g => (foldl_modLane_gid f ls (g.modLane l (f l))).trans (modLane_gid g l (f l))

theorem transfer_group?_ne (s : State) (c : Issue) (f : Nat → W32) {h : Nat} (hne : h ≠ c.gid) : (s.transfer c f).group? h = s.group? h :=
  group?_modGroup_ne s _ (fun g => foldl_modLane_gid (fun l x => { x with pc := f l }) (lanesOf c.mask) g) hne

end Sys2Proof
end

