-- ==== Sys2Proof/Laws/Host.lean ====
section
/-!
SUPPORT. What a frame of the host does, said once for all frames: it is taken, dropped, or has no session (R451, R452, R454).
-/
namespace Sys2Proof
open Machine

/-- A frame taken in order runs its command on the state in which its session has accepted it, and lets in what follows. -/
theorem hostFrame_taken {i : Instr} {s u : State} {sid tag : Nat} {ws : List Nat} (h : Taken i s u sid tag ws)
    (run : Nat → List Nat → State → State) : hostFrame i s run = .next ((run tag ws u).closeGap sid) := by
  obtain ⟨h1, h2, h3, seq, x, hw, hs, hf, hd, hq, ht, rfl⟩ := h
  have h6 : ¬ x.seqNext < seq := by omega
  have h7 : s.ev.head 208 8 ∈ frameTypes := by simpa using h3
  simp [hostFrame, h1, h2, h7, hw, hs, hf, hd, h6, ht]

theorem hostCommand_taken {i : Instr} {s u : State} {sid tag : Nat} {ws : List Nat} (h : Taken i s u sid tag ws)
    (run : List Nat → State → State × Nat) :
    hostCommand i s run = .next (((run ws u).1.tell (.ack tag (run ws u).2)).closeGap sid) :=
  hostFrame_taken h _

/-- A command on queues none of which is RESETTING. -/
theorem queueCommand_taken {i : Instr} {s u : State} {sid tag : Nat} {ws : List Nat} (h : Taken i s u sid tag ws)
    (qs : State → List Nat → List Nat) (run : List Nat → State → State × Nat) (hq : ∀ q ∈ qs u ws, u.queueResetting q = false) :
    queueCommand i s qs run = .next (((run ws u).1.tell (.ack tag (run ws u).2)).closeGap sid) := by
  have hn : (qs u ws).find? u.queueResetting = none := by
    rw [List.find?_eq_none]
    intro q hm
    simp [hq q hm]
  unfold queueCommand
  rw [hostFrame_taken h]
  simp only [hn]

/-- A frame that comes after a trip has no effect. -/
theorem hostFrame_tripped {i : Instr} {s : State} (h : s.out.tripped = true) (run : Nat → List Nat → State → State) :
    hostFrame i s run = .next s := by
  unfold hostFrame
  simp only []
  rw [if_pos h]

/-- A frame that fails a check of R451 has no effect. -/
theorem hostFrame_refused {i : Instr} {s : State} {x : Session} (h0 : ((s.ev.words.map fun w => w.toNat).getD 0 0) ≠ acceptedMark)
    (hs : s.session? ((s.ev.words.map fun w => w.toNat).getD 0 0) = some x) (hf : s.ev.frameOk i x = false)
    (run : Nat → List Nat → State → State) : hostFrame i s run = .next s := by
  unfold hostFrame
  simp only [hs, hf]
  rw [if_neg h0]
  split <;> rfl

/-- A frame that its session drops has no effect. -/
theorem hostFrame_dropped {i : Instr} {s : State} {x : Session} (h0 : ((s.ev.words.map fun w => w.toNat).getD 0 0) ≠ acceptedMark)
    (hs : s.session? ((s.ev.words.map fun w => w.toNat).getD 0 0) = some x) (hd : x.drops ((s.ev.words.map fun w => w.toNat).getD 1 0) = true)
    (run : Nat → List Nat → State → State) : hostFrame i s run = .next s := by
  unfold hostFrame
  simp only [hs, hd, Bool.or_true]
  rw [if_neg h0]
  split <;> rfl

end Sys2Proof
end

