-- ==== Sys2Proof/Laws/Memory.lean ====
section
/-!
SUPPORT. The laws of memory: a byte written reads back and every other byte reads as before, and each operation over memory keeps the
canonical form.
-/
namespace Sys2Proof
open Machine

/-! ## Cells -/

theorem cellsFrom_mono {lo lo' : Nat} (h : lo' ≤ lo) : ∀ {m : List Host.Cell}, cellsFrom lo m = true → cellsFrom lo' m = true
  | [], _ => rfl
  | (k, b) :: r, hm => by
    simp only [cellsFrom, Bool.and_eq_true, decide_eq_true_eq] at hm ⊢
    exact ⟨⟨by omega, hm.1.2⟩, hm.2⟩

theorem cellGet_below : ∀ {m : List Host.Cell} {lo a : Nat}, cellsFrom lo m = true → a < lo → cellGet m a = 0
  | [], _, _, _, _ => rfl
  | (k, b) :: r, lo, a, hm, ha => by
    simp only [cellsFrom, Bool.and_eq_true, decide_eq_true_eq] at hm
    have hk : k ≠ a := by omega
    simp only [cellGet, hk, if_false]
    exact cellGet_below hm.2 (by omega)

theorem cellPut_from : ∀ {m : List Host.Cell} {lo a : Nat} (x : Byte), cellsFrom lo m = true → lo ≤ a → cellsFrom lo (cellPut m a x) = true
  | [], lo, a, x, _, ha => by
    by_cases hx : x = 0#8 <;> simp [cellPut, cellsFrom, hx, ha]
  | (k, b) :: r, lo, a, x, hm, ha => by
    simp only [cellsFrom, Bool.and_eq_true, decide_eq_true_eq] at hm
    obtain ⟨⟨h1, h2⟩, h3⟩ := hm
    have h2 : ¬ b = 0#8 := h2
    rcases Nat.lt_trichotomy a k with h | h | h
    · by_cases hx : x = 0#8
      · simp [cellPut, h, hx, cellsFrom, h1, h2, h3]
      · have : a + 1 ≤ k := h
        simp [cellPut, h, hx, cellsFrom, ha, h2, h3, this]
    · subst h
      by_cases hx : x = 0#8
      · simpa [cellPut, hx] using cellsFrom_mono (by omega) h3
      · simp [cellPut, hx, cellsFrom, ha, h3]
    · have h5 : ¬ a < k := by omega
      have h6 : ¬ a = k := by omega
      simp [cellPut, h5, h6, cellsFrom, h1, h2, cellPut_from x h3 h]

theorem cellPut_wf {m : List Host.Cell} (a : Nat) (x : Byte) (h : Memory.wf m = true) : Memory.wf (cellPut m a x) = true :=
  cellPut_from x h (Nat.zero_le a)

theorem cellGet_put_same : ∀ {m : List Host.Cell} {lo : Nat} (a : Nat) (x : Byte), cellsFrom lo m = true → cellGet (cellPut m a x) a = x
  | [], _, a, x, _ => by by_cases hx : x = 0#8 <;> simp [cellPut, cellGet, hx]
  | (k, b) :: r, lo, a, x, hm => by
    simp only [cellsFrom, Bool.and_eq_true, decide_eq_true_eq] at hm
    rcases Nat.lt_trichotomy a k with h | h | h
    · by_cases hx : x = 0#8
      · have hk : k ≠ a := by omega
        simp [cellPut, h, hx, cellGet, hk, cellGet_below hm.2 (show a < k + 1 by omega)]
      · simp [cellPut, h, hx, cellGet]
    · subst h
      by_cases hx : x = 0#8
      · simp [cellPut, hx, cellGet_below hm.2 (show a < a + 1 by omega)]
      · simp [cellPut, hx, cellGet]
    · have h5 : ¬ a < k := by omega
      have h6 : ¬ a = k := by omega
      have h7 : k ≠ a := by omega
      simp [cellPut, h5, h6, cellGet, h7, cellGet_put_same a x hm.2]

theorem cellGet_put_ne : ∀ (m : List Host.Cell) {a q : Nat} (x : Byte), q ≠ a → cellGet (cellPut m a x) q = cellGet m q
  | [], a, q, x, h => by
    have h' : a ≠ q := fun e => h e.symm
    by_cases hx : x = 0#8 <;> simp [cellPut, cellGet, hx, h']
  | (k, b) :: r, a, q, x, h => by
    have h' : a ≠ q := fun e => h e.symm
    rcases Nat.lt_trichotomy a k with g | g | g
    · by_cases hx : x = 0#8 <;> simp [cellPut, g, hx, cellGet, h']
    · subst g
      by_cases hx : x = 0#8 <;> simp [cellPut, hx, cellGet, h']
    · have h5 : ¬ a < k := by omega
      have h6 : ¬ a = k := by omega
      simp [cellPut, h5, h6, cellGet, cellGet_put_ne r x h]

theorem cellsPut_wf : ∀ {m : List Host.Cell} (a : Nat) (bs : List Byte), Memory.wf m = true → Memory.wf (cellsPut m a bs) = true
  | _, _, [], h => h
  | _, a, b :: bs, h => cellsPut_wf (a + 1) bs (cellPut_wf a b h)

theorem cellGet_puts_outside : ∀ (m : List Host.Cell) (a : Nat) (bs : List Byte) {q : Nat}, q < a ∨ a + bs.length ≤ q →
    cellGet (cellsPut m a bs) q = cellGet m q
  | _, _, [], _, _ => rfl
  | m, a, b :: bs, q, h => by
    simp only [List.length_cons] at h
    rw [cellsPut, cellGet_puts_outside _ _ _ (by omega), cellGet_put_ne m b (by omega)]

theorem cellGet_puts_inside : ∀ {m : List Host.Cell} (a : Nat) (bs : List Byte), Memory.wf m = true → ∀ i < bs.length,
    cellGet (cellsPut m a bs) (a + i) = bs.getD i 0
  | _, _, [], _, _, h => absurd h (by simp)
  | m, a, b :: bs, hm, 0, _ => by
    rw [cellsPut, cellGet_puts_outside _ _ _ (by omega)]
    simpa using cellGet_put_same a b hm
  | m, a, b :: bs, hm, i + 1, h => by
    have := cellGet_puts_inside (a + 1) bs (cellPut_wf a b hm) i (by simpa using h)
    rw [cellsPut, show a + (i + 1) = a + 1 + i by omega, this]
    simp

theorem cellsFrom_filter (p : Host.Cell → Bool) : ∀ {m : List Host.Cell} {lo : Nat}, cellsFrom lo m = true → cellsFrom lo (m.filter p) = true
  | [], _, _ => rfl
  | (k, b) :: r, lo, hm => by
    simp only [cellsFrom, Bool.and_eq_true, decide_eq_true_eq] at hm
    have ih := cellsFrom_filter p hm.2
    rw [List.filter_cons]
    split
    · simp only [cellsFrom, Bool.and_eq_true, decide_eq_true_eq]
      exact ⟨hm.1, ih⟩
    · exact cellsFrom_mono (by omega) ih

theorem wf_filter (p : Host.Cell → Bool) {m : List Host.Cell} (h : Memory.wf m = true) : Memory.wf (m.filter p) = true := cellsFrom_filter p h

theorem wf_foldl_put {α : Type} (k : α → Nat) (x : α → Byte) : ∀ (l : List α) {m : List Host.Cell}, Memory.wf m = true →
    Memory.wf (l.foldl (fun m c => cellPut m (k c) (x c)) m) = true
  | [], _, h => h
  | _ :: l, _, h => wf_foldl_put k x l (cellPut_wf _ _ h)

/-! ## Memory and stash -/

/-- Both memories keep the canonical form. -/
def Canon (m : MemState) : Prop := Memory.wf m.bytes = true ∧ Memory.wf m.stash = true

theorem canon_bytes {m : MemState} {b : List Host.Cell} (hb : Memory.wf b = true) (h : Canon m) : Canon { m with bytes := b } := ⟨hb, h.2⟩

theorem canon_stash {m : MemState} {b : List Host.Cell} (hb : Memory.wf b = true) (h : Canon m) : Canon { m with stash := b } := ⟨h.1, hb⟩

theorem memInv_iff (s : State) : MemInv s ↔ Canon s.mem := Iff.rfl

theorem writeBack_canon {m : MemState} (l : StashLine) (h : Canon m) : Canon (m.writeBack l) := by
  unfold MemState.writeBack
  split
  · exact canon_bytes (cellsPut_wf _ _ h.1) h
  · exact h

theorem writeBacks_canon : ∀ (ls : List StashLine) {m : MemState}, Canon m → Canon (ls.foldl (fun m l => m.writeBack l) m)
  | [], _, h => h
  | l :: ls, _, h => writeBacks_canon ls (writeBack_canon l h)

/-! ## What asks a slice changes neither memory -/

/-- The two memories of a state. -/
def store (s : State) : List Host.Cell × List Host.Cell := (s.mem.bytes, s.mem.stash)

theorem memInv_store {s t : State} (e : store t = store s) (h : MemInv s) : MemInv t := by
  simp only [store, Prod.mk.injEq] at e
  unfold MemInv
  rw [e.1, e.2]
  exact h

theorem foldl_store {α : Type} {f : State → α → State} (h : ∀ s x, store (f s x) = store s) : ∀ (l : List α) (s : State),
    store (l.foldl f s) = store s
  | [], _ => rfl
  | x :: l, s => by rw [List.foldl_cons, foldl_store h l, h]

@[simp] theorem askSlice_store (s : State) (die unit : Nat) (secs : BitVec 4) (line : Nat) (op : SliceOp) (ctx cp code rrate : Nat) :
    store (s.askSlice die unit secs line op ctx cp code rrate) = store s := rfl

@[simp] theorem askLines_store (s : State) (die unit : Nat) (pas : List Nat) (op : SliceOp) (ctx : Nat) :
    store (s.askLines die unit pas op ctx) = store s := by
  unfold State.askLines
  exact foldl_store (fun s l => askSlice_store s die unit _ l op ctx 0 30 2048) _ s

@[simp] theorem l1DropPas_store (s : State) (die core : Nat) (pas : List Nat) :
    store (s.l1DropPas die core pas) = store s := by
  unfold State.l1DropPas
  exact foldl_store (f := fun s l => s.l1DropLine die core l) (fun _ _ => rfl) _ s

@[simp] theorem askBack_store (s : State) (l : StashLine) : store (s.askBack l) = store s := by
  unfold State.askBack
  split <;> rfl

@[simp] theorem modLine_store (s : State) (l : CacheLine) (f : CacheLine → CacheLine) : store (s.modLine l f) = store s := rfl
@[simp] theorem dropCacheLine_store (s : State) (l : CacheLine) : store (s.dropCacheLine l) = store s := rfl
@[simp] theorem putLine_store (s : State) (level : Level) (die unit set way line : Nat) (f : FillInfo) :
    store (s.putLine level die unit set way line f) = store s := rfl

@[simp] theorem countCache_store (s : State) (level : Level) (die unit : Nat) (refused : Bool) :
    store (s.countCache level die unit refused) = store s := by
  unfold State.countCache State.modMem store
  simp only []
  split <;> rfl

@[simp] theorem tauWindow_store (s : State) (ctx die : Nat) : store (s.tauWindow ctx die) = store s := by
  unfold State.tauWindow
  split
  · rfl
  · simp only []
    split <;> rfl

@[simp] theorem closeTrial_store (s : State) (ctx die : Nat) (kept : Bool) : store (s.closeTrial ctx die kept) = store s :=
  tauWindow_store s ctx die

@[simp] theorem findLapsed_store (s : State) (die site set : Nat) : store (s.findLapsed die site set) = store s := by
  refine foldl_store (fun s l => ?_) _ s
  split <;> simp

@[simp] theorem hitLine_store (s : State) (l : CacheLine) (delta : Option Nat) (secs dirty : BitVec 4) (noMsc : Bool) :
    store (s.hitLine l delta secs dirty noMsc) = store s := by
  unfold State.hitLine
  simp only [modLine_store]
  split <;> simp

@[simp] theorem fillMsc_store (s : State) (die site line : Nat) (f : FillInfo) : store (s.fillMsc die site line f) = store s := by
  unfold State.fillMsc
  simp only []
  split
  · simp
  · split <;> simp

@[simp] theorem atMsc_store (s : State) (die site line : Nat) (alloc : Bool) (f : FillInfo) :
    store (s.atMsc die site line alloc f) = store s := by
  unfold State.atMsc
  split
  · simp
  · split <;> simp

@[simp] theorem evictL2_store (s : State) (l : CacheLine) : store (s.evictL2 l) = store s := by
  unfold State.evictL2
  simp only []
  split <;> split <;> simp

@[simp] theorem fillL2_store (s : State) (die site line : Nat) (f : FillInfo) : store (s.fillL2 die site line f).1 = store s := by
  unfold State.fillL2
  simp only []
  split
  · simp
  · split <;> simp

@[simp] theorem pinL2_store (s : State) (die site line ctx : Nat) : store (s.pinL2 die site line ctx).1 = store s := by
  unfold State.pinL2
  split
  · rfl
  · split
    · rfl
    · split <;> simp

@[simp] theorem unpinL2_store (s : State) (die site line ctx : Nat) : store (s.unpinL2 die site line ctx).1 = store s := by
  unfold State.unpinL2
  split
  · rfl
  · split <;> simp

@[simp] theorem redResident_store (s : State) (die site line : Nat) (f : FillInfo) :
    store (s.redResident die site line f).1 = store s := by
  unfold State.redResident
  repeat' (first | split | simp only [])
  all_goals simp

@[simp] theorem sliceAccess_store (s : State) (r : SliceReq) (cp : Nat) (write walk : Bool) :
    store (s.sliceAccess r cp write walk) = store s := by
  unfold State.sliceAccess
  repeat' (first | split | simp only [])
  all_goals simp

@[simp] theorem serveReq_store (s : State) (r : SliceReq) : store (s.serveReq r) = store s := by
  unfold State.serveReq
  repeat' (first | split | simp only [])
  all_goals simp

@[simp] theorem drainSet_store (s : State) (line : Nat) : store (s.drainSet line) = store s := by
  unfold State.drainSet
  simp only []
  rw [foldl_store (fun s q => serveReq_store s q)]
  rfl

/-! ## Memory operations keep the form -/

theorem probeLoad_canon {m : MemState} (p : Nat) (h : Canon m) : Canon (m.probeLoad p) := by
  unfold MemState.probeLoad
  split
  · exact h
  · exact writeBack_canon _ h

theorem probeStore_canon {m : MemState} (p : Nat) (h : Canon m) : Canon (m.probeStore p) := probeLoad_canon p h

theorem clearStash_canon {m : MemState} (b : Band) (h : Canon m) : Canon (m.clearStash b) := ⟨h.1, wf_filter _ h.2⟩

theorem writeBack_inv {s : State} (l : StashLine) (h : MemInv s) : MemInv (s.writeBack l) :=
  memInv_store (askBack_store _ l) (writeBack_canon l h)

theorem probeLoad_inv {s : State} (p : Nat) (h : MemInv s) : MemInv (s.probeLoad p) := by
  unfold State.probeLoad
  split
  · exact h
  · exact memInv_store (askBack_store _ _) (probeLoad_canon p h)

theorem probeStore_inv {s : State} (p : Nat) (h : MemInv s) : MemInv (s.probeStore p) := by
  unfold State.probeStore
  simp only []
  split
  · exact probeStore_canon p h
  · exact memInv_store (askBack_store _ _) (probeStore_canon p h)

theorem takeSector_inv {s : State} (ctx pa : Nat) (h : MemInv s) : MemInv (s.takeSector ctx pa) := by
  unfold State.takeSector
  split
  · exact h
  · split
    · split
      · exact h
      · exact canon_bytes (cellsPut_wf (pa / 32 * 32) ((List.range 32).map fun i => s.readPa ctx (pa / 32 * 32 + i)) h.1) h
    · split
      · exact h
      · exact h

theorem writePa_inv {s : State} (ctx pa : Nat) (x : Byte) (h : MemInv s) : MemInv (s.writePa ctx pa x) := by
  have h1 : MemInv (s.probeStore (pa / 128)) := probeStore_inv _ h
  have h2 := takeSector_inv ctx pa h1
  exact canon_bytes (cellPut_wf pa x h2.1) h2

theorem writeStash_inv {s : State} (die core off : Nat) (x : Byte) (h : MemInv s) : MemInv (s.writeStash die core off x) := by
  unfold State.writeStash
  simp only []
  have h1 : Canon { s.mem with stash := cellPut s.mem.stash (stashKey die core off) x } := canon_stash (cellPut_wf _ x h.2) h
  split <;> exact h1

theorem writePlace_inv {s : State} (ctx : Nat) (p : Place) (x : Byte) (h : MemInv s) : MemInv (s.writePlace ctx p x) := by
  unfold State.writePlace
  split
  · exact writePa_inv _ _ _ h
  · simp only []
    split
    · exact takeSector_inv _ _ (writeStash_inv _ _ _ _ h)
    · exact writeStash_inv _ _ _ _ h
  · exact h

theorem writePlaces_inv (ctx : Nat) : ∀ (ps : List Place) (bs : List Byte) {s : State}, MemInv s → MemInv (s.writePlaces ctx ps bs)
  | [], _, _, h => h
  | _ :: _, [], _, h => h
  | p :: ps, b :: bs, _, h => writePlaces_inv ctx ps bs (writePlace_inv ctx p b h)

theorem writePas_inv (ctx : Nat) : ∀ (ps : List Nat) (bs : List Byte) {s : State}, MemInv s → MemInv (s.writePas ctx ps bs)
  | [], _, _, h => h
  | _ :: _, [], _, h => h
  | p :: ps, b :: bs, _, h => writePas_inv ctx ps bs (writePa_inv ctx p b h)

theorem walkEnd_inv {s : State} (die core ctx va : Nat) (rd wr : Bool) (h : MemInv s) : MemInv (s.walkEnd die core ctx va rd wr).1 := by
  have h0 : MemInv (s.askLines die unitWalker (s.walkReads ctx va) .walk ctx) := memInv_store (askLines_store s die unitWalker _ _ ctx) h
  unfold State.walkEnd
  split
  · exact h
  · simp only []
    split
    · exact h0
    · rename_i c l _
      have hs : ∀ (u : State) (p b : Byte), MemInv u → MemInv (if b = p then u else u.writePa ctx l.leafPa b) := by
        intro u p b hu
        split
        · exact hu
        · exact writePa_inv _ _ _ hu
      have hi : ∀ (u : State) (k : Leaf), MemInv u → MemInv (u.installed k).1 := by
        intro u k hu
        unfold State.installed
        split <;> exact hu
      exact hi _ l (hs _ (s.readPa ctx l.leafPa) (if wr then s.readPa ctx l.leafPa ||| 0x18 else s.readPa ctx l.leafPa ||| 0x08) h0)

theorem translate_inv {s : State} (die core ctx va : Nat) (heap rd wr : Bool) (h : MemInv s) :
    MemInv (s.translate die core ctx va heap rd wr).1 := by
  have hw := walkEnd_inv die core ctx va rd wr h
  unfold State.translate
  split
  · exact h
  · exact h
  · split <;> rename_i he <;> rw [he] at hw <;> exact hw

theorem translateN_inv (die core ctx : Nat) (rd wr : Bool) : ∀ (n va : Nat) {s : State}, MemInv s →
    MemInv (s.translateN die core ctx rd wr n va).1
  | 0, _, _, h => h
  | n + 1, va, s, h => by
    have h1 := translate_inv die core ctx va true rd wr h
    unfold State.translateN
    split
    · rename_i he; rw [he] at h1; exact h1
    · rename_i s1 pa he
      rw [he] at h1
      have h2 := translateN_inv die core ctx rd wr n (va + 1) h1
      split <;> rename_i hf <;> rw [hf] at h2 <;> exact h2

theorem readGlb_inv {s : State} (die core ctx va n : Nat) (h : MemInv s) : MemInv (s.readGlb die core ctx va n).1 := by
  have h1 := translateN_inv die core ctx true false n va h
  unfold State.readGlb
  split <;> rename_i he <;> rw [he] at h1
  · exact h1
  · exact memInv_store (by simp) h1

theorem writeGlb_inv {s : State} (die core ctx va : Nat) (bs : List Byte) (h : MemInv s) : MemInv (s.writeGlb die core ctx va bs).1 := by
  have h1 := translateN_inv die core ctx false true bs.length va h
  unfold State.writeGlb
  split <;> rename_i he <;> rw [he] at h1
  · exact h1
  · exact memInv_store ((l1DropPas_store _ die core _).trans (askLines_store _ die core _ .write ctx)) (writePas_inv ctx _ bs h1)

theorem cleanLine_inv {s : State} (band line : Nat) (h : MemInv s) : MemInv (s.cleanLine band line) := by
  unfold State.cleanLine
  simp only []
  refine memInv_store (s := State.drainSet _ line) rfl (memInv_store (drainSet_store _ line) ?_)
  split
  · exact writeBack_inv _ h
  · exact h

theorem fillStashLine_inv {s : State} (die core sline band ctx pline : Nat) (h : MemInv s) :
    MemInv (s.fillStashLine die core sline band ctx pline) :=
  have h1 := probeLoad_inv pline h
  canon_stash (m := (s.probeLoad pline).mem) (cellsPut_wf _ ((s.probeLoad pline).lineBytes ctx pline) h1.2) h1

theorem layerOff_inv {s : State} (x : Nat × Nat) (h : MemInv s) : MemInv (s.layerOff x) := ⟨wf_filter _ h.1, h.2⟩

theorem foldl_inv {α : Type} (g : State → α → State) (hg : ∀ t x, MemInv t → MemInv (g t x)) :
    ∀ (l : List α) {t : State}, MemInv t → MemInv (l.foldl g t)
  | [], _, h => h
  | x :: l, _, h => foldl_inv g hg l (hg _ x h)

theorem reset_memInv : MemInv State.reset := ⟨rfl, rfl⟩

end Sys2Proof
end

