-- ==== Sys2Proof/Laws/PerInstr.lean ====
section
/-!
SUPPORT. What holds of every instruction as syntax, one lemma per constructor: the first word of its encoding holds the control fields that it was
encoded with (R61).
-/
namespace Sys2Proof.Laws.CtlWords
open Sys2Proof

/-- The first word of the encoding of `i`, where it has one, holds the control fields `c`. -/
def Statement (i : Instr) : Prop := ∀ c : Ctl, match encode c i with
  | some (w :: _) => ctlOf w.toNat = c
  | _ => True

theorem fwcall (k : BitVec 18) : Statement (.fwcall k) := fun c => ctlOf_bodyOf_3w18 c 0x00000004 k (by decide)
theorem trap (k : BitVec 18) : Statement (.trap k) := fun c => ctlOf_bodyOf_3w18 c 0x00000005 k (by decide)
theorem bkpt (k : BitVec 18) : Statement (.bkpt k) := fun c => ctlOf_bodyOf_3w18 c 0x00000006 k (by decide)
theorem undef (x : BitVec 18) : Statement (.undef x) := fun c => ctlOf_bodyOf_3w18 c 0x00000007 x (by decide)
theorem undefMajor (x : BitVec 21) : Statement (.undefMajor x) := fun c => ctlOf_bodyOf_0w21 c 0x07E00000 x (by decide)
theorem iadd (d a b : BitVec 6) : Statement (.iadd d a b) := fun c => ctlOf_bodyOf_15_9_3 c 0x00200000 d a b (by decide)
theorem isub (d a b : BitVec 6) : Statement (.isub d a b) := fun c => ctlOf_bodyOf_15_9_3 c 0x00200001 d a b (by decide)
theorem imin (d a b : BitVec 6) : Statement (.imin d a b) := fun c => ctlOf_bodyOf_15_9_3 c 0x00200002 d a b (by decide)
theorem imax (d a b : BitVec 6) : Statement (.imax d a b) := fun c => ctlOf_bodyOf_15_9_3 c 0x00200003 d a b (by decide)
theorem iminu (d a b : BitVec 6) : Statement (.iminu d a b) := fun c => ctlOf_bodyOf_15_9_3 c 0x00200004 d a b (by decide)
theorem imaxu (d a b : BitVec 6) : Statement (.imaxu d a b) := fun c => ctlOf_bodyOf_15_9_3 c 0x00200005 d a b (by decide)
theorem iabsd (d a b : BitVec 6) : Statement (.iabsd d a b) := fun c => ctlOf_bodyOf_15_9_3 c 0x00200006 d a b (by decide)
theorem iaddc (d a b : BitVec 6) : Statement (.iaddc d a b) := fun c => ctlOf_bodyOf_15_9_3 c 0x00200007 d a b (by decide)
theorem imul (d a b : BitVec 6) : Statement (.imul d a b) := fun c => ctlOf_bodyOf_15_9_3 c 0x00400000 d a b (by decide)
theorem imulh (d a b : BitVec 6) : Statement (.imulh d a b) := fun c => ctlOf_bodyOf_15_9_3 c 0x00400001 d a b (by decide)
theorem imulhu (d a b : BitVec 6) : Statement (.imulhu d a b) := fun c => ctlOf_bodyOf_15_9_3 c 0x00400002 d a b (by decide)
theorem imad (d a b : BitVec 6) : Statement (.imad d a b) := fun c => ctlOf_bodyOf_15_9_3 c 0x00400003 d a b (by decide)
theorem idiv (d a b : BitVec 6) : Statement (.idiv d a b) := fun c => ctlOf_bodyOf_15_9_3 c 0x00400004 d a b (by decide)
theorem idivu (d a b : BitVec 6) : Statement (.idivu d a b) := fun c => ctlOf_bodyOf_15_9_3 c 0x00400005 d a b (by decide)
theorem irem (d a b : BitVec 6) : Statement (.irem d a b) := fun c => ctlOf_bodyOf_15_9_3 c 0x00400006 d a b (by decide)
theorem iremu (d a b : BitVec 6) : Statement (.iremu d a b) := fun c => ctlOf_bodyOf_15_9_3 c 0x00400007 d a b (by decide)
theorem andd (d a b : BitVec 6) : Statement (.andd d a b) := fun c => ctlOf_bodyOf_15_9_3 c 0x00600000 d a b (by decide)
theorem orr (d a b : BitVec 6) : Statement (.orr d a b) := fun c => ctlOf_bodyOf_15_9_3 c 0x00600001 d a b (by decide)
theorem xor (d a b : BitVec 6) : Statement (.xor d a b) := fun c => ctlOf_bodyOf_15_9_3 c 0x00600002 d a b (by decide)
theorem andn (d a b : BitVec 6) : Statement (.andn d a b) := fun c => ctlOf_bodyOf_15_9_3 c 0x00600003 d a b (by decide)
theorem orn (d a b : BitVec 6) : Statement (.orn d a b) := fun c => ctlOf_bodyOf_15_9_3 c 0x00600004 d a b (by decide)
theorem xnor (d a b : BitVec 6) : Statement (.xnor d a b) := fun c => ctlOf_bodyOf_15_9_3 c 0x00600005 d a b (by decide)
theorem notb (d a : BitVec 6) : Statement (.notb d a) := fun c => ctlOf_bodyOf_15_9 c 0x00600006 d a (by decide)
theorem shl (d a b : BitVec 6) : Statement (.shl d a b) := fun c => ctlOf_bodyOf_15_9_3 c 0x00800000 d a b (by decide)
theorem shr (d a b : BitVec 6) : Statement (.shr d a b) := fun c => ctlOf_bodyOf_15_9_3 c 0x00800001 d a b (by decide)
theorem sar (d a b : BitVec 6) : Statement (.sar d a b) := fun c => ctlOf_bodyOf_15_9_3 c 0x00800002 d a b (by decide)
theorem rol (d a b : BitVec 6) : Statement (.rol d a b) := fun c => ctlOf_bodyOf_15_9_3 c 0x00800003 d a b (by decide)
theorem ror (d a b : BitVec 6) : Statement (.ror d a b) := fun c => ctlOf_bodyOf_15_9_3 c 0x00800004 d a b (by decide)
theorem fshl (d a b : BitVec 6) : Statement (.fshl d a b) := fun c => ctlOf_bodyOf_15_9_3 c 0x00800005 d a b (by decide)
theorem fshr (d a b : BitVec 6) : Statement (.fshr d a b) := fun c => ctlOf_bodyOf_15_9_3 c 0x00800006 d a b (by decide)
theorem clz (d a : BitVec 6) : Statement (.clz d a) := fun c => ctlOf_bodyOf_15_9 c 0x00A00000 d a (by decide)
theorem ctz (d a : BitVec 6) : Statement (.ctz d a) := fun c => ctlOf_bodyOf_15_9 c 0x00A00001 d a (by decide)
theorem popc (d a : BitVec 6) : Statement (.popc d a) := fun c => ctlOf_bodyOf_15_9 c 0x00A00002 d a (by decide)
theorem brev (d a : BitVec 6) : Statement (.brev d a) := fun c => ctlOf_bodyOf_15_9 c 0x00A00003 d a (by decide)
theorem bitil (d a sp : BitVec 6) : Statement (.bitil d a sp) := fun c => ctlOf_bodyOf_15_9_3 c 0x00A00004 d a sp (by decide)
theorem bitdl (d a sp : BitVec 6) : Statement (.bitdl d a sp) := fun c => ctlOf_bodyOf_15_9_3 c 0x00A00005 d a sp (by decide)
theorem bytep (d a b : BitVec 6) : Statement (.bytep d a b) := fun c => ctlOf_bodyOf_15_9_3 c 0x00A00006 d a b (by decide)
theorem bfe (d a b : BitVec 6) : Statement (.bfe d a b) := fun c => ctlOf_bodyOf_15_9_3 c 0x00C00000 d a b (by decide)
theorem bfeu (d a b : BitVec 6) : Statement (.bfeu d a b) := fun c => ctlOf_bodyOf_15_9_3 c 0x00C00001 d a b (by decide)
theorem bfi (d a b : BitVec 6) : Statement (.bfi d a b) := fun c => ctlOf_bodyOf_15_9_3 c 0x00C00002 d a b (by decide)
theorem icmp (d a b : BitVec 6) (k : BitVec 3) : Statement (.icmp d a b k) := fun c => ctlOf_bodyOf_15_9_3_0w6w6w6w3 c 0x00E00000 d a b k (by decide)
theorem iaddi (d a : BitVec 6) (i : BitVec 9) : Statement (.iaddi d a i) := fun c => ctlOf_bodyOf_15_9_0w6w6w9 c 0x01000000 d a i (by decide)
theorem iandi (d a : BitVec 6) (i : BitVec 9) : Statement (.iandi d a i) := fun c => ctlOf_bodyOf_15_9_0w6w6w9 c 0x01200000 d a i (by decide)
theorem iori (d a : BitVec 6) (i : BitVec 9) : Statement (.iori d a i) := fun c => ctlOf_bodyOf_15_9_0w6w6w9 c 0x01400000 d a i (by decide)
theorem ixori (d a : BitVec 6) (i : BitVec 9) : Statement (.ixori d a i) := fun c => ctlOf_bodyOf_15_9_0w6w6w9 c 0x01600000 d a i (by decide)
theorem shli (d a : BitVec 6) (n : BitVec 5) : Statement (.shli d a n) := fun c => ctlOf_bodyOf_15_9_0w6w6w5 c 0x01800000 d a n (by decide)
theorem shri (d a : BitVec 6) (n : BitVec 5) : Statement (.shri d a n) := fun c => ctlOf_bodyOf_15_9_0w6w6w5 c 0x01800080 d a n (by decide)
theorem sari (d a : BitVec 6) (n : BitVec 5) : Statement (.sari d a n) := fun c => ctlOf_bodyOf_15_9_0w6w6w5 c 0x01800100 d a n (by decide)
theorem roli (d a : BitVec 6) (n : BitVec 5) : Statement (.roli d a n) := fun c => ctlOf_bodyOf_15_9_0w6w6w5 c 0x01800180 d a n (by decide)
theorem icmpi (k p : BitVec 3) (a : BitVec 6) (i : BitVec 9) : Statement (.icmpi k p a i) := fun c => ctlOf_bodyOf_18_15_9_0w3w3w6w9 c 0x01A00000 k p a i (by decide)
theorem lea (d a b : BitVec 6) (f : BitVec 3) : Statement (.lea d a b f) := fun c => ctlOf_bodyOf_15_9_3_0w6w6w6w3 c 0x01C00000 d a b f (by decide)
theorem movi (d : BitVec 6) (i : BitVec 15) : Statement (.movi d i) := fun c => ctlOf_bodyOf_15_0w6w15 c 0x01E00000 d i (by decide)
theorem movl (d : BitVec 6) (lit : BitVec 32) : Statement (.movl d lit) := fun c => ctlOf_bodyOf_15 c 0x02000000 d (by decide)
theorem movlSx (d : BitVec 6) (lit : BitVec 32) : Statement (.movlSx d lit) := fun c => ctlOf_bodyOf_15 c 0x02000001 d (by decide)
theorem movlZx (d : BitVec 6) (lit : BitVec 32) : Statement (.movlZx d lit) := fun c => ctlOf_bodyOf_15 c 0x02000002 d (by decide)
theorem movlHi (d : BitVec 6) (lit : BitVec 32) : Statement (.movlHi d lit) := fun c => ctlOf_bodyOf_15 c 0x02000003 d (by decide)
theorem fadd (d a b : BitVec 6) : Statement (.fadd d a b) := fun c => ctlOf_bodyOf_15_9_3 c 0x02200000 d a b (by decide)
theorem fsub (d a b : BitVec 6) : Statement (.fsub d a b) := fun c => ctlOf_bodyOf_15_9_3 c 0x02200001 d a b (by decide)
theorem fmul (d a b : BitVec 6) : Statement (.fmul d a b) := fun c => ctlOf_bodyOf_15_9_3 c 0x02200002 d a b (by decide)
theorem fmin (d a b : BitVec 6) : Statement (.fmin d a b) := fun c => ctlOf_bodyOf_15_9_3 c 0x02200003 d a b (by decide)
theorem fmax (d a b : BitVec 6) : Statement (.fmax d a b) := fun c => ctlOf_bodyOf_15_9_3 c 0x02200004 d a b (by decide)
theorem fminm (d a b : BitVec 6) : Statement (.fminm d a b) := fun c => ctlOf_bodyOf_15_9_3 c 0x02200005 d a b (by decide)
theorem fmaxm (d a b : BitVec 6) : Statement (.fmaxm d a b) := fun c => ctlOf_bodyOf_15_9_3 c 0x02200006 d a b (by decide)
theorem fabsd (d a b : BitVec 6) : Statement (.fabsd d a b) := fun c => ctlOf_bodyOf_15_9_3 c 0x02200007 d a b (by decide)
theorem ffma (d a b : BitVec 6) : Statement (.ffma d a b) := fun c => ctlOf_bodyOf_15_9_3 c 0x02400000 d a b (by decide)
theorem ffms (d a b : BitVec 6) : Statement (.ffms d a b) := fun c => ctlOf_bodyOf_15_9_3 c 0x02400001 d a b (by decide)
theorem fnfma (d a b : BitVec 6) : Statement (.fnfma d a b) := fun c => ctlOf_bodyOf_15_9_3 c 0x02400002 d a b (by decide)
theorem fnfms (d a b : BitVec 6) : Statement (.fnfms d a b) := fun c => ctlOf_bodyOf_15_9_3 c 0x02400003 d a b (by decide)
theorem pkfma (d a b : BitVec 6) : Statement (.pkfma d a b) := fun c => ctlOf_bodyOf_15_9_3 c 0x02400004 d a b (by decide)
theorem pkadd (d a b : BitVec 6) : Statement (.pkadd d a b) := fun c => ctlOf_bodyOf_15_9_3 c 0x02400005 d a b (by decide)
theorem pkmul (d a b : BitVec 6) : Statement (.pkmul d a b) := fun c => ctlOf_bodyOf_15_9_3 c 0x02400006 d a b (by decide)
theorem pkfmaF16 (d a b : BitVec 6) : Statement (.pkfmaF16 d a b) := fun c => ctlOf_bodyOf_15_9_3 c 0x02400007 d a b (by decide)
theorem fcmp (d a b : BitVec 6) (k : BitVec 3) : Statement (.fcmp d a b k) := fun c => ctlOf_bodyOf_15_9_3_0w6w6w6w3 c 0x02600000 d a b k (by decide)
theorem fcvt (d a : BitVec 6) (sp t m : BitVec 3) : Statement (.fcvt d a sp t m) := fun c => ctlOf_bodyOf_15_9_6_3_0w6w6w3w3w3 c 0x02800000 d a sp t m (by decide)
theorem frnd (d a : BitVec 6) (m : BitVec 3) : Statement (.frnd d a m) := fun c => ctlOf_bodyOf_15_9_0w6w6w3 c 0x02A00000 d a m (by decide)
theorem fcvti (d a : BitVec 6) (t m : BitVec 3) : Statement (.fcvti d a t m) := fun c => ctlOf_bodyOf_15_9_3_0w6w6w3w3 c 0x02C00000 d a t m (by decide)
theorem icvtf (d a : BitVec 6) (t m : BitVec 3) : Statement (.icvtf d a t m) := fun c => ctlOf_bodyOf_15_9_3_0w6w6w3w3 c 0x02E00000 d a t m (by decide)
theorem fscaleb (d a b : BitVec 6) : Statement (.fscaleb d a b) := fun c => ctlOf_bodyOf_15_9_3 c 0x03000000 d a b (by decide)
theorem frexpe (d a : BitVec 6) : Statement (.frexpe d a) := fun c => ctlOf_bodyOf_15_9 c 0x03000001 d a (by decide)
theorem frexpm (d a : BitVec 6) : Statement (.frexpm d a) := fun c => ctlOf_bodyOf_15_9 c 0x03000002 d a (by decide)
theorem fclass (d a : BitVec 6) : Statement (.fclass d a) := fun c => ctlOf_bodyOf_15_9 c 0x03000003 d a (by decide)
theorem fsgnj (d a b : BitVec 6) : Statement (.fsgnj d a b) := fun c => ctlOf_bodyOf_15_9_3 c 0x03000004 d a b (by decide)
theorem fsgnjn (d a b : BitVec 6) : Statement (.fsgnjn d a b) := fun c => ctlOf_bodyOf_15_9_3 c 0x03000005 d a b (by decide)
theorem fabs (d a : BitVec 6) : Statement (.fabs d a) := fun c => ctlOf_bodyOf_15_9 c 0x03000006 d a (by decide)
theorem fneg (d a : BitVec 6) : Statement (.fneg d a) := fun c => ctlOf_bodyOf_15_9 c 0x03000007 d a (by decide)
theorem frcp (d a : BitVec 6) : Statement (.frcp d a) := fun c => ctlOf_bodyOf_15_9 c 0x03200000 d a (by decide)
theorem frsq (d a : BitVec 6) : Statement (.frsq d a) := fun c => ctlOf_bodyOf_15_9 c 0x03200001 d a (by decide)
theorem fsqrt (d a : BitVec 6) : Statement (.fsqrt d a) := fun c => ctlOf_bodyOf_15_9 c 0x03200002 d a (by decide)
theorem fexp2 (d a : BitVec 6) : Statement (.fexp2 d a) := fun c => ctlOf_bodyOf_15_9 c 0x03200003 d a (by decide)
theorem flog2 (d a : BitVec 6) : Statement (.flog2 d a) := fun c => ctlOf_bodyOf_15_9 c 0x03200004 d a (by decide)
theorem fsint (d a : BitVec 6) : Statement (.fsint d a) := fun c => ctlOf_bodyOf_15_9 c 0x03200005 d a (by decide)
theorem fcost (d a : BitVec 6) : Statement (.fcost d a) := fun c => ctlOf_bodyOf_15_9 c 0x03200006 d a (by decide)
theorem ftanh (d a : BitVec 6) : Statement (.ftanh d a) := fun c => ctlOf_bodyOf_15_9 c 0x03200007 d a (by decide)
theorem fdiv (d a b : BitVec 6) : Statement (.fdiv d a b) := fun c => ctlOf_bodyOf_15_9_3 c 0x03400000 d a b (by decide)
theorem fsincosT (d a : BitVec 6) : Statement (.fsincosT d a) := fun c => ctlOf_bodyOf_15_9 c 0x03400001 d a (by decide)
theorem ferf (d a : BitVec 6) : Statement (.ferf d a) := fun c => ctlOf_bodyOf_15_9 c 0x03400002 d a (by decide)
theorem shflIdx (d a b : BitVec 6) : Statement (.shflIdx d a b) := fun c => ctlOf_bodyOf_15_9_3 c 0x03600000 d a b (by decide)
theorem shflUp (d a b : BitVec 6) : Statement (.shflUp d a b) := fun c => ctlOf_bodyOf_15_9_3 c 0x03600001 d a b (by decide)
theorem shflDown (d a b : BitVec 6) : Statement (.shflDown d a b) := fun c => ctlOf_bodyOf_15_9_3 c 0x03600002 d a b (by decide)
theorem shflXor (d a b : BitVec 6) : Statement (.shflXor d a b) := fun c => ctlOf_bodyOf_15_9_3 c 0x03600003 d a b (by decide)
theorem voteAll (d a : BitVec 6) : Statement (.voteAll d a) := fun c => ctlOf_bodyOf_15_9 c 0x03800000 d a (by decide)
theorem voteAny (d a : BitVec 6) : Statement (.voteAny d a) := fun c => ctlOf_bodyOf_15_9 c 0x03800001 d a (by decide)
theorem voteBal (d a : BitVec 6) : Statement (.voteBal d a) := fun c => ctlOf_bodyOf_15_9 c 0x03800002 d a (by decide)
theorem matchLanes (d a : BitVec 6) : Statement (.matchLanes d a) := fun c => ctlOf_bodyOf_15_9 c 0x03800003 d a (by decide)
theorem lredAdd (d a : BitVec 6) : Statement (.lredAdd d a) := fun c => ctlOf_bodyOf_15_9 c 0x03800004 d a (by decide)
theorem lredMin (d a : BitVec 6) : Statement (.lredMin d a) := fun c => ctlOf_bodyOf_15_9 c 0x03800005 d a (by decide)
theorem lredMax (d a : BitVec 6) : Statement (.lredMax d a) := fun c => ctlOf_bodyOf_15_9 c 0x03800006 d a (by decide)
theorem lscanAdd (d a : BitVec 6) : Statement (.lscanAdd d a) := fun c => ctlOf_bodyOf_15_9 c 0x03800007 d a (by decide)
theorem mov (d a : BitVec 6) : Statement (.mov d a) := fun c => ctlOf_bodyOf_15_9 c 0x03A00000 d a (by decide)
theorem movs (d a : BitVec 6) (h : BitVec 1) : Statement (.movs d a h) := fun c => ctlOf_bodyOf_15_9_3w6w6w1 c 0x03A00001 d a h (by decide)
theorem smov (d a : BitVec 6) : Statement (.smov d a) := fun c => ctlOf_bodyOf_15_9 c 0x03A00002 d a (by decide)
theorem smovs (d a : BitVec 6) : Statement (.smovs d a) := fun c => ctlOf_bodyOf_15_9 c 0x03A00003 d a (by decide)
theorem sel (d a : BitVec 6) (n : BitVec 1) (k : BitVec 3) : Statement (.sel d a n k) := fun c => ctlOf_bodyOf_15_9_6_3w6w6w1w3 c 0x03A00004 d a n k (by decide)
theorem pmovPFromV (d a : BitVec 6) : Statement (.pmovPFromV d a) := fun c => ctlOf_bodyOf_15_9 c 0x03A00005 d a (by decide)
theorem pmovVFromP (d a : BitVec 6) : Statement (.pmovVFromP d a) := fun c => ctlOf_bodyOf_15_9 c 0x03A0000D d a (by decide)
theorem sread (d : BitVec 6) (k h : BitVec 1) (n : BitVec 9) : Statement (.sread d k h n) := fun c => ctlOf_bodyOf_15_14_13_0w6w1w1w9 c 0x03C00000 d k h n (by decide)
theorem sreadTime (d : BitVec 6) (k h : BitVec 1) : Statement (.sreadTime d k h) := fun c => ctlOf_bodyOf_15_14_13w6w1w1 c 0x03C00028 d k h (by decide)
theorem sreadTimef (d : BitVec 6) (k h : BitVec 1) : Statement (.sreadTimef d k h) := fun c => ctlOf_bodyOf_15_14_13w6w1w1 c 0x03C00029 d k h (by decide)
theorem swrite (d : BitVec 6) (k h : BitVec 1) (n : BitVec 9) : Statement (.swrite d k h n) := fun c => ctlOf_bodyOf_15_14_13_0w6w1w1w9 c 0x03E00000 d k h n (by decide)
theorem swriteGst (d : BitVec 6) (k h : BitVec 1) : Statement (.swriteGst d k h) := fun c => ctlOf_bodyOf_15_14_13w6w1w1 c 0x03E00032 d k h (by decide)
theorem swriteRafbase (d : BitVec 6) (k h : BitVec 1) : Statement (.swriteRafbase d k h) := fun c => ctlOf_bodyOf_15_14_13w6w1w1 c 0x03E00120 d k h (by decide)
theorem swriteClkmode (d : BitVec 6) (k h : BitVec 1) : Statement (.swriteClkmode d k h) := fun c => ctlOf_bodyOf_15_14_13w6w1w1 c 0x03E00138 d k h (by decide)
theorem sadd (d a b : BitVec 6) : Statement (.sadd d a b) := fun c => ctlOf_bodyOf_15_9_3 c 0x04000000 d a b (by decide)
theorem ssub (d a b : BitVec 6) : Statement (.ssub d a b) := fun c => ctlOf_bodyOf_15_9_3 c 0x04000001 d a b (by decide)
theorem sand (d a b : BitVec 6) : Statement (.sand d a b) := fun c => ctlOf_bodyOf_15_9_3 c 0x04000002 d a b (by decide)
theorem sor (d a b : BitVec 6) : Statement (.sor d a b) := fun c => ctlOf_bodyOf_15_9_3 c 0x04000003 d a b (by decide)
theorem sxor (d a b : BitVec 6) : Statement (.sxor d a b) := fun c => ctlOf_bodyOf_15_9_3 c 0x04000004 d a b (by decide)
theorem sshl (d a b : BitVec 6) : Statement (.sshl d a b) := fun c => ctlOf_bodyOf_15_9_3 c 0x04000005 d a b (by decide)
theorem sshr (d a b : BitVec 6) : Statement (.sshr d a b) := fun c => ctlOf_bodyOf_15_9_3 c 0x04000006 d a b (by decide)
theorem smul (d a b : BitVec 6) : Statement (.smul d a b) := fun c => ctlOf_bodyOf_15_9_3 c 0x04000007 d a b (by decide)
theorem saddi (d a : BitVec 6) (i : BitVec 9) : Statement (.saddi d a i) := fun c => ctlOf_bodyOf_15_9_0w6w6w9 c 0x04200000 d a i (by decide)
theorem scmp (d a b : BitVec 6) (k : BitVec 3) : Statement (.scmp d a b k) := fun c => ctlOf_bodyOf_15_9_3_0w6w6w6w3 c 0x04400000 d a b k (by decide)
theorem br (k : BitVec 4) (o : BitVec 17) : Statement (.br k o) := fun c => ctlOf_bodyOf_17_0w4w17 c 0x04600000 k o (by decide)
theorem bru (k : BitVec 4) (o : BitVec 17) : Statement (.bru k o) := fun c => ctlOf_bodyOf_17_0w4w17 c 0x04800000 k o (by decide)
theorem call (k : BitVec 4) (o : BitVec 17) : Statement (.call k o) := fun c => ctlOf_bodyOf_17_0w4w17 c 0x04A00000 k o (by decide)
theorem jmpx (a : BitVec 6) : Statement (.jmpx a) := fun c => ctlOf_bodyOf_9 c 0x04C00000 a (by decide)
theorem brj (k : BitVec 4) (j : BitVec 2) (o : BitVec 15) : Statement (.brj k j o) := fun c => ctlOf_bodyOf_17_15_0w4w2w15 c 0x07600000 k j o (by decide)
theorem join (n : BitVec 6) : Statement (.join n) := fun c => ctlOf_bodyOf_3 c 0x04E00000 n (by decide)
theorem spawn (d a b : BitVec 6) : Statement (.spawn d a b) := fun c => ctlOf_bodyOf_15_9_3 c 0x04E00003 d a b (by decide)
theorem setejt (m : BitVec 6) : Statement (.setejt m) := fun c => ctlOf_bodyOf_3 c 0x04E00004 m (by decide)
theorem ld (d a b : BitVec 6) (f : BitVec 3) (m : Attr) : Statement (.ld d a b f m) := fun c => ctlOf_bodyOf_15_9_3_0w6w6w6w3 c 0x05000000 d a b f (by decide)
theorem st (d a b : BitVec 6) (f : BitVec 3) (m : Attr) : Statement (.st d a b f m) := fun c => ctlOf_bodyOf_15_9_3_0w6w6w6w3 c 0x05200000 d a b f (by decide)
theorem lds (d a : BitVec 6) (f : BitVec 3) (m : Attr) : Statement (.lds d a f m) := fun c => ctlOf_bodyOf_15_9_0w6w6w3 c 0x05400000 d a f (by decide)
theorem atomAdd (d a b : BitVec 6) (m : Attr) : Statement (.atomAdd d a b m) := fun c => ctlOf_bodyOf_15_9_3 c 0x05600000 d a b (by decide)
theorem atomMins (d a b : BitVec 6) (m : Attr) : Statement (.atomMins d a b m) := fun c => ctlOf_bodyOf_15_9_3 c 0x05600001 d a b (by decide)
theorem atomMaxs (d a b : BitVec 6) (m : Attr) : Statement (.atomMaxs d a b m) := fun c => ctlOf_bodyOf_15_9_3 c 0x05600002 d a b (by decide)
theorem atomMinu (d a b : BitVec 6) (m : Attr) : Statement (.atomMinu d a b m) := fun c => ctlOf_bodyOf_15_9_3 c 0x05600003 d a b (by decide)
theorem atomMaxu (d a b : BitVec 6) (m : Attr) : Statement (.atomMaxu d a b m) := fun c => ctlOf_bodyOf_15_9_3 c 0x05600004 d a b (by decide)
theorem atomAnd (d a b : BitVec 6) (m : Attr) : Statement (.atomAnd d a b m) := fun c => ctlOf_bodyOf_15_9_3 c 0x05600005 d a b (by decide)
theorem atomOr (d a b : BitVec 6) (m : Attr) : Statement (.atomOr d a b m) := fun c => ctlOf_bodyOf_15_9_3 c 0x05600006 d a b (by decide)
theorem atomXor (d a b : BitVec 6) (m : Attr) : Statement (.atomXor d a b m) := fun c => ctlOf_bodyOf_15_9_3 c 0x05600007 d a b (by decide)
theorem atomxExch (d a b : BitVec 6) (m : Attr) : Statement (.atomxExch d a b m) := fun c => ctlOf_bodyOf_15_9_3 c 0x05800000 d a b (by decide)
theorem atomxCas32 (d a b : BitVec 6) (m : Attr) : Statement (.atomxCas32 d a b m) := fun c => ctlOf_bodyOf_15_9_3 c 0x05800001 d a b (by decide)
theorem atomxCas64 (d a b : BitVec 6) (m : Attr) : Statement (.atomxCas64 d a b m) := fun c => ctlOf_bodyOf_15_9_3 c 0x05800002 d a b (by decide)
theorem atomxCas128 (d a b : BitVec 6) (m : Attr) : Statement (.atomxCas128 d a b m) := fun c => ctlOf_bodyOf_15_9_3 c 0x05800003 d a b (by decide)
theorem atomxFadd32 (d a b : BitVec 6) (m : Attr) : Statement (.atomxFadd32 d a b m) := fun c => ctlOf_bodyOf_15_9_3 c 0x05800004 d a b (by decide)
theorem atomxFmin32 (d a b : BitVec 6) (m : Attr) : Statement (.atomxFmin32 d a b m) := fun c => ctlOf_bodyOf_15_9_3 c 0x05800005 d a b (by decide)
theorem atomxFmax32 (d a b : BitVec 6) (m : Attr) : Statement (.atomxFmax32 d a b m) := fun c => ctlOf_bodyOf_15_9_3 c 0x05800006 d a b (by decide)
theorem redAddI32 (d a b : BitVec 6) (m : Attr) : Statement (.redAddI32 d a b m) := fun c => ctlOf_bodyOf_15_9_3 c 0x05A00000 d a b (by decide)
theorem redAddF32 (d a b : BitVec 6) (m : Attr) : Statement (.redAddF32 d a b m) := fun c => ctlOf_bodyOf_15_9_3 c 0x05A00001 d a b (by decide)
theorem redAddBf16x2 (d a b : BitVec 6) (m : Attr) : Statement (.redAddBf16x2 d a b m) := fun c => ctlOf_bodyOf_15_9_3 c 0x05A00002 d a b (by decide)
theorem redMinF32 (d a b : BitVec 6) (m : Attr) : Statement (.redMinF32 d a b m) := fun c => ctlOf_bodyOf_15_9_3 c 0x05A00003 d a b (by decide)
theorem redMaxF32 (d a b : BitVec 6) (m : Attr) : Statement (.redMaxF32 d a b m) := fun c => ctlOf_bodyOf_15_9_3 c 0x05A00004 d a b (by decide)
theorem redAddI64 (d a b : BitVec 6) (m : Attr) : Statement (.redAddI64 d a b m) := fun c => ctlOf_bodyOf_15_9_3 c 0x05A00005 d a b (by decide)
theorem cachePref (a b : BitVec 6) (m : Attr) : Statement (.cachePref a b m) := fun c => ctlOf_bodyOf_9_3 c 0x05C00000 a b (by decide)
theorem cacheLock (d a b : BitVec 6) (m : Attr) : Statement (.cacheLock d a b m) := fun c => ctlOf_bodyOf_15_9_3 c 0x05C00001 d a b (by decide)
theorem cacheUnlock (d a b : BitVec 6) (m : Attr) : Statement (.cacheUnlock d a b m) := fun c => ctlOf_bodyOf_15_9_3 c 0x05C00002 d a b (by decide)
theorem cacheCwb (a b : BitVec 6) (m : Attr) : Statement (.cacheCwb a b m) := fun c => ctlOf_bodyOf_9_3 c 0x05C00003 a b (by decide)
theorem cacheCinv (a b : BitVec 6) (m : Attr) : Statement (.cacheCinv a b m) := fun c => ctlOf_bodyOf_9_3 c 0x05C00004 a b (by decide)
theorem cacheCwbinv (a b : BitVec 6) (m : Attr) : Statement (.cacheCwbinv a b m) := fun c => ctlOf_bodyOf_9_3 c 0x05C00005 a b (by decide)
theorem stashMap (d a b : BitVec 6) (m : Attr) : Statement (.stashMap d a b m) := fun c => ctlOf_bodyOf_15_9_3 c 0x05E00000 d a b (by decide)
theorem stashUnmap (d a b : BitVec 6) (m : Attr) : Statement (.stashUnmap d a b m) := fun c => ctlOf_bodyOf_15_9_3 c 0x05E00001 d a b (by decide)
theorem stashFlush (d a b : BitVec 6) (m : Attr) : Statement (.stashFlush d a b m) := fun c => ctlOf_bodyOf_15_9_3 c 0x05E00002 d a b (by decide)
theorem stashFill (d a b : BitVec 6) (m : Attr) : Statement (.stashFill d a b m) := fun c => ctlOf_bodyOf_15_9_3 c 0x05E00003 d a b (by decide)
theorem stashQuery (d a b : BitVec 6) (m : Attr) : Statement (.stashQuery d a b m) := fun c => ctlOf_bodyOf_15_9_3 c 0x05E00004 d a b (by decide)
theorem fence (sp : BitVec 3) : Statement (.fence sp) := fun c => ctlOf_bodyOf_3w3 c 0x06000000 sp (by decide)
theorem fenceX (a : BitVec 6) (sp : BitVec 3) : Statement (.fenceX a sp) := fun c => ctlOf_bodyOf_9_3w6w3 c 0x06000001 a sp (by decide)
theorem fenceP (d a : BitVec 6) (sp : BitVec 3) : Statement (.fenceP d a sp) := fun c => ctlOf_bodyOf_15_9_3w6w6w3 c 0x06000002 d a sp (by decide)
theorem redfOrd (n : BitVec 3) : Statement (.redfOrd n) := fun c => ctlOf_bodyOf_3w3 c 0x06000004 n (by decide)
theorem barArrive (a b : BitVec 6) : Statement (.barArrive a b) := fun c => ctlOf_bodyOf_9_3 c 0x06200000 a b (by decide)
theorem barWait (a b : BitVec 6) : Statement (.barWait a b) := fun c => ctlOf_bodyOf_9_3 c 0x06200001 a b (by decide)
theorem barSync (a b : BitVec 6) : Statement (.barSync a b) := fun c => ctlOf_bodyOf_9_3 c 0x06200002 a b (by decide)
theorem barStep (a b : BitVec 6) : Statement (.barStep a b) := fun c => ctlOf_bodyOf_9_3 c 0x06200003 a b (by decide)
theorem barExpect (d a b : BitVec 6) : Statement (.barExpect d a b) := fun c => ctlOf_bodyOf_15_9_3 c 0x06200004 d a b (by decide)
theorem semAcq (a : BitVec 6) : Statement (.semAcq a) := fun c => ctlOf_bodyOf_9 c 0x06400000 a (by decide)
theorem semRel (a : BitVec 6) : Statement (.semRel a) := fun c => ctlOf_bodyOf_9 c 0x06400001 a (by decide)
theorem semTryacq (d a : BitVec 6) : Statement (.semTryacq d a) := fun c => ctlOf_bodyOf_15_9 c 0x06400002 d a (by decide)
theorem semAcqM (a : BitVec 6) : Statement (.semAcqM a) := fun c => ctlOf_bodyOf_9 c 0x06400003 a (by decide)
theorem semRelM (a : BitVec 6) : Statement (.semRelM a) := fun c => ctlOf_bodyOf_9 c 0x06400004 a (by decide)
theorem syncaAlloc (d a : BitVec 6) : Statement (.syncaAlloc d a) := fun c => ctlOf_bodyOf_15_9 c 0x06600000 d a (by decide)
theorem syncaFree (a : BitVec 6) : Statement (.syncaFree a) := fun c => ctlOf_bodyOf_9 c 0x06600001 a (by decide)
theorem qopPush (d b : BitVec 6) : Statement (.qopPush d b) := fun c => ctlOf_bodyOf_15_3 c 0x06800000 d b (by decide)
theorem qopPop (d b : BitVec 6) : Statement (.qopPop d b) := fun c => ctlOf_bodyOf_15_3 c 0x06800001 d b (by decide)
theorem qopTrypush (d a b : BitVec 6) : Statement (.qopTrypush d a b) := fun c => ctlOf_bodyOf_15_9_3 c 0x06800002 d a b (by decide)
theorem qopTrypop (d a b : BitVec 6) : Statement (.qopTrypop d a b) := fun c => ctlOf_bodyOf_15_9_3 c 0x06800003 d a b (by decide)
theorem qopAllow (d b : BitVec 6) : Statement (.qopAllow d b) := fun c => ctlOf_bodyOf_15_3 c 0x06800004 d b (by decide)
theorem qopPeek (d a b : BitVec 6) : Statement (.qopPeek d a b) := fun c => ctlOf_bodyOf_15_9_3 c 0x06800005 d a b (by decide)
theorem wqEnq (d a b : BitVec 6) : Statement (.wqEnq d a b) := fun c => ctlOf_bodyOf_15_9_3 c 0x06A00000 d a b (by decide)
theorem wqDeq (d a : BitVec 6) : Statement (.wqDeq d a) := fun c => ctlOf_bodyOf_15_9 c 0x06A00001 d a (by decide)
theorem wqTrydeq (d a b : BitVec 6) : Statement (.wqTrydeq d a b) := fun c => ctlOf_bodyOf_15_9_3 c 0x06A00002 d a b (by decide)
theorem wqEnqw (d a b : BitVec 6) : Statement (.wqEnqw d a b) := fun c => ctlOf_bodyOf_15_9_3 c 0x06A00003 d a b (by decide)
theorem launch (d a b : BitVec 6) : Statement (.launch d a b) := fun c => ctlOf_bodyOf_15_9_3 c 0x06C00000 d a b (by decide)
theorem amsg (d a b : BitVec 6) : Statement (.amsg d a b) := fun c => ctlOf_bodyOf_15_9_3 c 0x06C00001 d a b (by decide)
theorem chanPost (d a b : BitVec 6) : Statement (.chanPost d a b) := fun c => ctlOf_bodyOf_15_9_3 c 0x06E00000 d a b (by decide)
theorem chanStat (d a : BitVec 6) : Statement (.chanStat d a) := fun c => ctlOf_bodyOf_15_9 c 0x06E00001 d a (by decide)
theorem chanCancel (d a : BitVec 6) : Statement (.chanCancel d a) := fun c => ctlOf_bodyOf_15_9 c 0x06E00002 d a (by decide)
theorem chanColl (d a b : BitVec 6) : Statement (.chanColl d a b) := fun c => ctlOf_bodyOf_15_9_3 c 0x06E00003 d a b (by decide)
theorem crecPoll (d a b : BitVec 6) : Statement (.crecPoll d a b) := fun c => ctlOf_bodyOf_15_9_3 c 0x07000000 d a b (by decide)
theorem crecWait (d a b : BitVec 6) : Statement (.crecWait d a b) := fun c => ctlOf_bodyOf_15_9_3 c 0x07000001 d a b (by decide)
theorem crecAck (a b : BitVec 6) : Statement (.crecAck a b) := fun c => ctlOf_bodyOf_9_3 c 0x07000002 a b (by decide)
theorem mq (d a : BitVec 6) (m : MatWord) : Statement (.mq d a m) := fun c => ctlOf_bodyOf_15_9 c 0x07200000 d a (by decide)
theorem mloadb (d a : BitVec 6) (n : BitVec 2) (t : BitVec 3) : Statement (.mloadb d a n t) := fun c => ctlOf_bodyOf_15_9_6_3w6w6w2w3 c 0x07400000 d a n t (by decide)
theorem mscl (d a b : BitVec 6) : Statement (.mscl d a b) := fun c => ctlOf_bodyOf_15_9_3 c 0x07400002 d a b (by decide)
theorem maccrd (d a : BitVec 6) : Statement (.maccrd d a) := fun c => ctlOf_bodyOf_15_9 c 0x07400003 d a (by decide)
theorem maccwr (d a : BitVec 6) : Statement (.maccwr d a) := fun c => ctlOf_bodyOf_15_9 c 0x07400004 d a (by decide)
theorem maccclr (a : BitVec 6) : Statement (.maccclr a) := fun c => ctlOf_bodyOf_9 c 0x07400005 a (by decide)
theorem macccvt (d a : BitVec 6) (t : BitVec 3) : Statement (.macccvt d a t) := fun c => ctlOf_bodyOf_15_9_3w6w6w3 c 0x07400006 d a t (by decide)
theorem rgnEnter (d a : BitVec 6) (m : BitVec 1) : Statement (.rgnEnter d a m) := fun c => ctlOf_bodyOf_15_9_7w6w6w1 c 0x07800000 d a m (by decide)
theorem emit (a b : BitVec 6) : Statement (.emit a b) := fun c => ctlOf_bodyOf_9_3 c 0x07A00000 a b (by decide)
theorem causeget (d : BitVec 6) : Statement (.causeget d) := fun c => ctlOf_bodyOf_15 c 0x07A00001 d (by decide)
theorem causeset (a : BitVec 6) : Statement (.causeset a) := fun c => ctlOf_bodyOf_9 c 0x07A00002 a (by decide)
theorem perfrd (d a : BitVec 6) : Statement (.perfrd d a) := fun c => ctlOf_bodyOf_15_9 c 0x07A00003 d a (by decide)
theorem censusrd (d a : BitVec 6) : Statement (.censusrd d a) := fun c => ctlOf_bodyOf_15_9 c 0x07A00004 d a (by decide)
theorem segld (d a : BitVec 6) : Statement (.segld d a) := fun c => ctlOf_bodyOf_15_9 c 0x07C00000 d a (by decide)
theorem heapld (d a : BitVec 6) : Statement (.heapld d a) := fun c => ctlOf_bodyOf_15_9 c 0x07C00001 d a (by decide)
theorem tlbinv (d a : BitVec 6) : Statement (.tlbinv d a) := fun c => ctlOf_bodyOf_15_9 c 0x07C00002 d a (by decide)
theorem divinstInstall (d a : BitVec 6) : Statement (.divinstInstall d a) := fun c => ctlOf_bodyOf_15_9 c 0x07C00003 d a (by decide)
theorem rtswapWrite (d a : BitVec 6) : Statement (.rtswapWrite d a) := fun c => ctlOf_bodyOf_15_9 c 0x07C00004 d a (by decide)
theorem keysel (d a : BitVec 6) : Statement (.keysel d a) := fun c => ctlOf_bodyOf_15_9 c 0x07C00005 d a (by decide)
theorem ctxctlHold (d a : BitVec 6) : Statement (.ctxctlHold d a) := fun c => ctlOf_bodyOf_15_9 c 0x07C00006 d a (by decide)
theorem nop : Statement .nop := fun c => ctlOf_word c 0x00000000 (by decide)
theorem halt : Statement .halt := fun c => ctlOf_word c 0x00000001 (by decide)
theorem eret : Statement .eret := fun c => ctlOf_word c 0x00000002 (by decide)
theorem idle : Statement .idle := fun c => ctlOf_word c 0x00000003 (by decide)
theorem divideComplete : Statement .divideComplete := fun _ => trivial
theorem ret : Statement .ret := fun c => ctlOf_word c 0x04C00001 (by decide)
theorem reconv : Statement .reconv := fun c => ctlOf_word c 0x04E00001 (by decide)
theorem exit : Statement .exit := fun c => ctlOf_word c 0x04E00002 (by decide)
theorem redf : Statement .redf := fun c => ctlOf_word c 0x06000003 (by decide)
theorem redfOrdToken : Statement .redfOrdToken := fun _ => trivial
theorem rclkAdv : Statement .rclkAdv := fun c => ctlOf_word c 0x06000005 (by decide)
theorem rclkAutoAdvance : Statement .rclkAutoAdvance := fun _ => trivial
theorem barForwardedArrival : Statement .barForwardedArrival := fun _ => trivial
theorem barCredit : Statement .barCredit := fun _ => trivial
theorem semWordRetry : Statement .semWordRetry := fun _ => trivial
theorem enqwTimeout : Statement .enqwTimeout := fun _ => trivial
theorem wqRefill : Statement .wqRefill := fun _ => trivial
theorem amsgDeliver : Statement .amsgDeliver := fun _ => trivial
theorem chanChainStart : Statement .chanChainStart := fun _ => trivial
theorem engineRecordStart : Statement .engineRecordStart := fun _ => trivial
theorem completionRecordWrite : Statement .completionRecordWrite := fun _ => trivial
theorem collStepStart : Statement .collStepStart := fun _ => trivial
theorem collStepData : Statement .collStepData := fun _ => trivial
theorem collStepTimeout : Statement .collStepTimeout := fun _ => trivial
theorem crecWaitTimeout : Statement .crecWaitTimeout := fun _ => trivial
theorem matrixPassClose : Statement .matrixPassClose := fun _ => trivial
theorem matrixPassStart : Statement .matrixPassStart := fun _ => trivial
theorem matrixPassComplete : Statement .matrixPassComplete := fun _ => trivial
theorem mswap : Statement .mswap := fun c => ctlOf_word c 0x07400001 (by decide)
theorem mldComplete : Statement .mldComplete := fun _ => trivial
theorem rgnLeave : Statement .rgnLeave := fun c => ctlOf_word c 0x07800100 (by decide)
theorem divinstLink : Statement .divinstLink := fun _ => trivial
theorem divinstDrain : Statement .divinstDrain := fun _ => trivial
theorem divinstRemove : Statement .divinstRemove := fun _ => trivial
theorem divinstRead : Statement .divinstRead := fun _ => trivial
theorem rtswapRead : Statement .rtswapRead := fun _ => trivial
theorem rtswapSwap : Statement .rtswapSwap := fun _ => trivial
theorem rtswapTimeout : Statement .rtswapTimeout := fun _ => trivial
theorem ctxctlUnhold : Statement .ctxctlUnhold := fun _ => trivial
theorem ctxctlSave : Statement .ctxctlSave := fun _ => trivial
theorem ctxctlRestore : Statement .ctxctlRestore := fun _ => trivial
theorem ctxctlRelease : Statement .ctxctlRelease := fun _ => trivial
theorem ctxctlKill : Statement .ctxctlKill := fun _ => trivial
theorem ctxctlServe : Statement .ctxctlServe := fun _ => trivial
theorem ctxctlDecline : Statement .ctxctlDecline := fun _ => trivial
theorem ctxctlFwret : Statement .ctxctlFwret := fun _ => trivial
theorem ctxctlReset : Statement .ctxctlReset := fun _ => trivial
theorem chainIssue : Statement .chainIssue := fun _ => trivial
theorem guardPromote : Statement .guardPromote := fun _ => trivial
theorem gapExpire : Statement .gapExpire := fun _ => trivial
theorem switchRelease : Statement .switchRelease := fun _ => trivial
theorem resultWrite : Statement .resultWrite := fun _ => trivial
theorem loadReturn : Statement .loadReturn := fun _ => trivial
theorem storePerform : Statement .storePerform := fun _ => trivial
theorem atomPerform : Statement .atomPerform := fun _ => trivial
theorem walkStart : Statement .walkStart := fun _ => trivial
theorem walkComplete : Statement .walkComplete := fun _ => trivial
theorem sliceServeRequest : Statement .sliceServeRequest := fun _ => trivial
theorem sliceSweep : Statement .sliceSweep := fun _ => trivial
theorem tauWindow : Statement .tauWindow := fun _ => trivial
theorem l1LineDrop : Statement .l1LineDrop := fun _ => trivial
theorem stashProbe : Statement .stashProbe := fun _ => trivial
theorem stashFillComplete : Statement .stashFillComplete := fun _ => trivial
theorem peerRequest : Statement .peerRequest := fun _ => trivial
theorem packetReturn : Statement .packetReturn := fun _ => trivial
theorem dataUncorrectable : Statement .dataUncorrectable := fun _ => trivial
theorem macroParity : Statement .macroParity := fun _ => trivial
theorem atombufParity : Statement .atombufParity := fun _ => trivial
theorem trapEntry : Statement .trapEntry := fun _ => trivial
theorem bandPlace : Statement .bandPlace := fun _ => trivial
theorem bandRelease : Statement .bandRelease := fun _ => trivial
theorem binTimerExpire : Statement .binTimerExpire := fun _ => trivial
theorem binFire : Statement .binFire := fun _ => trivial
theorem poolRecordEnterBin : Statement .poolRecordEnterBin := fun _ => trivial
theorem helperStart : Statement .helperStart := fun _ => trivial
theorem taskComplete : Statement .taskComplete := fun _ => trivial
theorem submissionStart : Statement .submissionStart := fun _ => trivial
theorem codeObjectLoad : Statement .codeObjectLoad := fun _ => trivial
theorem eventWaitSatisfied : Statement .eventWaitSatisfied := fun _ => trivial
theorem blockingCandidate : Statement .blockingCandidate := fun _ => trivial
theorem diversionAppend : Statement .diversionAppend := fun _ => trivial
theorem suspendDeadline : Statement .suspendDeadline := fun _ => trivial
theorem saveAbandon : Statement .saveAbandon := fun _ => trivial
theorem watchdogExpire : Statement .watchdogExpire := fun _ => trivial
theorem wfgRemoteTimeout : Statement .wfgRemoteTimeout := fun _ => trivial
theorem traceRecordAccept : Statement .traceRecordAccept := fun _ => trivial
theorem loss : Statement .loss := fun _ => trivial
theorem sample : Statement .sample := fun _ => trivial
theorem breakpointHalt : Statement .breakpointHalt := fun _ => trivial
theorem debug : Statement .debug := fun _ => trivial
theorem debugStep : Statement .debugStep := fun _ => trivial
theorem debugRevoke : Statement .debugRevoke := fun _ => trivial
theorem hello : Statement .hello := fun _ => trivial
theorem keyx : Statement .keyx := fun _ => trivial
theorem sessionTimeout : Statement .sessionTimeout := fun _ => trivial
theorem alaellGapTimeout : Statement .alaellGapTimeout := fun _ => trivial
theorem qbind : Statement .qbind := fun _ => trivial
theorem submit : Statement .submit := fun _ => trivial
theorem hostLaunch : Statement .hostLaunch := fun _ => trivial
theorem ctxnew : Statement .ctxnew := fun _ => trivial
theorem ctxend : Statement .ctxend := fun _ => trivial
theorem suspend : Statement .suspend := fun _ => trivial
theorem resume : Statement .resume := fun _ => trivial
theorem keyload : Statement .keyload := fun _ => trivial
theorem keydestroy : Statement .keydestroy := fun _ => trivial
theorem partdef : Statement .partdef := fun _ => trivial
theorem power : Statement .power := fun _ => trivial
theorem clock : Statement .clock := fun _ => trivial
theorem retain : Statement .retain := fun _ => trivial
theorem retainRestore : Statement .retainRestore := fun _ => trivial
theorem retireCore : Statement .retireCore := fun _ => trivial
theorem retireLayer : Statement .retireLayer := fun _ => trivial
theorem retireLane : Statement .retireLane := fun _ => trivial
theorem update : Statement .update := fun _ => trivial
theorem traceread : Statement .traceread := fun _ => trivial
theorem snapshot : Statement .snapshot := fun _ => trivial
theorem hostMark : Statement .hostMark := fun _ => trivial
theorem attest : Statement .attest := fun _ => trivial
theorem ptpSync : Statement .ptpSync := fun _ => trivial
theorem ptpDelayResp : Statement .ptpDelayResp := fun _ => trivial
theorem ptpHoldover : Statement .ptpHoldover := fun _ => trivial
theorem timeStep : Statement .timeStep := fun _ => trivial
theorem claspFlit : Statement .claspFlit := fun _ => trivial
theorem claspRetry : Statement .claspRetry := fun _ => trivial
theorem scaleoutPacket : Statement .scaleoutPacket := fun _ => trivial
theorem scaleoutRetransmit : Statement .scaleoutRetransmit := fun _ => trivial
theorem scaleoutConnLost : Statement .scaleoutConnLost := fun _ => trivial
theorem powerMeasure : Statement .powerMeasure := fun _ => trivial
theorem temperatureTrip : Statement .temperatureTrip := fun _ => trivial
theorem deviceReset : Statement .deviceReset := fun _ => trivial
theorem powerOn : Statement .powerOn := fun _ => trivial
theorem engineAccess : Statement .engineAccess := fun _ => trivial
theorem collBeginNotice : Statement .collBeginNotice := fun _ => trivial
theorem wfgRemoteQuery : Statement .wfgRemoteQuery := fun _ => trivial
theorem partitionResetComplete : Statement .partitionResetComplete := fun _ => trivial
theorem linkTrainingComplete : Statement .linkTrainingComplete := fun _ => trivial
theorem firmwareUpdateComplete : Statement .firmwareUpdateComplete := fun _ => trivial
theorem clockChangeComplete : Statement .clockChangeComplete := fun _ => trivial
theorem undercroftShareChange : Statement .undercroftShareChange := fun _ => trivial
theorem haltRestart : Statement .haltRestart := fun _ => trivial

end Sys2Proof.Laws.CtlWords
end

