-- ==== Sys2Proof/Laws/Step.lean ====
section
/-!
SUPPORT. What a step does with the event that comes next, and what runs of a chain's member.
-/
namespace Sys2Proof
open Machine

theorem step_agenda {s : State} {e : Item} {r : List (Option Item)} (h : s.agenda = some e :: r) :
    step s = ({ s with agenda := r } : State).take e.instr e.ev := by
  unfold step; rw [h]

theorem step_default {s : State} (h : s.agenda = []) : step s = s.defaultStep := by
  unfold step; rw [h]

/-- After a trip only a reset is taken (R460). -/
theorem take_tripped {s : State} {i : Instr} {e : Ev} (h : s.out.tripped = true) (h1 : i ≠ .deviceReset) (h2 : i ≠ .powerOn) :
    s.take i e = .next s := by
  simp [State.take, h, h1, h2]

/-- An instruction of a program is never taken as an event. -/
theorem take_program {s : State} {i : Instr} {e : Ev} (h : isEvent i = false) : s.take i e = .next s := by
  simp [State.take, h]

theorem runChain_idle {s : State} (h : s.cur = none) : s.runChain = .next s := by
  simp [State.runChain, h]

/-- The member of a chain whose words decode is executed. -/
theorem runMember_decoded {s : State} {c : Issue} {m : W32 × W32 × W32 × W32} {g : Group} {d : Decoded} (h : s.cur = some c)
    (hg : s.group? c.gid = some g) (hd : decodeWords m.2.2.1 m.2.2.2 = .ok d) :
    s.runMember m = exec (({ s with cur := some (c.withMember m) } : State).resolveOp (c.withMember m) d.instr)
      { s with cur := some (c.withMember m) } := by
  have hg' : s.groups.find? (fun g => g.gid == c.gid) = some g := hg
  simp [State.runMember, h, State.group?, Issue.withMember, hg', hd]

end Sys2Proof
end

