-- ==== Sys2Proof/Tests/Slice0.lean ====
section
/-!
SUPPORT. Tests: decoding, well-formedness, results that the spec states, one step of the machine from reset, and a state that meets the hypotheses of each
statement.
-/
namespace Sys2Proof.Tests
open Sys2Proof Sys2Proof.Machine

/-! ## Decoding

For every row that has words of its own, a word written from the opcode table's match value with a value of its own in
each field (R61, R70 to R80), decodes to the row's instruction; words that no row matches are refused. -/

/-- The words of each entry decode to its instruction, with clear control fields. -/
def decodesAll (l : List (W32 × W32 × Instr)) : Bool :=
  l.all fun p => match decodeWords p.1 p.2.1 with
    | .ok d => decide (d.instr = p.2.2) && d.ctl == { c := 0, s := 0, g := 0, y := 0 }
    | .error _ => false

/-- The attribute word that the two-word tests use: every field differs from every other. -/
def m : Attr := { off := 0xABC, seg := 2, str := 9, scp := 5, ru := 0x16, ord := 1, cp := 3 }

theorem test_decode_major_00 : decodesAll
   [(0x00000000, 0, .nop), (0x00000001, 0, .halt),
    (0x00000002, 0, .eret), (0x00000003, 0, .idle),
    (0x001A9CBC, 0, .fwcall 218007), (0x001A9CBD, 0, .trap 218007),
    (0x001A9CBE, 0, .bkpt 218007), (0x001A9CBF, 0, .undef 218007)] = true := by decide

theorem test_decode_major_01 : decodesAll
   [(0x0032A670, 0, .iadd 37 19 14), (0x0032A671, 0, .isub 37 19 14),
    (0x0032A672, 0, .imin 37 19 14), (0x0032A673, 0, .imax 37 19 14),
    (0x0032A674, 0, .iminu 37 19 14), (0x0032A675, 0, .imaxu 37 19 14),
    (0x0032A676, 0, .iabsd 37 19 14), (0x0032A677, 0, .iaddc 37 19 14)] = true := by decide

theorem test_decode_major_02 : decodesAll
   [(0x0052A670, 0, .imul 37 19 14), (0x0052A671, 0, .imulh 37 19 14),
    (0x0052A672, 0, .imulhu 37 19 14), (0x0052A673, 0, .imad 37 19 14),
    (0x0052A674, 0, .idiv 37 19 14), (0x0052A675, 0, .idivu 37 19 14),
    (0x0052A676, 0, .irem 37 19 14), (0x0052A677, 0, .iremu 37 19 14)] = true := by decide

theorem test_decode_major_03 : decodesAll
   [(0x0072A670, 0, .andd 37 19 14), (0x0072A671, 0, .orr 37 19 14),
    (0x0072A672, 0, .xor 37 19 14), (0x0072A673, 0, .andn 37 19 14),
    (0x0072A674, 0, .orn 37 19 14), (0x0072A675, 0, .xnor 37 19 14),
    (0x0072A606, 0, .notb 37 19)] = true := by decide

theorem test_decode_major_04 : decodesAll
   [(0x0092A670, 0, .shl 37 19 14), (0x0092A671, 0, .shr 37 19 14),
    (0x0092A672, 0, .sar 37 19 14), (0x0092A673, 0, .rol 37 19 14),
    (0x0092A674, 0, .ror 37 19 14), (0x0092A675, 0, .fshl 37 19 14),
    (0x0092A676, 0, .fshr 37 19 14)] = true := by decide

theorem test_decode_major_05 : decodesAll
   [(0x00B2A600, 0, .clz 37 19), (0x00B2A601, 0, .ctz 37 19),
    (0x00B2A602, 0, .popc 37 19), (0x00B2A603, 0, .brev 37 19),
    (0x00B2A69C, 0, .bitil 37 19 19), (0x00B2A69D, 0, .bitdl 37 19 19),
    (0x00B2A676, 0, .bytep 37 19 14)] = true := by decide

theorem test_decode_major_06 : decodesAll
   [(0x00D2A670, 0, .bfe 37 19 14), (0x00D2A671, 0, .bfeu 37 19 14),
    (0x00D2A672, 0, .bfi 37 19 14)] = true := by decide

theorem test_decode_major_07 : decodesAll
   [(0x00F2A677, 0, .icmp 37 19 14 7)] = true := by decide

theorem test_decode_major_08 : decodesAll
   [(0x0112A6D3, 0, .iaddi 37 19 211)] = true := by decide

theorem test_decode_major_09 : decodesAll
   [(0x0132A6D3, 0, .iandi 37 19 211)] = true := by decide

theorem test_decode_major_0A : decodesAll
   [(0x0152A6D3, 0, .iori 37 19 211)] = true := by decide

theorem test_decode_major_0B : decodesAll
   [(0x0172A6D3, 0, .ixori 37 19 211)] = true := by decide

theorem test_decode_major_0C : decodesAll
   [(0x0192A613, 0, .shli 37 19 19), (0x0192A693, 0, .shri 37 19 19),
    (0x0192A713, 0, .sari 37 19 19), (0x0192A793, 0, .roli 37 19 19)] = true := by decide

theorem test_decode_major_0D : decodesAll
   [(0x01BEA797, 0, .icmpi 7 5 19 407)] = true := by decide

theorem test_decode_major_0E : decodesAll
   [(0x01D2A677, 0, .lea 37 19 14 7)] = true := by decide

theorem test_decode_major_0F : decodesAll
   [(0x01F2C6B5, 0, .movi 37 18101)] = true := by decide

theorem test_decode_major_10 : decodesAll
   [(0x02128000, 0x89ABCDEF, .movl 37 0x89ABCDEF), (0x02128001, 0x89ABCDEF, .movlSx 37 0x89ABCDEF),
    (0x02128002, 0x89ABCDEF, .movlZx 37 0x89ABCDEF), (0x02128003, 0x89ABCDEF, .movlHi 37 0x89ABCDEF)] = true := by decide

theorem test_decode_major_11 : decodesAll
   [(0x0232A670, 0, .fadd 37 19 14), (0x0232A671, 0, .fsub 37 19 14),
    (0x0232A672, 0, .fmul 37 19 14), (0x0232A673, 0, .fmin 37 19 14),
    (0x0232A674, 0, .fmax 37 19 14), (0x0232A675, 0, .fminm 37 19 14),
    (0x0232A676, 0, .fmaxm 37 19 14), (0x0232A677, 0, .fabsd 37 19 14)] = true := by decide

theorem test_decode_major_12 : decodesAll
   [(0x0252A670, 0, .ffma 37 19 14), (0x0252A671, 0, .ffms 37 19 14),
    (0x0252A672, 0, .fnfma 37 19 14), (0x0252A673, 0, .fnfms 37 19 14),
    (0x0252A674, 0, .pkfma 37 19 14), (0x0252A675, 0, .pkadd 37 19 14),
    (0x0252A676, 0, .pkmul 37 19 14), (0x0252A677, 0, .pkfmaF16 37 19 14)] = true := by decide

theorem test_decode_major_13 : decodesAll
   [(0x0272A677, 0, .fcmp 37 19 14 7)] = true := by decide

theorem test_decode_major_14 : decodesAll
   [(0x0292A6FD, 0, .fcvt 37 19 3 7 5)] = true := by decide

theorem test_decode_major_15 : decodesAll
   [(0x02B2A603, 0, .frnd 37 19 3)] = true := by decide

theorem test_decode_major_16 : decodesAll
   [(0x02D2A61F, 0, .fcvti 37 19 3 7)] = true := by decide

theorem test_decode_major_17 : decodesAll
   [(0x02F2A61F, 0, .icvtf 37 19 3 7)] = true := by decide

theorem test_decode_major_18 : decodesAll
   [(0x0312A670, 0, .fscaleb 37 19 14), (0x0312A601, 0, .frexpe 37 19),
    (0x0312A602, 0, .frexpm 37 19), (0x0312A603, 0, .fclass 37 19),
    (0x0312A674, 0, .fsgnj 37 19 14), (0x0312A675, 0, .fsgnjn 37 19 14),
    (0x0312A606, 0, .fabs 37 19), (0x0312A607, 0, .fneg 37 19)] = true := by decide

theorem test_decode_major_19 : decodesAll
   [(0x0332A600, 0, .frcp 37 19), (0x0332A601, 0, .frsq 37 19),
    (0x0332A602, 0, .fsqrt 37 19), (0x0332A603, 0, .fexp2 37 19),
    (0x0332A604, 0, .flog2 37 19), (0x0332A605, 0, .fsint 37 19),
    (0x0332A606, 0, .fcost 37 19), (0x0332A607, 0, .ftanh 37 19)] = true := by decide

theorem test_decode_major_1A : decodesAll
   [(0x0352A670, 0, .fdiv 37 19 14), (0x0352A601, 0, .fsincosT 37 19),
    (0x0352A602, 0, .ferf 37 19)] = true := by decide

theorem test_decode_major_1B : decodesAll
   [(0x0372A670, 0, .shflIdx 37 19 14), (0x0372A671, 0, .shflUp 37 19 14),
    (0x0372A672, 0, .shflDown 37 19 14), (0x0372A673, 0, .shflXor 37 19 14)] = true := by decide

theorem test_decode_major_1C : decodesAll
   [(0x0392A600, 0, .voteAll 37 19), (0x0392A601, 0, .voteAny 37 19),
    (0x0392A602, 0, .voteBal 37 19), (0x0392A603, 0, .matchLanes 37 19),
    (0x0392A604, 0, .lredAdd 37 19), (0x0392A605, 0, .lredMin 37 19),
    (0x0392A606, 0, .lredMax 37 19), (0x0392A607, 0, .lscanAdd 37 19)] = true := by decide

theorem test_decode_major_1D : decodesAll
   [(0x03B2A600, 0, .mov 37 19), (0x03B2A609, 0, .movs 37 19 1),
    (0x03B2A602, 0, .smov 37 19), (0x03B2A603, 0, .smovs 37 19),
    (0x03B2A67C, 0, .sel 37 19 1 7), (0x03B2A605, 0, .pmovPFromV 37 19),
    (0x03B2A60D, 0, .pmovVFromP 37 19)] = true := by decide

theorem test_decode_major_1E : decodesAll
   [(0x03D2E197, 0, .sread 37 1 1 407), (0x03D2C028, 0, .sreadTime 37 1 0),
    (0x03D2C029, 0, .sreadTimef 37 1 0)] = true := by decide

theorem test_decode_major_1F : decodesAll
   [(0x03F2E197, 0, .swrite 37 1 1 407), (0x03F2C032, 0, .swriteGst 37 1 0),
    (0x03F2C120, 0, .swriteRafbase 37 1 0), (0x03F2C138, 0, .swriteClkmode 37 1 0)] = true := by decide

theorem test_decode_major_20 : decodesAll
   [(0x0412A670, 0, .sadd 37 19 14), (0x0412A671, 0, .ssub 37 19 14),
    (0x0412A672, 0, .sand 37 19 14), (0x0412A673, 0, .sor 37 19 14),
    (0x0412A674, 0, .sxor 37 19 14), (0x0412A675, 0, .sshl 37 19 14),
    (0x0412A676, 0, .sshr 37 19 14), (0x0412A677, 0, .smul 37 19 14)] = true := by decide

theorem test_decode_major_21 : decodesAll
   [(0x0432A6D3, 0, .saddi 37 19 211)] = true := by decide

theorem test_decode_major_22 : decodesAll
   [(0x0452A677, 0, .scmp 37 19 14 7)] = true := by decide

theorem test_decode_major_23 : decodesAll
   [(0x046FC6B5, 0, .br 7 116405)] = true := by decide

theorem test_decode_major_24 : decodesAll
   [(0x048FC6B5, 0, .bru 7 116405)] = true := by decide

theorem test_decode_major_25 : decodesAll
   [(0x04AFC6B5, 0, .call 7 116405)] = true := by decide

theorem test_decode_major_26 : decodesAll
   [(0x04C02600, 0, .jmpx 19), (0x04C00001, 0, .ret)] = true := by decide

theorem test_decode_major_27 : decodesAll
   [(0x04E000B8, 0, .join 23), (0x04E00001, 0, .reconv),
    (0x04E00002, 0, .exit), (0x04F2A673, 0, .spawn 37 19 14),
    (0x04E000BC, 0, .setejt 23)] = true := by decide

theorem test_decode_major_28 : decodesAll
   [(0x0512A675, 0xABC536CB, .ld 37 19 14 5 m)] = true := by decide

theorem test_decode_major_29 : decodesAll
   [(0x0532A676, 0xABC536CB, .st 37 19 14 6 m)] = true := by decide

theorem test_decode_major_2A : decodesAll
   [(0x0552A603, 0xABC536CB, .lds 37 19 3 m)] = true := by decide

theorem test_decode_major_2B : decodesAll
   [(0x0572A670, 0xABC536CB, .atomAdd 37 19 14 m), (0x0572A671, 0xABC536CB, .atomMins 37 19 14 m),
    (0x0572A672, 0xABC536CB, .atomMaxs 37 19 14 m), (0x0572A673, 0xABC536CB, .atomMinu 37 19 14 m),
    (0x0572A674, 0xABC536CB, .atomMaxu 37 19 14 m), (0x0572A675, 0xABC536CB, .atomAnd 37 19 14 m),
    (0x0572A676, 0xABC536CB, .atomOr 37 19 14 m), (0x0572A677, 0xABC536CB, .atomXor 37 19 14 m)] = true := by decide

theorem test_decode_major_2C : decodesAll
   [(0x0592A670, 0xABC536CB, .atomxExch 37 19 14 m), (0x0592A671, 0xABC536CB, .atomxCas32 37 19 14 m),
    (0x0592A672, 0xABC536CB, .atomxCas64 37 19 14 m), (0x0592A673, 0xABC536CB, .atomxCas128 37 19 14 m),
    (0x0592A674, 0xABC536CB, .atomxFadd32 37 19 14 m), (0x0592A675, 0xABC536CB, .atomxFmin32 37 19 14 m),
    (0x0592A676, 0xABC536CB, .atomxFmax32 37 19 14 m)] = true := by decide

theorem test_decode_major_2D : decodesAll
   [(0x05B2A670, 0xABC536CB, .redAddI32 37 19 14 m), (0x05B2A671, 0xABC536CB, .redAddF32 37 19 14 m),
    (0x05B2A672, 0xABC536CB, .redAddBf16x2 37 19 14 m), (0x05B2A673, 0xABC536CB, .redMinF32 37 19 14 m),
    (0x05B2A674, 0xABC536CB, .redMaxF32 37 19 14 m), (0x05B2A675, 0xABC536CB, .redAddI64 37 19 14 m)] = true := by decide

theorem test_decode_major_2E : decodesAll
   [(0x05C02670, 0xABC536CB, .cachePref 19 14 m), (0x05D2A671, 0xABC536CB, .cacheLock 37 19 14 m),
    (0x05D2A672, 0xABC536CB, .cacheUnlock 37 19 14 m), (0x05C02673, 0xABC536CB, .cacheCwb 19 14 m),
    (0x05C02674, 0xABC536CB, .cacheCinv 19 14 m), (0x05C02675, 0xABC536CB, .cacheCwbinv 19 14 m)] = true := by decide

theorem test_decode_major_2F : decodesAll
   [(0x05F2A670, 0xABC536CB, .stashMap 37 19 14 m), (0x05F2A671, 0xABC536CB, .stashUnmap 37 19 14 m),
    (0x05F2A672, 0xABC536CB, .stashFlush 37 19 14 m), (0x05F2A673, 0xABC536CB, .stashFill 37 19 14 m),
    (0x05F2A674, 0xABC536CB, .stashQuery 37 19 14 m)] = true := by decide

theorem test_decode_major_30 : decodesAll
   [(0x06000038, 0, .fence 7), (0x06002629, 0, .fenceX 19 5),
    (0x0612A61A, 0, .fenceP 37 19 3), (0x06000003, 0, .redf),
    (0x0600003C, 0, .redfOrd 7), (0x06000005, 0, .rclkAdv)] = true := by decide

theorem test_decode_major_31 : decodesAll
   [(0x06202670, 0, .barArrive 19 14), (0x06202671, 0, .barWait 19 14),
    (0x06202672, 0, .barSync 19 14), (0x06202673, 0, .barStep 19 14),
    (0x0632A674, 0, .barExpect 37 19 14)] = true := by decide

theorem test_decode_major_32 : decodesAll
   [(0x06402600, 0, .semAcq 19), (0x06402601, 0, .semRel 19),
    (0x0652A602, 0, .semTryacq 37 19), (0x06402603, 0, .semAcqM 19),
    (0x06402604, 0, .semRelM 19)] = true := by decide

theorem test_decode_major_33 : decodesAll
   [(0x0672A600, 0, .syncaAlloc 37 19), (0x06602601, 0, .syncaFree 19)] = true := by decide

theorem test_decode_major_34 : decodesAll
   [(0x06928070, 0, .qopPush 37 14), (0x06928071, 0, .qopPop 37 14),
    (0x0692A672, 0, .qopTrypush 37 19 14), (0x0692A673, 0, .qopTrypop 37 19 14),
    (0x06928074, 0, .qopAllow 37 14), (0x0692A675, 0, .qopPeek 37 19 14)] = true := by decide

theorem test_decode_major_35 : decodesAll
   [(0x06B2A670, 0, .wqEnq 37 19 14), (0x06B2A601, 0, .wqDeq 37 19),
    (0x06B2A672, 0, .wqTrydeq 37 19 14), (0x06B2A673, 0, .wqEnqw 37 19 14)] = true := by decide

theorem test_decode_major_36 : decodesAll
   [(0x06D2A670, 0, .launch 37 19 14), (0x06D2A671, 0, .amsg 37 19 14)] = true := by decide

theorem test_decode_major_37 : decodesAll
   [(0x06F2A670, 0, .chanPost 37 19 14), (0x06F2A601, 0, .chanStat 37 19),
    (0x06F2A602, 0, .chanCancel 37 19), (0x06F2A673, 0, .chanColl 37 19 14)] = true := by decide

theorem test_decode_major_38 : decodesAll
   [(0x0712A670, 0, .crecPoll 37 19 14), (0x0712A671, 0, .crecWait 37 19 14),
    (0x07002672, 0, .crecAck 19 14)] = true := by decide

theorem test_decode_major_39 : decodesAll
   [(0x0732A600, 0x5AB59CDB, .mq 37 19 { afmt := 5, kb := 2, sco := 0x2B5, ncol := 0x9C, bid := 6, acc := 1, rsv := 0xB })] = true := by decide

theorem test_decode_major_3A : decodesAll
   [(0x0752A6F8, 0, .mloadb 37 19 3 7), (0x07400001, 0, .mswap),
    (0x0752A672, 0, .mscl 37 19 14), (0x0752A603, 0, .maccrd 37 19),
    (0x0752A604, 0, .maccwr 37 19), (0x07402605, 0, .maccclr 19),
    (0x0752A61E, 0, .macccvt 37 19 3)] = true := by decide

theorem test_decode_major_3B : decodesAll
   [(0x076EA6D3, 0, .brj 7 1 9939)] = true := by decide

theorem test_decode_major_3C : decodesAll
   [(0x0792A680, 0, .rgnEnter 37 19 1), (0x07800100, 0, .rgnLeave)] = true := by decide

theorem test_decode_major_3D : decodesAll
   [(0x07A02670, 0, .emit 19 14), (0x07B28001, 0, .causeget 37),
    (0x07A02602, 0, .causeset 19), (0x07B2A603, 0, .perfrd 37 19),
    (0x07B2A604, 0, .censusrd 37 19)] = true := by decide

theorem test_decode_major_3E : decodesAll
   [(0x07D2A600, 0, .segld 37 19), (0x07D2A601, 0, .heapld 37 19),
    (0x07D2A602, 0, .tlbinv 37 19), (0x07D2A603, 0, .divinstInstall 37 19),
    (0x07D2A604, 0, .rtswapWrite 37 19), (0x07D2A605, 0, .keysel 37 19),
    (0x07D2A606, 0, .ctxctlHold 37 19)] = true := by decide

theorem test_decode_major_3F : decodesAll
   [(0x07EB5397, 0, .undefMajor 742295)] = true := by decide

/-- Words that the spec's chapters name as ILLEGAL because no row of the opcode map matches them (R81, R162, R184, R235, R274, R338). -/
theorem test_decode_refuses : ([0x00600007, 0x0060820E, 0x00800007, 0x00A00007, 0x00C00003, 0x03208208, 0x03600005, 0x0380820A, 0x03A08215, 0x04C00201, 0x06800006, 0x06808208, 0x06A20209, 0x06C00002, 0x07400007, 0x07408001, 0x07C00007, 0x05A00006, 0x05C00006, 0x05E00005, 0x05800007, 0x01800060] : List W32).all
    (fun w => decide ((decodeWords w 0).toOption = none)) = true := by decide

theorem test_control_fields : (decodeWords 0xF8208418 0).toOption.map (fun d => d.ctl) = some { c := 1, s := 1, g := 3, y := 1 } := by decide

theorem test_bytes_are_little_endian :
    (decodeBytes [0x1C, 0x04, 0x02, 0x85, 0x60, 0x05, 0x00, 0x01, 0xAA]).toOption.map (fun d => (d.1.words, d.2)) = some (2, [0xAA]) := by decide

theorem test_truncated_refused : (decodeBytes [0x1C, 0x04, 0x02, 0x85, 0x60]).toOption = none := by decide
/-! ## Well-formed instructions -/

/-- A legal attribute word: SEG GLB, scope CORE, reuse code 30. -/
def g0 : Attr := { off := 0, seg := 0, str := 0, scp := 1, ru := 30, ord := 0, cp := 0 }
/-- A legal matrix word. -/
def q0 : MatWord := { afmt := 1, kb := 0, sco := 0, ncol := 0, bid := 0, acc := 0, rsv := 0 }

/-- One ill-formed term for each check of registers and codes (R71, R79 to R81): a V register of 32 or more under a count of 32, S registers above 31, P
registers above 7, pairs, quads, eights and sixteens out of step, and codes that a field may not hold. -/
theorem test_wf_refuses_registers : ([.iadd 32 0 0, .iadd 0 32 0, .iadd 0 0 32, .notb 0 32, .iaddi 32 0 0, .movi 40 0, .movs 0 32 0, .smov 32 0,
    .smovs 0 32, .sadd 32 0 0, .sadd 0 32 0, .sadd 0 0 32, .saddi 32 0 0, .movlSx 32 0, .icmp 8 0 0 0, .icmp 0 0 0 6, .icmpi 6 0 0 0, .scmp 9 0 0 0,
    .fcmp 0 0 0 7, .bitil 0 0 0, .bitdl 0 0 4, .fcvt 0 0 6 0 0, .fcvt 0 0 0 6 0, .frnd 0 0 5, .fcvti 0 0 6 0, .icvtf 0 0 0 5, .fsincosT 1 0,
    .voteAll 8 0, .voteAny 0 8, .voteBal 0 8, .pmovPFromV 8 0, .pmovVFromP 0 8, .undef 0, .undefMajor 0] : List Instr).all
    (fun i => !(i.wf 32)) = true := by decide

/-- The checks of special registers, control flow and the units of a core (R80, R117, R174 to R179, R255, R262, R267, R326, R335, R405). -/
theorem test_wf_refuses_units : ([.sread 0 0 0 2, .sread 0 1 1 0, .sread 32 0 0 0, .swrite 0 0 0 0x28, .swrite 0 0 1 0x130, .swriteGst 0 1 1,
    .jmpx 32, .join 4, .spawn 0 0 33, .setejt 0, .setejt 9, .fence 7, .fenceX 32 0, .fenceX 0 7, .fenceP 5 0 0, .fenceP 1 1 0, .fenceP 0 1 7, .redfOrd 0,
    .barArrive 0 0, .barArrive 8 0, .barWait 1 16, .barExpect 32 1 0, .semAcqM 1, .semTryacq 32 0, .syncaAlloc 0 32, .qopPush 0 16, .qopPeek 32 0 0,
    .wqEnq 2 0 0, .wqDeq 4 32, .wqTrydeq 0 0 32, .launch 0 32 0, .amsg 0 0 8, .chanPost 0 0 32, .chanStat 32 0, .crecPoll 4 0 0, .crecAck 32 0,
    .mq 0 0 { q0 with afmt := 7 }, .mq 0 0 { q0 with rsv := 1 }, .mq 0 0 { q0 with sco := 1000, ncol := 50 }, .mloadb 7 0 0 0, .mscl 0 0 32, .maccclr 32,
    .macccvt 0 0 6, .causeget 32, .perfrd 0 32, .censusrd 2 0, .emit 32 0, .segld 32 0, .ctxctlHold 0 32] : List Instr).all
    (fun i => !(i.wf 32)) = true := by decide

/-- The checks of memory instructions (R73 to R75, R235, R246). -/
theorem test_wf_refuses_memory : ([.ld 0 0 0 7 g0, .ld 31 0 0 5 g0, .ld 2 0 0 6 g0, .ld 0 1 0 4 g0, .ld 0 0 32 4 g0, .ld 0 0 0 4 { g0 with seg := 5 },
    .ld 0 0 0 4 { g0 with scp := 7 }, .ld 0 0 0 4 { g0 with cp := 6 }, .ld 0 0 0 4 { g0 with ord := 2 }, .ld 0 0 0 4 { g0 with seg := 4, cp := 2 },
    .st 0 0 0 1 g0, .st 0 0 0 4 { g0 with seg := 3 }, .st 0 0 0 4 { g0 with ord := 1 }, .lds 0 0 6 g0, .lds 32 0 4 g0, .atomAdd 0 0 0 { g0 with cp := 1 },
    .atomAdd 0 0 0 { g0 with seg := 2 }, .atomxCas32 1 0 0 g0, .atomxCas64 2 0 0 g0, .atomxCas128 4 0 0 g0, .redAddI32 0 0 0 { g0 with cp := 6, seg := 4 },
    .redAddI32 0 0 0 { g0 with ord := 1 }, .redAddI64 1 0 0 g0, .cachePref 0 0 { g0 with cp := 5 }, .cacheCwb 0 0 { g0 with cp := 1 },
    .cacheLock 0 0 0 { g0 with seg := 1 }, .stashMap 1 0 0 g0, .stashFill 0 0 0 { g0 with ord := 1 }] : List Instr).all (fun i => !(i.wf 32)) = true := by decide

/-- The same instructions with the field put right are well-formed. -/
theorem test_wf_accepts : ([.iadd 31 0 31, .icmp 7 0 0 5, .bitil 0 0 3, .fcvt 0 0 5 5 7, .frnd 0 0 4, .fsincosT 30 0, .sread 0 0 1 0x28, .swrite 0 0 1 0x121,
    .join 3, .spawn 0 0 32, .setejt 8, .fenceP 0 1 6, .barArrive 7 15, .wqEnq 28 31 0, .amsg 0 0 16, .crecPoll 24 0 0, .mq 0 0 q0, .mloadb 6 0 0 0,
    .ld 28 0 31 6 g0, .st 30 0 0 5 g0, .lds 31 0 5 { g0 with ord := 1 }, .atomxCas128 24 0 0 g0, .redAddI32 0 0 0 { g0 with cp := 6 },
    .cachePref 0 0 { g0 with cp := 4 }, .stashMap 30 0 0 g0] : List Instr).all (fun i => i.wf 32) = true := by decide
/-! ## Results that the spec states -/

/-- The state after reset with one group placed on quadrant 0 of core 0 of die 0, and a latch with which its lanes of `mask` issue. -/
def base : State := State.reset.withFetchWord 32 0

def latchOf (mask : BitVec 32) : Issue :=
  { gid := 1, mask := mask, addr := 0, pc := 0, npc := 1, w0 := 0, w1 := 0, cause := 0, moved := false, members := [] }

/-- A state with a cycle on die 0. -/
def atCycle (s : State) (n : Nat) : State := s.modDie 0 fun d => { d with cycle := n }

/-- The group's lane `l` with these values in V0, V1, ... -/
def setV (vs : List W32) (l : Nat) (g : Group) : Group := g.modLane l fun x => { x with v := vs ++ List.replicate (64 - vs.length) 0 }

/-- The group with lane 0 holding `vs`, issuing with lane 0 alone. -/
def one (vs : List W32) : State := { base.modGroup 1 (setV vs 0) with cur := some (latchOf 1) }

/-- What an instruction leaves outstanding: its register writes and flags. -/
def posted (i : Instr) (s : State) : List (List RegWrite × List (Nat × BitVec 5)) :=
  match exec i s with
  | .next t => ((t.group? 1).map fun g => g.outs.map fun o => (o.writes, o.flags)).getD []
  | _ => []

/-- The value that an instruction with V1 = `a`, V2 = `b` and V3 = `d` in lane 0 leaves outstanding for V3, with its flags, is the one given. -/
def gives3 (i : Instr) (a b d x : W32) (f : BitVec 5) : Bool :=
  posted i (one [0, a, b, d]) == [([.v 0 3 x], if f = 0 then [] else [(0, f)])] || posted i (one [0, a, b, d]) == [([.v 0 3 x], [(0, f)])]

/-- The examples of R125, R127, R130, R134, R135 and R99. -/
theorem test_integer_examples : (gives3 (.iabsd 3 1 2) 0x80000000 0x7FFFFFFF 0 0xFFFFFFFF 0 && gives3 (.idiv 3 1 2) 0xFFFFFFF9 2 0 0xFFFFFFFD 0 &&
    gives3 (.irem 3 1 2) 0xFFFFFFF9 2 0 0xFFFFFFFF 0 && gives3 (.idivu 3 1 2) 0xFFFFFFF9 2 0 0x7FFFFFFC 0 && gives3 (.iremu 3 1 2) 0xFFFFFFF9 2 0 1 0 &&
    gives3 (.imulh 3 1 2) 0x80000000 0x80000000 0 0x40000000 0 && gives3 (.imulhu 3 1 2) 0xFFFFFFFF 0xFFFFFFFF 0 0xFFFFFFFE 0 &&
    gives3 (.idiv 3 1 2) 5 0 0 0xFFFFFFFF 0 && gives3 (.iremu 3 1 2) 5 0 0 5 0 && gives3 (.idiv 3 1 2) 0x80000000 0xFFFFFFFF 0 0x80000000 0 &&
    gives3 (.irem 3 1 2) 0x80000000 0xFFFFFFFF 0 0 0) = true := by decide

theorem test_shift_examples : (gives3 (.fshl 3 1 2) 0x11111111 0 0x22222222 0x22222222 0 && gives3 (.fshl 3 1 2) 0x11111111 32 0x22222222 0x11111111 0 &&
    gives3 (.fshr 3 1 2) 0x11111111 0 0x22222222 0x11111111 0 && gives3 (.fshr 3 1 2) 0x11111111 200 0x22222222 0x22222222 0 &&
    gives3 (.shl 3 1 2) 0xFFFFFFFF 0x120 0 0 0 && gives3 (.sar 3 1 2) 0x80000000 40 0 0xFFFFFFFF 0 && gives3 (.rol 3 1 2) 0x80000001 33 0 3 0 &&
    gives3 (.shri 3 1 31) 0x80000000 0 0 1 0 && gives3 (.iaddi 3 1 (-1)) 0 0 0 0xFFFFFFFF 0 && gives3 (.ixori 3 1 511) 0 0 0 511 0) = true := by decide

theorem test_bit_examples : (gives3 (.bytep 3 1 2) 0x44332211 0x0123 0 0x11223344 0 && gives3 (.bytep 3 1 2) 0x12345680 0x8880 0 0xFFFFFF80 0 &&
    gives3 (.bfe 3 1 2) 0xF0000000 0x0C1C 0 0xFFFFFFFF 0 && gives3 (.bfeu 3 1 2) 0xF0000000 0x0C1C 0 0xF 0 && gives3 (.bfi 3 1 2) 0x5 0x0C1C 0x01234567 0x51234567 0 &&
    gives3 (.bfi 3 1 2) 0x5 0 0x01234567 0x01234567 0 && gives3 (.clz 3 1) 0 0 0 32 0 && gives3 (.ctz 3 1) 0x80000000 0 0 31 0 &&
    gives3 (.popc 3 1) 0xF00F0001 0 0 9 0 && gives3 (.brev 3 1) 1 0 0 0x80000000 0 && gives3 (.bitil 3 1 1) 0xFFFFFFFF 0 0 0x55555555 0 &&
    gives3 (.bitdl 3 1 3) 0x11111111 0 0 0xFF 0 && gives3 (.bitil 3 1 2) 0x3 0 0 0x9 0) = true := by decide

/-- R100, R149, R156, R158: conversions, scaling and exact special cases that the chapter names. -/
theorem test_float_sums : (gives3 (.fadd 3 1 2) 0x3F800000 0x3F800000 0 0x40000000 0 &&
    gives3 (.fmul 3 1 2) 0x7F800000 0 0 0x7FC00000 16 &&
    gives3 (.fadd 3 1 2) 0x7F800001 0 0 0x7FC00000 16) = true := by decide

theorem test_float_parts : (gives3 (.fscaleb 3 1 2) 0x00800001 0xFFFFFFFF 0 0x00400000 3 &&
    gives3 (.frexpe 3 1) 1 0 0 0xFFFFFF6B 0 && gives3 (.frexpe 3 1) 0 0 0 0x80000000 0 && gives3 (.frexpe 3 1) 0x7F800000 0 0 0x7FFFFFFF 0 &&
    gives3 (.fsgnj 3 1 2) 0x7F812345 0x80000000 0 0x7FC00000 0 &&
    gives3 (.fneg 3 1) 0x3F800000 0 0 0xBF800000 0) = true := by decide

theorem test_float_signs : (gives3 (.fsgnj 3 1 2) 0x7F812345 0x80000000 0 0x7FC00000 0 && gives3 (.fneg 3 1) 0x3F800000 0 0 0xBF800000 0 &&
    gives3 (.fmin 3 1 2) 0x7FC00000 0x3F800000 0 0x3F800000 0 && gives3 (.fminm 3 1 2) 0x7FC00000 0x3F800000 0 0x7FC00000 0) = true := by decide

theorem test_float_quotient_by_zero : gives3 (.fdiv 3 1 2) 0x3F800000 0 0 0x7F800000 8 = true := by decide

set_option maxRecDepth 10000 in
theorem test_float_root : fsqrt32 0x40800000 = (0x40000000, 0) := by decide

/-- The worked example of R154: FCVT.RNE.SAT.E4M3.FP32 of 300.0, 500.0, -0.001, infinity and NaN, with its flags. -/
theorem test_fcvt_example : (gives3 (.fcvt 3 1 0 3 5) 0x43960000 0 0 0x79 1 && gives3 (.fcvt 3 1 0 3 5) 0x43FA0000 0 0 0x7E 5 &&
    gives3 (.fcvt 3 1 0 3 5) 0xBA83126F 0 0 0x81 3 && gives3 (.fcvt 3 1 0 3 5) 0x7F800000 0 0 0x7E 1 &&
    gives3 (.fcvt 3 1 0 3 5) 0x7FC00000 0 0 0x7F 0) = true := by decide

/-! ## One step of the machine -/

/-- The state that an event or instruction leaves; the state before it where it does not go on. -/
def after (i : Instr) (s : State) : State := match exec i s with | .next t => t | _ => s

def goesOn (o : Out) : Bool := match o with | .next _ => true | _ => false

def stepOf (s : State) : State := match step s with | .next t => t | _ => s

/-- MOVI V2, -5 (R141) placed as the first instruction, and the state after it. -/
def moviS : State := State.reset.withFetchWord 32 0x01E17FFB
def moviT : State := stepOf moviS

theorem test_step_movi : ((moviT.group? 1).map fun g => (g.outs.map fun o => o.writes.getLast?, (g.lane 31).pc, (g.lane 31).rv 2)) =
    some ([some (.v 31 2 0xFFFFFFFB)], 1, 0) := by decide

/-- R66. The result of MOVI stands in its register once its fourth cycle has come, and not before. -/
theorem test_step_result : (((stepOf { atCycle moviT 4 with agenda := [some { instr := .resultWrite, ev := evId 1 }] }).group? 1).map fun g =>
      ((g.lane 31).rv 2, g.outs.length)) = some (0xFFFFFFFB, 0) ∧
    (((stepOf { atCycle moviT 3 with agenda := [some { instr := .resultWrite, ev := evId 1 }] }).group? 1).map fun g =>
      ((g.lane 31).rv 2, g.outs.length)) = some (0, 1) := by decide

/-- R460. After reset the power limit is 1,000 W and no group is placed. -/
theorem test_reset : State.reset.out.powerLimit = 1000 ∧ State.reset.groups = [] ∧ State.reset.out.locked = false := by decide

/-! ## States that meet the hypotheses of the statements -/

def wL : Issue := latchOf 0xFFFFFFFF
def wS : State := { base with cur := some wL }
def wG : Group := (base.group? 1).get (by decide)
theorem wS_issues : Issues wS wL wG := ⟨rfl, rfl⟩

/-- The same group in firmware mode. -/
def fG : Group := { wG with core := 96 }
def fS : State := { wS with groups := [fG] }
theorem fS_issues : Issues fS wL fG := ⟨rfl, rfl⟩

/-- The group changed, and the state that holds it. -/
def sOf (g : Group) : State := { wS with groups := [g] }
theorem sOf_issues (g : Group) (h : g.gid = 1) : Issues (sOf g) wL g := ⟨rfl, by simp [State.group?, sOf, wL, latchOf, h]⟩

def wfAll (g : Group) (s : State) (is : List Instr) : Bool := is.all fun i => i.wf (s.regsOf g)

def wBand : Band := (base.band? 1).get (by decide)
def wCtx : Context := (base.ctx? 0).get (by decide)
def wKernel : Kernel := (base.kernel? 1).get (by decide)
def wEv (e : Ev) : State := { wS with ev := e }

theorem test_witness_IntegerArithmeticResults : Issues wS wL wG ∧
    wfAll wG wS [.iadd 63 63 0, .isub 0 1 2, .imin 1 2 3, .imax 1 2 3, .iminu 1 2 3, .imaxu 1 2 3, .iabsd 1 2 3, .iaddc 63 0 63] = true :=
  ⟨wS_issues, by decide⟩

def divS : State := after (.idiv 3 1 2) wS
theorem test_witness_MultiplyDivideResults : Issues wS wL wG ∧
    wfAll wG wS [.imul 63 1 2, .imulh 1 2 3, .imulhu 1 2 3, .imad 1 2 3, .idiv 1 2 3, .idivu 1 2 3, .irem 1 2 3, .iremu 0 63 63] = true ∧
    divS.divides divS.ev.die divS.ev.core divS.ev.quad = [(2, 1)] ∧ ((divS.group? 1).bind fun g => g.out? 2).isSome = true :=
  ⟨wS_issues, by decide⟩

theorem test_witness_LogicShiftResults : Issues wS wL wG ∧
    wfAll wG wS [.andd 1 2 3, .orr 1 2 3, .xor 1 2 3, .andn 1 2 3, .orn 1 2 3, .xnor 1 2 3, .notb 1 2, .shl 1 2 3, .shr 1 2 3, .sar 1 2 3,
      .rol 1 2 3, .ror 1 2 3, .fshl 1 2 3, .fshr 1 2 3, .shli 1 2 31, .shri 1 2 0, .sari 1 2 31, .roli 63 63 31] = true ∧
    wfAll wG wS [.clz 1 2, .ctz 1 2, .popc 1 2, .brev 1 2, .bitil 1 2 1, .bitdl 1 2 3, .bytep 1 2 3, .bfe 1 2 3, .bfeu 1 2 3, .bfi 1 2 3] = true :=
  ⟨wS_issues, by decide⟩

theorem test_witness_ComparisonResults : Issues wS wL wG ∧ wfAll wG wS [.icmp 6 63 0 5, .icmpi 5 6 63 511, .scmp 6 29 0 0] = true :=
  ⟨wS_issues, by decide⟩

theorem test_witness_ImmediateScalarResults : Issues wS wL wG ∧
    wfAll wG wS [.iaddi 63 0 256, .iandi 1 2 511, .iori 1 2 0, .ixori 1 2 511, .lea 1 2 3 7, .movi 63 0x4000, .movl 63 0xFFFFFFFF, .movlSx 31 0,
      .movlZx 0 1, .movlHi 31 2, .sadd 0 31 31, .ssub 31 0 0, .sand 1 2 3, .sor 1 2 3, .sxor 1 2 3, .sshl 1 2 3, .sshr 1 2 3, .smul 1 2 3,
      .saddi 31 31 256] = true :=
  ⟨wS_issues, by decide⟩

theorem test_witness_LaneExchangeResults : Issues wS wL wG ∧
    wfAll wG wS [.shflIdx 1 2 3, .shflUp 1 2 3, .shflDown 1 2 3, .shflXor 63 63 63, .voteBal 1 6, .matchLanes 1 2, .lredAdd 1 2, .lredMin 1 2,
      .lredMax 1 2, .lscanAdd 1 2, .voteAll 6 7, .voteAny 0 0, .mov 63 0, .movs 1 31 1, .pmovVFromP 1 7, .smov 31 63, .smovs 31 0,
      .pmovPFromV 6 63, .sel 1 63 1 7] = true ∧ wL.mask.getLsbD 0 = true ∧ (∀ m < 0, wL.mask.getLsbD m = false) :=
  ⟨wS_issues, by decide⟩

theorem test_witness_FloatArithmeticResults : Issues wS wL wG ∧
    wfAll wG wS [.fadd 1 2 3, .fsub 1 2 3, .fmul 1 2 3, .fabsd 1 2 3, .ffma 1 2 3, .ffms 1 2 3, .fnfma 1 2 3, .fnfms 1 2 3, .pkfma 1 2 3,
      .pkadd 1 2 3, .pkmul 1 2 3, .pkfmaF16 63 63 63] = true :=
  ⟨wS_issues, by decide⟩

theorem test_witness_FloatOrderResults : Issues wS wL wG ∧
    wfAll wG wS [.fmin 1 2 3, .fmax 1 2 3, .fminm 1 2 3, .fmaxm 63 63 63, .fcmp 6 63 0 0, .fcmp 0 1 2 5] = true ∧
    (fp32.decode 0x7F800001).isNan = true ∧ (fp16.decode 0x7E00).isNan = true ∧ (bf16.decode 0xFFFF).isNan = true :=
  ⟨wS_issues, by decide⟩

theorem test_witness_RoundingIsToNearest : (1 : Nat) ≠ 0 ∧ (fp32.ofFV .rne 0 (.fin false 1 0)).2 &&& flagOF = 0 ∧
    fp32.decode 0x3F800000 = .fin false 0x800000 (-23) ∧
    ([fp32, fp16, bf16, e4m3, e5m2, e2m1].all fun f => (match f.decode 1 with | .fin _ _ _ => true | _ => false) && decide (1 < 2 ^ f.width)) = true := by
  decide

theorem test_witness_ConversionResults : Issues wS wL wG ∧
    wfAll wG wS [.fcvt 1 2 0 3 5, .fcvt 1 2 1 0 0, .frnd 1 2 4, .fcvti 1 2 5 0, .icvtf 1 2 0 1, .fscaleb 1 2 3, .frexpe 1 2, .frexpm 1 2, .fclass 1 2,
      .fsgnj 1 2 3, .fsgnjn 1 2 3, .fabs 1 2, .fneg 63 63] = true ∧
    (fp32.decode 0x7FC00000).isNan = true ∧ fp32.decode 0xFF800000 = .inf true ∧
    (match fp32.decode 0x4F800000 with | .fin sg n e => decide ((intRange 5).2 < (if sg then -1 else 1) * ((roundAt .rne 0 sg n 1 e 0).1 : Int)) | _ => false) = true ∧
    (match fp32.decode 0xCF000001 with | .fin sg n e => decide ((if sg then -1 else 1) * ((roundAt .rne 0 sg n 1 e 0).1 : Int) < (intRange 0).1) | _ => false) = true :=
  ⟨wS_issues, by decide⟩

theorem test_witness_SpecialFunctionResults : Issues wS wL wG ∧
    wfAll wG wS [.fsqrt 1 2, .fdiv 1 2 3, .frcp 1 2, .frsq 1 2, .fexp2 1 2, .flog2 1 2, .fsint 1 2, .fcost 1 2, .ftanh 1 2, .ferf 63 63,
      .fsincosT 62 63] = true :=
  ⟨wS_issues, by decide⟩

/-- A result due now, and the group that owes it. -/
def dueOut : Outst := { wL.outst wG wS .fixed 4 false ((lanesOf 0x80000001#32).map fun l => .v l 63 7) ((lanesOf 0x80000001#32).map fun l => (l, 1)) 0 with due := 0 }
def dueG : Group := { wG with outs := [dueOut] }
def dueS : State := { sOf dueG with ev := evId 1 }
theorem test_witness_DueResultIsWritten : dueS.group? dueS.ev.id = some dueG ∧ dueS.ev.sub = 0 ∧ dueG.frozen = false ∧ dueG.outs = [dueOut] ∧
    dueOut.kind = .fixed ∧ dueOut.due ≤ dueS.cycleOn dueG.die ∧ dueG.lanes.length = 32 ∧ (∀ l < 32, 63 < (dueG.lane l).v.length) ∧
    dueOut.writes = (lanesOf 0x80000001#32).map (fun l => .v l 63 7) ∧ (∀ o ∈ wG.outs, o.kind = .fixed → wS.cycleOn wG.die < o.due) := by
  decide

theorem test_witness_ResultFormsFrame : GivesKind .fixed (.movi 2 5) wS wL 4 (vWrites wL 2 fun _ => 5) [] :=
  ⟨wL.outst wG wS .fixed 4 false (vWrites wL 2 fun _ => 5) [] 0, by rfl, rfl, rfl, fun g h => by cases h; rfl, rfl, rfl, rfl, rfl⟩

theorem test_witness_IllFormedRaisesIllegal : isEvent (.bitil 1 2 4) = false ∧ Issues wS wL wG ∧ (Instr.bitil 1 2 4).wf (wS.regsOf wG) = false ∧
    decodeWords (6 * 2 ^ 21 + 3) 0 = .error .noRow ∧ wG.firmware = false ∧
    wfAll wG wS [.halt, .idle, .segld 1 2, .heapld 1 2, .tlbinv 1 2, .rtswapWrite 1 2, .rtswapRead, .rtswapSwap, .keysel 1 2, .divinstInstall 1 2,
      .divinstLink, .divinstDrain, .divinstRemove, .divinstRead, .ctxctlHold 1 2, .ctxctlUnhold, .ctxctlSave, .ctxctlRestore, .ctxctlRelease,
      .ctxctlKill, .ctxctlServe, .ctxctlDecline, .ctxctlFwret, .ctxctlReset, .swrite 1 1 0 0x121, .swriteRafbase 1 1 0, .swriteClkmode 1 1 0] = true :=
  ⟨by decide, wS_issues, by decide⟩

theorem test_witness_EveryStepGoesOn : isEvent .nop = false ∧ base.cur = none := by decide

theorem test_witness_StepsKeepLatchEmpty : ∃ t, base.cur = none ∧ step base = .next t := ⟨_, rfl, rfl⟩

/-- Lane 0 has P0 true and the others false. -/
def prG : Group := wG.modLane 0 fun x => x.wp 0 true
def prS : State := sOf prG

theorem test_witness_BranchesTransfer : Issues prS wL prG ∧
    wfAll prG prS [.br 0 1, .bru 8 0x1FFFF, .call 0 0, .jmpx 63, .ret] = true ∧
    (wL.pc + (1 : BitVec 17).signExtend 32).toNat % 4 ≠ 3 ∧ wL.mask ≠ 0 ∧
    (∀ l < 32, wL.mask.getLsbD l = true → ((prG.lane l).rv 63).toNat % 4 ≠ 3 ∧ (prG.lane l).lr.toNat % 4 ≠ 3) ∧ prG.lanes.length = 32 :=
  ⟨sOf_issues _ rfl, by decide⟩

theorem test_witness_BrjEjectsOrBranches : Ready (.brj 0 3 5) prS wL prG ∧ prS.ejects prG [0] = true ∧ Ready (.brj 7 0 5) prS wL prG ∧
    prS.ejects prG (lanesOf wL.mask) = false ∧ (wL.pc + (5 : BitVec 15).signExtend 32).toNat % 4 ≠ 3 ∧ prG.lanes.length = 32 ∧ prG.jc.length = 4 :=
  ⟨⟨sOf_issues _ rfl, by decide⟩, by decide, ⟨sOf_issues _ rfl, by decide⟩, by decide⟩

/-- Lane 0 runs the continuation of lane 31 of group 7, and lane 1 is detached; counter 3 of group 7 is 1. -/
def contG : Group := (wG.modLane 0 fun x => { x with origin := .cont 7 31 3 }).modLane 1 fun x => { x with origin := .detached }
def homeG : Group := { wG with gid := 7, jc := [0, 0, 0, 1] }
def joinS : State := { wS with groups := [contG, homeG] }

theorem test_witness_JoinMeetsHome : Ready (.join 3) joinS wL contG ∧ Ready .exit joinS wL contG ∧ contG.lanes.length = 32 ∧ contG.jc.length = 4 ∧
    (contG.lane 0).origin = .cont 7 31 3 ∧ 7 ≠ wL.gid ∧ joinS.group? 7 = some homeG ∧ homeG.holds = false ∧ homeG.lanes.length = 32 ∧
    homeG.jc.length = 4 ∧ (contG.lane 1).origin = .detached ∧ (contG.lane 2).origin = .home ∧ contG.jc.getD 3 0 = 0 ∧ (contG.lane 2).st = .active ∧
    homeG.allExited = false ∧ (∃ m < 32, m ≠ 31 ∧ (homeG.lane m).st ≠ .exited) ∧ (homeG.lane 2).origin = .home ∧ homeG.jc.getD 3 0 ≠ 0 :=
  ⟨⟨⟨rfl, rfl⟩, by decide⟩, ⟨⟨rfl, rfl⟩, by decide⟩, by decide⟩

/-- A pool that lacks one record for a SPAWN of 32 lanes, and a band without continuation slots. -/
def fullS : State := { wS with pool := List.replicate 2017 (wS.recordOf wG 0 0 [] 0 .detached) }
def noContS : State := { wS with bands := [{ wBand with contEver := false }] }
def idleFw : State := { fS with tab := { fS.tab with fwq := [{ die := 0, kind := 1, words := [] }] } }
def haltG : Group := { wG with blocked := some .halt }
set_option maxRecDepth 100000 in
theorem test_witness_SpawnAnswersStatus : Ready (.spawn 1 2 64) wS wL wG ∧ Ready (.spawn 1 2 0) fullS wL wG ∧ Ready (.spawn 1 2 3) noContS wL wG ∧
    wS.band? wG.band = some wBand ∧ (∀ l < 32, wL.mask.getLsbD l = true → ((wG.lane l).rv 2).toNat % 4 ≠ 3) ∧ wBand.contEver = true ∧
    wS.poolHas 0 0 32 = true ∧ fullS.poolHas 0 0 32 = false ∧ (noContS.band? wG.band).map (fun x => x.contEver) = some false ∧
    (Instr.setejt 8).wf (wS.regsOf wG) = true ∧ fG.firmware = true ∧ (∃ e ∈ idleFw.tab.fwq, e.die = fG.die) ∧ (∀ e ∈ fS.tab.fwq, e.die ≠ fG.die) ∧
    wG.firmware = false ∧ wG.blocked ≠ some .idle ∧ haltG.blocked = some .halt ∧ (wEv (evId 1)).ev.id = wL.gid :=
  ⟨⟨wS_issues, by decide⟩, ⟨⟨rfl, rfl⟩, by decide⟩, ⟨⟨rfl, rfl⟩, by decide⟩, by decide⟩

/-- A kernel with a trap handler at PC 8, and a group that is about to enter it with one result outstanding. -/
def trapK : State := { wS with kernels := [{ wKernel with launch := { wKernel.launch with traph := 8 } }] }
def trapInfo : TrapInfo := { code := fcTrap, tcode := 0x3FFFF, va := 0, fpc := 0, lanes := 0xFFFFFFFF, time := 0 }
def trapG : Group := { wG with trapping := some trapInfo, tfp := 4096 }
def trapS : State := { trapK with groups := [trapG] }
def trapHead : List Byte := trapG.frameHead trapInfo 0 (fun l => (trapG.lane l).pc) ++ ([] : List Replay).flatMap Replay.bytes
def trapU : State := (trapS.writeGlb trapG.die trapG.core (trapS.ctxOf trapG) trapG.tfp.toNat trapHead).1

set_option maxRecDepth 100000 in
theorem trapU_written : (trapS.writeGlb trapG.die trapG.core (trapS.ctxOf trapG) trapG.tfp.toNat trapHead).2 = none := by decide

set_option maxRecDepth 100000 in
theorem test_witness_SoftwareTraps : Issues wS wL wG ∧ wS.debugged (wS.ctxOf wG) = false ∧ wG.handler = false ∧ trapS.group? trapG.gid = some trapG ∧
    trapG.trapping = some trapInfo ∧ trapS.handlerPc trapG = some 8 ∧ trapG.s.length = 32 ∧ trapG.lanes.length = 32 ∧
    trapU.group? trapG.gid = some trapG :=
  ⟨wS_issues, by decide⟩

/-- The group in its handler, its frame in memory as it was written, and the frame's second byte replaced. -/
def inS : State := { trapS.trapEnter 1 with cur := some wL }
set_option maxRecDepth 100000 in
def inG : Group := (inS.group? 1).get (by decide)
def inByte (k : Nat) (x : Byte) : State := inS.writePa 0 (4096 + k) x

/-- What an ERET reads of the frame: its action, and whether its values are accepted. -/
def frameRead (s : State) : Option (Nat × Bool) :=
  match s.readGlb inG.die inG.core (s.ctxOf inG) inG.tfp.toNat 672 with
  | (_, .ok f) => some (fieldAt f 8 2, frameBad f)
  | _ => none

set_option maxRecDepth 100000 in
theorem inS_issues : inS.group? wL.gid = some inG ∧ inG.handler = true ∧ inS.frameStores inG = false := by decide

set_option maxRecDepth 100000 in
theorem test_witness_EretReturns : frameRead inS = some (0, false) ∧ frameRead (inByte 1 1) = some (1, false) ∧
    frameRead (inByte 5 0) = some (0, true) := by decide

theorem test_witness_SreadReadsRegister : Ready (.sread 63 0 1 0x33) wS wL wG ∧ Ready (.sread 31 1 0 0) wS wL wG ∧ (0x33#9).toNat < 0x100 ∧
    Ready (.sread 1 0 0 0x121) fS wL fG ∧ fG.firmware = true ∧ wS.band? wG.band = some wBand ∧
    (wS.kernel? wBand.kid).map (fun k => k.startCycle.isSome) = some true ∧
    wfAll wG wS [.sreadTime 63 0 1, .sreadTime 31 1 0, .sreadTimef 0 0 0, .sreadTimef 31 1 0] = true :=
  ⟨⟨wS_issues, by decide⟩, ⟨wS_issues, by decide⟩, by decide, ⟨fS_issues, by decide⟩, by decide⟩

theorem test_witness_SwriteWritesRegister : Issues fS wL fG ∧ fG.firmware = true ∧
    wfAll fG fS [.swriteGst 63 0 0, .swriteGst 31 1 0, .swrite 31 1 0 0x121, .swrite 1 1 0 0x123, .swrite 1 1 0 0x130, .swrite 1 1 0 0x13F,
      .swrite 1 1 0 0x131, .swrite 1 1 0 0x132, .swrite 1 1 0 0x128, .swrite 1 1 0 0x129, .swriteRafbase 1 1 0, .swriteClkmode 63 0 0,
      .swriteClkmode 31 1 0] = true :=
  ⟨fS_issues, by decide⟩

/-- A group whose lanes stand past the end of the code object, so that its fetch faults (R59). -/
def pastS : State := { base with groups := [{ wG with lanes := wG.lanes.map fun l => { l with pc := 4 } }] }

def chooses (s : State) : Option (Nat × Bool) :=
  match s.choose s.ev.die s.ev.core s.ev.quad with
  | some g => (match s.nextChain g with
    | some (a, .ok _) => some (a, true)
    | some (a, .error _) => some (a, false)
    | none => none)
  | none => none

theorem test_witness_ChainIssueFillsLatch : base.issued.contains (base.ev.die, base.ev.core, base.ev.quad) = false ∧ chooses base = some (0, true) ∧
    chooses pastS = some (4, false) ∧ State.reset.choose 0 0 0 = none := by decide

/-- The state with the latch set by the issue of the first chain of `moviS`. -/
def issuedS : State := after .chainIssue { moviS with agenda := [], ev := evQuad (0, 0, 0) }

theorem test_witness_StepRunsDecodedInstruction : moviS.agenda = [some { instr := .chainIssue, ev := evQuad (0, 0, 0) }] ∧
    moviS.out.tripped = false ∧ (issuedS.cur.map fun c => (c.members.length, c.members.head?.map fun m => (decodeWords m.2.2.1 m.2.2.2).toOption.map
      fun d => d.instr, (issuedS.group? c.gid).isSome)) = some (1, some (some (.movi 2 (-5))), true) := by decide

theorem test_witness_ChainEndAdvancesLanes : wS.cur = some wL ∧ wS.group? wL.gid = some wG ∧ wG.lanes.length = 32 ∧ wS.trapNow = none ∧ wG.dbgHalt = false ∧
    ({ wS with trapNow := some { code := fcTrap, tcode := 0, va := 0 } } : State).trapNow.isSome = true := by decide

def guardG (n : Nat) (p : Bool) : Group := { wG with sched := { wG.sched with guard := n, promoted := p, gapUntil := 1, switched := true } }
def guardS (n : Nat) (p : Bool) : State := { sOf (guardG n p) with ev := evId 1 }
theorem test_witness_SchedulingEvents : (guardS 224 false).group? (guardS 224 false).ev.id = some (guardG 224 false) ∧ 224 ≤ (guardG 224 false).sched.guard ∧
    (guardG 224 false).sched.promoted = false ∧ (guardG 223 false).sched.guard < 224 ∧ (guardG 224 true).sched.promoted = true ∧
    (guardG 0 true).outs = [] ∧ base.eligible wG = true := by decide

/-- A core's pool with one record in each place, and a bin. -/
def rec (rid : Nat) (p : PoolPlace) : PoolRec := { wS.recordOf wG 0 4 (List.replicate 64 7) 0 .detached with rid := rid, place := p }
def binOf (n from_ : Nat) : Bin := { die := 0, core := 0, bin := 3, band := 1, recs := (List.range n).map fun i => 100 + i, timerFrom := from_, firing := false }
def evBin : Ev := { Ev.none with sub := 3 }
def waitS : State := { wEv evBin with pool := [rec 100 .waiting] }
def fullBinS : State := { wEv evBin with pool := (List.range 32).map fun i => rec (100 + i) (.bin 3), bins := [binOf 32 0] }
def lateBinS : State := { wEv evBin with pool := [rec 100 (.bin 3)], bins := [binOf 1 0], out := (atCycle wS 2048).out }
def helpS : State := { wEv evBin with pool := [rec 100 .helperQueue] }

theorem test_witness_RecordsReachGroups :
    (waitS.pool.find? fun (r : PoolRec) => r.die == 0 && r.core == 0 && r.place == .waiting && !r.saved && (waitS.binFor r.die r.core r.band r.pc).isSome) =
      some (rec 100 .waiting) ∧
    fullBinS.binAt 0 0 3 = some (binOf 32 0) ∧ 32 ≤ (binOf 32 0).recs.length ∧ fullBinS.band? 1 = some wBand ∧ wBand.st = .resident ∧
    wBand.freeCont.length = 2 ∧ lateBinS.binAt 0 0 3 = some (binOf 1 0) ∧ (binOf 1 0).timerFrom + lateBinS.binTimer (binOf 1 0) ≤ lateBinS.cycleOn 0 ∧
    (binOf 1 0).recs ≠ [] ∧ (binOf 1 0).recs.length ≤ 4 ∧ lateBinS.helperHeld 0 0 + 1 ≤ 256 ∧
    (helpS.groups.find? fun g => g.die == 0 && g.core == 0 && g.helper.isSome && g.saved && helpS.bandSt g.band == some .resident) = none ∧
    (helpS.pool.find? fun (r : PoolRec) => r.die == 0 && r.core == 0 && r.place == .helperQueue && !r.saved &&
      (match helpS.band? r.band with | some b => b.st == .resident | none => false)) = some (rec 100 .helperQueue) ∧
    (List.range 8).find? (fun e => !((helpS.helperBusy 0 0).contains e)) = some 0 := by decide

def att (off seg scp ord cp : Nat) : Attr :=
  { off := BitVec.ofNat 12 off, seg := BitVec.ofNat 3 seg, str := 0, scp := BitVec.ofNat 3 scp, ru := 30, ord := BitVec.ofNat 2 ord, cp := BitVec.ofNat 3 cp }
def m0 : Attr := att 0 0 1 0 0

/-- A key slot and a sector that its key wrote. -/
theorem test_witness_WriteReachesItsBytesOnly : MemInv base ∧ (base.keyGenOf 0 = some 0) ∧
    (∀ i < 4, ∀ e ∈ base.mem.sectorKey, e.1 = (2 ^ 41 - 4 + i) / 32 → e.2 = 0) ∧ 96 < 97 ∧ 524287 < 524288 :=
  ⟨⟨by decide, by decide⟩, by decide⟩

def oddG : Group := wG.modLane 31 fun x => x.wv 2 1
def oddS : State := sOf oddG

theorem test_witness_MemoryInstructionsIssue : Issues wS wL wG ∧ Issues oddS wL oddG ∧
    wfAll wG wS [.ld 60 62 63 6 m0, .ld 63 2 0 0 (att 0xFFF 0 4 1 0), .st 1 2 3 4 (att 0 0 4 2 0), .atomAdd 1 2 3 m0, .atomMins 1 2 3 m0, .atomMaxs 1 2 3 m0,
      .atomMinu 1 2 3 m0, .atomMaxu 1 2 3 m0, .atomAnd 1 2 3 m0, .atomOr 1 2 3 m0, .atomXor 1 2 3 (att 0 0 4 3 0), .atomxExch 1 2 3 m0,
      .atomxCas32 2 2 3 m0, .atomxCas64 4 2 3 m0, .atomxCas128 56 2 3 m0, .atomxFadd32 1 2 3 m0, .atomxFmin32 1 2 3 m0, .atomxFmax32 1 2 3 m0,
      .redAddI32 1 2 3 (att 0 0 1 0 6), .redAddF32 1 2 3 m0, .redAddBf16x2 1 2 3 m0, .redMinF32 1 2 3 m0, .redMaxF32 1 2 3 m0, .redAddI64 62 2 3 m0,
      .lds 1 2 5 m0] = true ∧
    wS.memCheck wG wL.mask m0 16 true true (fun l => (wG.lane l).ea m0 2 3 16) = none ∧
    (oddS.memCheck oddG wL.mask m0 2 true true fun l => (oddG.lane l).ea m0 2 0 2) = some (fcAlign, 1) ∧
    (wS.memCheck wG wL.mask (att 0 2 1 0 0) 4 true true fun l => (wG.lane l).ea (att 0 2 1 0 0) 2 0 4) = some (fcSegLimit, 0) ∧
    wS.memCheck wG (1#32 <<< lowLane wL.mask) m0 8 true false (fun _ => ((wG.rs 2).toNat : Int) + m0.off.toInt * 8) = none :=
  ⟨wS_issues, sOf_issues _ rfl, by decide⟩

/-- One lane's access in flight. -/
def oneS : State := one [0, 0, 0, 9]
def flying (i : Instr) : State := { after i oneS with ev := Ev.none }
def accOf (s : State) : Option Acc := s.mem.accs.find? fun x => x.aid == s.ev.id
def flies (i : Instr) (p : AccKind → Bool) : Bool :=
  match accOf (flying i) with
  | some a => (flying i).canPerform a && !a.elsewhere && p a.kind
  | none => false

/-- An ST behind another whose bytes it shares must wait. -/
def behind : State := { after (.st 3 6 0 4 m0) { after (.st 3 6 0 4 m0) oneS with cur := some (latchOf 1) } with ev := evId 1 }

theorem test_witness_AccessesArePerformed : flies (.st 3 6 0 4 m0) AccKind.isStore = true ∧ flies (.ld 3 6 0 4 m0) (fun k => k == .load 4) = true ∧
    flies (.cachePref 6 0 m0) (fun k => k == .pref) = true ∧ flies (.cacheLock 3 6 0 (att 0 0 2 0 0)) (fun k => k == .lock) = true ∧
    flies (.cacheUnlock 3 6 0 (att 0 0 2 0 0)) (fun k => k == .unlock) = true ∧ flies (.cacheCwb 6 0 m0) (fun k => k == .cwb) = true ∧
    flies (.cacheCinv 6 0 m0) (fun k => k == .cinv) = true ∧ flies (.cacheCwbinv 6 0 m0) (fun k => k == .cwbinv) = true ∧
    ((accOf (flying (.ld 3 6 0 4 m0))).map fun a => ((flying (.ld 3 6 0 4 m0)).together 32 [a]).all fun x => (flying (.ld 3 6 0 4 m0)).canPerform x) = some true ∧
    (accOf behind).map (fun a => behind.canPerform a) = some false := by decide

theorem test_witness_AtomicsArePerformed : flies (.atomAdd 3 6 0 m0) AccKind.isAtom = true ∧
    (∀ e ∈ (flying (.atomAdd 3 6 0 m0)).mem.accs, e.places.isSome = true) ∧
    (flying (.atomAdd 3 6 0 m0)).mem.accs.all (fun x => (flying (.atomAdd 3 6 0 m0)).canFollow x) = true := by decide

def walkOf (w : Bool) : Walk := { wid := 0, die := 0, core := 0, ctx := 0, region := 64, page := 0, va := 2 ^ 40, rd := true, wr := false, walking := w, at_ := 0 }
def walkS (w : Bool) : State := wS.modMem fun m => { m with walks := [walkOf w] }
def sline (d : Bool) : StashLine := { die := 0, core := 0, sline := 0, band := 1, pline := 5, dirty := d }
def probeS : State := wS.modMem fun m => { m with stashLines := [sline true] }
def redS : State := { after (.redAddI32 3 6 0 m0) oneS with ev := evId 1 }
/-- A band whose first stash line is mapped and INVALID, and a load of it in flight. -/
def mapBand : Band := { wBand with maps := some { g := 1024, t := 0, len := 128 } :: List.replicate 15 none }
def fillS : State := { after (.ld 3 6 0 4 (att 0 1 1 0 0)) { oneS with bands := [mapBand] } with ev := Ev.none }
def tauS (n k : Nat) : State := { wS with ctxs := [{ wCtx with trials := (n, k) :: List.replicate 7 (0, 0), trust := 4 :: List.replicate 7 1 }] }
def reqOf : SliceReq := { rid := 0, die := 0, site := 0, at_ := 0, rank := 0, line := 0, secs := 0xF, op := .read, ctx := 0, cp := 0, delta := none, trial := false }
def reqS : State := wS.modMem fun m => { m with reqs := [reqOf] }

theorem test_witness_WalksProbesAndParity : (walkS false).mem.walks.find? (fun x => x.die == 0 && !x.walking) = some (walkOf false) ∧
    ((walkS false).mem.walks.filter fun y => y.die == 0 && y.walking).length < 32 ∧
    (walkS true).mem.walks.find? (fun w => w.wid == (walkS true).ev.id && w.walking) = some (walkOf true) ∧ (∀ a ∈ (walkS true).mem.accs, a.places.isSome = true) ∧
    probeS.mem.stashLines.find? (fun l => l.die == 0 && l.core == 0 && l.sline == 0) = some (sline true) ∧
    ((redS.group? 1).map fun g => g.reds.length) = some 1 ∧ fillS.mappedLine 0 0 0 = some (1, 1024, false) ∧
    (fillS.mem.accs.filter fun a => a.onStashLine 0 0 0).length = 1 ∧
    (match (fillS.translate 0 0 0 1024 true true false).2 with | .ok pa => pa == 1024 | _ => false) = true ∧
    (∀ p ∈ [(2 ^ 20, 0), (2 ^ 20, 2 ^ 20), (2 ^ 20, 3 * 2 ^ 18 - 1), (2 ^ 20 - 1, 0)], ((tauS p.1 p.2).ctx? 0).map (fun c => c.trials.getD 0 (0, 0)) = some p) ∧
    0 < wCtx.trust.length ∧ 0 < wCtx.trials.length ∧ reqS.mem.reqs.find? (fun r => r.rid == 0) = some reqOf ∧
    reqS.mem.reqs.find? (fun q => q.sameSet reqOf) = some reqOf ∧ wS.mem.reqs.find? (fun r => r.rid == 0) = none := by decide

def ordG : Group := { wG with blocked := some (.redfOrd 1 1) }
def ordS : State := { sOf ordG with ev := evId 1 }
theorem test_witness_FencesOrderAccesses : Issues wS wL wG ∧ wfAll wG wS [.fence 4, .fenceX 31 1, .redf, .fenceP 2 0 1, .fenceP 0 1 1, .redfOrd 1, .redfOrd 7] = true ∧
    (1#3).toNat < (wS.launchOf wG).tiers.length ∧ wG.idx ≠ none ∧ (wS.launchOf wG).tiers.length ≤ (7#3).toNat ∧ ordS.ev.id = wL.gid ∧
    ordG.blocked = some (.redfOrd (1#3).toNat 1) ∧ ordS.unitPlaced ordG 1 = true ∧ ordS.unitMembers ordG 1 = [ordG] ∧ ordS.resident ordG = true ∧
    ordG.saved = false ∧ ordG.allExited = false :=
  ⟨wS_issues, by decide⟩

def queryS : State := { atCycle (after (.stashQuery 2 6 0 m0) oneS) 1 with ev := Ev.none }
theorem test_witness_LineAndStashOperationsIssue : Issues wS wL wG ∧
    wfAll wG wS [.cachePref 2 1 m0, .cacheLock 3 2 1 (att 0 0 1 0 0), .cacheUnlock 3 2 1 (att 0 0 2 0 0), .cacheCwb 2 1 m0, .cacheCinv 2 1 m0, .cacheCwbinv 2 1 m0,
      .stashMap 62 2 3 m0, .stashUnmap 2 2 3 m0, .stashFlush 2 2 3 m0, .stashFill 2 2 3 m0, .stashQuery 2 2 3 m0] = true ∧
    wS.memCheck wG wL.mask m0 1 false false (fun l => (wG.lane l).ea m0 2 1 128) = none ∧
    (wS.memCheck wG wL.mask (att 0x800 0 1 0 0) 1 false false fun l => (wG.lane l).ea (att 0x800 0 1 0 0) 2 1 128).isSome = true ∧
    (accOf queryS).map (fun x => (x.kind == .stashOp 4 0 0 9) && queryS.canPerform x && queryS.stashReady x) = some true ∧
    wS.band? wG.band = some wBand ∧ wBand.mapAt 15 = none ∧ wBand.mappedIn 0 128 = [] ∧ wBand.mapOf 0 = none ∧
    (∀ i < 16, ({ wBand with maps := List.replicate 16 (some { g := 0, t := 0, len := 128 }) } : Band).mapAt i ≠ none) :=
  ⟨wS_issues, by decide⟩

/-- A barrier record of tier 1, index 15, of the group's band, with `n` of `m` members arrived. -/
def barRec (n m : Nat) : BarRec :=
  { bar := 5, kid := 1, band := 1, tier := 1, index := 15, u := 0, nmem := m, narr := n, mask := 0, per := 1, unitGroups := 1,
    counts := List.replicate 64 0, ebytes := 0, cbytes := 0, phase := false, stepf := false, overBytes := false, retired := [], credited := false,
    shadow := false }
def barS (n m : Nat) : State := wS.modSync fun y => { y with bars := [barRec n m] }
def fewS : State := { wS with kernels := [{ wKernel with launch := { wKernel.launch with bars := [0, 15] } }] }
def pendS : State := (barS 1 2).setToken 5 1 false true

theorem test_witness_BarriersCountArrivals : Issues wS wL wG ∧ wS.band? wG.band = some wBand ∧
    wfAll wG wS [.barArrive 1 15, .barSync 1 15, .barStep 1 15, .barWait 1 15, .barExpect 63 1 15, .barArrive 2 0] = true ∧
    (wS.launchOf wG).tiers.length ≤ (2#6).toNat ∧ (fewS.launchOf wG).bars.getD 1 0 ≤ (15#6).toNat ∧
    (barS 0 2).barOf wG 1 15 = some (barRec 0 2, 0) ∧ ((barS 0 2).token 5 1).pend = false ∧ (pendS.token 5 1).pend = true ∧
    pendS.barOf wG 1 15 = some (barRec 1 2, 0) ∧ wG.reds = [] ∧ (barS 0 2).barAtOnce (barRec 0 2) wG = true ∧ (barRec 0 2).narr + 1 < (barRec 0 2).nmem ∧
    (barS 0 2).bar? 5 = some (barRec 0 2) ∧ (barS 0 1).barOf wG 1 15 = some (barRec 0 1, 0) ∧ (barRec 0 1).narr + 1 = (barRec 0 1).nmem ∧
    (barRec 0 1).ebytes ≤ (barRec 0 1).cbytes ∧ (barRec 0 1).stepf = false ∧ (barRec 0 1).retired = [] ∧ (barS 0 1).bar? 5 = some (barRec 0 1) ∧
    (∀ x ∈ (barS 0 1).groups, x.blocked = none) ∧ (barS 0 2).barPending 5 1 = false ∧ (barRec 0 2).narr < (barRec 0 2).nmem :=
  ⟨wS_issues, by decide⟩

def msgS (m : BarMsg) : State := (barS 0 2).modSync fun y => { y with barMsgs := [m] }
theorem test_witness_BarrierMessages :
    (∀ m ∈ [BarMsg.arrive 0 5 0 1 false 0, BarMsg.credit 0 5 (2 ^ 48), BarMsg.expect 0 5 1 7],
      (msgS m).sync.barMsgs.find? (fun x => x.mid == (msgS m).ev.id) = some m ∧ (msgS m).bar? m.bar = some (barRec 0 2) ∧
      (msgS m).barDiverted m (barRec 0 2) = false ∧ (msgS m).sync.barMsgs.find? (fun y => y.bar == m.bar && y.from == m.from) = some m) ∧
    (msgS (.arrive 0 5 0 1 false 0)).pendingBelow 1 0 = false := by decide

def semSlot (n : W32) (ws : List Nat) : SemSlot :=
  { die := 0, slot := 0, st := .allocated, gen := 0, ctx := 0, band := 0, count := n, holder := none, waiters := ws, freer := none, scope := 4 }
def semS (n : W32) (ws : List Nat) : State := { wS with groups := [wG, { wG with gid := 9, blocked := some (.sem 0) }], sync := { wS.sync with sems := [semSlot n ws] } }
def wordG : Group := { wG with blocked := some (.semWord 64 0 2) }
def wordS : State := { sOf wordG with ev := evId 1 }

set_option maxRecDepth 100000 in
theorem test_witness_SemaphoresCountUnits : Issues wS wL wG ∧
    wfAll wG wS [.semAcq 63, .semTryacq 1 2, .semRel 2, .semAcqM 62, .semRelM 2, .syncaAlloc 1 2, .syncaFree 2] = true ∧ wS.semOf 1 0 0 = none ∧
    (semS 1 []).semOf 1 0 0 = some (semSlot 1 []) ∧ (semS 0 []).semOf 1 0 0 = some (semSlot 0 []) ∧ (semSlot 0xFFFFFFFF []).count = 0xFFFFFFFF#32 ∧
    (semS 0xFFFFFFFF []).semOf 1 0 0 = some (semSlot 0xFFFFFFFF []) ∧ (semS 0 [9]).semOf 1 0 0 = some (semSlot 0 [9]) ∧
    wG.reds = [] ∧ wS.pendingBelow wG.gid wS.mem.nextAid = false ∧ 9 ≠ wG.gid ∧ ((semS 0 [9]).group? 9).isSome = true ∧
    ((semS 0 [9]).sync.sems.find? fun y => y.key == 0) = some (semSlot 0 [9]) ∧
    wS.memCheck wG (1#32 <<< lowLane wL.mask) m0 8 true true (fun _ => (wG.lane 0).pair 2) = none ∧
    ((sOf (wG.modLane 0 fun x => x.wv 2 4)).memCheck (wG.modLane 0 fun x => x.wv 2 4) (1#32 <<< lowLane wL.mask) m0 8 true true fun _ =>
      ((wG.modLane 0 fun x => x.wv 2 4).lane 0).pair 2) = some (fcAlign, 4) ∧
    wordS.group? wordS.ev.id = some wordG ∧ wS.freeSem wG.die = some 0 ∧ ((wG.lane 0).rv 2).getLsbD 31 = false ∧ (0x80000000#32).getLsbD 31 = true :=
  ⟨wS_issues, by decide⟩

/-- Queue 15 of the group's band with `n` words and an allowance of `a`. -/
def namedOf (n a : Nat) : NamedQ := { NamedQ.new 1 15 with occ := n, allow := a, head := 255 }
def namedS (n a : Nat) : State := { wS with named := [namedOf n a] }
set_option maxRecDepth 100000 in
theorem test_witness_NamedQueuesServe : Issues wS wL wG ∧
    wfAll wG wS [.qopPush 63 15, .qopPop 63 15, .qopTrypush 1 2 15, .qopTrypop 1 2 15, .qopAllow 1 15, .qopPeek 1 2 15] = true ∧
    (15#6).toNat < (wS.launchOf wG).nq ∧ wS.qops = [] ∧ wS.pendingBelow wG.gid wS.mem.nextAid = false ∧
    (namedS 31 32).namedQ wG.band 15 = namedOf 31 32 ∧ (namedS 32 31).namedQ wG.band 15 = namedOf 32 31 ∧ (namedOf 31 32).pushW = [] ∧
    (namedOf 31 32).popW = [] ∧ (lanesOf wL.mask).length = 32 ∧ wG.frozen = false ∧ (∀ o ∈ wG.outs, o.oid < wS.nextId) ∧ wG.lanes.length = 32 ∧
    (∀ l < 32, 63 < (wG.lane l).v.length) ∧ (namedOf 31 32).slots.length = 256 ∧ (namedOf 31 32).head < 256 ∧ (namedOf 224 0).occ + 32 ≤ 256 :=
  ⟨wS_issues, by decide⟩

/-- A kernel that declares no named queue. -/
theorem test_witness_NamedQueueIllegal : (Instr.qopPush 63 15).wf 64 = true ∧
    (({ wS with kernels := [{ wKernel with launch := { wKernel.launch with nq := 15 } }] } : State).launchOf wG).nq ≤ (15#6).toNat := by decide

/-- A work queue whose handle is 0, with `n` entries in its window. -/
def workOf (n : Nat) : WorkQ :=
  { wid := 0, die := 0, unit := 0, queue := 0, ctx := 0, key := 0, base := 4096, count := 64, window := List.replicate n [1, 2, 3, 4], rhead := 63,
    rocc := 0, ring := [], stuck := none, deqW := [], enqW := [] }
def oneL : State := { base with cur := some (latchOf 1) }
def workS (x : WorkQ) : State := { oneL with work := [x] }
def enqG : Group := { wG with blocked := some (.wqEnqw 0 0) }
def enqOp : QOp :=
  { gid := 1, die := 0, core := 0, quad := 0, gslot := 0, oid := none, kind := .enqw, work := true, band := 0, q := 0, mask := 1, lanes := [0], vals := [[1, 2, 3, 4]], d := 4, st := 1, at_ := 0,
    mats := [], until_ := 0, since := 0, cause := 0 }
def enqS : State := { sOf enqG with work := [{ workOf 64 with enqW := [enqOp] }], ev := evId 1 }

set_option maxRecDepth 100000 in
theorem test_witness_WorkQueuesServe : Issues wS wL wG ∧ wfAll wG wS [.wqEnq 60 1 2, .wqTrydeq 4 1 2, .wqEnqw 4 1 2, .wqDeq 60 31] = true ∧
    wS.workOf 0 (wG.rs 1) = none ∧ (workS (workOf 63)).workOf 0 (wG.rs 1) = some (workOf 63) ∧ (workS (workOf 63)).work? 0 = some (workOf 63) ∧
    (workOf 63).window.length + (lanesOf (latchOf 1).mask).length ≤ 64 ∧ 1 ≤ (workOf 1).window.length ∧ (workOf 0).window = [] ∧
    lanesOf (latchOf 1).mask = [0] ∧ (∀ y ∈ (workS (workOf 1)).mem.accs, y.oid ≠ some 2) ∧ 60 + 3 < (wG.lane 0).v.length ∧ (workOf 63).window.length < 64 ∧
    enqS.group? enqS.ev.id = some enqG ∧ enqG.holds = false ∧ (0 : Nat) ≤ enqS.out.elapsed ∧ enqS.qops = [] ∧ (enqS.work? 0).map (fun y => y.enqW) = some [enqOp] ∧
    (match ((workS { workOf 0 with rocc := 1 }).readGlb 0 96 0 (4096 + 16 * 63) 16).2 with | .ok bs => bs.length == 16 | _ => false) = true :=
  ⟨wS_issues, by decide⟩

/-- A channel whose handle is in S1 and a group that names head 64 in S2. -/
def chanOf (coll : Bool) (n : Nat) : Channel :=
  { cid := 3, coll := coll, die := 0, eng := 0, chn := 0, bound := some (0, 0), ring := 0, st := .idle,
    posts := List.replicate n { head := 64, coll := coll, signet := 0, ctx := 0, kid := 1, band := 1, gid := 1, q := 0, node := none, needs := Needs.none },
    cur := none, part := [], page := none, doomed := [], recs := [], node := none, failed := none }
def chanG (h x : W64) : Group := (wG.ws 1 h).ws 2 x
def chanS (coll : Bool) (n : Nat) (x : W64) : State := { sOf (chanG (if coll then 0x8000 else 0) x) with chans := [chanOf coll n] }

/-- A completion ring of 64 records at 4096 with its buffer at 8192, empty at TAIL 0; one whose TAIL 64 finds the record of the earlier lap. -/
def ringBytes (tail : Nat) : List Byte := leBytes 8 8192 ++ leBytes 4 64 ++ leBytes 12 0 ++ leBytes 8 tail
def ringS (tail : Nat) : State :=
  let s := { sOf ((wG.ws 1 4096).ws 2 0) with out := { wS.out with elapsed := 0 } }
  s.writePas 0 ((List.range 32).map fun i => 4096 + i) (ringBytes tail)
def looks (s : State) (a : Nat) : Option Nat := match s.crecLook wG a with
  | (_, .absent) => some 0 | (_, .refused) => some 1 | (_, .present t _) => some (2 + t) | _ => none
def waitOut : Outst := { wL.outst wG wS .unit 1 true [] [] 0 with w0 := BitVec.ofNat 32 (0x38 * 2 ^ 21 + 8 * 2 ^ 15 + 1 * 2 ^ 9 + 3 * 2 ^ 3 + 1) }
def waitG : Group := { (wG.ws 1 4096) with outs := [waitOut], blocked := some (.crecWait 0) }

set_option maxRecDepth 100000 in
theorem test_witness_ChannelsTakePosts : Issues wS wL wG ∧
    wfAll wG wS [.chanPost 1 1 2, .chanColl 63 31 31, .chanStat 1 1, .chanCancel 1 1, .crecPoll 56 1 2, .crecWait 8 1 2, .crecAck 1 2] = true ∧
    wS.chanOf 0 0 = none ∧ (∀ c ∈ [true, false], ∀ n ∈ [0, 3, 4], (chanS c n 64).chanOf 0 (if c then 0x8000 else 0) = some (chanOf c n)) ∧
    (chanG 0 64).rs 2 = 64 ∧ ((chanG 0 65).rs 2).toNat % 64 ≠ 0 ∧ wS.frameStores wG = false ∧ looks (ringS 0) 4096 = some 0 ∧
    looks (ringS 64) 4096 = some 66 ∧ looks wS 4096 = some 1 ∧ looks wS 4097 = some 1 ∧
    (match ((ringS 64).writeGlb 0 0 0 (4096 + 24) (leBytes 8 65)).2 with | none => true | some _ => false) = true ∧
    (sOf waitG).group? 1 = some waitG ∧ waitG.holds = false ∧ waitG.crecOut = some waitOut :=
  ⟨wS_issues, by decide⟩

/-- The kernel with 64 KiB of stash, a unit whose banks hold format 0, and the queue of a unit at work. -/
def bankU : MatUnit :=
  { MatUnit.new 0 0 0 with viewA := { loaded := true, tag := 0, fmt := 0, kb := 0 }, viewS := { loaded := true, tag := 0, fmt := 0, kb := 0 },
                           active := { Bank.empty with loaded := true }, shadow := { Bank.empty with loaded := true } }
def matS (u : MatUnit) : State :=
  { wS with mats := [u], kernels := [{ wKernel with launch := { wKernel.launch with stash := 65536 } }] }
def v2 (x : W32) : Group := wG.modLane 31 fun y => y.wv 2 x
def mw : MatWord := { afmt := 0, kb := 0, sco := 0, ncol := 127, bid := 0, acc := 1, rsv := 0 }
def fills (off n : Nat) : Bool := (match ((matS bankU).fillBytes wBand off n false) with | (w, none) => w.mats == [bankU] | _ => false)
def filled (wr : Bool) (n : Nat) : List Nat := ((matS bankU).fillLanes wL wBand wr n fun _ => 0).2

set_option maxRecDepth 100000 in
theorem test_witness_MatrixInstructionsEnterQueue : Issues (matS bankU) wL wG ∧ (matS bankU).mat? wG = some bankU ∧ (matS bankU).band? wG.band = some wBand ∧
    wfAll wG (matS bankU) [.mq 1 2 mw, .mswap, .maccrd 63 2, .maccwr 1 2, .maccclr 2, .mloadb 6 2 3 7, .mloadb 0 2 0 0, .mscl 1 2 3, .macccvt 1 2 5] = true ∧
    (∀ l < 32, ((wG.lane l).rv 2).toNat ≤ 127) ∧ 16383 < (((v2 16384).lane 31).rv 2).toNat ∧ 127 < (((v2 128).lane 31).rv 2).toNat ∧
    ((wG.lane 0).rv 2).toNat % 128 = 0 ∧ (matS bankU).segOk wG (wG.lane 0) 1 0 16384 false = true ∧ fills 0 16384 = true ∧ fills 0 4096 = true ∧
    (matS bankU).segOk wG (wG.lane 0) 1 0 4096 true = true ∧ filled true (cvtRow 0) = lanesOf wL.mask ∧ filled false (rowBytes 0 0) = lanesOf wL.mask ∧
    mqBankOk (MatUnit.new 0 0 0).viewA mw = false ∧ mqBankOk bankU.viewA mw = true ∧ mqRowOk mw 127 = true ∧ mqRowOk mw 128 = false :=
  ⟨⟨rfl, rfl⟩, by decide⟩

def quarter0 : Quarter := { qid := 9, needs := Needs.none, gid := 1, band := 1, pc := 0, quarter := 0, word := mw, lanes := [] }
def passU (o : Nat) (e : Bool) (r : Option Nat) : MatUnit := { bankU with queue := [.pass o e [quarter0]], running := r }
def mldOp (k : Nat) : MldOp :=
  { mid := 9, needs := Needs.none, gid := 1, band := 1, oid := 0, pc := 0, minor := k, d := 0, b := 0, lanes := [(0, 7, 3)], count := 0 }
def mldU (k : Nat) : MatUnit := { bankU with queue := [.mld (mldOp k)] }
theorem test_witness_MatrixQueueEvents : (∀ u ∈ [passU 0 false none, passU 0 true none, passU 0 true (some 0), mldU 1, mldU 3, mldU 4, mldU 5],
      (matS u).matAt (matS u).ev.die (matS u).ev.core (matS u).ev.quad = some u) ∧ (passU 0 false none).queue.getLast? = some (.pass 0 false [quarter0]) ∧
    0 + 7 ≤ (atCycle (matS bankU) 7).cycleOn 0 ∧ (matS bankU).cycleOn 0 < 0 + 7 ∧ (matS bankU).needsMet quarter0.needs = true ∧ quarter0.lanes = [] ∧
    bankU.active.poisoned = false ∧ (matS bankU).needsMet (mldOp 1).needs = true ∧ (mldOp 4).lanes = [(0, 7, 3)] := by decide

theorem acc_sorted : bankU.acc.Pairwise (fun p q => p.1 < q.1) ∧ (127 : Nat) ≤ mw.ncol.toNat := ⟨.nil, by decide⟩

def rgnG (n : Nat) : Group := { wG with rgn := List.replicate n { id := 0, pc := 0, idem := false, at_ := 0 } }
theorem test_witness_RegionsAndTrace : Issues wS wL wG ∧
    wfAll wG wS [.rgnEnter 63 63 1, .emit 1 63, .causeget 31, .causeset 0, .perfrd 1 2, .censusrd 60 2] = true ∧ 8 ≤ (rgnG 8).rgn.length ∧
    (rgnG 7).rgn.length < 8 ∧ (∀ x ∈ wS.obs.dbg, x.watches = []) ∧ wS.obs.userOff.contains (wS.ctxOf wG) = false ∧
    ({ wS with obs := { wS.obs with userOff := [0] } } : State).obs.userOff.contains (wS.ctxOf wG) = true :=
  ⟨wS_issues, by decide⟩

/-- A band with one budget entry, free or held, and a group that names a record at 128. -/
def budS (x : List (Option Nat)) : State := { sOf ((wG.ws 1 128).ws 2 64) with bands := [{ wBand with budget := x }] }
/-- A message to handler 0 of the group's own kernel, whose code object names PC 4 for it. -/
def msgOf (k : Option Nat) (b : Nat) : Msg :=
  { mid := 0, kid := k, band := b, hidx := 0, bad := false, payload := List.replicate 16 5, gid := 1, die := 0, core := 0, sband := 1, oid := 0, d := 3,
    lane := 0, low := true, cause := 0, needs := Needs.none, inb := none }
def amsgS (m : Msg) : State := { wS with msgs := [m], codes := wS.codes.map fun c => { c with handlers := [4] } }
theorem test_witness_LaunchAndMessages : Issues (budS [none]) wL ((wG.ws 1 128).ws 2 64) ∧ wfAll wG wS [.launch 63 1 2, .amsg 1 2 48, .amsg 1 0 0] = true ∧
    ((budS [none]).band? 1).map Band.freeEntry = some (some 0) ∧ ((budS [some 0]).band? 1).map Band.freeEntry = some none ∧
    wBand.budget = [] ∧ ((wG.ws 1 128).rs 1).toNat % 128 = 0 ∧ ((wG.ws 1 127).rs 1).toNat % 128 ≠ 0 ∧
    (∀ m ∈ [msgOf none 0, msgOf (some 99) 0, msgOf (some 1) 0], (amsgS m).msgs.find? (fun m => m.mid == (amsgS m).ev.id) = some m ∧
      (amsgS m).msgs.find? (fun x => x.gid == m.gid && x.kid == m.kid && x.band == m.band) = some m) ∧
    (amsgS (msgOf none 0)).amsgDest (msgOf none 0) = .refused ∧ (amsgS (msgOf (some 99) 0)).amsgDest (msgOf (some 99) 0) = .absent ∧
    (amsgS (msgOf (some 1) 0)).amsgDest (msgOf (some 1) 0) = .resident wBand 4 ∧ (amsgS (msgOf (some 1) 0)).poolHas 0 0 1 = true ∧
    (∀ r ∈ (amsgS (msgOf (some 1) 0)).pool, r.rid < 2) :=
  ⟨⟨rfl, rfl⟩, by decide⟩

def wQueue : HostQ :=
  { q := 8, st := .open_, ctx := 0, prio := 0, wdPeriod := 1000, wdAction := false, wdRemain := 0, wdHeld := false, dumpFlag := false, dumpBuf := 0,
    dumpLen := 0, waiting := [(4096, 1)], base := 0, nodes := [], signet := 0, running := false }
def evNode : Node :=
  { idx := 0, kind := 3, evop := false, body := 64, chan := 0, succ := [], preds := 0, st := .running, fault := 0, failIdx := 0, handles := [], signet := 0,
    kid := none, outstanding := 1, readyAt := 0 }
def waitQ : HostQ := { wQueue with running := true, nodes := [evNode], waiting := [] }
def queueS (h : HostQ) : State := { wEv (evId 8) with hqs := [h] }
/-- A partition with core 0 of die 0, and a kernel of one band that is not yet placed. -/
def wPart : Partition := { part := 0, cores := [(0, 0)], engines := [], units := [], share := 256, routing := 0, exporter := none, resetting := false }
def candK : Kernel := { wKernel with kid := 2, placed := 0, passedAt := some 0, lastCore := 776 }
def bigCtx : Context := { wCtx with frames := (2 ^ 30, 2 ^ 30) }
def candS (n : Nat) : State :=
  { wEv (evId 1) with kernels := [candK], bands := [], groups := [], mats := [], ctxs := [bigCtx], parts := [wPart], out := { wS.out with elapsed := usToUnits n } }
def tooBig : State := { candS 100 with parts := [{ wPart with cores := [] }] }
def doneK (p : Parent) : Kernel := { wKernel with parent := p, placed := 1, released := 1 }
def doneS (p : Parent) : State := { wEv (evId 1) with kernels := [doneK p], bands := [], groups := [] }
def loadS : State := { wEv (evId 1) with kernels := [{ wKernel with loaded := false, launch := { wKernel.launch with code := 4096, clen := 1 } }] }

theorem test_witness_LauncherRunsTasks : (queueS wQueue).settleQueues.hq? 8 = some wQueue ∧ wQueue.waiting = [(4096, 1)] ∧
    ((queueS wQueue).settleQueues.ctx? 0).isSome = true ∧ wQueue.running = false ∧ wQueue.st = .open_ ∧ (queueS waitQ).settleQueues.hq? 8 = some waitQ ∧
    waitQ.nodes.find? (fun n => n.idx == (queueS waitQ).ev.sub && n.kind == 3 && !n.evop && n.st == .running) = some evNode ∧
    (match ((queueS waitQ).readGlb 0 96 0 64 8).2 with | .ok bs => bs.length == 8 | _ => false) = true ∧
    (loadS.kernel? 1).map (fun k => k.loaded) = some false ∧ (match (loadS.readGlb 0 96 0 4096 12).2 with | .ok bs => bs.length == 12 | _ => false) = true ∧
    ((candS 0).unblocked 0 ((candS 0).launchCands 0)).map (fun k => k.kid) = [2] ∧ (base.unblocked 0 (base.launchCands 0)) = [] ∧
    ((sortBy (fun (k : Kernel) => k.readyAt) (((candS 100).launchCands 0).filter fun (k : Kernel) => match k.passedAt with
        | some t => decide (t + usToUnits 100 ≤ (candS 100).out.elapsed) | none => false)).head?).map (fun k => k.kid) = some 2 ∧
    (candS 100).everFits candK = true ∧ tooBig.everFits candK = false ∧ ((candS 0).placesNow candK).isSome = true ∧
    ({ base with groups := [] } : State).bandDone wBand = true ∧ base.bandDone wBand = false ∧
    (doneS (.host 0)).kernel? 1 = some (doneK (.host 0)) ∧ (doneS (.node 8 0)).kernel? 1 = some (doneK (.node 8 0)) ∧
    (doneK (.host 0)).launch.bandCount ≤ (doneK (.host 0)).placed ∧ (doneK (.host 0)).launch.bandCount ≤ (doneK (.host 0)).released := by decide

/-- A firmware group whose S2 is 4096, an issue with D = 1 and A = 2, and a state whose memory holds the operand record `n` there. -/
def pG : Group := fG.ws 2 4096
def pL : Issue := { wL with w0 := 0x8400 }
def onP (s : State) (n : Nat) : State := { s with groups := [pG], cur := some pL }.writePas 0 ((List.range 32).map fun i => 4096 + i) (leBytes 32 n)
/-- What the operand record reads as, where it can be read. -/
def recOf (s : State) : Option (List Byte) := match (s.readGlb 0 96 0 4096 32).2 with | .ok bs => some bs | .error _ => none
def reads (s : State) (p : List Byte → Bool) : Bool := (recOf s).any p
def allotted : State := { wS with ctxs := [{ wCtx with allot := [(0, 2 ^ 20)] }] }
def emptyCtx : State := { wS with bands := [{ wBand with ctx := 7 }], ctxs := [wCtx, { wCtx with ctx := 7 }] }
def keyed (st : KeyState) (c : Option Nat) : State := allotted.setKey { slot := 1007, st := st, ctx := c, gen := 1 }
def router (b : Bool) : Router := { Router.empty 0 0 0 with swap := if b then some (0, 1, 4) else none }

set_option maxRecDepth 100000 in
theorem test_witness_PrivilegedTablesChange : Issues (onP wS 0) pL pG ∧ pG.firmware = true ∧ (onP wS 0).frameStores pG = false ∧
    (1#6).toNat = bits pL.w0.toNat 15 6 ∧ (2#6).toNat = bits pL.w0.toNat 9 6 ∧ (pG.rs 2).toNat % 32 = 0 ∧ ((pG.ws 2 4097).rs 2).toNat % 32 ≠ 0 ∧
    (onP wS 0).ctxOf pG = 0 ∧ wfAll pG wS [.segld 1 2, .heapld 1 2, .tlbinv 1 2, .rtswapWrite 1 2, .keysel 1 2, .divinstInstall 1 2, .ctxctlHold 1 2] = true ∧
    reads (onP wS (4 * 2 ^ 160)) segldOk = true ∧ reads (onP wS (5 * 2 ^ 160)) (fun bs => segldOk bs) = false ∧
    reads (onP allotted (65536 * 2 ^ 64)) (fun bs => fieldAt bs 64 64 == 65536 && fieldAt bs 0 64 == 0 && fieldAt bs 192 64 == 0) = true ∧
    (allotted.ctx? 0).map (fun x => x.granted 0 65536) = some true ∧ allotted.inUndercroft 0 65536 = false ∧
    reads (onP wS (2 ^ 136)) (fun bs => fieldAt bs 136 120 != 0) = true ∧ (onP wS 0).mem.accs = [] ∧ (onP wS 0).mem.walks = [] ∧
    (∃ w ∈ (onP (walkS true) 0).mem.walks, w.ctx = 0 ∧ w.walking = true) ∧ recOf (onP (walkS true) 0) = some (List.replicate 32 0) ∧
    reads (onP wS (2 ^ 64 + 4096)) (fun bs => fieldAt bs 66 190 == 0 && fieldAt bs 64 2 == 1 && fieldAt bs 0 64 % 64 == 0) = true ∧
    (match ((onP wS 0).writeGlb 0 96 0 4096 (List.replicate 64 0)).2 with | none => true | some _ => false) = true ∧
    (match ((onP wS 0).readGlb 0 96 0 0 64).2 with | .ok bs => bs.length == 64 | _ => false) = true ∧
    ((onP wS 0).routerAt 0 0 0).swap = none ∧ ((wS.setRouter (router true)).routerAt 0 0 0).swap = some (0, 1, 4) ∧
    reads (onP (keyed .loaded none) 1007) (fun bs => fieldAt bs 0 10 == 1007 && fieldAt bs 10 246 == 0) = true ∧
    ((keyed .loaded none).keySlot 1007).st = .loaded ∧ ((keyed .bound (some 0)).keySlot 1007).ctx = some 0 ∧ (∃ x ∈ allotted.bands, x.ctx = 0) ∧
    (match ((onP emptyCtx 0).readGlb 0 96 7 4096 32).2 with | .ok bs => bs.length == 32 | _ => false) = true ∧ (onP emptyCtx 0).ctxOf pG = 7 ∧
    (∀ x ∈ (onP emptyCtx 0).bands, x.ctx ≠ (onP emptyCtx 0).tab.tgtctx) ∧ (onP emptyCtx 0).chans = [] ∧ ((onP emptyCtx 0).ctx? 0).isSome = true :=
  ⟨⟨rfl, rfl⟩, by decide⟩

/-- A request of another module for the exporting partition's GLB segment, kind `k`, and the exporter's segment. -/
def peerS (k : Nat) (wr : Bool) : State :=
  { wEv { Ev.none with words := [3, 0, BitVec.ofNat 64 k, 0, 4, 0, 9], bytes := [1, 2, 3, 4] } with
    parts := [{ wPart with exporter := some 0 }],
    ctxs := [{ wCtx with segs := { base := 0, limit := 4, valid := true, wr := wr } :: wCtx.segs.drop 1 }] }
def peerPas (k : Nat) : Bool := match ((peerS k true).translateN 0 96 0 (k == 0) (k == 1) 4 0).2 with | .ok pas => pas == [0, 1, 2, 3] | _ => false
/-- An access of the group at another module. -/
def farS (near : Bool) : State :=
  let s := flying (.ld 3 6 0 4 m0)
  { (s.modMem fun m => { m with accs := m.accs.map fun a => if near then a else { a with places := some [.peer 1 0] } }) with
    ev := { Ev.none with id := ((s.mem.accs.head?.map fun a => a.aid)).getD 0 } }
def backS (g : Group) : State := { sOf g with ev := evId 1 }

theorem test_witness_PeerPacketsAndTrapEntry :
    ((wS.parts.find? fun p => p.routing == 0 && p.exporter.isSome).bind fun p => p.exporter.bind wS.ctx?) = none ∧
    (((peerS 0 true).parts.find? fun p => p.routing == 0 && p.exporter.isSome).bind fun p => p.exporter.bind (peerS 0 true).ctx?) = (peerS 0 true).ctxs.head? ∧
    (((peerS 1 false).ctxs.getD 0 wCtx).segs.getD 0 Segment.zero).wr = false ∧ peerPas 0 = true ∧ peerPas 1 = true ∧
    (accOf (farS false)).map Acc.elsewhere = some true ∧ (accOf (farS true)).map Acc.elsewhere = some false ∧
    (backS trapG).group? 1 = some trapG ∧ trapG.trapping.isSome = true ∧ (backS trapG).allBack trapG = true ∧ wG.trapping = none := by decide

def endedS (n : Nat) : State :=
  { wEv (evId 0) with bands := [], groups := [], out := { wS.out with elapsed := n }, tab := { wS.tab with suspends := [(0, 10)] } }
/-- A diversion entry of the group's band, with `free` bytes left in its segment. -/
def entryOf (free : Nat) : DivEntry :=
  { die := 0, core := 0, idx := 0, ctx := 0, kid := 1, ksig := 0, bandIdx := 0, bid := 1, garret := 8192, seg := 16384, segFree := free, segOff := 0, nextSeq := 0,
    repSeq := 0, rep := 16384, sthBase := 0, sthLen := 0, drain := false, drainer := none, page := none, fullTold := false, links := 0 }
def divs (s : State) (n : Nat) : State := s.modTab fun t => { t with divs := [entryOf n] }
def dueSave : State := { divs wS 256 with tab := { (divs wS 256).tab with suspends := [(0, 10)] }, out := { wS.out with elapsed := 10 }, ev := { Ev.none with id := 0 } }
def lateSave : State :=
  { wEv (evId 1) with tab := { wS.tab with saves := [{ bid := 1, since := 0, gid := 0, oid := 0 }] }, out := { wS.out with elapsed := usToUnits 2000 }, parts := [wPart] }
def resetP : State := { wEv (evId 0) with parts := [{ wPart with resetting := true }] }
def dogS (h : HostQ) : State := { queueS h with parts := [wPart] }
def dogQ (n : Nat) (a : Bool) : HostQ := { waitQ with wdRemain := n, wdAction := a }
def askS (n : Nat) : State :=
  { wEv (evId 3) with obs := { wS.obs with queries := [(3, 0, 4096, 0)] }, out := { wS.out with elapsed := n } }

theorem test_witness_FirmwareEvents : (∀ x ∈ (endedS 9).tab.suspends, x.1 = (endedS 9).ev.id → (endedS 9).out.elapsed < x.2) ∧
    (∃ x ∈ (endedS 10).tab.suspends, x.1 = (endedS 10).ev.id ∧ x.2 ≤ (endedS 10).out.elapsed) ∧ (endedS 10).tab.saves = [] ∧ (endedS 10).bands = [] ∧
    dueSave.bandsIn 0 .resident = [wBand] ∧ dueSave.updating 0 = false ∧ (dueSave.divOf 1).isSome = true ∧ dueSave.band? 1 = some wBand ∧
    (lateSave.tab.saves.find? fun x => x.bid == 1).isSome = true ∧ lateSave.band? 1 = some wBand ∧ (lateSave.ctx? 0).map (fun c => c.part) = some 0 ∧
    lateSave.part? 0 = some wPart ∧ wPart.resetting = false ∧ (resetP.part? 0).map (fun p => p.resetting) = some true ∧ resetP.chans = [] ∧
    (dogS (dogQ 0 true)).hq? 8 = some (dogQ 0 true) ∧ (dogS (dogQ 0 false)).hq? 8 = some (dogQ 0 false) ∧ (dogQ 0 true).running = true ∧ (dogQ 1 true).wdHeld = false ∧
    (∀ b ∈ (dogS (dogQ 0 true)).bands, b.ctx = 0 → b.st ≠ .saving) ∧ (dogS (dogQ 0 true)).part? 0 = some wPart ∧
    (askS 0).obs.queries.find? (fun x => x.1 == 3) = some (3, 0, 4096, 0) ∧
    (match (((askS 0).modObs fun o => { o with queries := [] }).readGlb 0 96 0 4120 1).2 with | .ok _ => true | _ => false) = true ∧
    ((askS 0).ev.words.getD 2 0).toNat ≤ 8 := by decide

/-- A record at 4096 that names the garret header at 8192, whose log of 256 bytes stands at 16384. -/
def garretS : State := allotted.writePas 0 ((List.range 64).map fun i => 8192 + i) (leBytes 64 (16384 + 256 * 2 ^ 64))
def nameGarret : Nat := 8192 * 2 ^ 192
def drained (s : State) : Bool := match s.drainLog 1 with | (_, ok) => ok
def fullMsg (free : Nat) : State := { divs (amsgS (msgOf (some 1) 0)) free with ev := Ev.none }

set_option maxRecDepth 100000 in
theorem test_witness_DiversionEntries : Issues (onP garretS nameGarret) pL pG ∧
    reads (onP garretS nameGarret) (fun bs => (ctlRec bs).bad == false && (ctlRec bs).op == 0 && (ctlRec bs).addr == 8192) = true ∧
    reads (onP garretS (2 ^ 8)) (fun bs => (ctlRec bs).bad) = true ∧ reads (onP garretS (2 ^ 88)) (fun bs => (ctlRec bs).bad) = true ∧
    garretS.divwinOf 0 = 0 ∧ garretS.divAt 0 0 0 = none ∧ ((divs garretS 256).divAt 0 0 0) = some (entryOf 256) ∧
    garretS.bandNamed (ctlRec (leBytes 32 nameGarret)) = some wBand ∧ garretS.bandNamed (ctlRec (leBytes 32 (2 ^ 96))) = none ∧ garretS.divOf 1 = none ∧
    wBand.die = 0 ∧ wBand.core = 0 ∧ garretS.garretOk wBand 8192 = true ∧ (divs garretS 256).bandSt 1 ≠ some .saved ∧ drained (divs garretS 256) = true ∧
    (∀ n ∈ [192, 191], (fullMsg n).msgs.find? (fun m => m.mid == (fullMsg n).ev.id) = some (msgOf (some 1) 0) ∧
      (fullMsg n).needsMet Needs.none = true ∧ (fullMsg n).amsgDest (msgOf (some 1) 0) = .suspended wBand ∧ (fullMsg n).divOf 1 = some (entryOf n)) ∧
    (msgOf (some 1) 0).payload.length = 16 :=
  ⟨⟨rfl, rfl⟩, by decide⟩

def lostPark : ParkInfo := { code := fcPageNotPresent, ctx := 0, va := 4096, declined := none }
def parkedG : Group := wG.modLane 31 fun l => { l with st := .parked, park := some lostPark }
def fwcallG : Group := { fG with gid := 2, slot := 5, blocked := some .fwcall }
def restored : State := { wS with bands := [{ wBand with st := .restored }] }
def inReset : State := { wS with parts := [wPart] }

set_option maxRecDepth 100000 in
theorem test_witness_ContextControl : Issues (onP wS 0) pL pG ∧ reads (onP wS 0) (fun bs => (ctlRec bs).bad == false && (ctlRec bs).op == 0) = true ∧
    reads (onP wS (2 ^ 15)) (fun bs => (ctlRec bs).bad) = true ∧ wS.bandNamed (ctlRec (leBytes 32 0)) = some wBand ∧
    wS.bandNamed (ctlRec (leBytes 32 (2 ^ 24))) = none ∧ wBand.st = .resident ∧ wS.divOf 1 = none ∧ ((divs wS 256).divOf 1).isSome = true ∧
    restored.bandNamed (ctlRec (leBytes 32 0)) = some { wBand with st := .restored } ∧ (restored.kernel? 1).isSome = true ∧
    wS.group? 1 = some wG ∧ wG.handler = false ∧ wG.trapping = none ∧ (parkedG.lane 31).st = .parked ∧ (parkedG.lane 31).park = some lostPark ∧ 31 < parkedG.lanes.length ∧
    (∀ y ∈ wS.groups, ∀ l < 32, (y.lane l).park = none) ∧
    (({ wS with groups := [pG, fwcallG] } : State).groups.find? fun x => x.die == 0 && x.core == 96 && x.gslot == 5 && x.blocked == some .fwcall) = some fwcallG ∧
    (wS.ctxOf fwcallG) = 0 ∧ (ctlRec (leBytes 32 (96 * 2 ^ 128 + 5 * 2 ^ 96))).arg = 96 ∧ (ctlRec (leBytes 32 (128 * 2 ^ 128))).arg = 128 ∧ wS.part? 0 = none ∧
    inReset.part? 0 = some wPart :=
  ⟨⟨rfl, rfl⟩, by decide⟩

/-! Engines -/

def copyRaw : List Byte := leBytes 32 1 ++ leBytes 32 0
def onePost (coll : Bool) : Post := (chanOf coll 1).posts.getD 0 { head := 0, coll := coll, signet := 0, ctx := 0, kid := 1, band := 1, gid := 1, q := 0, node := none, needs := Needs.none }
def chS (c : Channel) : State := { wEv (evId 3) with chans := [c] }
/-- A channel whose chain has come to the record at 64, and memory with `raw` there. -/
def walkC : Channel := { chanOf false 0 with st := .running, cur := some (64, onePost false) }
def recMem (raw : List Byte) : State := (chS walkC).writePas 0 ((List.range 64).map fun i => 64 + i) raw
def record64 (raw : List Byte) (p : List Byte → Bool) : Bool := match ((recMem raw).readGlb 0 96 0 64 64).2 with | .ok bs => p bs | .error _ => false
/-- A collective of ALLREDUCE between ranks 0 and 1 of 8 elements, as rank 0, in a phase; and a copy record. -/
def teamBytes : List Byte := leBytes 64 2 ++ leBytes 8 1
def recC (coll : Bool) (ph : RecPhase) (at_ : Option Nat) : EngRec :=
  { EngRec.new 5 64 (leBytes 32 (1 + 8 * 2 ^ 32) ++ leBytes 32 0) (onePost coll) 4096 ph with team := teamBytes, stepAt := at_ }
def recS (r : EngRec) : State := { wEv { evId 5 with sub := 1, words := (recC true .gather none).agree.map (BitVec.ofNat 64) } with
  out := { wS.out with device := 1, elapsed := usToUnits 1000 }, chans := [{ chanOf r.coll 0 with st := .running, recs := [r] }] }
def found (r : EngRec) : Bool := match (recS r).engRec? 5 with | some (_, x) => x == r | none => false
def doneRec : EngRec := recC false (.done 0 0) none
def ringPuts (s : State) : Option Bool := match (s.ringPut 0 96 0 4096 32 fun _ => 0).2 with | .ok => some true | .full => some false | .bad _ _ => none

set_option maxRecDepth 100000 in
theorem test_witness_EnginesRunRecords : (chS (chanOf false 1)).chan? 3 = some (chanOf false 1) ∧ (chanOf false 1).posts = [onePost false] ∧
    (chanOf false 1).st = .idle ∧ (chanOf false 0).posts = [] ∧ (chS walkC).chan? 3 = some walkC ∧ walkC.recs.length < 8 ∧ walkC.doomed = [] ∧ walkC.page = none ∧
    (recMem copyRaw).needsMet Needs.none = true ∧ record64 copyRaw (fun b => fieldAt b 0 1 == 1 && copyFieldsOk b && (recMem b).recBarOk (onePost false) b) = true ∧
    record64 (leBytes 64 (1 + 2 ^ 15)) (fun b => fieldAt b 0 1 == 1 && !(copyFieldsOk b)) = true ∧ record64 (leBytes 64 0) (fun b => fieldAt b 0 1 == 0) = true ∧
    found (recC true .exchange none) = true ∧ found (recC true .exchange (some 0)) = true ∧ found (recC false .moving none) = true ∧ found doneRec = true ∧
    (recC true .exchange none).needed = [1] ∧ (recS (recC true .exchange none)).memberHere (recC true .exchange none) 1 = false ∧
    ((recS (recC true .exchange (some 0))).ev.words.map fun w => w.toNat) = (recC true .exchange (some 0)).agree ∧
    (let us := fieldAt (recC true .exchange (some 0)).raw 448 32; 0 + usToUnits (if us = 0 then 1000 else us) ≤ (recS (recC true .exchange (some 0))).out.elapsed) ∧
    (recS (recC false .moving none)).mem.accs = [] ∧ ringPuts (ringS 0) = some true ∧
    (accOf (flying (.ld 3 6 0 4 m0))).map (fun a => (flying (.ld 3 6 0 4 m0)).canPerform a && a.kind.isLoad) = some true := by decide

/-! Turns at units: a requester of a lower rank than the last one served in the cycle is late -/

/-- The state in which a unit of die 0 has served rank `n` in this cycle. -/
def servedS (s : State) (u : ServedUnit) (n : Nat) : State := s.takeTurn u 0 n
theorem test_witness_Turns :
    (∀ n ∈ [0, 1], (servedS (barS 0 2) (.record 5) n).barInTurn (barRec 0 2) (some 1) = decide (n = 0)) ∧
    (servedS (barS 0 2) (.record 5) 65536).barInTurn (barRec 0 2) none = true ∧
    (∀ n ∈ [0, 1], (servedS (semS 1 []) (.slot 0) n).semInTurn (wS.semMsg wL wG .acq 0) = decide (n = 0) ∧ (servedS (semS 1 []) (.slot 0) n).semInTurn (wS.semMsg wL wG .rel 0) = decide (n = 0) ∧
      (servedS (semS 1 []) (.slot 0) n).semInTurn (wS.semMsg wL wG (.tryAcq 1) 0) = decide (n = 0) ∧ (servedS (semS 1 []) (.pool 0) n).semInTurn (wS.semMsg wL wG .free 0) = decide (n = 0) ∧
      (servedS (semS 1 []) (.pool 0) n).semInTurn (wS.semMsg wL wG (.alloc 0 1 2) 0) = decide (n = 0)) ∧
    (∀ n ∈ [0, 1], (servedS wS (.named 1 15) n).inTurn (.named 1 15) 0 (65536 * wG.quad + wG.gslot) = decide (n = 0) ∧
      (servedS wS (.workUnit 0 0) n).inTurn (.workUnit 0 0) 0 (wG.rankAt 0) = decide (n = 0) ∧
      (servedS wS (.engine true 0 0) n).inTurn (chanOf true 0).engine 0 (wG.rankAt 0) = decide (n = 0) ∧
      (servedS wS (.log 1) n).inTurn (.log 1) 0 (rankOf 0 0 0) = decide (n = 0) ∧
      (servedS wS (.gateway 0) n).inTurn (.gateway 0) 0 ({ die := 0, scls := 0, unit := 0, recs := [] } : TracePort).rank = decide (n = 0)) ∧
    (∀ n ∈ [5, 6], (servedS wS .host n).inTurn .host 0 5 = decide (n = 5)) ∧ wS.inTurn .host 0 0 = true := by decide

/-! Frames of the host -/

def sess : Session := { sid := 5, key := 0x123456789ABCDEF, seqNext := 7, seqMax := 6, seen := [0], heldFrames := [], heldSince := 0, lastFrame := 0 }
/-- The frame of a row with a TYPE, SEQ `seq`, TAG 9 and a payload, sent in a session. -/
def frameAt (i : Instr) (ty : Nat) (s : State) (x : Session) (seq : Nat) (ws : List Nat) : State :=
  { s with ev := frameEv i ty sess.key 5 seq 9 ws, out := { s.out with sessions := [x] } }
def frameS (i : Instr) (s : State) (ws : List Nat) : State := frameAt i ((frameType i).getD 0) s sess 7 ws
def takenS (i : Instr) (s : State) (ws : List Nat) : State :=
  ((frameS i s ws).takeTurn .host 0 5).modSession 5 fun y => y.accept 7 (frameS i s ws).out.elapsed
/-- Payload words that fit a frame of a row. -/
def fitting (i : Instr) (ws : List Nat) : Bool :=
  ws.all (fun w => decide (w < 2 ^ 64)) && decide (ws.length ≤ 1104) &&
  decide (((frameNames i).1.map fun k => (5 :: 7 :: 9 :: ws).getD k 0).getD 0 < 2 ^ 12) &&
  decide (((frameNames i).2.map fun k => (5 :: 7 :: 9 :: ws).getD k 0).getD 0 < 2 ^ 4)

/-- The frame of a row that R453 gives a TYPE is taken. -/
theorem frameS_taken (i : Instr) (s : State) (ws : List Nat) (hi : ∃ ty, frameType i = some ty ∧ ty < 256 ∧ frameTypes.contains ty = true)
    (h : s.out.tripped = false) (ht : s.turns = []) (hw : fitting i ws = true) : Taken i (frameS i s ws) (takenS i s ws) 5 9 ws ∧ (frameS i s ws).ev.sub ≠ 1 := by
  obtain ⟨ty, hty, hlt, hin⟩ := hi
  simp only [fitting, Bool.and_eq_true, List.all_eq_true, decide_eq_true_eq] at hw
  obtain ⟨⟨⟨hw, hl⟩, hq⟩, hp⟩ := hw
  have hall : ∀ w ∈ 5 :: 7 :: 9 :: ws, w < 2 ^ 64 := by
    intro w hm
    simp only [List.mem_cons] at hm
    rcases hm with rfl | rfl | rfl | hm
    · omega
    · omega
    · omega
    · exact hw w hm
  have ok := frameEv_ok i ty sess 5 7 9 ws hlt (.inl hty) (by decide) hall hl hq hp
  have hev : (frameS i s ws).ev = frameEv i ty sess.key 5 7 9 ws := by simp [frameS, frameAt, hty]
  refine ⟨⟨h, by decide, by rw [hev, ok.2.1]; exact hin, 7, sess, ?_, rfl, by rw [hev]; exact ok.1, rfl, by decide, ?_, rfl⟩, by rw [hev]; exact (by decide : (0 : Nat) ≠ 1)⟩
  · rw [hev]; exact toNat_words _ hall
  · simp [State.inTurn, frameS, frameAt, ht]

def heldFrame : Nat × Item := (9, { instr := .hostMark, ev := Ev.none })
def gapS (n : Nat) : State :=
  let s := frameAt .hostMark 0x43 wS { sess with heldFrames := [heldFrame] } 7 []
  { s with ev := evId 5, out := { s.out with elapsed := n } }
/-- A HELLO or KEYX frame, with the nonce that has been drawn or with none. -/
def greetS (i : Instr) (b : Bool) : State :=
  { wEv (frameEv i 1 0 0 0 9 [1, 2, 3, 4]) with out := { wS.out with nonce := if b then [1, 2, 3, 4] else [] } }

set_option maxRecDepth 100000 in
theorem test_witness_SessionsOrderFrames : (frameAt .hostMark 0x43 wS sess 8 [7]).ev.frameOk .hostMark sess = true ∧
    (frameAt .hostMark 0x7F wS sess 7 [7]).ev.frameOk .hostMark sess = true ∧ (frameAt .hostMark 0x7F wS sess 7 [7]).ev.head 208 8 ∉ frameTypes ∧
    (frameS .hostMark wS [7]).ev.sub ≠ 1 ∧ (frameS .hostMark wS [7]).out.tripped = false ∧ wS.session? 0 = none ∧ (0 : Nat) ≠ acceptedMark ∧
    ((frameS .hostMark wS [7]).ev.words.getD 0 0).toNat = 5 ∧ (frameS .hostMark wS [7]).session? 5 = some sess ∧ wS.ev.head 224 32 ≠ 0xA1AE1101 ∧
    sess.drops 0 = true ∧ sess.drops 8 = false ∧ sess.seqNext < 8 ∧ (∀ h ∈ sess.heldFrames, h.1 ≠ 8) ∧ (greetS .hello false).ev.headOk .hello = true ∧
    (greetS .hello false).ev.head 96 32 = 0 ∧ (greetS .keyx true).ev.headOk .keyx = true ∧ (greetS .keyx true).ev.head 96 32 = 0 ∧
    (greetS .keyx true).out.nonce ≠ [] ∧ ((greetS .keyx true).ev.words.drop 3).take 4 = (greetS .keyx true).out.nonce ∧
    (greetS .keyx true).out.sessions.length < 16 ∧ (greetS .keyx false).out.nonce = [] ∧
    ((gapS 0).session? 5).map (fun x => leastOf (x.heldFrames.map fun h => h.1)) = some (some 9) ∧ (gapS 0).out.elapsed < 0 + usToUnits 1000 ∧
    0 + usToUnits 1000 ≤ (gapS (usToUnits 1000)).out.elapsed ∧ (∀ h ∈ [heldFrame], h.1 ≠ 7) := by
  have ok := fun (ty seq : Nat) (h1 : ty < 256) (h2 : frameType .hostMark = some ty ∨ frameTypes.contains ty = false) (h3 : seq < 2 ^ 64) =>
    frameEv_ok .hostMark ty sess 5 seq 9 [7] h1 h2 (by decide)
      (by intro w hm; simp only [List.mem_cons, List.not_mem_nil, or_false] at hm; rcases hm with rfl | rfl | rfl | rfl <;> omega)
      (by decide) (by exact (by decide : (0 : Nat) < 2 ^ 12)) (by exact (by decide : (0 : Nat) < 2 ^ 4))
  exact ⟨(ok 0x43 8 (by decide) (.inl rfl) (by decide)).1, (ok 0x7F 7 (by decide) (.inr (by decide)) (by decide)).1, by decide⟩

/-- A launch record of one group of one lane (R305) at 4096. -/
def launchBytes : List Byte := (List.range 128).map fun i => if i = 0 then 0x82 else if i = 36 ∨ i = 96 ∨ i = 100 then 1 else if i = 102 then 9 else 0
def launchS : State := wS.writePas 0 ((List.range 128).map fun i => 4096 + i) launchBytes
def gang (s : State) (ws : List Nat) : Option Bool :=
  match (takenS .hostLaunch s ws).readLaunch 0 0 4096 with
  | (v, some l) => some (let k := v.newKernel 0 0 4096 0 (.host 9) l false [] none; k.1.gangOk k.2)
  | _ => none
def bigWords : List Nat := [8, 4096, 2 ^ 24]
def fullQ : HostQ := { wQueue with waiting := List.replicate 64 (4096, 1) }
def idleQ : HostQ := { wQueue with waiting := [] }
def idleS : State := { base with kernels := [], bands := [], groups := [] }

/-- The rows of the commands of `Obligations.HostCommandsRun`, `ServiceCommandsRun` and `DebugCommandsRun`. -/
def commands : List Instr :=
  [.qbind, .submit, .hostLaunch, .ctxnew, .ctxend, .suspend, .resume, .keyload, .keydestroy, .partdef, .power, .clock, .retain, .retainRestore,
   .retireCore, .retireLayer, .retireLane, .update, .traceread, .snapshot, .hostMark, .attest, .debug]
theorem commands_typed (i : Instr) (h : i ∈ commands) : ∃ ty, frameType i = some ty ∧ ty < 256 ∧ frameTypes.contains ty = true := by
  have all : ∀ i ∈ commands, (frameType i).any (fun ty => decide (ty < 256) && frameTypes.contains ty) = true := by decide
  have hi := all i h
  cases ht : frameType i with
  | none => simp [ht] at hi
  | some ty => exact ⟨ty, rfl, by simpa [ht] using hi⟩

set_option maxRecDepth 100000 in
theorem test_witness_HostCommandsRun : (∀ (i : Instr) (ws : List Nat), i ∈ commands → fitting i ws = true →
      Taken i (frameS i wS ws) (takenS i wS ws) 5 9 ws ∧ (frameS i wS ws).ev.sub ≠ 1) ∧
    (takenS .qbind wS [8, 0]).queueResetting 8 = false ∧ ((takenS .qbind wS [8, 0]).ctx? 0).isSome = true ∧ ((takenS .qbind wS [8, 0]).queueAt 8).inUse = false ∧
    (takenS .submit (queueS idleQ) bigWords).hq? 8 = some idleQ ∧ idleQ.waiting.length < 64 ∧ (takenS .submit (queueS fullQ) bigWords).hq? 8 = some fullQ ∧
    64 ≤ fullQ.waiting.length ∧ idleQ.st ≠ .unbound ∧ gang launchS [0, 4096, 0, 0] = some true ∧ ((takenS .hostLaunch wS [7]).ctx? 7).isNone = true ∧
    ((takenS .ctxnew inReset [7, 0]).part? 0).isSome = true ∧ (takenS .ctxnew inReset [7, 0]).ctx? 7 = none ∧ (newContext [7, 0]).allot.all (takenS .ctxnew inReset [7, 0]).grantable = true ∧
    (takenS .ctxend wS [0]).ctxBusy 0 = true ∧ (takenS .ctxend idleS [0]).ctxBusy 0 = false ∧ (∀ q ∈ (takenS .ctxend idleS [0]).queuesOf 0, (takenS .ctxend idleS [0]).queueResetting q = false) ∧
    0 ∉ (takenS .suspend wS [0, 10000]).tab.resuming ∧ (∀ b ∈ (takenS .ctxend wS [0]).bands, b.ctx = 0 → b.st ≠ .saving) ∧
    (∃ b ∈ (takenS .resume { wS with bands := [{ wBand with st := .saving }] } [0]).bands, b.ctx = 0 ∧ b.st = .saving) ∧
    ((takenS .keyload wS [1007]).keySlot 1007).st = .empty ∧ ((takenS .keyload (keyed .bound (some 0)) [1007]).keySlot 1007).st = .bound ∧
    (∀ x ∈ (takenS .ctxend idleS [0]).parts, x.part = 0) ∧ (takenS .ctxend idleS [0]).bands = [] :=
  ⟨fun i ws hi hw => frameS_taken i wS ws (commands_typed i hi) (by decide) rfl hw, by decide⟩

def linkOf (n : Nat) (t : Bool) : Link :=
  { lid := 5, die := 0, lanes := n, up := true, training := t, sendSeq := 1, recvSeq := 4095, retry := [(0, [1])], waiting := [], delivered := [], wire := [] }
def linkS (l : Link) : State := { wEv { evId 5 with words := [4095, 1, 0] } with out := { wS.out with links := [l] } }
def lockedS : State := wS.modOut fun o => { o with locked := true }
def offS : State := { idleS with ctxs := [] }.modOut fun o => { o with layersOff := [(15, 15)] }
def moves (s : State) : Bool × Bool := ((State.movePages 15 14 false [] s).2, (State.movePages 0 0 false [] s).2)

set_option maxRecDepth 100000 in
theorem test_witness_ServiceCommandsRun : (∀ (i : Instr) (ws : List Nat), i ∈ commands → fitting i ws = true →
      Taken i (frameS i offS ws) (takenS i offS ws) 5 9 ws ∧ (frameS i offS ws).ev.sub ≠ 1) ∧
    (takenS .retain lockedS [2800]).out.locked = true ∧ (takenS .retain wS [1000]).out.locked = false ∧
    ((takenS .retain wS [7, 3]).out.dies.find? fun d => d.die == 7).isSome = true ∧ ClockState.ofCode 3 ≠ none ∧
    (15, 14) ∉ (takenS .retain offS [15, 14]).out.layersGone ∧ (takenS .retain offS [15, 14]).heapOn 14 = none ∧ ((takenS .retain wS [15, 14]).heapOn 14).isSome = true ∧
    moves (takenS .retain offS [15, 14]) = (true, true) ∧ (15, 15) ∈ (takenS .retain offS [15, 15]).out.layersOff ∧ (15, 14) ∉ (takenS .retain offS [15, 14]).out.layersOff ∧
    (7, 95) ∉ (takenS .retain wS [7, 95]).out.retired ∧ (takenS .retain (linkS (linkOf 1 false)) [5]).link? 5 = some (linkOf 1 false) ∧
    (takenS .retain wS [7]).out.dies.find? (fun d => d.die == 7) = some (DiePair.reset 7) :=
  ⟨fun i ws hi hw => frameS_taken i offS ws (commands_typed i hi) (by decide) rfl hw, by decide⟩

def debugG : Group := { wG with dbgHalt := true }
def rightS : State := { sOf debugG with ctxs := [{ wCtx with dbgRight := true }] }
theorem test_witness_DebugCommandsRun : (∀ (i : Instr) (ws : List Nat), i ∈ commands → fitting i ws = true →
      Taken i (frameS i rightS ws) (takenS i rightS ws) 5 9 ws) ∧
    (takenS .debug rightS [7]).obs.gateways.find? (fun g => g.die == 7) = some (Gateway.reset 7) ∧ (takenS .debug rightS [8]).obs.gateways.find? (fun g => g.die == 8) = none ∧
    (takenS .debug rightS [0, 7]).ctx? 7 = none ∧ ((takenS .debug rightS [0, 0, 0, 8, 4]).ctx? 0).map (fun c => c.dbgRight) = some true ∧
    (takenS .debug rightS [1, 0, 0, 0, 0]).haltedAt 0 0 0 0 = some debugG ∧ (takenS .debug rightS [1, 0, 0, 0, 1]).haltedAt 0 0 0 1 = none :=
  ⟨fun i ws hi hw => (frameS_taken i rightS ws (commands_typed i hi) (by decide) rfl hw).1, by decide⟩

/-! Power, traces, debug, links -/

def hotS (n at_ : Nat) (since : Option Nat) : State :=
  { wEv { Ev.none with words := [BitVec.ofNat 64 n] } with out := { wS.out with elapsed := at_, overSince := since } }
theorem test_witness_TripStopsMachine : ({ wS with out := { wS.out with tripped := true } } : State).out.tripped = true ∧
    (hotS 1000 (usToUnits 100) none).out.tripped = false ∧ (hotS 1000 (usToUnits 100) none).out.measuredAt + usToUnits 100 ≤ usToUnits 100 ∧
    ((hotS 1000 0 none).ev.words.getD 0 0).toNat ≤ (hotS 1000 0 none).out.powerLimit ∧ (hotS 1001 0 none).out.powerLimit < ((hotS 1001 0 none).ev.words.getD 0 0).toNat ∧
    (hotS 1001 (usToUnits 1000) (some 0)).out.overSince = some 0 ∧ (∃ g ∈ wS.obs.gateways, g.die = 7) := by decide

def traceOf (ty : Nat) : TraceRec :=
  { rno := 1, gid := 0, ctx := 0, needs := none, time := 0, signet := 0, rids := [0, 0, 0], depth := 0, type := ty, scls := 0, sdie := 0, sunit := 0, ssub := 0, dbg := false, payload := 0 }
def portS (ty lane : Nat) : State :=
  { wEv { Ev.none with lane := lane } with obs := { wS.obs with ports := [{ die := 0, scls := 0, unit := 0, recs := [traceOf ty] }] } }
def lossG : Gateway := { Gateway.reset 0 with loss := 1 :: List.replicate 7 0 }
def lossS : State := { wEv Ev.none with obs := { wS.obs with gateways := [lossG] } }
def sampleOf : Sampling := { ctx := 0, period := 1024, since := List.replicate 8 0, nextAt := [] }
def sampleS (n : Nat) : State := { wEv Ev.none with out := (atCycle wS n).out, obs := { wS.obs with sampling := [sampleOf] } }
def openG : Group := { wG with dbgStep := false }
def breakS (bs : List (Nat × W32)) : State :=
  { wEv (evId 1) with groups := [openG], obs := { wS.obs with dbg := [{ ctx := 0, bps := bs, watches := [], capture := false, stopAll := false }] } }

theorem test_witness_TraceAndDebugEvents :
    (∀ p ∈ [(0x40, 1), (0x38, 1), (0x40, 0)], ((portS p.1 p.2).obs.ports.find? fun q => q.die == 0 && q.scls == 0 && q.unit == 0).map (fun q => q.recs) = some [traceOf p.1] ∧
      ((portS p.1 p.2).obs.gateways.find? fun g => g.die == 0) = some (Gateway.reset 0)) ∧ priorityType 0x40 = false ∧
    lossS.obs.gateways.find? (fun g => g.die == 0) = some lossG ∧ (lossG.loss.getD 0 0 + 2 ^ 64 - lossG.lossTold.getD 0 0) % 2 ^ 64 ≠ 0 ∧
    ((wEv { Ev.none with words := [BitVec.ofNat 64 (2 ^ 33)] }).ev.words.getD 0 0).toNat = 2 ^ (27 + 6) ∧
    (sampleS 1023).obs.sampling.find? (fun x => x.ctx == 0) = some sampleOf ∧ (assoc (0, 0, 0) (0 + 1024, 0) sampleOf.nextAt).1 = 1024 ∧
    (sampleS 1024).sampled 0 (0, 0, 0) 0 = some wG ∧ (∀ p ∈ (sampleS 1024).obs.ports, p.recs.length < 16) ∧
    (breakS []).group? 1 = some openG ∧ openG.issueAddr = some 0 ∧ (breakS []).unheld openG = true ∧ openG.dbgHalt = false ∧ openG.dbgStep = false ∧ (breakS []).breakAt openG 0 = false ∧
    (breakS [((wS.launchOf wG).code, 0)]).breakAt openG 0 = true ∧ debugG.dbgHalt = true ∧ debugG.blocked = none := by decide

def connOf (n : Nat) : Conn :=
  { id := 5, port := 0, ctx := 0, peer := 0, sendSeq := 1, recvSeq := 4095, unacked := [(0, [1])], sentAt := 0, lastAck := 0, window := n, lost := false, delivered := [], ahead := [], wire := [] }
def connS (n at_ : Nat) : State :=
  { wEv { evId 5 with words := [4095, 1, 1, 0, 0, 7] } with out := { wS.out with conns := [connOf n], elapsed := at_ } }
theorem test_witness_LinksAndTimeUnit : (linkS (linkOf 1 false)).link? 5 = some (linkOf 1 false) ∧ (linkS (linkOf 0 true)).link? 5 = some (linkOf 0 true) ∧
    ((linkS (linkOf 1 false)).ev.words.getD 1 0).toNat = 1 ∧ ((linkS (linkOf 1 false)).ev.words.getD 0 0).toNat % 4096 = (linkOf 1 false).recvSeq ∧
    ({ wEv { Ev.none with sub := 9, die := 7 } with out := wS.out } : State).link? 0 = none ∧ ((wS.out.links.filter fun x => x.die == 7).map fun x => x.lanes).sum + 9 ≤ 18 ∧
    (connS 1 0).conn? 5 = some (connOf 1) ∧ (connOf 1).lost = false ∧ ((connS 1 0).ev.words.getD 0 0).toNat = (connOf 1).recvSeq ∧ (connOf 1).unacked ≠ [] ∧
    (connOf 1).sentAt + usToUnits 50 ≤ (connS 1 (usToUnits 50)).out.elapsed ∧ (connOf 1).lastAck + usToUnits 100000 ≤ (connS 1 (usToUnits 100000)).out.elapsed ∧
    ((wEv { Ev.none with words := [1] }).ev.words.getD 0 0).toNat ≠ wS.out.ptpDomain ∧ wS.out.ptpDomain = 0 ∧ wS.out.holdover = false ∧
    ({ wS.out with delayReq := some 3 } : OutState).delayReq = some 3 := by decide

/-- Words that the encoder gives, the spec's own among them. -/
theorem test_witness_EncodeDecodeRoundTrip : encode { c := 0, s := 0, g := 0, y := 0 } (.iadd 1 2 3) = some [0x00208418] ∧
    encode { c := 1, s := 0, g := 0, y := 0 } (.ld 4 2 3 4 { off := 16, seg := 0, str := 0, scp := 1, ru := 11, ord := 0, cp := 0 }) = some [0x8502041C, 0x01000560] ∧
    (encode { c := 1, s := 15, g := 7, y := 1 } (.sread 1 0 1 0x28)).isSome = true ∧ (encode { c := 0, s := 0, g := 0, y := 0 } (.swrite 1 1 0 0x32)).isSome = true ∧
    isEvent (.iadd 1 2 3) = false := by decide

/-- BKPT with a debug session, and an MSCL of 1,024 scales. -/
def sclG : Group := wG.modLane 0 fun y => y.wv 3 1024
theorem test_witness_more : (breakS []).debugged ((breakS []).ctxOf openG) = true ∧ ((sclG.lane 0).rv 3).toNat = 1024 ∧ ((sclG.lane 0).rv 1).toNat + 1024 ≤ 1024 ∧
    (matS bankU).segOk sclG (sclG.lane 0) 1 0 4096 false = true ∧ fills 0 4096 = true := by decide

/-! ## More of the hypotheses -/

/-- An instruction's access on a machine where nothing else waits on it. -/
def calmS (i : Instr) : State := { flying i with cur := none }
def quiet (s : State) (a : Acc) : Bool :=
  decide (s.qops = []) && decide (s.sync.semMsgs = []) && (s.sync.bars.all fun r => !r.stepf) && s.cur.isNone && decide (s.mem.accs = [a]) &&
    (s.group? a.gid).any fun g => !g.allExited && !g.frozen && decide (g.lanes.length = 32) && g.lanes.all fun l => decide (a.d + 4 ≤ l.v.length)
/-- An access alone, of `n` bytes from physical address 0 on, whose result, if it has one, is the group's only one. -/
def alone (s : State) (n : Nat) (k : AccKind → Bool) : Bool :=
  (accOf s).any fun a => k a.kind && quiet s a && s.canPerform a && s.canFollow a && decide (a.places = some ((List.range n).map fun j => .mem j)) &&
    decide (a.seg ≠ 3) && decide (a.part = 0) && !a.elsewhere && (s.group? a.gid).any fun g => decide ((g.outs.map fun o => o.oid) = a.oid.toList) &&
      g.outs.all fun o => o.mask.getLsbD a.lane && decide (o.got = [] ∧ o.writes = [] ∧ o.flags = [])
/-- A held RED turned into an application. -/
def appliedS (i : Instr) : State := { after .redf { after i oneS with ev := evId 1, cur := some (latchOf 1) } with cur := none, ev := evId 1 }
/-- A context without heap whose region 0 has one page table, at 12288, with `leaf` for its first page. -/
def pagedCtx : Context := { wCtx with heapLim := 0, rafbase := 8192 + 64, allot := [(0, 2 ^ 20)] }
def paged (leaf : Nat) : State :=
  ({ oneS with ctxs := [pagedCtx] }.writePas 0 ((List.range 64).map fun i => 8192 + i) (leBytes 64 (2 ^ 20 * 2 ^ 64 + 12288 * 2 ^ 128 + 2 ^ 272 + 2 ^ 279))).writePas 0
    ((List.range 8).map fun i => 12288 + i) (leBytes 8 leaf)
/-- A load that has missed, with its walk under way and nothing issuing. -/
def missed (leaf : Nat) : State :=
  let s := after (.ld 3 6 0 4 m0) (paged leaf)
  { s.modMem fun m => { m with walks := m.walks.map fun w => { w with walking := true } } with cur := none, ev := { Ev.none with id := (s.mem.walks.head?.map fun w => w.wid).getD 0 } }
def gone (s : State) : State := s.modMem fun m => { m with walks := m.walks.filter fun x => !(x.wid == s.ev.id) }
/-- What the walk of the one waiting access ends in, where it does what the statement asks of it. -/
def walkOut (s : State) : Option (Except Byte Bool) :=
  match s.mem.accs, s.mem.walks.find? (fun w => w.wid == s.ev.id && w.walking), s.group? 1 with
  | [a], some w, some g =>
    let (u, r) := (gone s).walkEnd a.die a.core w.ctx (s.firstBad a) a.kind.needs.1 a.kind.needs.2
    if a.places = none ∧ a.die = w.die ∧ a.gid = 1 ∧ s.accCtx a = w.ctx ∧ s.pageOf w.ctx (s.firstBad a) = (w.region, w.page) ∧ g.reds = [] ∧
      g.lanes.length = 32 ∧ (gone s).lookup a.die a.core w.ctx (s.firstBad a) a.heap a.kind.needs.1 a.kind.needs.2 = .miss ∧ u.group? 1 = some g ∧ u.mem.accs = [a] then
      some (match r with | .ok _ => .ok (match u.tryAcc a with | .done b => b.places.isSome | _ => false) | .error f => .error f)
    else none
  | _, _, _ => none
/-- A group in an idempotent region that began before its held RED. -/
def idemG : Group := (redS.group? 1).getD wG
def idemS : State := { redS with groups := [{ idemG with rgn := [{ id := 0, pc := 3, idem := true, at_ := 1 }] }] }
/-- A STASH operation in flight with nothing issuing; its status comes back to its group. -/
def queryC : State := { queryS with cur := none }
/-- The parts of the lanes of a line operation are translated at once. -/
def linesFly (k : AccKind) (res : Bool) : Bool :=
  let s0 : State := { wS with nextId := wS.nextId + 1 }
  let s1 := if res then s0.postAwait wL wG .memory else s0
  let ea := fun (l : Nat) => (wG.lane l).ea m0 2 1 128
  (lanesOf wL.mask).all fun l => match s1.tryAcc (s1.mkAcc wL wG m0 (if res then some (wS.nextId + 1) else none) wS.nextId l wL.mask 0 ((ea l).toNat / 128 * 128) k 0 1) with
    | .fault _ => false | _ => true
/-- An arrival that fills its record. -/
def lastMsg : State := (barS 0 1).modSync fun y => { y with barMsgs := [.arrive 0 5 0 1 false 0] }
/-- A semaphore word at 64, the group that names it in V4, and its access in flight. -/
def semW (v : Nat) : State := (one [0, 0, 0, 0, 64]).writePas 0 ((List.range 8).map fun i => 64 + i) (leBytes 8 v)
def semAcc (i : Instr) (v : Nat) : State := { after i (semW v) with cur := none, ev := Ev.none }
def semHolds (i : Instr) (k : AccKind) (v : Nat) : Bool :=
  let s := semAcc i v
  (accOf s).any fun e => decide (s.mem.accs = [e]) && e.kind == k && decide (e.gid = 1 ∧ e.places = some ((List.range 8).map fun j => .mem (64 + j))) && s.canPerform e &&
    s.qops.isEmpty && s.sync.semMsgs.isEmpty && s.sync.bars.isEmpty && (s.group? 1).any fun x => e.ctx == s.ctxOf x && !x.allExited && (leNat ((List.range 8).map fun j => s.readPa 0 (64 + j)) == v)
def wordW (v : Nat) : State := { wordS.writePas 0 ((List.range 8).map fun i => 64 + i) (leBytes 8 v) with cur := none }
/-- A group whose WQ.ENQW has waited, with its one result outstanding. -/
def enqOut : Outst := { wL.outst wG wS .unit 1 true [] [] 0 with oid := 6 }
def enqLate : State :=
  { enqS with cur := none, groups := [{ enqG with outs := [enqOut] }], work := [{ workOf 64 with enqW := [{ enqOp with oid := some 6 }] }] }
def ringW : State := { workS { workOf 0 with rocc := 1, ring := [[9, 9, 9, 9]] } with ev := evId 0 }
/-- A completion ring's descriptor and the slot at TAIL can be read. -/
def ringReads (s : State) : Bool := match s.readOwn wG 4096 64 with
  | (s1, .ok bs) => fieldAt bs 64 32 == 2 ^ 6 && (match (s1.readOwn wG (fieldAt bs 0 64 + 32 * (fieldAt bs 192 64 % 64)) 32).2 with | .ok _ => true | .error _ => false)
  | _ => false
/-- A group that has exited, with an access in flight and without. -/
def goneG : Group := { wG with lanes := wG.lanes.map fun l => { l with st := .exited } }
def goneS (a : List Acc) : State := (sOf goneG).modMem fun m => { m with accs := a }
/-- Two groups of a quadrant that could both be promoted. -/
def twoG : State := { guardS 224 false with groups := [{ guardG 224 false with gid := 2, slot := 1 }, guardG 224 false], order := [2, 1] }
/-- The items of a unit that fill, scale and convert. -/
def popped (u : MatUnit) : State := (matS u).popMat 0 0 0
def mldFills (op : MldOp) (off n : Nat) (wr : Bool) : Bool :=
  let p := popped { bankU with queue := [.mld op] }
  (p.band? op.band).any fun x => match p.fillBytes x off n wr with
    | (w, none) => w.obs.census.isEmpty && (w.matAt 0 0 0).any fun v => decide (v.scale = [])
    | _ => false
def laneQ : Quarter := { quarter0 with lanes := [{ lane := 0, row := 5, off := 0, bytes := List.replicate (rowBytes 0 0) 0 }] }
/-- A census site of the group's band. -/
def siteAt : CensusSite := { die := 0, core := 0, band := 1, pc := 64, counts := [1, 2, 3, 4] }
def siteS : State := { wS with obs := { wS.obs with census := [siteAt] } }
/-- A saved band whose core has room or has lost it, and one restored. -/
def savedBand : Band := { wBand with st := .saved }
def savedS (full : Bool) : State := { wS with bands := [savedBand], groups := [{ wG with saved := true }], mats := if full then wS.mats else [] }
/-- What a collective reads of its send data, and where elements of a record go. -/
def gathers : Bool := match (recS (recC true .gather none)).engRead { chanOf true 0 with st := .running, recs := [recC true .gather none] } (onePost true) 0
    (fun i => (i : Int)) 32 with
  | (_, bs, _) => !bs.isEmpty
def placed (n : Nat) : Bool := match (recS (recC false .moving none)).engPlaces { chanOf false 0 with st := .running, recs := [recC false .moving none] } (onePost false) 0
    (fun i => (i : Int)) true n 0 with
  | (_, ps, .none) => ps.length == n
  | _ => false

set_option maxRecDepth 100000 in
theorem test_witness_more_accesses : alone (calmS (.st 3 6 0 4 m0)) 4 AccKind.isStore = true ∧ alone (calmS (.ld 3 6 0 4 (att 0 0 1 0 2))) 4 (fun k => k == .load 4) = true ∧
    (accOf (calmS (.ld 3 6 0 4 (att 0 0 1 0 2)))).map (fun a => a.allocL1) = some false ∧ (calmS (.ld 3 6 0 4 m0)).mem.lines = [] ∧
    (calmS (.ld 3 6 0 4 m0)).mem.stashLines = [] ∧ alone (calmS (.atomAdd 3 6 0 m0)) 4 AccKind.isAtom = true ∧
    alone (atCycle (appliedS (.redAddI32 3 6 0 m0)) 1) 4 (fun k => k == .red 0 [9]) = true ∧
    alone (atCycle (appliedS (.redAddI64 4 6 0 m0)) 1) 8 (fun k => k == .red 5 [0, 0]) = true ∧ (calmS (.st 3 6 0 4 m0)).mem.sectorKey = [] ∧
    (∀ i ∈ [Instr.cachePref 6 0 m0, .cacheLock 3 6 0 (att 0 0 2 0 0), .cacheUnlock 3 6 0 (att 0 0 2 0 0), .cacheCwb 6 0 m0, .cacheCinv 6 0 m0, .cacheCwbinv 6 0 m0],
      (accOf (calmS i)).any (fun a => quiet (calmS i) a && (calmS i).canPerform a && !a.elsewhere) = true) := by decide

set_option maxRecDepth 100000 in
theorem test_witness_MemInv : MemInv (calmS (.st 3 6 0 4 m0)) ∧ MemInv (wordW 5) ∧ MemInv (semAcc (.semAcqM 4) 5) :=
  ⟨⟨by decide, by decide⟩, ⟨by decide, by decide⟩, by decide, by decide⟩

set_option maxRecDepth 100000 in
theorem test_witness_more_walks : (match walkOut (missed 0) with | some (.error f) => faultClass f == 1 | _ => false) = true ∧
    (match walkOut (missed 7) with | some (.ok b) => b | _ => false) = true ∧ (idemS.group? 1).bind (fun g => innermostIdem g.rgn) = some 0 ∧
    idemG.reds.length = 1 ∧ idemG.handler = false ∧ idemG.held = [] ∧ idemG.lanes.length = 32 := by decide

set_option maxRecDepth 100000 in
theorem test_witness_more_units : (accOf queryC).any (fun x => queryC.canPerform x && queryC.stashReady x && quiet queryC x && (queryC.group? x.gid).any fun y =>
      (y.outs.map fun o => (some o.oid, o.mask)) == [(x.oid, x.mask)] && y.outs.all fun o => o.writes.isEmpty && o.flags.isEmpty) = true ∧
    linesFly .pref false = true ∧ linesFly .lock true = true ∧ linesFly .unlock true = true ∧ linesFly .cwb false = true ∧ linesFly .cinv false = true ∧
    linesFly .cwbinv false = true ∧ lastMsg.sync.barMsgs.find? (fun x => x.mid == lastMsg.ev.id) = some (.arrive 0 5 0 1 false 0) ∧ lastMsg.bar? 5 = some (barRec 0 1) ∧
    lastMsg.barDiverted (.arrive 0 5 0 1 false 0) (barRec 0 1) = false ∧ lastMsg.pendingBelow 1 0 = false ∧ (∀ x ∈ lastMsg.groups, x.blocked = none) ∧
    semHolds (.semRelM 4) .semRel 5 = true ∧ semHolds (.semAcqM 4) .semAcq 5 = true ∧ leNat ((List.range 8).map fun j => (wordW 5).readPa 0 (64 + j)) = 5 := by decide

set_option maxRecDepth 100000 in
theorem test_witness_more_queues : enqLate.mem.accs = [] ∧ enqG.frozen = false ∧ enqG.lanes.length = 32 ∧ (∀ l < 32, enqOp.st < (enqG.lane l).v.length) ∧
    enqOut.writes = [] ∧ enqOut.flags = [] ∧ enqOp.lanes.Nodup ∧ enqOut.mask.getLsbD 0 = true ∧ enqLate.group? 1 = some { enqG with outs := [enqOut] } ∧
    (enqLate.work? 0).map (fun y => y.enqW) = some [{ enqOp with oid := some 6 }] ∧
    (ringW.work? 0).map (fun y => (y.rocc, y.window.length, y.ring.map List.length)) = some (1, 0, [4]) ∧
    (match (ringW.readGlb 0 unitQueues 0 (4096 + 16 * 63) 16).2 with | .ok bs => bs.length == 16 | .error _ => false) = true ∧
    ringReads (ringS 64) = true ∧ (match wS.readOwn wG 4096 64 with | (_, .ok bs) => fieldAt bs 64 32 == 0 | _ => false) = true := by decide

set_option maxRecDepth 100000 in
theorem test_witness_more_groups : goneG.allExited = true ∧ goneG.reds = [] ∧ wG.allExited = false ∧ (goneS []).mem.accs = [] ∧ (goneS []).group? 1 = some goneG ∧
    (accOf (calmS (.st 3 6 0 4 m0))).map (fun a => (a.gid, (goneS [a]).mem.accs.length)) = some (1, 1) ∧
    ((twoG.quadOrder 0 0 0).find? fun (x : Group) => decide (224 ≤ x.sched.guard) && !x.sched.promoted).map (fun x => x.gid) = some 2 ∧
    ((guardS 224 false).quadOrder 0 0 0).find? (fun (x : Group) => decide (224 ≤ x.sched.guard) && !x.sched.promoted) = some (guardG 224 false) ∧
    mldFills { mldOp 0 with lanes := [(0, 0, 0)] } 0 4096 false = true ∧ mldFills { mldOp 2 with lanes := [(0, 1020, 0)], count := 4 } 0 16 false = true ∧
    mldFills { mldOp 6 with lanes := [(0, 0, 0)], d := 3 } 0 (cvtRow 3) true = true ∧ laneQ.lanes.length = 1 ∧ (matS bankU).obs.census = [] ∧
    ((matS bankU).group? quarter0.gid).isSome = true ∧ (matS bankU).matAt 0 0 0 = some bankU ∧ (∀ x ∈ siteS.obs.census, x.pc ≠ 65) ∧
    (∀ y ∈ siteS.obs.census, y = siteAt) := by decide

set_option maxRecDepth 100000 in
theorem test_witness_more_bands : base.kernel? wKernel.kid = some wKernel ∧ wBand.kid = wKernel.kid ∧ wBand ∈ base.bands ∧ (savedS false).kernel? 1 = some wKernel ∧
    (0, 0) ∉ wS.out.retired ∧ (savedS false).band? 1 = some savedBand ∧ (savedS false).formerFits savedBand wKernel.launch ((savedS false).isMatrix wKernel) = true ∧
    (savedS true).formerFits savedBand wKernel.launch ((savedS true).isMatrix wKernel) = false ∧ restored.tab.absents = [] ∧ wBand.savedBins = [] ∧ wBand.savedOrder = [] ∧
    ({ wS with kernels := [] } : State).kernel? 1 = none ∧ gathers = true ∧ (recC true .gather none).sendBytes = 32 ∧ (recC true .gather none).team ≠ [] ∧
    placed 8 = true ∧ found (recC true .moving none) = true := by decide

end Sys2Proof.Tests
end

section
/-!
PROOFS. Every step answers a next state (O15): a meaning stops only on an empty latch, and what executes a program's instruction has filled the latch.
-/
namespace Sys2Proof
open Machine

/-- The outcome is a next state. -/
def GoesOn (o : Out) : Prop := ∃ t, o = .next t

theorem goesOn_next (t : State) : GoesOn (.next t) := ⟨t, rfl⟩

/-- The outcome of a meaning that the issue latch of `s` guards. -/
def ByLatch (s : State) (o : Out) : Prop :=
  (s.cur = none → o = .fault .noIssue) ∧ ∀ c g, Issues s c g → GoesOn o

theorem byLatch_issue (i : Instr) (s : State) (k : Issue → Group → State) : ByLatch s (issue i s k) :=
  ⟨fun h => issue_idle h k, fun c g ⟨hc, hg⟩ => by simp only [issue, hc, hg]; exact goesOn_next _⟩

theorem byLatch_issueAlign (i : Instr) (bad : Issue → Group → Bool) (s : State) (k : Issue → Group → State) :
    ByLatch s (issueAlign i bad s k) :=
  ⟨fun h => by simp only [issueAlign, h], fun c g ⟨hc, hg⟩ => by simp only [issueAlign, hc, hg]; exact goesOn_next _⟩

/-- The meaning of an instruction of a program is one of the two forms of an issue (R71, R81, R82). -/
theorem exec_byLatch {i : Instr} (h : isEvent i = false) (s : State) : ByLatch s (exec i s) := by
  cases i <;> cases h
  case br | bru | call | jmpx | ret | brj | spawn => exact byLatch_issueAlign _ _ _ _
  all_goals exact byLatch_issue _ _ _

theorem goesOn_hostFrame (i : Instr) (s : State) (run : Nat → List Nat → State → State) : GoesOn (hostFrame i s run) := by
  dsimp only [hostFrame]
  repeat' first | exact goesOn_next _ | split

theorem goesOn_hostCommand (i : Instr) (s : State) (run : List Nat → State → State × Nat) : GoesOn (hostCommand i s run) :=
  goesOn_hostFrame i s _

theorem goesOn_queueCommand (i : Instr) (s : State) (qs : State → List Nat → List Nat) (run : List Nat → State → State × Nat) :
    GoesOn (queueCommand i s qs run) :=
  goesOn_hostFrame i s _

theorem goesOn_layerCommand (i : Instr) (s : State) (tier : Bool) (kind : Nat) (off : Nat × Nat → OutState → OutState) :
    GoesOn (layerCommand i s tier kind off) :=
  goesOn_hostFrame i s _

/-- An event has no latch to ask for: each branch of its meaning ends in a next state, that it leaves as it was where its condition does not hold. -/
theorem exec_event_goesOn {i : Instr} (h : isEvent i = true) (s : State) : GoesOn (exec i s) := by
  cases i <;> cases h
  case rclkAutoAdvance | wqRefill | gapExpire | switchRelease | tauWindow | l1LineDrop | bandPlace | debugStep | sessionTimeout | ptpHoldover |
      claspFlit | claspRetry | scaleoutRetransmit | temperatureTrip | deviceReset | clockChangeComplete | haltRestart | rtswapTimeout |
      resultWrite | sliceSweep | peerRequest | debugRevoke | timeStep | powerOn =>
    exact goesOn_next _
  case debug | hostLaunch | traceread | attest =>
    dsimp only [exec]
    exact goesOn_hostFrame _ _ _
  case qbind | submit | ctxend | suspend =>
    dsimp only [exec]
    exact goesOn_queueCommand _ _ _ _
  case ctxnew | keyload | keydestroy | partdef | power | clock | retainRestore | retireLane | update | snapshot | hostMark =>
    dsimp only [exec]
    exact goesOn_hostCommand _ _ _
  case retain | retireLayer =>
    dsimp only [exec]
    exact goesOn_layerCommand _ _ _ _ _
  case resume =>
    dsimp only [exec, execResume]
    split
    · exact goesOn_next _
    · exact goesOn_queueCommand _ _ _ _
  case retireCore =>
    dsimp only [exec, execRetireCore]
    split
    · exact goesOn_next _
    · exact goesOn_hostCommand _ _ _
  all_goals
    dsimp only [exec, execDivideComplete, execChainIssue, execGuardPromote, execTrapEntry, execBreakpointHalt, execLoadReturn, execStorePerform,
      execAtomPerform, execWalkStart, execWalkComplete, execSliceServeRequest, execStashProbe, execStashFillComplete, execAtombufParity,
      execPacketReturn, execDataUncorrectable, execRedfOrdToken, execBarForwardedArrival, execBarCredit, execSemWordRetry, execEnqwTimeout,
      execCrecWaitTimeout, execAmsgDeliver, execDiversionAppend, execMatrixPassClose, execMatrixPassStart, execMatrixPassComplete,
      execMldComplete, execMacroParity, execChanChainStart, execEngineRecordStart, execEngineAccess, execCompletionRecordWrite,
      execCollStepStart, execCollStepData, execCollStepTimeout, execCollBeginNotice, execSubmissionStart, execEventWaitSatisfied,
      execCodeObjectLoad, execBlockingCandidate, execBandRelease, execTaskComplete, execBinFire, execBinTimerExpire, execPoolRecordEnterBin,
      execHelperStart, execPartitionResetComplete, execSuspendDeadline, execSaveAbandon, execWatchdogExpire, execWfgRemoteTimeout,
      execWfgRemoteQuery, execTraceRecordAccept, execLoss, execSample, execHello, execKeyx, execAlaellGapTimeout, execPowerMeasure,
      execFirmwareUpdateComplete, execUndercroftShareChange, execLinkTrainingComplete, execScaleoutPacket, execScaleoutConnLost,
      execPtpSync, execPtpDelayResp]
    repeat' first | exact goesOn_next _ | split

/-- Every meaning goes on where a group issues. -/
theorem exec_goesOn {i : Instr} {s : State} {c : Issue} {g : Group} (h : Issues s c g) : GoesOn (exec i s) := by
  cases hi : isEvent i with
  | true => exact exec_event_goesOn hi s
  | false => exact (exec_byLatch hi s).2 c g h

/-- The latch names the member that executes, so that its meaning finds the group it asks for. -/
theorem runMember_goesOn (s : State) (m : W32 × W32 × W32 × W32) : GoesOn (s.runMember m) := by
  unfold State.runMember
  cases hc : s.cur with
  | none => exact goesOn_next s
  | some c =>
    cases hg : s.group? c.gid with
    | none =>
      have : ({ s with cur := some (c.withMember m) } : State).group? (c.withMember m).gid = none := hg
      simp only [this]
      exact goesOn_next _
    | some g =>
      have hi : ({ s with cur := some (c.withMember m) } : State).group? (c.withMember m).gid = some g := hg
      simp only [hi]
      cases hd : decodeWords (c.withMember m).w0 (c.withMember m).w1 with
      | error _ => exact goesOn_next _
      | ok d => exact exec_goesOn ⟨rfl, hi⟩

theorem runMembers_goesOn (s0 : State) (ms : List (W32 × W32 × W32 × W32)) :
    ∀ (first : Bool) (s : State), GoesOn (s0.runMembers first ms s) := by
  induction ms with
  | nil => exact fun _ s => goesOn_next s
  | cons m ms ih =>
    intro first s
    obtain ⟨s1, h1⟩ := runMember_goesOn s m
    unfold State.runMembers
    rw [h1]
    cases h2 : s1.trapNow with
    | none => simpa only [h2] using ih false s1
    | some t => simpa only [h2] using goesOn_next _

theorem runChain_goesOn (s : State) : GoesOn s.runChain := by
  unfold State.runChain
  cases s.cur with
  | none => exact goesOn_next s
  | some c =>
    obtain ⟨t, ht⟩ := runMembers_goesOn s c.members true s
    simp only [ht]
    split <;> exact goesOn_next _

theorem take_goesOn (s : State) (i : Instr) (e : Ev) : GoesOn (s.take i e) := by
  unfold State.take
  split
  · exact goesOn_next s
  · split
    next hi =>
      obtain ⟨t, ht⟩ := exec_event_goesOn hi { s with ev := e }
      rw [ht]
      exact runChain_goesOn t
    next => exact goesOn_next s

theorem defaultStep_goesOn (s : State) : GoesOn s.defaultStep := by
  unfold State.defaultStep
  split
  · exact take_goesOn s _ _
  · split
    · exact take_goesOn s _ _
    · split <;> exact goesOn_next _

theorem step_goesOn (s : State) : GoesOn (step s) := by
  unfold step
  split
  · exact take_goesOn _ _ _
  · exact defaultStep_goesOn _
  · exact defaultStep_goesOn _

/-- Settles O15: only the empty latch stops a meaning, and a step executes a member of a chain only on a latch that names a group. -/
theorem everyStepGoesOn : Obligations.EveryStepGoesOn :=
  ⟨step_goesOn, fun _ s hi hc => (exec_byLatch hi s).1 hc⟩

end Sys2Proof
end

section
/-!
PROOFS. Decoding undoes encoding (O59): a word is a sum of fields, each field reads back off the sum, and so the major, the subopcode and the
operands of every encoded instruction are the ones it was encoded from.
-/
namespace Sys2Proof
open Machine

/-! ## Bits of a sum of fields -/

/-- What stands at bit `p` or above leaves the bits below as they are. -/
theorem bits_add_below {lo k p : Nat} (y v : Nat) (h : lo + k ≤ p) : bits (y + v * 2 ^ p) lo k = bits y lo k := by
  obtain ⟨q, rfl⟩ := Nat.exists_eq_add_of_le h
  have : v * 2 ^ (lo + k + q) = 2 ^ lo * (2 ^ k * (v * 2 ^ q)) := by ring
  rw [bits, this, Nat.add_mul_div_left _ _ (Nat.two_pow_pos lo), Nat.add_mul_mod_self_left, bits]

/-- Above a field set where the bits were zero stand the field's value and the bits that stood above it. -/
theorem div_add_field {y p n : Nat} (v : Nat) (hy : bits y p n = 0) :
    (y + v * 2 ^ p) / 2 ^ p = v + 2 ^ n * (y / 2 ^ p / 2 ^ n) := by
  have h1 := Nat.mod_add_div (y / 2 ^ p) (2 ^ n)
  rw [show y / 2 ^ p % 2 ^ n = 0 from hy, Nat.zero_add] at h1
  rw [Nat.add_mul_div_right _ _ (Nat.two_pow_pos p), h1, Nat.add_comm]

/-- A field set where the bits were zero reads back. -/
theorem bits_add_field {y p n v : Nat} (hv : v < 2 ^ n) (hy : bits y p n = 0) : bits (y + v * 2 ^ p) p n = v := by
  rw [bits, div_add_field v hy, Nat.add_mul_mod_self_left, Nat.mod_eq_of_lt hv]

/-- A field set where the bits were zero leaves the bits above it as they are. -/
theorem bits_add_above {y p n v lo : Nat} (k : Nat) (hv : v < 2 ^ n) (hy : bits y p n = 0) (h : p + n ≤ lo) :
    bits (y + v * 2 ^ p) lo k = bits y lo k := by
  obtain ⟨q, rfl⟩ := Nat.exists_eq_add_of_le h
  have h2 : (y + v * 2 ^ p) / 2 ^ (p + n) = y / 2 ^ (p + n) := by
    rw [Nat.pow_add, ← Nat.div_div_eq_div_mul, div_add_field v hy, Nat.add_mul_div_left _ _ (Nat.two_pow_pos n),
      Nat.div_eq_of_lt hv, Nat.zero_add, Nat.div_div_eq_div_mul]
  rw [bits, Nat.pow_add, ← Nat.div_div_eq_div_mul, h2, Nat.div_div_eq_div_mul, ← Nat.pow_add, bits]

/-- The bits below `p` are those of the remainder. -/
theorem bits_mod {lo k p : Nat} (x : Nat) (h : lo + k ≤ p) : bits (x % 2 ^ p) lo k = bits x lo k := by
  rw [← bits_add_below (x % 2 ^ p) (x / 2 ^ p) h, Nat.mod_add_div']

theorem fld_eq (w lo n : Nat) : fld w lo n = BitVec.ofNat n (bits w lo n) := by
  apply BitVec.eq_of_toNat_eq
  simp [fld, bits]

/-! ## Reading a word, field by field

A word is its control fields above bit 27, and below them a literal for the row plus one summand per operand. The lemmas read a bit
range off such a sum from the last summand to the literal; the operands' bit vectors bound them. -/

/-- Below bit 27 a word holds its row and operands (R61). -/
theorem bits_word (c : Ctl) (x : Nat) {lo n : Nat} (h : lo + n ≤ 27) : bits (word c x).toNat lo n = bits x lo n := by
  have hw : (word c x).toNat % 2 ^ 27 = x % 2 ^ 27 := by
    rw [word, BitVec.toNat_ofNat]
    omega
  rw [← bits_mod _ h, hw, bits_mod x h]

theorem fld_word (c : Ctl) (x : Nat) {lo n : Nat} (h : lo + n ≤ 27) : fld (word c x).toNat lo n = fld x lo n := by
  rw [fld_eq, fld_eq, bits_word c x h]

theorem bits_below (y : Nat) {n lo k p : Nat} (v : BitVec n) (h : lo + k ≤ p) : bits (y + v.toNat * 2 ^ p) lo k = bits y lo k :=
  bits_add_below y _ h

theorem bits_above {y p n lo : Nat} (k : Nat) (v : BitVec n) (h : p + n ≤ lo) (hy : bits y p n = 0) :
    bits (y + v.toNat * 2 ^ p) lo k = bits y lo k :=
  bits_add_above k v.isLt hy h

theorem fld_self {y p n : Nat} (v : BitVec n) (hy : bits y p n = 0) : fld (y + v.toNat * 2 ^ p) p n = v := by
  rw [fld_eq, bits_add_field v.isLt hy, BitVec.ofNat_toNat, BitVec.setWidth_eq]

theorem fld_below (y : Nat) {n lo k p : Nat} (v : BitVec n) (h : lo + k ≤ p) : fld (y + v.toNat * 2 ^ p) lo k = fld y lo k := by
  rw [fld_eq, bits_below y v h, fld_eq]

theorem fld_above {y p n lo : Nat} (k : Nat) (v : BitVec n) (h : p + n ≤ lo) (hy : bits y p n = 0) :
    fld (y + v.toNat * 2 ^ p) lo k = fld y lo k := by
  rw [fld_eq, bits_above k v h hy, fld_eq]

/-- Bits of a numeral are computed from it. -/
theorem bits_literal (m lo n : Nat) : bits (no_index (OfNat.ofNat m)) lo n = OfNat.ofNat m >>> lo % 1 <<< n := by
  rw [bits, Nat.shiftRight_eq_div_pow, Nat.one_shiftLeft]

theorem fld_literal (m lo n : Nat) : fld (no_index (OfNat.ofNat m)) lo n = BitVec.ofNat n (OfNat.ofNat m >>> lo) := by
  rw [fld, Nat.shiftRight_eq_div_pow]

theorem fld_toNat {n : Nat} (v : BitVec n) : fld v.toNat 0 n = v := by
  simp [fld]

theorem attrWord_word (m : Attr) : attrWord m.word.toNat = m := by
  obtain ⟨off, seg, str, scp, ru, ord, cp⟩ := m
  simp only [attrWord, Attr.word, fld, BitVec.toNat_ofNat, Attr.mk.injEq]
  refine ⟨?_, ?_, ?_, ?_, ?_, ?_, ?_⟩ <;> apply BitVec.eq_of_toNat_eq <;> simp only [BitVec.toNat_ofNat] <;> omega

theorem matWord_matWord (m : MatWord) : matWord m.matWord.toNat = m := by
  obtain ⟨afmt, kb, sco, ncol, bid, acc, rsv⟩ := m
  simp only [matWord, MatWord.matWord, fld, BitVec.toNat_ofNat, MatWord.mk.injEq]
  refine ⟨?_, ?_, ?_, ?_, ?_, ?_, ?_⟩ <;> apply BitVec.eq_of_toNat_eq <;> simp only [BitVec.toNat_ofNat] <;> omega

/-- The rows of the opcode table for the word `w` with `x` after it, one entry per major, in the order of the majors (R78). -/
def opcodeRows (w x : Nat) : List (Option Instr) :=
  [decodeMajor00 w, decodeMajor01 w, decodeMajor02 w, decodeMajor03 w, decodeMajor04 w, decodeMajor05 w, decodeMajor06 w, decodeMajor07 w,
   decodeMajor08 w, decodeMajor09 w, decodeMajor0A w, decodeMajor0B w, decodeMajor0C w, decodeMajor0D w, decodeMajor0E w, decodeMajor0F w,
   decodeMajor10 w x, decodeMajor11 w, decodeMajor12 w, decodeMajor13 w, decodeMajor14 w, decodeMajor15 w, decodeMajor16 w, decodeMajor17 w,
   decodeMajor18 w, decodeMajor19 w, decodeMajor1A w, decodeMajor1B w, decodeMajor1C w, decodeMajor1D w, decodeMajor1E w, decodeMajor1F w,
   decodeMajor20 w, decodeMajor21 w, decodeMajor22 w, decodeMajor23 w, decodeMajor24 w, decodeMajor25 w, decodeMajor26 w, decodeMajor27 w,
   decodeMajor28 w x, decodeMajor29 w x, decodeMajor2A w x, decodeMajor2B w x, decodeMajor2C w x, decodeMajor2D w x, decodeMajor2E w x,
   decodeMajor2F w x, decodeMajor30 w, decodeMajor31 w, decodeMajor32 w, decodeMajor33 w, decodeMajor34 w, decodeMajor35 w, decodeMajor36 w,
   decodeMajor37 w, decodeMajor38 w, decodeMajor39 w x, decodeMajor3A w, decodeMajor3B w, decodeMajor3C w, decodeMajor3D w, decodeMajor3E w,
   decodeMajor3F w]

/-- Decoding looks the major up in the opcode table (R78). -/
theorem decodeInstr_eq (w x : Nat) : decodeInstr w x = (opcodeRows w x).getD (bits w 21 6) none := by
  have h : bits w 21 6 < 64 := Nat.mod_lt _ (by decide)
  unfold decodeInstr
  generalize bits w 21 6 = m at h
  interval_cases m <;> rfl

/-! ## The words of an instruction -/

/-- The first word holds the control fields `c`. -/
def HasCtl (c : Ctl) : List W32 → Prop
  | [] => False
  | w :: _ => ctlOf w.toNat = c

/-- There are one or two words, and the first says how many. -/
def SaysLength : List W32 → Prop
  | [w] => isTwoWord w.toNat = false
  | [w, _] => isTwoWord w.toNat = true
  | _ => False

/-- The words decode to `r`, whatever follows a single word. -/
def DecodesTo (r : Option Instr) : List W32 → Prop
  | [w] => ∀ x, decodeInstr w.toNat x = r
  | [w, x] => decodeInstr w.toNat x.toNat = r
  | _ => False

/-- The row that the words of `i` decode to: `i`, but for a special register with a row of its own (R80). -/
def rowOf : Instr → Option Instr
  | .sread d k h n => decodeSread d k h n
  | .swrite d k h n => decodeSwrite d k h n
  | i => some i

/-- Form by form: every form of word keeps the control fields apart from its operands (R61). -/
theorem encode_hasCtl {c : Ctl} {i : Instr} {ws : List W32} (h : encode c i = some ws) : HasCtl c ws := by
  cases i <;> cases h
  all_goals simp only [HasCtl, Nat.reduceAdd, Nat.reducePow, Nat.reduceLT,
    ctlOf_bodyOf_3w18, ctlOf_bodyOf_0w21, ctlOf_bodyOf_15_9_3, ctlOf_bodyOf_15_9, ctlOf_bodyOf_15_9_3_0w6w6w6w3, ctlOf_bodyOf_15_9_0w6w6w9,
    ctlOf_bodyOf_15_9_0w6w6w5, ctlOf_bodyOf_18_15_9_0w3w3w6w9, ctlOf_bodyOf_15_0w6w15, ctlOf_bodyOf_15, ctlOf_bodyOf_15_9_6_3_0w6w6w3w3w3,
    ctlOf_bodyOf_15_9_0w6w6w3, ctlOf_bodyOf_15_9_3_0w6w6w3w3, ctlOf_bodyOf_15_9_3w6w6w1, ctlOf_bodyOf_15_9_6_3w6w6w1w3,
    ctlOf_bodyOf_15_14_13_0w6w1w1w9, ctlOf_bodyOf_15_14_13w6w1w1, ctlOf_bodyOf_17_0w4w17, ctlOf_bodyOf_9, ctlOf_bodyOf_17_15_0w4w2w15,
    ctlOf_bodyOf_3, ctlOf_bodyOf_9_3, ctlOf_bodyOf_3w3, ctlOf_bodyOf_9_3w6w3, ctlOf_bodyOf_15_9_3w6w6w3, ctlOf_bodyOf_15_3,
    ctlOf_bodyOf_15_9_6_3w6w6w2w3, ctlOf_bodyOf_15_9_7w6w6w1, ctlOf_word]

/-- The major alone says how many words there are (R72), and no operand reaches it. -/
theorem encode_saysLength {c : Ctl} {i : Instr} {ws : List W32} (h : encode c i = some ws) : SaysLength ws := by
  cases i <;> cases h
  all_goals simp only [SaysLength, isTwoWord, Nat.reduceAdd, Nat.reduceLeDiff, le_refl, Nat.reduceShiftRight, Nat.reduceShiftLeft,
    Nat.reduceMod, Nat.reduceBEq, decide_true, decide_false, Bool.or_false, Bool.or_true, Bool.and_true, Bool.and_false, Bool.or_self,
    bits_word, bits_below, bits_above, bits_literal, bodyOf_3w18, bodyOf_0w21, bodyOf_15_9_3, bodyOf_15_9, bodyOf_15_9_3_0w6w6w6w3,
    bodyOf_15_9_0w6w6w9, bodyOf_15_9_0w6w6w5, bodyOf_18_15_9_0w3w3w6w9, bodyOf_15_0w6w15, bodyOf_15, bodyOf_15_9_6_3_0w6w6w3w3w3,
    bodyOf_15_9_0w6w6w3, bodyOf_15_9_3_0w6w6w3w3, bodyOf_15_9_3w6w6w1, bodyOf_15_9_6_3w6w6w1w3, bodyOf_15_14_13_0w6w1w1w9, bodyOf_15_14_13w6w1w1,
    bodyOf_17_0w4w17, bodyOf_9, bodyOf_17_15_0w4w2w15, bodyOf_3, bodyOf_9_3, bodyOf_3w3, bodyOf_9_3w6w3, bodyOf_15_9_3w6w6w3, bodyOf_15_3,
    bodyOf_15_9_6_3w6w6w2w3, bodyOf_15_9_7w6w6w1]

/-- Row by row: the major read off the word picks the entry of the opcode table, the subopcode the row in it, and every operand's field reads
back. What is left is the special registers with a row of their own, whose number is a literal. -/
theorem encode_decodesTo {c : Ctl} {i : Instr} {ws : List W32} (h : encode c i = some ws) : DecodesTo (rowOf i) ws := by
  cases i <;> cases h
  all_goals simp only [DecodesTo, rowOf, decodeInstr_eq,
    bits_word, bits_below, bits_above, bits_literal, Nat.reduceAdd, Nat.reduceLeDiff, le_refl, Nat.reduceShiftRight, Nat.reduceShiftLeft,
    Nat.reduceMod, bodyOf_3w18, bodyOf_0w21, bodyOf_15_9_3, bodyOf_15_9, bodyOf_15_9_3_0w6w6w6w3, bodyOf_15_9_0w6w6w9, bodyOf_15_9_0w6w6w5,
    bodyOf_18_15_9_0w3w3w6w9, bodyOf_15_0w6w15, bodyOf_15, bodyOf_15_9_6_3_0w6w6w3w3w3, bodyOf_15_9_0w6w6w3, bodyOf_15_9_3_0w6w6w3w3,
    bodyOf_15_9_3w6w6w1, bodyOf_15_9_6_3w6w6w1w3, bodyOf_15_14_13_0w6w1w1w9, bodyOf_15_14_13w6w1w1, bodyOf_17_0w4w17, bodyOf_9,
    bodyOf_17_15_0w4w2w15, bodyOf_3, bodyOf_9_3, bodyOf_3w3, bodyOf_9_3w6w3, bodyOf_15_9_3w6w6w3, bodyOf_15_3, bodyOf_15_9_6_3w6w6w2w3,
    bodyOf_15_9_7w6w6w1]
  all_goals simp only [opcodeRows, List.getD_cons_succ, List.getD_cons_zero]
  all_goals simp only [implies_true, Nat.reduceEqDiff, ↓reduceIte, OfNat.ofNat_ne_zero, one_ne_zero, OfNat.zero_ne_ofNat, and_self,
    and_true, true_and, and_false, false_and,
    bits_word, bits_below, bits_above, bits_literal, fld_word, fld_self, fld_below, fld_above, fld_toNat, attrWord_word, matWord_matWord,
    fld_literal, Nat.reduceAdd, Nat.reduceLeDiff, le_refl, Nat.reduceShiftRight, Nat.reduceShiftLeft, Nat.reduceMod, decodeMajor00, decodeMajor01,
    decodeMajor02, decodeMajor03, decodeMajor04, decodeMajor05, decodeMajor06, decodeMajor07, decodeMajor08, decodeMajor09, decodeMajor0A,
    decodeMajor0B, decodeMajor0C, decodeMajor0D, decodeMajor0E, decodeMajor0F, decodeMajor10, decodeMajor11, decodeMajor12, decodeMajor13,
    decodeMajor14, decodeMajor15, decodeMajor16, decodeMajor17, decodeMajor18, decodeMajor19, decodeMajor1A, decodeMajor1B, decodeMajor1C,
    decodeMajor1D, decodeMajor1E, decodeMajor1F, decodeMajor20, decodeMajor21, decodeMajor22, decodeMajor23, decodeMajor24, decodeMajor25,
    decodeMajor26, decodeMajor27, decodeMajor28, decodeMajor29, decodeMajor2A, decodeMajor2B, decodeMajor2C, decodeMajor2D, decodeMajor2E,
    decodeMajor2F, decodeMajor30, decodeMajor31, decodeMajor32, decodeMajor33, decodeMajor34, decodeMajor35, decodeMajor36, decodeMajor37,
    decodeMajor38, decodeMajor39, decodeMajor3A, decodeMajor3B, decodeMajor3C, decodeMajor3D, decodeMajor3E, decodeMajor3F]
  all_goals exact fun _ => rfl

/-! ## From words to bytes and back -/

/-- The four bytes of a word give the word back (R2, R58). -/
theorem wordOfBytes_bytesOfWord (w : W32) : wordOfBytes (BitVec.ofNat 8 w.toNat) (BitVec.ofNat 8 (w.toNat / 2 ^ 8))
    (BitVec.ofNat 8 (w.toNat / 2 ^ 16)) (BitVec.ofNat 8 (w.toNat / 2 ^ 24)) = w := by
  apply BitVec.eq_of_toNat_eq
  have := w.isLt
  simp only [wordOfBytes, BitVec.toNat_ofNat]
  omega

/- In the next two proofs `decodeWords` is held as a variable `dec`: else the kernel, comparing the two sides of a step, would
evaluate the decoder on words it does not know. -/

theorem decodeBytes_oneWord {a b c d : Byte} {r : Decoded} (rest : List Byte) (hl : isTwoWord (wordOfBytes a b c d).toNat = false)
    (hw : decodeWords (wordOfBytes a b c d) 0 = .ok r) : decodeBytes (a :: b :: c :: d :: rest) = .ok (r, rest) := by
  obtain ⟨dec, hdec⟩ : ∃ dec, dec = decodeWords := ⟨_, rfl⟩
  unfold decodeBytes
  rw [← hdec] at hw ⊢
  simp only [hl, hw, Bool.false_eq_true, ↓reduceIte]

theorem decodeBytes_twoWords {a b c d e f g h : Byte} {r : Decoded} (rest : List Byte) (hl : isTwoWord (wordOfBytes a b c d).toNat = true)
    (hw : decodeWords (wordOfBytes a b c d) (wordOfBytes e f g h) = .ok r) :
    decodeBytes (a :: b :: c :: d :: e :: f :: g :: h :: rest) = .ok (r, rest) := by
  obtain ⟨dec, hdec⟩ : ∃ dec, dec = decodeWords := ⟨_, rfl⟩
  unfold decodeBytes
  rw [← hdec] at hw ⊢
  simp only [hl, hw, ↓reduceIte]

theorem decodeWords_oneWord {c : Ctl} {j : Instr} {w x : W32} (hc : ctlOf w.toNat = c) (hl : isTwoWord w.toNat = false)
    (hd : decodeInstr w.toNat x.toNat = some j) : decodeWords w x = .ok { ctl := c, instr := j, words := 1 } := by
  simp [decodeWords, hd, hc, hl]

theorem decodeWords_twoWords {c : Ctl} {j : Instr} {w x : W32} (hc : ctlOf w.toNat = c) (hl : isTwoWord w.toNat = true)
    (hd : decodeInstr w.toNat x.toNat = some j) : decodeWords w x = .ok { ctl := c, instr := j, words := 2 } := by
  simp [decodeWords, hd, hc, hl]

/-- Decoding the bytes of one word or two reads those words and leaves the bytes after them. -/
theorem decodeBytes_words {c : Ctl} {i : Instr} (rest : List Byte) : ∀ {ws : List W32}, HasCtl c ws → SaysLength ws →
    DecodesTo (some i) ws → decodeBytes (ws.flatMap bytesOfWord ++ rest) = .ok ({ ctl := c, instr := i, words := ws.length }, rest)
  | [], hc, _, _ => hc.elim
  | [w], hc, hl, hd => by
    have hw : decodeWords w 0 = _ := decodeWords_oneWord hc hl (hd _)
    rw [List.flatMap_singleton]
    exact decodeBytes_oneWord rest (by rwa [wordOfBytes_bytesOfWord]) (by rwa [wordOfBytes_bytesOfWord])
  | [w, x], hc, hl, hd => by
    have hw := decodeWords_twoWords hc hl hd
    rw [List.flatMap_cons, List.flatMap_singleton, List.append_assoc]
    exact decodeBytes_twoWords rest (by rwa [wordOfBytes_bytesOfWord]) (by rwa [wordOfBytes_bytesOfWord, wordOfBytes_bytesOfWord])
  | _ :: _ :: _ :: _, _, hl, _ => hl.elim

/-- A single word decodes to its row, whatever follows it. -/
theorem decodeWords_of_encode {c : Ctl} {i j : Instr} {w : W32} (x : W32) (h : encode c i = some [w]) (hj : rowOf i = some j) :
    decodeWords w x = .ok { ctl := c, instr := j, words := 1 } := by
  have hd : decodeInstr w.toNat x.toNat = some j := hj ▸ encode_decodesTo h x.toNat
  exact decodeWords_oneWord (encode_hasCtl h) (encode_saysLength h) hd

/-! ## Round trip -/

theorem decodeSread_other {n : BitVec 9} (d : BitVec 6) (k h : BitVec 1) (h0 : n ≠ 0x28) (h1 : n ≠ 0x29) :
    decodeSread d k h n = some (.sread d k h n) := by
  have h0' : n.toNat ≠ 0x28 := fun e => h0 (BitVec.eq_of_toNat_eq e)
  have h1' : n.toNat ≠ 0x29 := fun e => h1 (BitVec.eq_of_toNat_eq e)
  rw [decodeSread, if_neg h0', if_neg h1']

theorem decodeSwrite_other {n : BitVec 9} (d : BitVec 6) (k h : BitVec 1) (h0 : n ≠ 0x32) (h1 : n ≠ 0x120) (h2 : n ≠ 0x138) :
    decodeSwrite d k h n = some (.swrite d k h n) := by
  have h0' : n.toNat ≠ 0x32 := fun e => h0 (BitVec.eq_of_toNat_eq e)
  have h1' : n.toNat ≠ 0x120 := fun e => h1 (BitVec.eq_of_toNat_eq e)
  have h2' : n.toNat ≠ 0x138 := fun e => h2 (BitVec.eq_of_toNat_eq e)
  rw [decodeSwrite, if_neg h0', if_neg h1', if_neg h2']

/-- An instruction that no special register's own row displaces has its own row. -/
theorem rowOf_self {i : Instr} (hr : ∀ d k h n, i = .sread d k h n → n ≠ 0x28 ∧ n ≠ 0x29)
    (hw : ∀ d k h n, i = .swrite d k h n → n ≠ 0x32 ∧ n ≠ 0x120 ∧ n ≠ 0x138) : rowOf i = some i := by
  cases i
  case sread d k h n =>
    obtain ⟨h0, h1⟩ := hr d k h n rfl
    exact decodeSread_other d k h h0 h1
  case swrite d k h n =>
    obtain ⟨h0, h1, h2⟩ := hw d k h n rfl
    exact decodeSwrite_other d k h h0 h1 h2
  all_goals rfl

/-- The rows of a program that share another row's word (log entry 89). -/
def sharedRows : List Instr :=
  [.divinstLink, .divinstDrain, .divinstRemove, .divinstRead, .rtswapRead, .rtswapSwap, .ctxctlUnhold, .ctxctlSave, .ctxctlRestore,
    .ctxctlRelease, .ctxctlKill, .ctxctlServe, .ctxctlDecline, .ctxctlFwret, .ctxctlReset]

/-- Only an event or a shared row has no words of its own. -/
theorem isEvent_or_mem_of_encode_eq_none {c : Ctl} {i : Instr} (h : encode c i = none) : isEvent i = true ∨ i ∈ sharedRows := by
  cases i <;> cases h
  case divinstLink | divinstDrain | divinstRemove | divinstRead | rtswapRead | rtswapSwap | ctxctlUnhold | ctxctlSave | ctxctlRestore
      | ctxctlRelease | ctxctlKill | ctxctlServe | ctxctlDecline | ctxctlFwret | ctxctlReset => exact .inr (by simp [sharedRows])
  all_goals exact .inl rfl

theorem length_of_saysLength : ∀ {ws : List W32}, SaysLength ws → ws.length = 1 ∨ ws.length = 2
  | [_], _ => .inl rfl
  | [_, _], _ => .inr rfl

/-- Settles O59: the words of every instruction hold its control fields and their own number and decode to its row, and bytes give their
words back. -/
theorem encodeDecodeRoundTrip : Obligations.EncodeDecodeRoundTrip := by
  refine ⟨fun c i ws rest h hr hw => ?_, fun c d k h x w => ⟨fun e => ?_, fun e => ?_⟩, fun c i he hs => ?_⟩
  · exact decodeBytes_words rest (encode_hasCtl h) (encode_saysLength h) (rowOf_self hr hw ▸ encode_decodesTo h)
  · exact decodeWords_of_encode x e rfl
  · exact decodeWords_of_encode x e rfl
  · have hn : encode c i ≠ none := fun h => (isEvent_or_mem_of_encode_eq_none h).elim (by simp [he]) hs
    obtain ⟨ws, h⟩ := Option.ne_none_iff_exists'.mp hn
    exact ⟨ws, h, length_of_saysLength (encode_saysLength h)⟩
end Sys2Proof
end

section
/-!
PROOFS. The state after reset (O60): its tables are empty, so each accessor answers what it answers of a record that is not listed.
-/
namespace Sys2Proof
open Machine

theorem reset_latchInv : LatchInv State.reset := ⟨rfl, rfl⟩

theorem mem_dieList {d : Nat} : d ∈ dieList ↔ d < 8 := by
  simp only [dieList, List.mem_cons, List.not_mem_nil, or_false]
  omega

/-- Every die pair after reset stands in C2, with no change under way (R12, R459). -/
theorem reset_die {d : DiePair} (h : d ∈ State.reset.out.dies) : d.die < 8 ∧ d.clock = .c2 ∧ d.change = none := by
  obtain ⟨n, hn, rfl⟩ := List.mem_map.mp h
  exact ⟨mem_dieList.mp hn, rfl, rfl⟩

/-- Every Undercroft share after reset is 2 GiB, with W = 0 (R202, R425). -/
theorem reset_gateway {g : Gateway} (h : g ∈ State.reset.obs.gateways) : g.share = 2 ^ 31 ∧ g.w = 0 := by
  obtain ⟨n, -, rfl⟩ := List.mem_map.mp h
  exact ⟨rfl, rfl⟩

theorem reset_coh (pa : Nat) : State.reset.mem.coh pa = 0 := rfl

theorem reset_keySlot (n : Nat) : (State.reset.keySlot n).st = if 1008 ≤ n then .persistent else .empty := rfl

theorem reset_matState (die core quad : Nat) : State.reset.matState die core quad = MatUnit.new die core quad := rfl

@[simp] theorem MatUnit.new_elem (die core quad e : Nat) : (MatUnit.new die core quad).elem e = 0 := rfl

@[simp] theorem MatUnit.new_scaleAt (die core quad slot b : Nat) : (MatUnit.new die core quad).scaleAt slot b = 0x7F := rfl

/-- Settles O60: every table of the state after reset is empty but for the eight die pairs and the eight gateways. -/
theorem resetValues : Obligations.ResetValues := by
  refine ⟨reset_memInv, reset_latchInv, rfl, rfl, rfl, rfl, rfl, fun _ => reset_die, rfl, rfl, rfl, rfl, fun _ => reset_gateway, reset_coh,
    fun n h _ => ?_, fun n h => ?_, fun die core quad => ?_⟩
  · rw [reset_keySlot, if_pos h]
  · rw [reset_keySlot, if_neg (by omega)]
  · rw [reset_matState]
    exact ⟨rfl, rfl, rfl, rfl, MatUnit.new_elem die core quad, MatUnit.new_scaleAt die core quad⟩

end Sys2Proof
end

section
/-!
PROOFS. The host's commands on queues, kernels, contexts, keys and partitions (O52): a frame that its session takes runs its command on the state in
which the session has accepted it and acknowledges the command's status, so what is left of each is the case that the command falls in.
-/
namespace Sys2Proof
open Machine

/-- What a taken frame of a session answers: a status for its tag, on the state that its command leaves, and the frames that it lets in come next. -/
abbrev answer (sid tag : Nat) (r : State × Nat) : Out := .next ((r.1.tell (.ack tag r.2)).closeGap sid)

section Commands
variable {s u : State} {sid tag : Nat} {ws : List Nat}

/-! ## Queues (R119, R301) -/

theorem queueAt_q (u : State) (q : Nat) : (u.queueAt q).q = q := by
  unfold State.queueAt
  cases h : u.hq? q with
  | none => rfl
  | some x => exact beq_iff_eq.mp (List.find?_some (p := fun x : HostQ => x.q == q) h)

theorem hq?_setQueue (u : State) (h : HostQ) : (u.setQueue h).hq? h.q = some h := by
  simp [State.setQueue, State.hq?]

/-- The state in which a queue bound to a context stands (R301, R376). -/
def boundState (u : State) (c : Context) : HqState :=
  if (u.part? c.part).any (fun p => p.resetting) then .resetting else if c.held then .held else .open_

/-- A host command queue as a QBIND with the given words binds it to a context (R119). -/
def boundQueue (u : State) (q : Nat) (xs : List Nat) (c : Context) : HostQ :=
  { u.queueAt q with
    st := boundState u c, ctx := c.ctx, prio := xs.getD 1 0, wdPeriod := clampPeriod (xs.getD 2 0), wdAction := xs.getD 3 0 == 1,
    dumpFlag := xs.getD 4 0 == 1, dumpBuf := xs.getD 5 0, dumpLen := xs.getD 6 0 }

/-- A queue that is not in use is bound, where the words are in range. -/
theorem bindQueue_binds {q : Nat} {xs : List Nat} {c : Context} (hc : u.ctx? (xs.getD 0 0) = some c) (hq : q < 4096) (hp : xs.getD 1 0 < 8)
    (hd : xs.getD 4 0 ≠ 1) (hu : (u.queueAt q).inUse = false) :
    (u.bindQueue q xs).2 = stOk ∧ (u.bindQueue q xs).1.hq? q = some (boundQueue u q xs c).reload := by
  have hr : ¬ (4096 ≤ q ∨ 8 ≤ xs.getD 1 0 ∨ (xs.getD 4 0 = 1 ∧ (xs.getD 6 0 < 4096 ∨ xs.getD 6 0 % 64 ≠ 0))) := by omega
  have hset : (u.setQueue (boundQueue u q xs c).reload).hq? q = some (boundQueue u q xs c).reload := by
    simpa [HostQ.reload, boundQueue, queueAt_q] using hq?_setQueue u (boundQueue u q xs c).reload
  simp only [State.bindQueue, hc, if_neg hr, hu, Bool.false_eq_true, if_false, true_and]
  split
  · exact hset
  · exact hset

/-- QBIND binds what its kind names; only a host command queue has to be free of a reset. -/
theorem qbind_answers (h : Taken .qbind s u sid tag ws) :
    (ws.getD 1 0 = 0 → u.queueResetting (ws.getD 0 0) = false → exec .qbind s = answer sid tag (u.bindQueue (ws.getD 0 0) (ws.drop 2))) ∧
    (ws.getD 1 0 = 1 → exec .qbind s = answer sid tag (u.bindChannel (ws.drop 2))) ∧
    (ws.getD 1 0 = 2 → exec .qbind s = answer sid tag (u.bindWork (ws.drop 2))) := by
  refine ⟨fun hk hf => ?_, fun hk => ?_, fun hk => ?_⟩
  · have e : execQbind s = _ := queueCommand_taken h _ _ (by simpa only [hk, if_true, List.forall_mem_singleton] using hf)
    exact e.trans (by simp only [hk])
  · have e : execQbind s = _ := queueCommand_taken h _ _ (by simp only [hk]; simp)
    exact e.trans (by simp only [hk])
  · have e : execQbind s = _ := queueCommand_taken h _ _ (by simp only [hk]; simp)
    exact e.trans (by simp only [hk])

theorem submit_answers {q : HostQ} (h : Taken .submit s u sid tag ws) (hf : u.queueResetting (ws.getD 0 0) = false)
    (hq : u.hq? (ws.getD 0 0) = some q) :
    exec .submit s = answer sid tag
      (if q.st = .unbound ∨ ws.getD 1 0 % 64 ≠ 0 ∨ ws.getD 2 0 = 0 ∨ 2 ^ 24 < ws.getD 2 0 then (u, stRefused)
       else if 64 ≤ q.waiting.length then (u, stFull)
       else (u.modHq q.q fun x => { x with waiting := x.waiting ++ [(ws.getD 1 0, ws.getD 2 0)] }, stOk)) := by
  have e : execSubmit s = _ := queueCommand_taken h _ _ (by simpa only [List.forall_mem_singleton] using hf)
  exact e.trans (by simp only [hq, answer])

/-! ## Kernels (R28, R453) -/

theorem hostLaunch_refused (h : Taken .hostLaunch s u sid tag ws)
    (hb : (u.ctx? (ws.getD 0 0)).isNone = true ∨ 8 ≤ ws.getD 2 0 ∨ 8 ≤ ws.getD 3 0) :
    exec .hostLaunch s = answer sid tag (u, stRefused) := by
  have e : execHostLaunch s = _ := hostFrame_taken h _
  exact e.trans (by simp only [if_pos hb, answer])

/-- A launch record that is read makes a kernel, or none where its gang cannot be placed. -/
theorem hostLaunch_answers {v : State} {l : Launch} (h : Taken .hostLaunch s u sid tag ws)
    (hc : (u.ctx? (ws.getD 0 0)).isSome = true) (hp : ws.getD 2 0 < 8) (hd : ws.getD 3 0 < 8)
    (hl : u.readLaunch (ws.getD 3 0) (ws.getD 0 0) (ws.getD 1 0) = (v, some l)) :
    let k := v.newKernel (ws.getD 0 0) (ws.getD 3 0) 4096 (ws.getD 2 0) (.host tag) l false [] none
    exec .hostLaunch s = answer sid tag (if k.1.gangOk k.2 then (k.1, stOk) else (v, stRefused)) := by
  have hn : ¬ ((u.ctx? (ws.getD 0 0)).isNone = true ∨ 8 ≤ ws.getD 2 0 ∨ 8 ≤ ws.getD 3 0) := by
    simp only [Option.isNone_eq_false_iff.mpr hc, Bool.false_eq_true, false_or]
    omega
  have e : execHostLaunch s = _ := hostFrame_taken h _
  refine e.trans ?_
  simp only [if_neg hn, hl, answer]
  split <;> rfl

/-! ## Contexts (R20, R374, R376, R453) -/

/-- What keeps a CTXNEW from making a context, whichever contexts there are (R314, R339). -/
abbrev ctxnewBad (u : State) (ws : List Nat) : Prop :=
  256 ≤ ws.getD 0 0 ∨ (u.part? (ws.getD 1 0)).isNone ∨ 16 < ws.getD 3 0 ∨ (ws.getD 6 0 ≠ 0 ∧ (ws.getD 6 0 < 64 ∨ 65536 < ws.getD 6 0)) ∨
    2 ^ 24 < ws.getD 14 0 ∨ 16 < (newContext ws).allot.length ∨ !((newContext ws).allot.all u.grantable)

/-- The state with the context that a CTXNEW makes, and with its reference census. -/
def withContext (u : State) (ws : List Nat) : State :=
  State.modObs { u with ctxs := u.ctxs ++ [newContext ws] } fun o => { o with
    refs := o.refs ++ [{ ctx := ws.getD 0 0, base := ws.getD 9 0, count := ws.getD 10 0, halt := bits (ws.getD 2 0) 1 1 == 1, ring := ws.getD 8 0 }] }

theorem ctxnew_answers (h : Taken .ctxnew s u sid tag ws) :
    exec .ctxnew s = answer sid tag (if ctxnewBad u ws then (u, stRefused)
      else if (u.ctx? (ws.getD 0 0)).isSome then (u, stBusy) else (withContext u ws, stOk)) :=
  (hostCommand_taken h _ : execCtxnew s = _)

theorem not_ctxnewBad (h0 : ws.getD 0 0 < 256) (hp : (u.part? (ws.getD 1 0)).isSome = true) (h3 : ws.getD 3 0 ≤ 16)
    (h6 : ws.getD 6 0 ≠ 0 → 64 ≤ ws.getD 6 0 ∧ ws.getD 6 0 ≤ 65536) (h14 : ws.getD 14 0 ≤ 2 ^ 24)
    (hl : (newContext ws).allot.length ≤ 16) (ha : (newContext ws).allot.all u.grantable = true) : ¬ ctxnewBad u ws := by
  simp only [ctxnewBad, Option.isNone_eq_false_iff.mpr hp, ha, Bool.not_true, Bool.false_eq_true, false_or, or_false]
  omega

theorem dropCtx_ctx? (u : State) (c : Nat) : (u.dropCtx c).ctx? c = none :=
  List.find?_eq_none.mpr fun x hx => by
    have hx' := List.of_mem_filter hx
    simpa using hx'

theorem ctxend_answers (h : Taken .ctxend s u sid tag ws) (hf : ∀ q ∈ u.queuesOf (ws.getD 0 0), u.queueResetting q = false) :
    exec .ctxend s = answer sid tag (if (u.ctx? (ws.getD 0 0)).isNone then (u, stRefused)
      else if u.ctxBusy (ws.getD 0 0) then (u, stBusy) else (u.dropCtx (ws.getD 0 0), stOk)) :=
  (queueCommand_taken h _ _ hf : execCtxend s = _)

/-- The state in which SUSPEND holds a context, to be saved within a time (R374). -/
def suspended (u : State) (c us : Nat) : State :=
  (u.holdCtx c).modTab fun t => { t with suspends := t.suspends.filter (fun x => !(x.1 == c)) ++ [(c, u.out.elapsed + usToUnits us)] }

theorem suspend_answers (h : Taken .suspend s u sid tag ws) (hf : ∀ q ∈ u.queuesOf (ws.getD 0 0), u.queueResetting q = false) :
    exec .suspend s = answer sid tag (if (u.ctx? (ws.getD 0 0)).isNone ∨ 10000 < ws.getD 1 100 then (u, stRefused)
      else if u.tab.resuming.contains (ws.getD 0 0) then (u, stBusy) else (suspended u (ws.getD 0 0) (ws.getD 1 100), stOk)) :=
  (queueCommand_taken h _ _ hf : execSuspend s = _)

/-- SUSPEND holds a context that is not being resumed; its deadline is 100 microseconds where the frame gives none. -/
theorem suspend_holds {r : List Nat} (h : Taken .suspend s u sid tag ws) (hf : ∀ q ∈ u.queuesOf (ws.getD 0 0), u.queueResetting q = false)
    (hc : (u.ctx? (ws.getD 0 0)).isSome = true) (hr : ws = ws.getD 0 0 :: r) (hd : r.headD 100 ≤ 10000) (hn : ws.getD 0 0 ∉ u.tab.resuming) :
    exec .suspend s = answer sid tag (suspended u (ws.getD 0 0) (r.headD 100), stOk) := by
  have hus : ws.getD 1 100 = r.headD 100 := by rw [hr]; cases r <;> rfl
  have hok : ¬ ((u.ctx? (ws.getD 0 0)).isNone = true ∨ 10000 < ws.getD 1 100) := by
    simp only [Option.isNone_eq_false_iff.mpr hc, Bool.false_eq_true, false_or]
    omega
  rw [suspend_answers h hf, if_neg hok, if_neg (by simpa only [List.contains_iff_mem] using hn), hus]

/-- The state in which the first round of RESUME brings a context back (R376). -/
def resumed (u : State) (c : Nat) : State :=
  (u.modTab fun t => { t with suspends := t.suspends.filter (fun x => !(x.1 == c)), resuming := c :: t.resuming.filter fun x => !(x == c) }).resumeRound c

theorem resume_answers (h : Taken .resume s u sid tag ws) (hs : s.ev.sub ≠ 1)
    (hf : ∀ q ∈ u.queuesOf (ws.getD 0 0), u.queueResetting q = false) :
    exec .resume s = answer sid tag (if (u.ctx? (ws.getD 0 0)).isNone then (u, stRefused)
      else if u.bands.any (fun b => b.ctx == ws.getD 0 0 && b.st == .saving) then (u, stBusy) else (resumed u (ws.getD 0 0), stOk)) :=
  (if_neg hs : execResume s = _).trans (queueCommand_taken h _ _ hf)

theorem any_saving_iff (u : State) (c : Nat) :
    u.bands.any (fun b => b.ctx == c && b.st == .saving) = true ↔ ∃ b ∈ u.bands, b.ctx = c ∧ b.st = .saving := by
  simp only [List.any_eq_true, Bool.and_eq_true, beq_iff_eq]

/-! ## Keys (R356) -/

theorem keySlot_setKey (u : State) (k : KeySlot) : (u.setKey k).keySlot k.slot = k := by
  simp [State.setKey, State.keySlot]

/-- A slot as KEYLOAD fills it, under the next generation. -/
def loadedSlot (u : State) (n : Nat) : KeySlot := { slot := n, st := .loaded, ctx := none, gen := u.tab.keyGen + 1 }

/-- The state with a key in a slot, and its generation counted. -/
def withKey (u : State) (n : Nat) : State := (u.setKey (loadedSlot u n)).modTab fun t => { t with keyGen := u.tab.keyGen + 1 }

theorem withKey_keySlot (u : State) (n : Nat) : (withKey u n).keySlot n = loadedSlot u n := keySlot_setKey u (loadedSlot u n)

/-- A slot as KEYDESTROY leaves it. -/
def emptySlot (n : Nat) : KeySlot := { slot := n, st := .empty, ctx := none, gen := 0 }

theorem keyload_answers (h : Taken .keyload s u sid tag ws) :
    exec .keyload s = answer sid tag (if 1007 < ws.getD 0 0 then (u, stRefused) else if (u.keySlot (ws.getD 0 0)).st = .bound then (u, stBusy)
      else (withKey u (ws.getD 0 0), stOk)) :=
  (hostCommand_taken h _ : execKeyload s = _)

theorem keydestroy_answers (h : Taken .keydestroy s u sid tag ws) :
    exec .keydestroy s = answer sid tag (if 1007 < ws.getD 0 0 then (u, stRefused) else (u.setKey (emptySlot (ws.getD 0 0)), stOk)) :=
  (hostCommand_taken h _ : execKeydestroy s = _)

theorem keyload_fills (h : Taken .keyload s u sid tag ws) (hn : ws.getD 0 0 ≤ 1007) (hb : (u.keySlot (ws.getD 0 0)).st ≠ .bound) :
    ∃ t, exec .keyload s = answer sid tag (t, stOk) ∧ (t.keySlot (ws.getD 0 0)).st = .loaded ∧
      (t.keySlot (ws.getD 0 0)).gen = u.tab.keyGen + 1 ∧ t.tab.keyGen = u.tab.keyGen + 1 ∧ t.mem = u.mem := by
  refine ⟨withKey u (ws.getD 0 0), ?_, by rw [withKey_keySlot]; rfl, by rw [withKey_keySlot]; rfl, rfl, rfl⟩
  rw [keyload_answers h, if_neg (by omega), if_neg hb]

theorem keydestroy_empties (h : Taken .keydestroy s u sid tag ws) (hn : ws.getD 0 0 ≤ 1007) :
    ∃ t, exec .keydestroy s = answer sid tag (t, stOk) ∧ (t.keySlot (ws.getD 0 0)).st = .empty ∧ t.mem = u.mem := by
  have hslot : (u.setKey (emptySlot (ws.getD 0 0))).keySlot (ws.getD 0 0) = emptySlot (ws.getD 0 0) := keySlot_setKey u (emptySlot (ws.getD 0 0))
  refine ⟨u.setKey (emptySlot (ws.getD 0 0)), ?_, by rw [hslot]; rfl, rfl⟩
  rw [keydestroy_answers h, if_neg (by omega)]

/-! ## Partitions (R20, R453) -/

/-- The partition that a PARTDEF sets. -/
def definedPartition (u : State) (ws : List Nat) : Partition :=
  { part := ws.getD 0 0, cores := ((ws.drop 9).take (ws.getD 6 0)).map fun x => (x / 128, x % 128),
    engines := (ws.drop (9 + ws.getD 6 0)).take (ws.getD 7 0), units := (ws.drop (9 + ws.getD 6 0 + ws.getD 7 0)).take (ws.getD 8 0),
    share := ws.getD 5 0, routing := ws.getD 1 0, exporter := if ws.getD 2 0 = 0 then none else some (ws.getD 2 0 - 1),
    resetting := (u.part? (ws.getD 0 0)).any fun y => y.resetting }

/-- Whether another partition holds a core, an engine or a unit of a partition. -/
def partTaken (u : State) (x : Partition) : Bool :=
  u.parts.any fun y => !(y.part == x.part) && (y.cores.any x.cores.contains || y.engines.any x.engines.contains || y.units.any x.units.contains)

/-- What keeps a PARTDEF from setting its partition, whatever runs. -/
abbrev partdefBad (u : State) (ws : List Nat) : Prop :=
  16 ≤ ws.getD 0 0 ∨ 16 ≤ ws.getD 1 0 ∨ 512 ≤ ws.getD 3 0 ∨ (definedPartition u ws).cores.any (fun c => decide (8 ≤ c.1) || decide (96 ≤ c.2)) ∨
    (definedPartition u ws).cores.eraseDups.length ≠ (definedPartition u ws).cores.length ∨ partTaken u (definedPartition u ws)

/-- The state with the partition that a PARTDEF sets. -/
def withPartition (u : State) (ws : List Nat) : State :=
  State.modOut { u with parts := u.parts.filter (fun y => !(y.part == ws.getD 0 0)) ++ [definedPartition u ws] } fun o =>
    { o with device := ws.getD 3 0, ptpDomain := ws.getD 4 0 }

theorem partdef_answers (h : Taken .partdef s u sid tag ws) :
    exec .partdef s = answer sid tag (if partdefBad u ws then (u, stRefused)
      else if u.bands.any (fun b => (u.ctx? b.ctx).any fun c => c.part == ws.getD 0 0) then (u, stBusy) else (withPartition u ws, stOk)) :=
  (hostCommand_taken h _ : execPartdef s = _)

/-- A PARTDEF of no cores sets its partition where no other partition is defined. -/
theorem partdef_sets (h : Taken .partdef s u sid tag ws) (hp : ws.getD 0 0 < 16) (hr : ws.getD 1 0 < 16) (hd : ws.getD 3 0 < 512)
    (hs : ∀ x ∈ u.parts, x.part = ws.getD 0 0) (hb : u.bands = []) (hn : ws.getD 6 0 = 0) :
    exec .partdef s = answer sid tag (withPartition u ws, stOk) ∧ (definedPartition u ws).cores = [] ∧
      (withPartition u ws).parts = [definedPartition u ws] := by
  have hc : (definedPartition u ws).cores = [] := by simp only [definedPartition, hn, List.take_zero, List.map_nil]
  have hparts : u.parts.filter (fun y => !(y.part == ws.getD 0 0)) = [] := List.filter_eq_nil_iff.mpr fun x hx => by simp [hs x hx]
  have htaken : partTaken u (definedPartition u ws) = false := List.any_eq_false.mpr fun x hx => by simp [definedPartition, hs x hx]
  have hok : ¬ partdefBad u ws := by
    simp only [partdefBad, hc, htaken, List.any_nil, List.eraseDups_nil, Bool.false_eq_true, ne_eq, not_true_eq_false, or_false, not_or]
    omega
  refine ⟨?_, hc, ?_⟩
  · rw [partdef_answers h, if_neg hok, hb]
    rfl
  · exact congrArg (· ++ [definedPartition u ws]) hparts

end Commands

/-! ## The commands together -/

/-- Settles O52: each command's answer, in each of the cases that its frame's words and the state decide. -/
theorem hostCommandsRun : Obligations.HostCommandsRun := by
  intro s u sid tag ws hs
  dsimp only
  refine ⟨fun h => (qbind_answers h).1, fun h => (qbind_answers h).2.1, fun h => (qbind_answers h).2.2, fun q xs c hc hq hp hd hu => ?bindQueue,
    fun x h hf hx => ?submit, fun v l h hc hp hd hl => ?hostLaunch, hostLaunch_refused, fun h h0 hb => ?ctxnewRefused,
    fun h h0 hp h3 h6 h14 hl ha => ?ctxnew, fun hf => ⟨fun hc => ?noContext, fun hc => ?context⟩, keyload_fills,
    fun h hn hb => ?keyBound, keydestroy_empties, fun hn => ?noSlot, fun h hp hr hd hx hb hn => ?partdef, fun h hb => ?partdefRefused⟩
  case bindQueue =>
    obtain ⟨hst, hb⟩ := bindQueue_binds hc hq hp hd hu
    exact ⟨hst, _, hb, rfl, rfl, rfl, rfl⟩
  case submit =>
    rw [submit_answers h hf hx]
    refine ⟨fun hb => by rw [if_pos hb], fun h1 h2 h3 h4 => ?_⟩
    rw [if_neg (by simp only [h1, false_or]; omega)]
    exact ⟨fun hw => by rw [if_pos hw], fun hw => by rw [if_neg (by omega)]⟩
  case hostLaunch =>
    rw [hostLaunch_answers h hc hp hd hl]
    exact ⟨fun hg => by rw [if_pos hg], fun hg => by rw [if_neg (Bool.eq_false_iff.mp hg)]⟩
  case ctxnewRefused => rw [ctxnew_answers h, if_pos (.inr (.inr (.inr (.inl ⟨h0, hb⟩))))]
  case ctxnew =>
    rw [ctxnew_answers h, if_neg (not_ctxnewBad h0 hp h3 h6 h14 hl ha)]
    exact ⟨fun hc => by rw [if_pos hc], fun hc => ⟨withContext u ws, by rw [if_neg (by rw [hc]; exact Bool.false_ne_true)], rfl, rfl, rfl⟩⟩
  case noContext =>
    have hn := Option.isNone_iff_eq_none.mpr hc
    refine ⟨fun h => ?_, fun h => ?_, fun h => ?_⟩
    · rw [ctxend_answers h hf, if_pos hn]
    · rw [suspend_answers h hf, if_pos (.inl hn)]
    · rw [resume_answers h hs hf, if_pos hn]
  case context =>
    have hn := Bool.eq_false_iff.mp (Option.isNone_eq_false_iff.mpr hc)
    refine ⟨fun h hb => ?_, fun h hb => ⟨?_, dropCtx_ctx? u _⟩, fun r h hr hd => suspend_holds h hf hc hr hd, fun h hb => ?_, fun h hb => ?_⟩
    · rw [ctxend_answers h hf, if_neg hn, if_pos hb]
    · rw [ctxend_answers h hf, if_neg hn, if_neg (Bool.eq_false_iff.mp hb)]
    · rw [resume_answers h hs hf, if_neg hn, if_pos ((any_saving_iff u _).mpr hb)]
    · have hb' : ¬ ∃ b ∈ u.bands, b.ctx = ws.getD 0 0 ∧ b.st = .saving := fun ⟨b, hm, hx, hst⟩ => hb b hm hx hst
      rw [resume_answers h hs hf, if_neg hn, if_neg (mt (any_saving_iff u _).mp hb')]
      rfl
  case keyBound => rw [keyload_answers h, if_neg (by omega), if_pos hb]
  case noSlot => exact ⟨fun h => by rw [keyload_answers h, if_pos hn], fun h => by rw [keydestroy_answers h, if_pos hn]⟩
  case partdef =>
    obtain ⟨ht, hcores, hparts⟩ := partdef_sets h hp hr hd hx hb hn
    exact ⟨_, _, ht, hparts, rfl, rfl, hcores, rfl, rfl, rfl, rfl⟩
  case partdefRefused => rw [partdef_answers h, if_pos (by omega)]

end Sys2Proof
end

section
/-!
PROOFS. CHAIN_ISSUE (O25): what the event does is settled by whether its quadrant may choose, whom it chooses, and what stands at the issue address of
the group chosen.
-/
namespace Sys2Proof
open Machine

/-- A group's standing at its issue leaves its registers and its outstanding results as they were. -/
theorem issuedBy_group? (s : State) (g : Group) (h : Nat) :
    ((s.issuedBy g).group? h).map (fun x => (x.lanes, x.s, x.gst, x.outs)) = (s.group? h).map fun x => (x.lanes, x.s, x.gst, x.outs) := by
  have key : ∀ f : Group → Group, (∀ x, f x = { x with sched := (f x).sched }) →
      ((s.modGroup g.gid f).group? h).map (fun x => (x.lanes, x.s, x.gst, x.outs)) = (s.group? h).map fun x => (x.lanes, x.s, x.gst, x.outs) := by
    intro f hf
    rw [group?_modGroup s g.gid h f fun x => by rw [hf], Option.map_map]
    refine congrArg (Option.map · _) (funext fun x => ?_)
    simp only [Function.comp]
    split
    · rw [hf]
    · rfl
  unfold State.issuedBy
  split <;> exact key _ fun _ => rfl

theorem issuedBy_memory (s : State) (g : Group) : SameMemory s (s.issuedBy g) := by
  unfold State.issuedBy
  split <;> exact ⟨rfl, rfl⟩

/-- A quadrant that may not choose, or that no group is eligible on, is left as it is (R317). -/
theorem chainIssue_idle {s : State}
    (h : s.mayChoose s.ev.die s.ev.core s.ev.quad = false ∨ s.choose s.ev.die s.ev.core s.ev.quad = none) : exec .chainIssue s = .next s := by
  dsimp only [exec, execChainIssue]
  rcases h with h | h
  · rw [h]
    rfl
  · rw [h]
    split <;> rfl

/-- A quadrant that has issued in this cycle may not choose. -/
theorem mayChoose_issued {s : State} {die core quad : Nat} (h : s.issued.contains (die, core, quad) = true) : s.mayChoose die core quad = false := by
  simp only [State.mayChoose, h, Bool.not_true, Bool.false_and]

/-- The state in which the event's quadrant issues a group: it and the group count as having issued, and the groups that stood eligible are kept. -/
def issuing (s : State) (g : Group) : State :=
  let q := (s.ev.die, s.ev.core, s.ev.quad)
  { s.issuedBy g with
    issued := q :: s.issued, issuers := g.gid :: s.issuers,
    waited := s.waited ++ ((s.quadOrder s.ev.die s.ev.core s.ev.quad).filter fun g => s.eligible g).map fun g => (q, g.gid) }

/-- The latch of a group at an address, before a chain stands in it. -/
def latchAt (g : Group) (a : Nat) : Issue :=
  { gid := g.gid, mask := g.activeAt (BitVec.ofNat 32 a), addr := BitVec.ofNat 32 a, pc := BitVec.ofNat 32 a, npc := BitVec.ofNat 32 a,
    w0 := 0, w1 := 0, cause := g.cause, moved := true, members := [] }

section Chosen
variable {s : State} {g : Group} {a : Nat} (hm : s.mayChoose s.ev.die s.ev.core s.ev.quad = true)
  (hc : s.choose s.ev.die s.ev.core s.ev.quad = some g)
include hm hc

/-- The chain of the group chosen is put into the latch (R62). -/
theorem chainIssue_chain {ms : List (W32 × W32 × W32 × W32)} (hn : s.nextChain g = some (a, .ok ms)) :
    exec .chainIssue s = .next { issuing s g with cur := some { latchAt g a with moved := false, members := ms } } := by
  dsimp only [exec, execChainIssue]
  simp only [hm, hc, hn, Bool.not_true, Bool.false_eq_true, if_false]
  rfl

/-- A fetch that faults raises the fault (R58 to R60). -/
theorem chainIssue_fault {f : Byte} (hn : s.nextChain g = some (a, .error f)) :
    exec .chainIssue s = .next (({ issuing s g with cur := some (latchAt g a) } : State).takeTrap (latchAt g a) g f 0 0) := by
  dsimp only [exec, execChainIssue]
  simp only [hm, hc, hn, Bool.not_true, Bool.false_eq_true, if_false]
  rfl

end Chosen

/-- Settles O25, by the cases of the event: the quadrant may not choose, it chooses no group, or it chooses one at whose issue address a chain or a
fault of its fetch stands. -/
theorem chainIssueFillsLatch : Obligations.ChainIssueFillsLatch := by
  intro s
  refine ⟨chainIssue_idle, mayChoose_issued, fun g a hm hc => ⟨fun ms hn => ?chain, fun f hn => ?fault⟩⟩
  case chain =>
    exact ⟨_, _, chainIssue_chain hm hc hn, rfl, rfl, rfl, rfl, rfl, rfl, rfl, rfl, issuedBy_memory s g, issuedBy_group? s g g.gid⟩
  case fault => exact ⟨_, _, chainIssue_fault hm hc hn, rfl, rfl, issuedBy_memory s g⟩

end Sys2Proof
end

section
/-!
PROOFS. Lanes of a group and records of the pool: what a lane reads after lanes have changed, and what new records leave as it was.
-/
namespace Sys2Proof
open Machine

/-! ## Lanes -/

theorem mem_lanesOf {m : BitVec 32} {l : Nat} : l ∈ lanesOf m ↔ l < 32 ∧ m.getLsbD l = true := by
  simp [lanesOf, laneNos]

theorem nodup_lanesOf (m : BitVec 32) : (lanesOf m).Nodup := List.nodup_range.filter _

@[simp] theorem modLane_lanes (g : Group) (k : Nat) (f : Lane → Lane) : (g.modLane k f).lanes = g.lanes.modify k f := rfl

theorem length_modLane (g : Group) (k : Nat) (f : Lane → Lane) : (g.modLane k f).lanes.length = g.lanes.length := List.length_modify ..

/-- A change of a lane that the group has is read back from it. -/
theorem lane_modLane_self {g : Group} {k : Nat} (f : Lane → Lane) (hk : k < g.lanes.length) : (g.modLane k f).lane k = f (g.lane k) := by
  simp [Group.lane, List.getD_eq_getElem?_getD, hk]

theorem lane_modLane_ne {g : Group} {k l : Nat} (f : Lane → Lane) (h : l ≠ k) : (g.modLane k f).lane l = g.lane l := by
  simp [Group.lane, List.getD_eq_getElem?_getD, h.symm]

/-- Lanes changed one after another, each at most once. -/
theorem lane_foldl_modLane (f : Nat → Lane → Lane) (l : Nat) : ∀ (ls : List Nat) (g : Group), ls.Nodup → l < g.lanes.length →
    (ls.foldl (fun g k => g.modLane k (f k)) g).lane l = if l ∈ ls then f l (g.lane l) else g.lane l
  | [], g, _, _ => by simp
  | k :: ls, g, hn, hl => by
    obtain ⟨hk, hn⟩ := List.nodup_cons.mp hn
    rw [List.foldl_cons, lane_foldl_modLane f l ls _ hn (by rwa [length_modLane])]
    by_cases h : l = k
    · subst h
      simp [hk, lane_modLane_self _ hl]
    · simp [h, lane_modLane_ne _ h]

/-- Lanes changed one after another leave everything of the group but its lanes. -/
theorem foldl_modLane_eq (f : Nat → Lane → Lane) : ∀ (ls : List Nat) (g : Group),
    ls.foldl (fun g k => g.modLane k (f k)) g = { g with lanes := (ls.foldl (fun g k => g.modLane k (f k)) g).lanes }
  | [], _ => rfl
  | k :: ls, g => foldl_modLane_eq f ls (g.modLane k (f k))

theorem length_foldl_modLane (f : Nat → Lane → Lane) : ∀ (ls : List Nat) (g : Group),
    (ls.foldl (fun g k => g.modLane k (f k)) g).lanes.length = g.lanes.length
  | [], _ => rfl
  | k :: ls, g => (length_foldl_modLane f ls _).trans (length_modLane g k _)

/-- Lanes that get none of the results outstanding read as before. -/
@[simp] theorem dropLanes_lane (g : Group) (m : BitVec 32) (l : Nat) : (g.dropLanes m).lane l = g.lane l := rfl

/-! ## Records -/

/-- Records that join the pool one after another, each made of the state as it then stands, come behind those of the pool in order, and change
nothing else but the next free name. -/
theorem foldl_newRecord (f : State → Nat → PoolRec) : ∀ (ls : List Nat) (s : State), ∃ (rs : List PoolRec) (n : Nat),
    ls.foldl (fun s l => s.newRecord (f s l)) s = { s with pool := s.pool ++ rs, nextId := n } ∧ rs.length = ls.length ∧
    ∀ (i : Nat) (r : PoolRec), rs[i]? = some r → ∃ l u k, ls[i]? = some l ∧ r = { f u l with rid := k, place := .waiting, saved := false }
  | [], s => ⟨[], s.nextId, by simp, rfl, by simp⟩
  | l :: ls, s => by
    obtain ⟨rs, n, he, hl, hr⟩ := foldl_newRecord f ls (s.newRecord (f s l))
    refine ⟨{ f s l with rid := s.nextId, place := .waiting, saved := false } :: rs, n, ?_, by simp [hl], fun i r h => ?_⟩
    · rw [List.foldl_cons, he]
      simp [State.newRecord]
    · cases i with
      | zero => exact ⟨l, s, s.nextId, rfl, (Option.some.inj h).symm⟩
      | succ i => exact hr i r h

end Sys2Proof
end

section
/-!
PROOFS. BRJ (O18): the branch of a transfer, and the ejection of R42.
-/
namespace Sys2Proof
open Machine

/-- A group whose lanes `ls` a BRJ has ejected with join counter `j`, those of the latch's other lanes having gone on (R42). -/
def ejected (c : Issue) (ls : List Nat) (j : Nat) (g : Group) : Group :=
  let g1 := (lanesOf c.mask).foldl (fun g l => if ls.contains l then g else g.modLane l fun x => { x with pc := c.npc })
    (ls.foldl (fun g l => g.modLane l fun x => { x with pc := c.pc, st := .ejected }) g)
  { (g1.dropLanes (maskOf fun l => ls.contains l)) with jc := g1.jc.set j (g1.jc.getD j 0 + ls.length) }

/-- The lanes that an ejection passes over are changed by nothing. -/
theorem foldl_skip (p : Nat → Bool) (f : Lane → Lane) : ∀ (ls : List Nat) (g : Group),
    ls.foldl (fun g l => if p l then g else g.modLane l f) g = ls.foldl (fun g l => g.modLane l fun x => if p l then x else f x) g
  | [], _ => rfl
  | l :: ls, g => by
    have h : (if p l then g else g.modLane l f) = g.modLane l fun x => if p l then x else f x := by
      cases p l with
      | false => rfl
      | true => exact congrArg (fun ls => { g with lanes := ls }) (List.modify_id l g.lanes).symm
    simp only [List.foldl_cons, h, foldl_skip p f ls]

section Ejected
variable {c : Issue} {ls : List Nat} {j : Nat} {g : Group}

theorem ejected_gid : (ejected c ls j g).gid = g.gid := by
  simp only [ejected, foldl_skip, Group.dropLanes, foldl_modLane_gid (fun _ _ => _)]

theorem ejected_jc : (ejected c ls j g).jc = g.jc.set j (g.jc.getD j 0 + ls.length) := by
  simp only [ejected, foldl_skip]
  rw [foldl_modLane_eq, foldl_modLane_eq (fun _ x => { x with pc := c.pc, st := .ejected })]

/-- What a lane reads after the ejection. -/
theorem ejected_lane (hn : ls.Nodup) {l : Nat} (hl : l < g.lanes.length) : (ejected c ls j g).lane l =
    if l ∈ ls then { g.lane l with pc := c.pc, st := .ejected } else if l ∈ lanesOf c.mask then { g.lane l with pc := c.npc } else g.lane l := by
  have hout : ((ls.foldl (fun g l => g.modLane l fun x => { x with pc := c.pc, st := .ejected }) g)).lane l =
      if l ∈ ls then { g.lane l with pc := c.pc, st := .ejected } else g.lane l :=
    lane_foldl_modLane (fun _ x => { x with pc := c.pc, st := .ejected }) l ls g hn hl
  change Group.lane (List.foldl _ _ (lanesOf c.mask)) l = _
  rw [foldl_skip, lane_foldl_modLane (fun k x => if ls.contains k then x else { x with pc := c.npc }) l _ _ (nodup_lanesOf _)
    (by rwa [length_foldl_modLane fun _ x => { x with pc := c.pc, st := .ejected }]), hout]
  by_cases h : l ∈ ls <;> simp [h]

end Ejected

/-- A BRJ whose transfer is aligned ejects the lanes that take it where R42 allows, and branches otherwise (R174). -/
theorem brj_answers {s : State} {c : Issue} {g : Group} {k : BitVec 4} {j : BitVec 2} {o : BitVec 15} (h : Ready (.brj k j o) s c g)
    (ha : taken c g k ≠ [] → (target c o).toNat % 4 ≠ 3) :
    exec (.brj k j o) s = .next (if s.ejects g (taken c g k) then s.eject c g (taken c g k) (target c o) j.toNat
      else s.branch c g k (target c o)) := by
  refine issueAlign_ready h _ ?_ _
  cases ht : taken c g k with
  | nil => rfl
  | cons x xs => simp [badPc, ha (by simp [ht])]

/-- The branch of a BRJ sends the lanes that take it to the target. -/
theorem branch_eq (s : State) (c : Issue) (g : Group) (k : BitVec 4) (t : W32) :
    s.branch c g k t = s.transfer c fun l => if l ∈ taken c g k then t else c.npc := by
  unfold State.branch State.transfer
  congr 2
  funext x
  refine List.foldl_ext _ _ _ fun y l hl => ?_
  simp [taken, hl]

/-- What an ejection leaves: its group ejected, and a record for each of the lanes at the end of the pool. -/
theorem eject_eq (s : State) (c : Issue) (g : Group) (ls : List Nat) (t : W32) (j : Nat) : ∃ (rs : List PoolRec) (n : Nat),
    s.eject c g ls t j = ({ s.modGroup c.gid (ejected c ls j) with pool := s.pool ++ rs, nextId := n } : State).stay ∧ rs.length = ls.length ∧
    ∀ (i : Nat) (r : PoolRec), rs[i]? = some r → ∃ l, ls[i]? = some l ∧ r.die = g.die ∧ r.core = g.core ∧ r.band = g.band ∧ r.pc = t ∧
      r.v = (g.lane l).v ∧ r.p = (g.lane l).p ∧ r.origin = .cont c.gid l j ∧ r.place = .waiting := by
  obtain ⟨rs, n, he, hl, hr⟩ := foldl_newRecord (fun s l => s.recordOf g l t (g.lane l).v (g.lane l).p (.cont c.gid l j)) ls
    (s.modGroup c.gid (ejected c ls j))
  refine ⟨rs, n, congrArg State.stay he, hl, fun i r h => ?_⟩
  obtain ⟨l, u, m, hli, rfl⟩ := hr i r h
  exact ⟨l, hli, rfl, rfl, rfl, rfl, rfl, rfl, rfl, rfl⟩

/-- Settles O18: BRJ ejects or branches as R42 decides, and the ejected group reads lane by lane. -/
theorem brjEjectsOrBranches : Obligations.BrjEjectsOrBranches := by
  intro s c g k j o h ls goal ha
  have hx := brj_answers h ha
  have hn : ls.Nodup := (nodup_lanesOf _).filter _
  have hm : ∀ l ∈ ls, l ∈ lanesOf c.mask := fun l hl => (List.mem_filter.mp hl).1
  refine ⟨fun he => ?branches, fun he hl hj => ?ejects⟩
  case branches => exact hx.trans (congrArg _ ((if_neg (Bool.eq_false_iff.mp he)).trans (branch_eq s c g k goal)))
  case ejects =>
    obtain ⟨rs, n, ht, hrs⟩ := eject_eq s c g ls goal j.toNat
    have hg : (s.modGroup c.gid (ejected c ls j.toNat)).group? c.gid = some (ejected c ls j.toNat g) := by
      rw [group?_modGroup_same _ _ _ fun _ => ejected_gid, h.1.2]
      rfl
    refine ⟨_, ejected c ls j.toNat g, hx.trans (congrArg _ ((if_pos he).trans ht)), hg, fun l hl32 => ?st, fun l hl32 hnot hmask => ?goesOn,
      fun m hm4 => ?counter, fun l hin => ?ejectedPc, ⟨rs, rfl, hrs⟩, rfl, rfl⟩
    case st =>
      rw [ejected_lane hn (by omega)]
      split
      · rfl
      · split <;> rfl
    case goesOn => rw [ejected_lane hn (by omega), if_neg hnot, if_pos (mem_lanesOf.mpr ⟨hl32, hmask⟩)]
    case counter =>
      have hj4 := j.isLt
      by_cases hmj : m = j.toNat
      · subst hmj
        simp [ejected_jc, List.getD_eq_getElem?_getD, hj, hm4]
      · simp [ejected_jc, List.getD_eq_getElem?_getD, hmj, Ne.symm hmj]
    case ejectedPc => rw [ejected_lane hn (by have := (mem_lanesOf.mp (hm l hin)).1; omega), if_pos hin]

end Sys2Proof
end

section
/-!
PROOFS. JOIN, EXIT and retirement (O19): what each does to the lane's own group and to its home.
-/
namespace Sys2Proof
open Machine

/-! ## Waking and paying (R46) -/

theorem wake_lane (g : Group) (n m : Nat) : (g.wake n).lane m =
    if (g.lane m).st = .joinwait ∧ (g.lane m).jsel.toNat = n then { g.lane m with st := .active } else g.lane m := by
  simp only [Group.wake, Group.lane, mapIf, List.getD_eq_getElem?_getD, List.getElem?_map]
  cases g.lanes[m]? with
  | none => simp [Lane.empty]
  | some x => by_cases h : x.st = .joinwait <;> by_cases hj : x.jsel.toNat = n <;> simp [h, hj]

/-- A payment leaves the lanes that do not wait for its counter, and at 0 wakes those that do. -/
theorem payJoin_lane (g : Group) (n m : Nat) : (g.payJoin n).lane m =
    if g.jc.getD n 0 ≤ 1 ∧ (g.lane m).st = .joinwait ∧ (g.lane m).jsel.toNat = n then { g.lane m with st := .active } else g.lane m := by
  unfold Group.payJoin
  by_cases h : g.jc.getD n 0 ≤ 1
  · rw [if_pos (by omega), wake_lane]
    simp only [h, true_and]
    rfl
  · rw [if_neg (by omega), if_neg fun hc => h hc.1]
    rfl

theorem payJoin_eq (g : Group) (n : Nat) : g.payJoin n = { g with jc := g.jc.set n (g.jc.getD n 0 - 1), lanes := (g.payJoin n).lanes } := by
  unfold Group.payJoin
  by_cases h : g.jc.getD n 0 - 1 = 0
  · simp only [if_pos h]
    rfl
  · simp only [if_neg h]

theorem payJoin_jc {g : Group} {n : Nat} (hn : n < g.jc.length) : (g.payJoin n).jc.getD n 0 = g.jc.getD n 0 - 1 := by
  rw [payJoin_eq]
  simp [List.getD_eq_getElem?_getD, hn]

@[simp] theorem payJoin_gid (g : Group) (n : Nat) : (g.payJoin n).gid = g.gid := by rw [payJoin_eq]

@[simp] theorem homeJoin_gid (g : Group) (k : Nat) (v : List W32) (p : BitVec 8) (pc : W32) (n : Nat) : (g.homeJoin k v p pc n).gid = g.gid :=
  payJoin_gid _ n

@[simp] theorem homeExit_gid (g : Group) (k j : Nat) : (g.homeExit k j).gid = g.gid := payJoin_gid _ j

/-- A home lane to which its continuation has returned: it holds what the continuation brought, and has woken if the counter is paid off (R46). -/
theorem homeJoin_lane {g : Group} {k n : Nat} (v : List W32) (p : BitVec 8) (pc : W32) (hk : k < g.lanes.length) (hn : n < 4) :
    (g.homeJoin k v p pc n).lane k = { g.lane k with
      v := v, p := p, pc := pc, jsel := BitVec.ofNat 2 n, st := if g.jc.getD n 0 ≤ 1 then .active else .joinwait } := by
  have hj : (BitVec.ofNat 2 n).toNat = n := by simp only [BitVec.toNat_ofNat]; omega
  unfold Group.homeJoin
  rw [payJoin_lane, lane_modLane_self _ hk]
  simp only [Group.modLane, hj, and_true]
  split <;> rfl

/-- A home lane whose continuation has exited has exited (R177). -/
theorem homeExit_lane {g : Group} {k : Nat} (j : Nat) (hk : k < g.lanes.length) : ((g.homeExit k j).lane k).st = .exited := by
  unfold Group.homeExit
  rw [payJoin_lane, lane_modLane_self _ hk, if_neg (by simp)]

/-- The other home lanes have not exited for it. -/
theorem homeExit_other {g : Group} {k j m : Nat} (h : m ≠ k) (hm : (g.lane m).st ≠ .exited) : ((g.homeExit k j).lane m).st ≠ .exited := by
  unfold Group.homeExit
  rw [payJoin_lane, lane_modLane_ne _ h]
  split
  · simp
  · exact hm

theorem not_allExited {g : Group} {m : Nat} (hm : m < 32) (h : (g.lane m).st ≠ .exited) : g.allExited = false := by
  simp only [Group.allExited, laneNos, List.all_eq_false, List.mem_range]
  exact ⟨m, hm, by simpa using h⟩

/-! ## Retirement (R39) -/

/-- A group with a lane that has not exited does not retire. -/
theorem retire_running {s : State} {h : Group} (hs : s.group? h.gid = some h) (ha : h.allExited = false) : s.retire h.gid = s := by
  simp [State.retire, hs, ha]

/-- An empty atomic buffer has nothing to flush. -/
theorem flushReds_empty {s : State} {h : Group} (hs : s.group? h.gid = some h) (hr : h.reds = []) :
    s.flushReds h.gid h.reds.length = s.modGroup h.gid fun g => { g with reds := g.reds.drop 0 } := by
  simp [State.flushReds, State.applyReds, hs, hr]

theorem flushed_group? {s : State} {h : Group} (hs : s.group? h.gid = some h) (hr : h.reds = []) : (s.flushReds h.gid h.reds.length).group? h.gid = some h := by
  rw [flushReds_empty hs hr, group?_modGroup_same _ _ _ (by intro _; rfl), hs]
  rfl

section Retire
variable {s : State} {h : Group} (hs : s.group? h.gid = some h) (ha : h.allExited = true) (hr : h.reds = [])
include hs ha hr

/-- A group whose accesses are still to be performed stands (R234). -/
theorem retire_pending (hp : ∃ a ∈ s.mem.accs, a.gid = h.gid) : (s.retire h.gid).group? h.gid = some h := by
  have hf := flushed_group? hs hr
  have hany : ((s.flushReds h.gid h.reds.length).mem.accs.any fun a => a.gid == h.gid) = true := by
    rw [flushReds_empty hs hr]
    simpa using hp
  have : s.retire h.gid = s.flushReds h.gid h.reds.length := by
    simp only [State.retire, hs, ha, if_true, hf, hany, Bool.not_true, Bool.and_false, Bool.false_eq_true, if_false]
  rw [this, hf]

/-- One whose accesses have been performed is gone. -/
theorem retire_quiet (hp : ∀ a ∈ s.mem.accs, a.gid ≠ h.gid) : (s.retire h.gid).group? h.gid = none := by
  have hf := flushed_group? hs hr
  have hany : ((s.flushReds h.gid h.reds.length).mem.accs.any fun a => a.gid == h.gid) = false := by
    rw [flushReds_empty hs hr]
    simpa using hp
  have gone : ∀ l : List Group, (l.filter fun x => !(x.gid == h.gid)).find? (fun x => x.gid == h.gid) = none := by
    intro l
    simp [List.find?_eq_none]
  simp only [State.retire, hs, ha, if_true, hf, hany, Bool.not_false, Bool.and_self]
  cases h.helper with
  | none => exact gone _
  | some e => exact gone _

end Retire

/-! ## One lane's JOIN and EXIT -/

/-- A group one of whose lanes has exited: the lane gets none of the results outstanding (R67). -/
def exitOf (l : Nat) (g : Group) : Group := (g.modLane l fun x => { x with st := .exited }).dropLanes (1#32 <<< l)

@[simp] theorem exitOf_gid (l : Nat) (g : Group) : (exitOf l g).gid = g.gid := rfl

theorem exitOf_lane {l : Nat} {g : Group} (hl : l < g.lanes.length) : (exitOf l g).lane l = { g.lane l with st := .exited } :=
  (dropLanes_lane _ _ _).trans (lane_modLane_self _ hl)

theorem exitOf_lane_ne {l m : Nat} (g : Group) (h : m ≠ l) : (exitOf l g).lane m = g.lane m :=
  (dropLanes_lane _ _ _).trans (lane_modLane_ne _ h)

section Lane
variable {s : State} {c : Issue} {g : Group} (hg : s.group? c.gid = some g)
include hg

/-- A change of the latch's group alone. -/
theorem group?_own (f : Group → Group) (hf : ∀ x, (f x).gid = x.gid) : (s.modGroup c.gid f).group? c.gid = some (f g) := by
  rw [group?_modGroup_same _ _ _ hf, hg]
  rfl

theorem joinLane_wait {n l : Nat} (ho : (g.lane l).origin = .home) (hj : g.jc.getD n 0 ≠ 0) : s.joinLane c n l =
    s.modGroup c.gid fun g => g.modLane l fun x => { x with pc := c.npc, st := .joinwait, jsel := BitVec.ofNat 2 n } := by
  simp only [State.joinLane, hg, ho, if_neg hj]

theorem joinLane_pass {n l : Nat} (ho : (g.lane l).origin = .home) (hj : g.jc.getD n 0 = 0) : s.joinLane c n l =
    s.modGroup c.gid fun g => (g.modLane l fun x => { x with pc := c.npc }).wake n := by
  simp only [State.joinLane, hg, ho, if_pos hj]

theorem joinLane_detached {n l : Nat} (ho : (g.lane l).origin = .detached) : s.joinLane c n l =
    s.modGroup c.gid fun g => g.modLane l fun x => { x with pc := c.npc } := by
  simp only [State.joinLane, hg, ho]

/-- A continuation's lane exits, and what it brings is sent to its home. -/
theorem joinLane_cont {n l h k j : Nat} (ho : (g.lane l).origin = .cont h k j) : s.joinLane c n l =
    ((s.addHandOff c.gid h).modGroup c.gid (exitOf l)).sendHome h
      (.join k (g.lane l).v (g.lane l).p c.npc n) := by
  simp only [State.joinLane, hg, ho]
  rfl

theorem exitLane_own {l : Nat} (ho : ∀ h k j, (g.lane l).origin ≠ .cont h k j) : s.exitLane c l =
    s.modGroup c.gid (exitOf l) := by
  cases he : (g.lane l).origin with
  | cont h k j => exact absurd he (ho h k j)
  | home => simp only [State.exitLane, hg, he]; rfl
  | detached => simp only [State.exitLane, hg, he]; rfl

theorem exitLane_cont {l h k j : Nat} (ho : (g.lane l).origin = .cont h k j) : s.exitLane c l =
    ((s.modGroup c.gid (exitOf l)).addHandOff c.gid h).sendHome h (.exit k j) := by
  simp only [State.exitLane, hg, ho]
  rfl

end Lane

theorem addHandOff_group?_ne (s : State) (src : Nat) {gid h : Nat} (hne : h ≠ gid) : (s.addHandOff src gid).group? h = s.group? h :=
  group?_modGroup_ne s _ (fun _ => rfl) hne

/-- A group that has been handed off to holds what it held but for its fences and what its later paths need (R227). -/
theorem addHandOff_group? {s : State} {gid : Nat} {hg : Group} (src : Nat) (h : s.group? gid = some hg) :
    ∃ fs ps, (s.addHandOff src gid).group? gid = some { hg with fences := fs, pathNeeds := ps } := by
  unfold State.addHandOff
  rw [group?_modGroup_same _ _ _ (by intro _; rfl), h]
  exact ⟨_, _, rfl⟩

section Home
variable {s : State} {h : Nat} {hg : Group} (hh : s.group? h = some hg) (hf : hg.holds = false)
include hh hf

/-- A return reaches a home that holds nothing back. -/
theorem sendHome_join (k : Nat) (v : List W32) (p : BitVec 8) (pc : W32) (n : Nat) :
    s.sendHome h (.join k v p pc n) = s.modGroup h fun g => g.homeJoin k v p pc n := by
  simp only [State.sendHome, hh, hf, Bool.false_eq_true, if_false]

/-- An exit reaches a home that holds nothing back, which stands while another of its lanes has not exited. -/
theorem sendHome_exit {k j m : Nat} (hm : m < 32) (hne : m ≠ k) (hx : (hg.lane m).st ≠ .exited) :
    s.sendHome h (.exit k j) = s.modGroup h fun g => g.homeExit k j := by
  have hgid : hg.gid = h := beq_iff_eq.mp (List.find?_some (p := fun g : Group => g.gid == h) hh)
  have hm' : (s.modGroup h fun g => g.homeExit k j).group? h = some (hg.homeExit k j) := by
    rw [group?_modGroup_same _ _ _ fun g => homeExit_gid g k j, hh]
    rfl
  simp only [State.sendHome, hh, hf, Bool.false_eq_true, if_false]
  have := retire_running (s := s.modGroup h fun g => g.homeExit k j) (h := hg.homeExit k j) (by rwa [homeExit_gid, hgid])
    (not_allExited hm (homeExit_other hne hx))
  rwa [homeExit_gid, hgid] at this

end Home

/-! ## The statement -/

section Statement
variable {s : State} {c : Issue} {g : Group} (hg : s.group? c.gid = some g) {l : Nat} (hl : l < g.lanes.length)
include hg hl

/-- A continuation that joins: its lane exits and its home lane takes what it brings (R46). -/
theorem joinLane_home {n h k j : Nat} {hg' : Group} (hn : n < 4) (ho : (g.lane l).origin = .cont h k j) (hne : h ≠ c.gid)
    (hh : s.group? h = some hg') (hf : hg'.holds = false) (hls : hg'.lanes.length = 32) (hjc : hg'.jc.length = 4) (hk : k < 32) :
    ∃ g' h', (s.joinLane c n l).group? c.gid = some g' ∧ (g'.lane l).st = .exited ∧ (s.joinLane c n l).group? h = some h' ∧
      h'.lane k = { hg'.lane k with
        v := (g.lane l).v, p := (g.lane l).p, pc := c.npc, jsel := BitVec.ofNat 2 n, st := if hg'.jc.getD n 0 ≤ 1 then .active else .joinwait } ∧
      h'.jc.getD n 0 = hg'.jc.getD n 0 - 1 := by
  obtain ⟨fs, ps, ha⟩ := addHandOff_group? c.gid hh
  have hown : (s.addHandOff c.gid h).group? c.gid = some g := (addHandOff_group?_ne s c.gid hne.symm).trans hg
  have hhome := (group?_modGroup_ne (s.addHandOff c.gid h) (exitOf l) (exitOf_gid l) hne).trans ha
  rw [joinLane_cont hg ho, sendHome_join hhome hf]
  have hjoin := fun x => homeJoin_gid x k (g.lane l).v (g.lane l).p c.npc n
  refine ⟨exitOf l g, Group.homeJoin { hg' with fences := fs, pathNeeds := ps } k (g.lane l).v (g.lane l).p c.npc n, ?own, ?st, ?home, ?lane, ?jc⟩
  case own => exact (group?_modGroup_ne _ _ hjoin hne.symm).trans (group?_own hown _ (exitOf_gid l))
  case st => rw [exitOf_lane hl]
  case home => rw [group?_modGroup_same _ _ _ hjoin, hhome]; rfl
  case lane => exact homeJoin_lane _ _ _ (hls.symm ▸ hk) hn
  case jc => exact payJoin_jc (hjc.symm ▸ hn)

/-- A continuation that exits: its lane exits and so does its home lane (R177). -/
theorem exitLane_home {h k j : Nat} {hg' : Group} (ho : (g.lane l).origin = .cont h k j) (hne : h ≠ c.gid)
    (hh : s.group? h = some hg') (hf : hg'.holds = false) (hls : hg'.lanes.length = 32) (hjc : hg'.jc.length = 4) (hj : j < 4) (hk : k < 32)
    (hm : ∃ m < 32, m ≠ k ∧ (hg'.lane m).st ≠ .exited) :
    ∃ g' h', (s.exitLane c l).group? c.gid = some g' ∧ (g'.lane l).st = .exited ∧ (s.exitLane c l).group? h = some h' ∧
      (h'.lane k).st = .exited ∧ h'.jc.getD j 0 = hg'.jc.getD j 0 - 1 := by
  obtain ⟨m, hm, hmk, hx⟩ := hm
  obtain ⟨fs, ps, ha⟩ := addHandOff_group? c.gid ((group?_modGroup_ne s (exitOf l) (exitOf_gid l) hne).trans hh)
  have hown := (addHandOff_group?_ne (s.modGroup c.gid (exitOf l)) c.gid hne.symm).trans (group?_own hg _ (exitOf_gid l))
  rw [exitLane_cont hg ho, sendHome_exit ha hf hm hmk hx]
  have hexit := fun x => homeExit_gid x k j
  refine ⟨exitOf l g, Group.homeExit { hg' with fences := fs, pathNeeds := ps } k j, ?own, ?st, ?home, ?lane, ?jc⟩
  case own => exact (group?_modGroup_ne _ _ hexit hne.symm).trans hown
  case st => rw [exitOf_lane hl]
  case home => rw [group?_modGroup_same _ _ _ hexit, ha]; rfl
  case lane => exact homeExit_lane j (hls.symm ▸ hk)
  case jc => exact payJoin_jc (hjc.symm ▸ hj)

end Statement

/-- Settles O19: JOIN and EXIT lane by lane, by what the lane's thread came from, and retirement. -/
theorem joinMeetsHome : Obligations.JoinMeetsHome := by
  refine ⟨fun s c g n h => ⟨issue_ready h _, issue_ready (i := .reconv) ⟨h.1, rfl⟩ _, fun l hl hls hjc => ?join⟩,
    fun s c g h => ⟨issue_ready h _, fun u x l hx hxl hl => ?exit⟩, fun s h hs => ⟨retire_running hs, fun ha hr hp => ?pending, retire_quiet hs⟩⟩
  case join =>
    have hg := h.1.2
    have hn : n.toNat < 4 := by have := of_decide_eq_true h.2; omega
    have hl' : l < g.lanes.length := by omega
    refine ⟨fun ho hj => ?wait, fun ho hj ha => ?pass, fun h' k j hg' ho hne hh hf hl2 hj2 hk => ?cont, fun ho => ?detached⟩
    case wait =>
      refine ⟨_, (congrArg (State.group? · c.gid) (joinLane_wait hg ho hj)).trans (group?_own hg _ (by intro _; rfl)), lane_modLane_self _ hl',
        fun m hm => lane_modLane_ne _ hm⟩
    case pass =>
      refine ⟨_, (congrArg (State.group? · c.gid) (joinLane_pass hg ho hj)).trans (group?_own hg _ (by intro _; rfl)), ?_, fun m hm32 hm => ?_⟩
      · rw [wake_lane, lane_modLane_self _ hl', if_neg (by simp [ha])]
      · rw [wake_lane, lane_modLane_ne _ hm]
        split <;> rfl
    case cont =>
      obtain ⟨g', h'', h1, h2, h3, h4, h5⟩ := joinLane_home hg hl' hn ho hne hh hf hl2 hj2 hk
      exact ⟨g', h'', h1, h2, h3, by rw [h4], by rw [h4], by rw [h4], h5, by rw [h4]⟩
    case detached =>
      exact ⟨_, (congrArg (State.group? · c.gid) (joinLane_detached hg ho)).trans (group?_own hg _ (by intro _; rfl)), lane_modLane_self _ hl'⟩
  case exit =>
    refine ⟨fun ho => ?own, fun h' k j hg' ho hne hh hf hl2 hj2 hj hk _ hm => exitLane_home hx (by omega) ho hne hh hf hl2 hj2 hj hk hm⟩
    case own =>
      refine ⟨_, (congrArg (State.group? · c.gid) (exitLane_own hx ho)).trans (group?_own hx _ (exitOf_gid l)), ?_,
        fun m hm => exitOf_lane_ne x hm⟩
      rw [exitOf_lane (by omega)]
  case pending => rw [retire_pending hs ha hr hp]; rfl

end Sys2Proof
end

section
/-!
PROOFS. SPAWN, SETEJT and the SYS minors (O20).
-/
namespace Sys2Proof
open Machine

/-- A status known at once is one outstanding result and nothing else (R65, R121). -/
theorem postUnit_gives {i : Instr} {s : State} {c : Issue} {g : Group} {ws : List RegWrite} (hg : s.group? c.gid = some g)
    (h : exec i s = .next (s.postUnit c g ws)) : GivesKind .unit i s c 1 ws [] :=
  ⟨c.outst g s .unit 1 false ws [] 0, h, rfl, rfl, outst_due hg _ _ _ _ _ _, rfl, rfl, rfl, rfl⟩

/-! ## SPAWN (R48, R178) -/

/-- The states that SPAWN leaves: a refusal, a lack of room, or a record for each lane behind an OK. -/
def spawned (s : State) (c : Issue) (g : Group) (x : Band) (d a b : BitVec 6) : State :=
  let status := fun n => s.postUnit c g (statusWrites c.mask d.toNat n)
  if !x.contEver then status stRefused
  else if !(s.poolHas g.die g.core (lanesOf c.mask).length) then status stNoslot
  else (lanesOf c.mask).foldl (fun s l =>
    s.newRecord (s.recordOf g l ((g.lane l).rv a.toNat) (prefixOf b.toNat (g.lane l).v) 0x80 .detached)) (status stOk)

theorem spawn_answers {s : State} {c : Issue} {g : Group} {x : Band} {d a b : BitVec 6} (h : Ready (.spawn d a b) s c g) (hx : s.band? g.band = some x)
    (ha : ∀ l < 32, c.mask.getLsbD l = true → ((g.lane l).rv a.toNat).toNat % 4 ≠ 3) : exec (.spawn d a b) s = .next (spawned s c g x d a b) := by
  have hb : (vOk (s.regsOf g) a && (lanesOf c.mask).any fun l => badPc ((g.lane l).rv a.toNat)) = false := by
    rw [Bool.and_eq_false_iff]
    refine .inr (List.any_eq_false.mpr fun l hl => ?_)
    obtain ⟨h32, hm⟩ := mem_lanesOf.mp hl
    simpa [badPc] using ha l h32 hm
  refine (issueAlign_ready h _ hb _).trans ?_
  simp only [hx, spawned]

/-! ## Changes of the issuing group alone -/

/-- The update of one group reads back there, leaves every other group, and all of memory. -/
theorem modGroup_only {s : State} {c : Issue} {g : Group} (hg : s.group? c.gid = some g) (f : Group → Group) (hf : ∀ x, (f x).gid = x.gid) :
    (s.modGroup c.gid f).group? c.gid = some (f g) ∧ SameMemory s (s.modGroup c.gid f) ∧
    ∀ h, h ≠ c.gid → (s.modGroup c.gid f).group? h = s.group? h :=
  ⟨group?_own hg f hf, ⟨rfl, rfl⟩, fun _ hne => group?_modGroup_ne s f hf hne⟩

section Sys
variable {s : State} {c : Issue} {g : Group} (h : Issues s c g)
include h

theorem setejt_answers {m : BitVec 6} (hw : (Instr.setejt m).wf (s.regsOf g) = true) :
    exec (.setejt m) s = .next (s.modGroup c.gid fun g => { g with ejt := m.toNat }) :=
  issue_ready ⟨h, hw⟩ _

theorem nop_answers : exec .nop s = .next s := issue_ready (i := .nop) ⟨h, rfl⟩ _

theorem halt_answers (hf : g.firmware = true) : exec .halt s = .next (s.modGroup c.gid fun g => { g with blocked := some .halt }) :=
  issuePriv_firmware (i := .halt) ⟨h, rfl⟩ hf _

/-- IDLE waits unless an event of its die stands in the firmware event queue (R387). -/
theorem idle_answers (hf : g.firmware = true) : exec .idle s =
    .next (if s.tab.fwq.any fun e => e.die == g.die then s else s.modGroup c.gid fun g => { g with blocked := some .idle }) :=
  issuePriv_firmware (i := .idle) ⟨h, rfl⟩ hf _

/-- FWCALL tells the firmware of the die, or raises ILLEGAL in firmware mode (R388). -/
theorem fwcall_answers (k : BitVec 18) : exec (.fwcall k) s = .next (if g.firmware then s.takeTrap c g fcIllegal 0 0
    else (s.fwEvent g.die fwKindCall [BitVec.ofNat 64 (s.ctxOf g), BitVec.ofNat 64 g.core, BitVec.ofNat 64 g.gslot,
      k.setWidth 64, g.rs 1, g.rs 2, g.rs 3, g.rs 4]).modGroup c.gid fun g => { g with blocked := some .fwcall }) :=
  issue_ready (i := .fwcall k) ⟨h, rfl⟩ _

end Sys

/-- A firmware event lets go on no group that does not wait in IDLE (R387). -/
theorem fwEvent_group? {s : State} {h : Nat} {g : Group} (die kind : Nat) (ws : List W64) (hg : s.group? h = some g) (hb : g.blocked ≠ some .idle) :
    (s.fwEvent die kind ws).group? h = some g := by
  refine (mapIf_find (fun g : Group => g.gid == h) _ _ _ (by intro _; rfl)).trans ?_
  rw [State.modTab_groups, show s.groups.find? (fun g => g.gid == h) = some g from hg]
  simp [hb]

/-- Settles O20, instruction by instruction. -/
theorem spawnAnswersStatus : Obligations.SpawnAnswersStatus := by
  refine ⟨fun s c g x d a b h hx ha => ?spawn, fun s c g m k h => ⟨fun hw => ⟨_, setejt_answers h hw, modGroup_only h.2 _ fun _ => rfl⟩,
    nop_answers h, fun hf => ⟨_, halt_answers h hf, modGroup_only h.2 _ fun _ => rfl⟩, fun hf hq => ?idleOn, fun hf hq => ?idleWaits,
    fun hf hb => ?fwcall, fun hf => ?fwcallFirmware, fun he => ?haltRestart⟩⟩
  case spawn =>
    have hs := spawn_answers h hx ha
    have hg := h.1.2
    refine ⟨fun hc => postUnit_gives hg (hs.trans ?refused), fun hc hp => postUnit_gives hg (hs.trans ?noslot), fun hc hp => ?ok⟩
    case refused => simp only [spawned, hc, Bool.not_false, if_true]
    case noslot => simp only [spawned, hc, hp, Bool.not_false, Bool.not_true, Bool.false_eq_true, if_true, if_false]
    case ok =>
      obtain ⟨rs, n, he, hl, -⟩ := foldl_newRecord (fun s l =>
        s.recordOf g l ((g.lane l).rv a.toNat) (prefixOf b.toNat (g.lane l).v) 0x80 .detached) (lanesOf c.mask)
        (s.postUnit c g (statusWrites c.mask d.toNat stOk))
      have hsp : spawned s c g x d a b = _ := (by
        simp only [spawned, hc, hp, Bool.not_true, Bool.false_eq_true, if_false] : _ = _).trans he
      rw [hsp] at hs
      have hout := addOut_group? s c.gid c.gid (c.outst g s .unit 1 false (statusWrites c.mask d.toNat stOk) [] 0)
      rw [hg, Option.map_some, if_pos rfl] at hout
      exact ⟨_, _, _, hs, hout, rfl, rfl, rfl, rfl, by simp [State.postUnit, hl], rfl, rfl⟩
  case idleOn =>
    rw [idle_answers h hf, if_pos (by simpa using hq)]
  case idleWaits =>
    rw [idle_answers h hf, if_neg (by simpa using hq)]
    exact ⟨_, rfl, modGroup_only h.2 _ fun _ => rfl⟩
  case fwcall =>
    rw [fwcall_answers h, if_neg (by simp [hf])]
    refine ⟨_, _, rfl, group?_own (fwEvent_group? _ _ _ h.2 hb) _ fun _ => rfl, rfl, rfl, rfl, rfl, rfl⟩
  case fwcallFirmware => rw [fwcall_answers h, if_pos hf]
  case haltRestart =>
    have hg := group?_own h.2 (fun x => if x.blocked == some .halt then { x with blocked := none } else x) fun x => by
      split <;> rfl
    refine ⟨_, _, congrArg (fun i => Host.Outcome.next (s.modGroup i _)) he, hg, ?_⟩
    by_cases hb : g.blocked = some .halt <;> simp [hb]

end Sys2Proof
end

section
/-!
PROOFS. Lists in the order of a key: what stands in them, and that the least stands first.
-/
namespace Sys2Proof
open Machine

theorem mem_insertBy {α : Type} (key : α → Nat) (x y : α) : ∀ l : List α, y ∈ insertBy key x l ↔ y = x ∨ y ∈ l
  | [] => by simp [insertBy]
  | z :: l => by
    unfold insertBy
    split
    · simp only [List.mem_cons, mem_insertBy key x y l]
      tauto
    · simp

theorem pairwise_insertBy {α : Type} (key : α → Nat) (x : α) : ∀ l : List α, l.Pairwise (fun a b => key a ≤ key b) →
    (insertBy key x l).Pairwise fun a b => key a ≤ key b
  | [], _ => List.pairwise_singleton _ _
  | z :: l, h => by
    obtain ⟨hz, hl⟩ := List.pairwise_cons.mp h
    unfold insertBy
    split
    next hle =>
      refine List.pairwise_cons.mpr ⟨fun y hy => ?_, pairwise_insertBy key x l hl⟩
      rcases (mem_insertBy key x y l).mp hy with rfl | hy
      · exact hle
      · exact hz y hy
    next hlt =>
      refine List.pairwise_cons.mpr ⟨fun y hy => ?_, h⟩
      rcases List.mem_cons.mp hy with rfl | hy
      · omega
      · have := hz y hy
        omega

theorem foldl_insertBy {α : Type} (key : α → Nat) : ∀ l r : List α, r.Pairwise (fun a b => key a ≤ key b) →
    (l.foldl (fun r x => insertBy key x r) r).Pairwise (fun a b => key a ≤ key b) ∧
    ∀ y, y ∈ l.foldl (fun r x => insertBy key x r) r ↔ y ∈ r ∨ y ∈ l
  | [], _, hr => ⟨hr, by simp⟩
  | x :: l, r, hr => by
    obtain ⟨hp, hm⟩ := foldl_insertBy key l _ (pairwise_insertBy key x r hr)
    refine ⟨hp, fun y => (hm y).trans ?_⟩
    rw [mem_insertBy, List.mem_cons]
    tauto

@[simp] theorem mem_sortBy {α : Type} {key : α → Nat} {l : List α} {y : α} : y ∈ sortBy key l ↔ y ∈ l := by
  simpa [sortBy] using (foldl_insertBy key l [] List.Pairwise.nil).2 y

/-- The first of a list in the order of a key stands in the list, and none there has a lower key. -/
theorem head?_sortBy {α : Type} {key : α → Nat} {l : List α} {x : α} (h : (sortBy key l).head? = some x) : x ∈ l ∧ ∀ y ∈ l, key x ≤ key y := by
  obtain ⟨r, hr⟩ := List.head?_eq_some_iff.mp h
  have hp := (foldl_insertBy key l [] List.Pairwise.nil).1
  change (sortBy key l).Pairwise _ at hp
  refine ⟨mem_sortBy.mp (List.mem_of_mem_head? h), fun y hy => ?_⟩
  rw [hr] at hp
  have hy' := mem_sortBy (key := key).mpr hy
  rw [hr, List.mem_cons] at hy'
  rcases hy' with rfl | hy'
  · exact le_refl _
  · exact (List.pairwise_cons.mp hp).1 y hy'

theorem exists_head?_sortBy {α : Type} {key : α → Nat} {l : List α} {x : α} (h : x ∈ l) : ∃ y, (sortBy key l).head? = some y := by
  cases hs : sortBy key l with
  | nil => exact absurd (mem_sortBy (key := key).mpr h) (by simp [hs])
  | cons y r => exact ⟨y, rfl⟩

end Sys2Proof
end

section
/-!
PROOFS. Records in bins, groups and the helper unit (O29).
-/
namespace Sys2Proof
open Machine

/-! ## Bins -/

/-- A record that enters a bin: its place in the pool, and a change of the bins (R43). -/
theorem binPut_eq (s : State) (die core band b rid : Nat) : ∃ bs, s.binPut die core band b rid =
    { s with pool := s.pool.map (fun x => if x.rid == rid then { x with place := .bin b } else x), bins := bs } := by
  unfold State.binPut
  split <;> exact ⟨_, rfl⟩

/-- A bin that is found stands under the keys it was looked for. -/
theorem binAt_keys {s : State} {die core b : Nat} {x : Bin} (h : s.binAt die core b = some x) : x.die = die ∧ x.core = core ∧ x.bin = b := by
  have := List.find?_some h
  simpa [and_assoc] using this

/-- A bin that has been cleared is found no more. -/
theorem binClear_binAt (s : State) (x : Bin) : (s.binClear x).binAt x.die x.core x.bin = none := by
  simp only [State.binAt, State.binClear, List.find?_eq_none, List.mem_filter]
  rintro y ⟨-, hy⟩
  simpa only [Bool.not_eq_true', Bool.not_eq_true] using hy

/-- The slot that a firing bin takes is free, and the lowest of those of the quadrant freed first (R37). -/
theorem contSlot_first {b : Band} {q : Nat × Nat × Nat} {rest : List (Nat × Nat × Nat)} (h : b.freeCont = q :: rest) :
    ∃ f, b.contSlot = some f ∧ f ∈ b.freeCont ∧ f.1 = q.1 ∧ ∀ y ∈ b.freeCont, y.1 = f.1 → f.2.1 ≤ y.2.1 := by
  have hq : q ∈ b.freeCont.filter fun x => x.1 == q.1 := by simp [h]
  obtain ⟨f, hf⟩ := exists_head?_sortBy (key := fun x => x.2.1) hq
  obtain ⟨hm, hmin⟩ := head?_sortBy hf
  obtain ⟨hmem, hquad⟩ := List.mem_filter.mp hm
  have hquad := beq_iff_eq.mp hquad
  refine ⟨f, ?_, hmem, hquad, fun y hy hyq => hmin y (List.mem_filter.mpr ⟨hy, by simp [hyq, hquad]⟩)⟩
  rw [Band.contSlot]
  simp only [h] at hf ⊢
  exact hf

/-- A bin of a resident band with a free slot fires as a group (R44). -/
theorem binFire_fires {s : State} {x : Bin} {b : Band} {f : Nat × Nat × Nat} (hb : s.band? x.band = some b) (hst : b.st = .resident)
    (hf : b.contSlot = some f) : s.binFire x =
      (((s.addRecGroup (s.recGroup b (s.binRecs x) f.1 f.2.1 f.2.2 none) x.recs).binClear x).modBand b.bid fun b =>
        { b with freeCont := b.freeCont.erase f }) := by
  simp only [State.binFire, hb, hst, hf]

/-- The records of a group added leave the pool. -/
theorem addRecGroup_pool {s : State} {g : Group} {rids : List Nat} {r : PoolRec} (h : r ∈ (s.addRecGroup g rids).pool) : r.rid ∉ rids := by
  simpa using (List.mem_filter.mp h).2

/-- A group of one record runs it in lane 0; its other lanes have exited (R45). -/
theorem recGroup_single (s : State) (b : Band) (r : PoolRec) (quad slot frame : Nat) (e : Option Nat) :
    (s.recGroup b [r] quad slot frame e).lane 0 = r.lane ∧
    ∀ l < 32, l ≠ 0 → ((s.recGroup b [r] quad slot frame e).lane l).st = .exited := by
  refine ⟨rfl, fun l hl h0 => ?_⟩
  obtain ⟨l, rfl⟩ := Nat.exists_eq_succ_of_ne_zero h0
  simp only [State.recGroup, Group.lane, List.map_cons, List.map_nil, List.singleton_append, List.getD_cons_succ, List.length_singleton]
  rw [List.getD_eq_getElem?_getD, List.getElem?_replicate, if_pos (by omega)]
  rfl

/-- BIN_FIRE on a full bin that no bin of lower index fires before (R44). -/
theorem binFire_answers {s : State} {x : Bin} {b : Band} {f : Nat × Nat × Nat} (hx : s.binAt s.ev.die s.ev.core s.ev.sub = some x)
    (hfull : x.full = true) (ha : s.binAfter x = false) (hb : s.band? x.band = some b) (hst : b.st = .resident) (hf : b.contSlot = some f) :
    exec .binFire s = .next (((s.addRecGroup (s.recGroup b (s.binRecs x) f.1 f.2.1 f.2.2 none) x.recs).binClear x).modBand b.bid fun b =>
      { b with freeCont := b.freeCont.erase f }) := by
  change execBinFire s = _
  simp only [execBinFire, hx, hfull, ha, Bool.not_false, Bool.and_self, if_true, binFire_fires hb hst hf]

/-- HELPER_START with no resumed entry waiting starts its oldest queued record in its lowest free entry, with the frame of that entry (R45). -/
theorem helperStart_answers {s : State} {r : PoolRec} {b : Band} {e : Nat}
    (hback : (s.groups.find? fun g => g.die == s.ev.die && g.core == s.ev.core && g.helper.isSome && g.saved &&
      s.bandSt g.band == some .resident) = none)
    (hr : s.pool.find? (fun r : PoolRec => r.die == s.ev.die && r.core == s.ev.core && r.place == .helperQueue && !r.saved &&
      (match s.band? r.band with | some b => b.st == .resident | none => false)) = some r)
    (hb : s.band? r.band = some b) (he : (List.range 8).find? (fun e => !((s.helperBusy s.ev.die s.ev.core).contains e)) = some e) :
    ∃ frame, exec .helperStart s = .next (s.addRecGroup (s.recGroup b [r] 0 0 frame (some e)) [r.rid]) := by
  apply Exists.intro
  dsimp only [exec, execHelperStart]
  generalize hq : List.find? _ s.pool = queued
  obtain rfl : queued = some r := hq.symm.trans hr
  rw [hback, he]
  simp only [hb]
  rfl

/-- Settles O29, event by event. -/
theorem recordsReachGroups : Obligations.RecordsReachGroups := by
  intro s
  refine ⟨fun r h => ?enter, fun x b q rest hx h32 hb hst ha hq => ?fire, fun x hx hne hf ht ha h4 hroom => ?expire, fun r b e hback hr hb he => ?start⟩
  case enter =>
    have hsome := List.find?_some h
    simp only [Bool.and_eq_true] at hsome
    obtain ⟨b, hb⟩ := Option.isSome_iff_exists.mp hsome.2
    obtain ⟨bs, hput⟩ := binPut_eq s r.die r.core r.band b r.rid
    have hfind : exec .poolRecordEnterBin s = .next (s.enterBin r) := by
      simp only [Bool.and_assoc] at h
      change execPoolRecordEnterBin s = _
      simp only [execPoolRecordEnterBin, PoolRec.waits, Bool.and_assoc, h]
    refine ⟨_, b, hfind, hb, ?_⟩
    rw [State.enterBin, hb]
    simp only [hput]
    exact ⟨trivial, rfl, rfl⟩
  case fire =>
    obtain ⟨f, hf, hmem, hquad, hlow⟩ := contSlot_first hq
    have hgone := @addRecGroup_pool s (s.recGroup b (s.binRecs x) f.1 f.2.1 f.2.2 none) x.recs
    exact ⟨_, s.recGroup b (s.binRecs x) f.1 f.2.1 f.2.2 none, binFire_answers hx (by simp [Bin.full, h32]) ha hb hst hf, rfl, rfl, rfl, hmem, hquad,
      hlow, fun r hr => hgone hr, rfl, rfl, rfl⟩
  case expire =>
    obtain ⟨hd, hc, hb⟩ := binAt_keys hx
    have hexp : (s.binExpired x && !(s.binAfter x)) = true := by
      have h32 : ¬ 32 ≤ x.recs.length := by omega
      simp [State.binExpired, Bin.full, hne, hf, ht, ha, h32]
    have hhelp : s.binExpire x = s.binHelp x := by simp only [State.binExpire, h4, hroom, decide_true, Bool.and_self, if_true]
    refine ⟨s.binHelp x, ?_, ⟨rfl, rfl⟩, by rw [hd, hc, hb, hx], binClear_binAt _ x, rfl⟩
    change execBinTimerExpire s = _
    simp only [execBinTimerExpire, hx, hexp, if_true, hhelp]
  case start =>
    obtain ⟨frame, hx⟩ := helperStart_answers hback hr hb he
    obtain ⟨hlane, hrest⟩ := recGroup_single s b r 0 0 frame (some e)
    exact ⟨_, _, hx, rfl, rfl, rfl, congrArg Lane.pc hlane, congrArg Lane.v hlane, hrest, rfl, rfl⟩

end Sys2Proof
end

section
/-!
PROOFS. Regions, trace, performance and census instructions (O43): what each answers, what the trace leaves as it was, and which selectors name a counter.
-/
namespace Sys2Proof
open Machine

/-! ## Records of the trace (R424) -/

/-- An emission changes what observes and the next free name, and nothing else. -/
theorem emit_eq (s : State) (r : TraceRec) : ∃ (o : ObsState) (n : Nat), s.emit r = { s with obs := o, nextId := n } := by
  unfold State.emit
  dsimp only
  split
  · exact ⟨_, _, rfl⟩
  · split <;> exact ⟨_, _, rfl⟩

theorem emit_memory (s : State) (r : TraceRec) : SameMemory s (s.emit r) := by
  obtain ⟨o, n, h⟩ := emit_eq s r
  rw [h]
  exact ⟨rfl, rfl⟩

@[simp] theorem emit_groups (s : State) (r : TraceRec) : (s.emit r).groups = s.groups := by
  obtain ⟨o, n, h⟩ := emit_eq s r
  rw [h]

/-! ## Association lists -/

/-- The value that a key has been given. -/
theorem assoc_assocSet {κ α : Type} [DecidableEq κ] (k : κ) (d x : α) (l : List (κ × α)) : assoc k d (assocSet k x l) = x := by
  simp [assoc, assocSet]

/-! ## The instructions -/

/-- Where no session watches a region, none halts the group (R437). -/
theorem regionWatch_none {s : State} (h : ∀ x ∈ s.obs.dbg, x.watches = []) (c : Issue) (g : Group) (id : Nat) (enter : Bool) :
    s.regionWatch c g id enter = s := by
  refine if_neg ?_
  simp only [List.any_eq_true, not_exists, not_and]
  intro x hx
  simp [h x hx]

section Instructions
variable {s : State} {c : Issue} {g : Group} {d a b : BitVec 6} (h : Issues s c g)
include h

theorem rgnEnter_full {m : BitVec 1} (hf : 8 ≤ g.rgn.length) : exec (.rgnEnter d a m) s = .next (s.takeTrap c g fcIllegal 0 0) :=
  (issue_ready (i := .rgnEnter d a m) ⟨h, rfl⟩ _).trans (congrArg _ (if_pos hf))

/-- A push of the region that the operands name, with the next PC (R52, R444). -/
theorem rgnEnter_pushes {m : BitVec 1} (hf : g.rgn.length < 8) (hw : ∀ x ∈ s.obs.dbg, x.watches = []) :
    exec (.rgnEnter d a m) s = .next (s.modGroup c.gid fun g =>
      { g with rgn := g.rgn ++ [{ id := d ++ a, pc := c.npc, idem := m == 1, at_ := s.mem.nextAid }] }) :=
  (issue_ready (i := .rgnEnter d a m) ⟨h, rfl⟩ _).trans (congrArg _ ((if_neg (by omega)).trans
    (regionWatch_none (s := s.modGroup c.gid _) hw c g _ _)))

theorem rgnLeave_pops (hw : ∀ x ∈ s.obs.dbg, x.watches = []) :
    exec .rgnLeave s = .next (s.modGroup c.gid fun g => { g with rgn := g.rgn.dropLast }) := by
  refine (issue_ready (i := .rgnLeave) ⟨h, rfl⟩ _).trans (congrArg _ ?_)
  dsimp only
  split
  · exact regionWatch_none (s := s.modGroup c.gid _) hw c g _ _
  · rfl

theorem emit_answers (hw : (Instr.emit a b).wf (s.regsOf g) = true) : exec (.emit a b) s =
    .next (if s.obs.userOff.contains (s.ctxOf g) then s else s.emitGroup g (0x80 + b.toNat)
      (((g.lane (lowLane c.mask)).rv a.toNat).toNat + lowLane c.mask * 2 ^ 32)) :=
  issue_ready ⟨h, hw⟩ _

theorem causeget_gives (hw : (Instr.causeget d).wf (s.regsOf g) = true) : GivesKind .unit (.causeget d) s c 1 [.s d.toNat g.cause] [] :=
  postUnit_gives h.2 (issue_ready ⟨h, hw⟩ _)

/-- A CAUSESET takes effect at the end of its cycle, with a fresh signet where its operand is 0 (R447). -/
theorem causeset_answers (hw : (Instr.causeset a).wf (s.regsOf g) = true) : exec (.causeset a) s =
    .next (if g.rs a.toNat ≠ 0 then s.postLate g causeReg (g.rs a.toNat).toNat
      else (s.bumpSeq g.die 0 g.core).postLate g causeReg (s.freshSignet g.die 0 g.core).toNat) :=
  issue_ready ⟨h, hw⟩ _

theorem perfrd_gives (hw : (Instr.perfrd d a).wf (s.regsOf g) = true) : GivesKind .unit (.perfrd d a) s c 1
    (match s.perfCounter g (g.rs a.toNat).toNat with
      | some n => [.s d.toNat (BitVec.ofNat 64 n), .lstat 0]
      | none => [.s d.toNat 0, .lstat 3]) [] := by
  have hx : exec (.perfrd d a) s = _ := issue_ready ⟨h, hw⟩ _
  refine postUnit_gives h.2 (hx.trans (congrArg _ ?_))
  cases s.perfCounter g (g.rs a.toNat).toNat <;> rfl

theorem censusrd_gives (hw : (Instr.censusrd d a).wf (s.regsOf g) = true) : GivesKind .unit (.censusrd d a) s c 1
    (lanesDo c.mask fun l => (List.range 4).map fun i => .v l (d.toNat + i) (BitVec.ofNat 32 ((s.siteCounts g ((g.lane l).rv a.toNat)).getD i 0))) [] :=
  postUnit_gives h.2 (issue_ready ⟨h, hw⟩ _)

end Instructions

/-- The name under which a group is found is its own. -/
theorem group?_gid {s : State} {h : Nat} {g : Group} (hg : s.group? h = some g) : g.gid = h :=
  beq_iff_eq.mp (List.find?_some (p := fun g : Group => g.gid == h) hg)

/-! ## Counters and sites -/

/-- The least numbers are those of the cases that a counter's number falls in. -/
theorem isSome_upTo3 (i w x y z : Nat) :
    (match i with | 0 => some w | 1 => some x | 2 => some y | 3 => some z | _ => none : Option Nat).isSome = true ↔ i ≤ 3 := by
  match i with
  | 0 | 1 | 2 | 3 => simp
  | n + 4 => simp

/-- A counter is named by the selectors that R448's table lists. -/
theorem perfCounter_isSome (s : State) (g : Group) (sel : Nat) : (s.perfCounter g sel).isSome = true ↔ sel < 2 ^ 23 ∧
    match bits sel 12 4 with
    | 0 => bits sel 16 7 = 0 ∧ (bits sel 0 12 ≤ 8 ∨ (16 ≤ bits sel 0 12 ∧ bits sel 0 12 ≤ 49))
    | 1 => bits sel 16 7 = 0 ∧ bits sel 0 12 ≤ 3
    | 2 => g.firmware = true ∧ bits sel 16 7 ≤ 99 ∧ bits sel 0 12 ≤ 3
    | 3 => bits sel 16 7 = 0 ∧ g.firmware = true ∧ bits sel 0 12 ≤ 8 ∧ ∃ w ∈ s.obs.gateways, w.die = g.die
    | 4 => bits sel 16 7 = 0 ∧ bits sel 0 12 = 0
    | _ => False := by
  unfold State.perfCounter
  dsimp only
  generalize bits sel 12 4 = block, bits sel 0 12 = i, bits sel 16 7 = site
  by_cases hs : sel < 2 ^ 23
  case neg =>
    rw [if_pos (.inl (by omega))]
    exact ⟨(nomatch ·), fun h => absurd h.1 hs⟩
  have h0 : sel / 2 ^ 23 = 0 := by omega
  simp only [h0, hs, ne_eq, not_true_eq_false, false_or, true_and]
  match block with
  | 0 => by_cases h1 : site = 0 <;> simp [h1]
  | 1 =>
    by_cases h1 : site = 0
    · simp only [h1, not_true_eq_false, and_false, if_false, true_and]
      exact isSome_upTo3 i _ _ _ _
    · simp [h1]
  | 2 =>
    by_cases h2 : g.firmware = false ∨ 99 < site
    · have hno : ¬ (g.firmware = true ∧ site ≤ 99 ∧ i ≤ 3) := by
        rintro ⟨hf, hs, -⟩
        rcases h2 with h2 | h2
        · simp [hf] at h2
        · omega
      simp [h2, hno]
    · obtain ⟨hf, hs⟩ := not_or.mp h2
      simp only [not_true_eq_false, false_and, if_false, if_neg h2]
      simp only [Bool.eq_true_of_not_eq_false hf, not_lt.mp hs, true_and]
      exact isSome_upTo3 i _ _ _ _
  | 3 =>
    by_cases h1 : site = 0
    · cases hf : g.firmware with
      | false => simp [h1]
      | true =>
        cases hw : s.obs.gateways.find? (fun w => w.die == g.die) with
        | none => simpa [h1] using fun _ : i ≤ 8 => List.find?_eq_none.mp hw
        | some w =>
          have hmem : ∃ w ∈ s.obs.gateways, w.die = g.die := ⟨w, List.mem_of_find?_eq_some hw, by simpa using List.find?_some hw⟩
          have hle : (if i ≤ 7 then some (w.loss.getD i 0) else if i = 8 then some w.w else none : Option Nat).isSome = true ↔ i ≤ 8 := by
            split
            · simp only [Option.isSome_some, true_iff]; omega
            · split
              · simp only [Option.isSome_some, true_iff]; omega
              · simp only [Option.isSome_none, Bool.false_eq_true, false_iff]; omega
          simpa [h1, hmem] using hle
    · simp [h1]
  | 4 => by_cases h1 : site = 0 <;> simp [h1]
  | n + 5 => by_cases h1 : site = 0 <;> simp [h1]

/-- A site that the band does not have counts nothing (R431). -/
theorem siteCounts_none {s : State} {g : Group} {pc : W32}
    (h : ∀ x ∈ s.obs.census, x.die = g.die → x.core = g.core → x.band = g.band → x.pc ≠ pc) : s.siteCounts g pc = [0, 0, 0, 0] := by
  have hn : s.obs.census.find? (fun x => x.die == g.die && x.core == g.core && x.band == g.band && x.pc == pc) = none := by
    rw [List.find?_eq_none]
    intro x hx
    simpa [and_assoc] using h x hx
  simp only [State.siteCounts, hn]

/-- The one site of a band at a PC gives its counts. -/
theorem siteCounts_one {s : State} {g : Group} {x : CensusSite} (hx : x ∈ s.obs.census) (hd : x.die = g.die) (hc : x.core = g.core) (hb : x.band = g.band)
    (h : ∀ y ∈ s.obs.census, y.die = g.die → y.core = g.core → y.band = g.band → y.pc = x.pc → y = x) : s.siteCounts g x.pc = x.counts := by
  cases hf : s.obs.census.find? (fun y => y.die == g.die && y.core == g.core && y.band == g.band && y.pc == x.pc) with
  | none => exact absurd (List.find?_eq_none.mp hf x hx) (by simp [hd, hc, hb])
  | some y =>
    have hy := List.find?_some hf
    simp only [Bool.and_eq_true, beq_iff_eq, and_assoc] at hy
    obtain ⟨h1, h2, h3, h4⟩ := hy
    simp only [State.siteCounts, hf, h y (List.mem_of_find?_eq_some hf) h1 h2 h3 h4]

/-- Settles O43, instruction by instruction. -/
theorem regionsAndTrace : Obligations.RegionsAndTrace := by
  intro s c g d a b m h
  have own := fun (f : Group → Group) hf => group?_own h.2 f hf
  refine ⟨fun hw => ⟨rgnEnter_full h, fun hl hn => ?enter⟩, fun hn => ?leave, fun hw => ?emit, causeget_gives h, fun hw => ?causeset, fun v => ?late,
    perfrd_gives h, censusrd_gives h, perfCounter_isSome s g, fun pc => siteCounts_none, fun x hx hd hc hb => siteCounts_one hx hd hc hb⟩
  case enter => exact ⟨_, _, rgnEnter_pushes h hl hn, ⟨rfl, rfl⟩, own _ fun _ => rfl, rfl, rfl, rfl⟩
  case leave => exact ⟨_, rgnLeave_pops h hn, ⟨rfl, rfl⟩, own _ fun _ => rfl⟩
  case emit =>
    have hx := emit_answers h hw
    refine ⟨fun ho => by rw [hx, if_pos ho], fun ho => by rw [hx, if_neg (Bool.eq_false_iff.mp ho)], _, hx, ?_⟩
    split
    · exact ⟨⟨rfl, rfl⟩, rfl⟩
    · exact ⟨emit_memory s _, emit_groups s _⟩
  case causeset =>
    have hx := causeset_answers h hw
    by_cases h0 : g.rs a.toNat = 0
    · rw [if_neg (not_not.mpr h0)] at hx
      refine ⟨_, hx, ⟨rfl, rfl⟩, rfl, ?_, fun _ => assoc_assocSet _ _ _ _⟩
      simp [State.postLate, State.bumpSeq, h0, group?_gid h.2]
    · rw [if_pos h0] at hx
      refine ⟨_, hx, ⟨rfl, rfl⟩, rfl, ?_, fun h => absurd h h0⟩
      simp only [State.postLate, if_neg h0, group?_gid h.2]
  case late =>
    refine (own (fun g => { g with cause := BitVec.ofNat 64 v.toNat }) fun _ => rfl).trans ?_
    simp

end Sys2Proof
end

section
/-!
PROOFS. LAUNCH and AMSG (O44): the status, the budget entry and the launch on its way; the messages that the lanes send; and a message's next step.
-/
namespace Sys2Proof
open Machine

/-! ## LAUNCH (R333) -/

/-- The lowest free entry of a budget is one of its entries, which no child holds. -/
theorem freeEntry_free {b : Band} {e : Nat} (h : b.freeEntry = some e) : e < b.budget.length ∧ b.budget.getD e none = none :=
  ⟨by simpa using List.mem_of_find?_eq_some h, by simpa using List.find?_some h⟩

/-- A band with no budget has no free entry, and one whose entry is free has a budget. -/
theorem budget_ne_nil {b : Band} {e : Nat} (h : b.freeEntry = some e) : b.budget ≠ [] := by
  rintro h0
  simpa [h0] using (freeEntry_free h).1

/-- The launch that a group sends for an entry of its band's budget. -/
def launchOp (s : State) (c : Issue) (g : Group) (d : BitVec 6) (r ring e : Nat) : QOp :=
  { gid := g.gid, die := g.die, core := g.core, quad := g.quad, gslot := g.gslot, oid := some s.nextId, kind := .launch, work := false, band := g.band,
    q := r, mask := c.mask, lanes := [], vals := if g.dbgHalt then [[1]] else [], d := d.toNat, st := e, at_ := s.mem.nextAid, mats := s.matsOf g.gid,
    until_ := ring, since := s.out.elapsed, cause := g.cause }

section Launch
variable {s : State} {c : Issue} {g : Group} {d a b : BitVec 6} {x : Band} (h : Ready (.launch d a b) s c g) (hx : s.band? g.band = some x)
include h hx

theorem launch_answers : exec (.launch d a b) s = .next (
    let r := (g.rs a.toNat).toNat
    let ring := (g.rs b.toNat).toNat
    let status := fun n => s.postUnit c g (statusWrites c.mask d.toNat n)
    if r = 0 ∨ r % 128 ≠ 0 ∨ ring % 64 ≠ 0 then status stRefused
    else if x.budget.isEmpty then status stRefused
    else x.freeEntry.elim (status stFull) fun e =>
      ((s.postAwait c g .unit).setBudget x.bid e (some 0)).sendQueue (launchOp s c g d r ring e)) := by
  refine (issue_ready h _).trans (congrArg _ ?_)
  simp only [hx]
  cases x.freeEntry <;> rfl

theorem launch_refused (hr : (g.rs a.toNat).toNat = 0 ∨ (g.rs a.toNat).toNat % 128 ≠ 0 ∨ (g.rs b.toNat).toNat % 64 ≠ 0 ∨ x.budget = []) :
    GivesKind .unit (.launch d a b) s c 1 (statusWrites c.mask d.toNat stRefused) [] := by
  refine postUnit_gives h.1.2 ((launch_answers h hx).trans (congrArg _ ?_))
  dsimp only
  split
  · rfl
  next hm => rw [if_pos (by rw [List.isEmpty_iff]; tauto)]

variable (hr : (g.rs a.toNat).toNat ≠ 0) (ha : (g.rs a.toNat).toNat % 128 = 0) (hb : (g.rs b.toNat).toNat % 64 = 0)
include hr ha hb

theorem launch_full (hn : x.budget ≠ []) (hf : x.freeEntry = none) :
    GivesKind .unit (.launch d a b) s c 1 (statusWrites c.mask d.toNat stFull) [] := by
  refine postUnit_gives h.1.2 ((launch_answers h hx).trans (congrArg _ ?_))
  dsimp only
  rw [if_neg (by tauto), if_neg (by rwa [List.isEmpty_iff]), hf]
  rfl

/-- A LAUNCH that finds a free entry takes it and is sent. -/
theorem launch_sent {e : Nat} (hf : x.freeEntry = some e) : exec (.launch d a b) s =
    .next (((s.postAwait c g .unit).setBudget x.bid e (some 0)).sendQueue (launchOp s c g d (g.rs a.toNat).toNat (g.rs b.toNat).toNat e)) := by
  refine (launch_answers h hx).trans (congrArg _ ?_)
  dsimp only
  rw [if_neg (by tauto), if_neg (by rw [List.isEmpty_iff]; exact budget_ne_nil hf), hf]
  rfl

end Launch

/-- The name under which a band is found is its own. -/
theorem band?_bid {s : State} {h : Nat} {b : Band} (hb : s.band? h = some b) : b.bid = h :=
  beq_iff_eq.mp (List.find?_some (p := fun b : Band => b.bid == h) hb)

theorem setBudget_band? {s : State} {h : Nat} {b : Band} (hb : s.band? h = some b) (e : Nat) (v : Option Nat) :
    (s.setBudget b.bid e v).band? b.bid = some { b with budget := b.budget.set e v } := by
  rw [State.setBudget, band?_modBand s b.bid b.bid _ (by intro _; rfl), show s.band? b.bid = some b from (band?_bid hb).symm ▸ hb, Option.map_some,
    if_pos rfl]

/-! ## AMSG (R335) -/

/-- Messages that lanes send one after another, each made of the state as it then stands, come behind those on their way in order, and change
nothing else but the next free name. -/
theorem foldl_sendMsg {f : State → Nat → Msg} (hf : ∀ u l, (f u l).lane = l) : ∀ (ls : List Nat) (s : State), ∃ (ms : List Msg) (n : Nat),
    ls.foldl (fun s l => { s with msgs := s.msgs ++ [f s l], nextId := s.nextId + 1 }) s = { s with msgs := s.msgs ++ ms, nextId := n } ∧
    ms.map Msg.lane = ls ∧ ∀ m ∈ ms, ∃ u l, m = f u l
  | [], s => ⟨[], s.nextId, by simp, rfl, by simp⟩
  | l :: ls, s => by
    obtain ⟨ms, n, he, hl, hm⟩ := foldl_sendMsg hf ls { s with msgs := s.msgs ++ [f s l], nextId := s.nextId + 1 }
    refine ⟨f s l :: ms, n, by rw [List.foldl_cons, he]; simp, by rw [List.map_cons, hf, hl], fun m hmem => ?_⟩
    rcases List.mem_cons.mp hmem with rfl | hmem
    · exact ⟨s, l, rfl⟩
    · exact hm m hmem

/-- AMSG sends one message for each lane, in lane order, behind an outstanding result that awaits their statuses. -/
theorem amsg_sends {s : State} {c : Issue} {g : Group} {d a b : BitVec 6} (h : Ready (.amsg d a b) s c g) : ∃ (ms : List Msg) (n : Nat),
    exec (.amsg d a b) s = .next { s.postAwait c g .unit with msgs := s.msgs ++ ms, nextId := n } ∧ ms.map Msg.lane = lanesOf c.mask ∧
    ∀ m ∈ ms, ∃ (u : State) (l : Nat), m = u.amsgOf c g s.nextId (g.rs a.toNat).toNat d.toNat b.toNat l := by
  obtain ⟨ms, n, he, hm⟩ := foldl_sendMsg (f := fun u l => u.amsgOf c g s.nextId (g.rs a.toNat).toNat d.toNat b.toNat l) (fun _ _ => rfl)
    (lanesOf c.mask) (s.postAwait c g .unit)
  exact ⟨ms, n, (issue_ready h _).trans (congrArg _ he), hm⟩

/-! ## Delivery (R49, R315, R335) -/

section Deliver
variable {s : State} {m : Msg} (hm : s.msgs.find? (fun m => m.mid == s.ev.id) = some m) (hn : s.amsgNext m = true)
include hm hn

theorem amsgDeliver_refused (hd : s.amsgDest m = .refused) : exec .amsgDeliver s = .next (s.amsgStatus m stRefused) := by
  change execAmsgDeliver s = _
  simp only [execAmsgDeliver, hm, hn, hd, Bool.not_true, Bool.false_eq_true, if_false]

theorem amsgDeliver_absent (hd : s.amsgDest m = .absent) : exec .amsgDeliver s = .next (s.amsgStatus m stAbsent) := by
  change execAmsgDeliver s = _
  simp only [execAmsgDeliver, hm, hn, hd, Bool.not_true, Bool.false_eq_true, if_false]

variable {x : Band} {pc : W32} (hd : s.amsgDest m = .resident x pc)
include hd

theorem amsgDeliver_arrives (hi : m.inBuffer x.die x.core = false) : exec .amsgDeliver s = .next (s.amsgArrive m x) := by
  change execAmsgDeliver s = _
  simp only [execAmsgDeliver, hm, hn, hd, hi, Bool.not_true, Bool.not_false, Bool.false_eq_true, if_false, if_true]

theorem amsgDeliver_delivers (hi : m.inBuffer x.die x.core = true) (hf : s.amsgFirst x.die x.core = some m.mid)
    (hp : s.poolHas x.die x.core 1 = true) : exec .amsgDeliver s = .next ((s.amsgRecord m x pc).amsgStatus m stOk) := by
  change execAmsgDeliver s = _
  simp only [execAmsgDeliver, hm, hn, hd, hi, hf, hp, Bool.not_true, Bool.false_eq_true, if_false, beq_self_eq_true, Bool.and_self, if_true]

end Deliver

/-- A delivered record holds the payload from V0 on, as far as its registers go (R49). -/
theorem getD_payload {p : List W32} {n i : Nat} (hi : i < ((p ++ List.replicate 48 (0 : W32)).take n).length) (hp : i < p.length) :
    ((p ++ List.replicate 48 (0 : W32)).take n).getD i 0 = p.getD i 0 := by
  have hn : i < n := by
    rw [List.length_take] at hi
    omega
  simp [List.getD_eq_getElem?_getD, hn, List.getElem?_append_left hp]

/-- Settles O44: LAUNCH, AMSG and the delivery of a message, case by case. -/
theorem launchAndMessages : Obligations.LaunchAndMessages := by
  intro s c g d a b h r ring status
  refine ⟨fun hw x hx => ⟨launch_refused ⟨h, hw⟩ hx, fun hr ha hb hn hf => launch_full ⟨h, hw⟩ hx hr ha hb hn hf, fun e hr ha hb hf => ?launch⟩,
    fun hw => ?amsg, fun m hm hn => ⟨amsgDeliver_refused hm hn, amsgDeliver_absent hm hn, fun x pc hd hi => ?arrive, fun x pc hd hi hf hp => ?deliver⟩⟩
  case launch =>
    obtain ⟨he, hnone⟩ := freeEntry_free hf
    have hout := addOut_group? s c.gid c.gid (c.outst g s .unit 1 true [] [] 0)
    rw [h.2, Option.map_some, if_pos rfl] at hout
    refine ⟨_, _, launch_sent ⟨h, hw⟩ hx hr ha hb hf, rfl, rfl, rfl, rfl, rfl, rfl, ⟨rfl, rfl⟩, addOut_registers s c.gid _, ?_, he, hnone, ?_⟩
    · exact setBudget_band? (s := s.postAwait c g .unit) hx e (some 0)
    · exact (congrArg (Option.map _) hout).trans (by simp)
  case amsg =>
    obtain ⟨ms, n, he, hl, hm⟩ := amsg_sends ⟨h, hw⟩
    refine ⟨_, ms, _, he, ⟨rfl, rfl⟩, group?_own h.2 _ (by intro _; rfl), rfl, rfl, rfl, hl, fun m hmem => ?_⟩
    obtain ⟨u, l, rfl⟩ := hm m hmem
    exact ⟨rfl, rfl, rfl, rfl, rfl, rfl, rfl⟩
  case arrive =>
    have hx := amsgDeliver_arrives hm hn hd hi
    exact ⟨fun hl => hx.trans (congrArg _ (if_pos hl)), fun hl => ⟨_, hx.trans (congrArg _ (if_neg (by omega))), ⟨rfl, rfl⟩, rfl, rfl⟩⟩
  case deliver =>
    exact ⟨_, _, amsgDeliver_delivers hm hn hd hi hf hp, ⟨rfl, rfl⟩, rfl, rfl, rfl, rfl, rfl, rfl, fun i _ hl hp => getD_payload hl hp⟩

end Sys2Proof
end

section
/-!
PROOFS. What a unit's reads and writes of memory change: memory with its copies and requests, the next free name and the free values used. The rest of
the state stands.
-/
namespace Sys2Proof
open Machine

/-- `t` is `s` but for memory, the next free name and the free values used. -/
def OnlyMem (s t : State) : Prop := ∃ (m : MemState) (n f : Nat), t = { s with mem := m, nextId := n, free := f }

theorem OnlyMem.refl (s : State) : OnlyMem s s := ⟨s.mem, s.nextId, s.free, rfl⟩

theorem OnlyMem.trans {s t u : State} (h1 : OnlyMem s t) (h2 : OnlyMem t u) : OnlyMem s u := by
  obtain ⟨m1, n1, f1, rfl⟩ := h1
  obtain ⟨m, n, f, rfl⟩ := h2
  exact ⟨m, n, f, rfl⟩

theorem onlyMem_foldl {α : Type} {f : State → α → State} (h : ∀ s x, OnlyMem s (f s x)) : ∀ (l : List α) (s : State), OnlyMem s (l.foldl f s)
  | [], s => .refl s
  | x :: l, s => (h s x).trans (onlyMem_foldl h l (f s x))

theorem onlyMem_modMem (s : State) (f : MemState → MemState) : OnlyMem s (s.modMem f) := ⟨f s.mem, s.nextId, s.free, rfl⟩

theorem onlyMem_setMem (s : State) (m : MemState) : OnlyMem s (s.setMem m) := ⟨m, s.nextId, s.free, rfl⟩

theorem onlyMem_askSlice (s : State) (die unit : Nat) (secs : BitVec 4) (line : Nat) (op : SliceOp) (ctx cp code rrate : Nat) :
    OnlyMem s (s.askSlice die unit secs line op ctx cp code rrate) := ⟨_, s.nextId + 1, s.free, rfl⟩

theorem onlyMem_askLines (s : State) (die unit : Nat) (pas : List Nat) (op : SliceOp) (ctx : Nat) : OnlyMem s (s.askLines die unit pas op ctx) :=
  onlyMem_foldl (fun s l => onlyMem_askSlice s die unit (secsOf pas l) l op ctx 0 30 2048) _ s

theorem onlyMem_l1DropPas (s : State) (die core : Nat) (pas : List Nat) : OnlyMem s (s.l1DropPas die core pas) :=
  onlyMem_foldl (fun s _ => onlyMem_modMem s _) _ s

theorem onlyMem_askBack (s : State) (l : StashLine) : OnlyMem s (s.askBack l) := by
  unfold State.askBack
  split
  · exact onlyMem_askSlice ..
  · exact .refl s

theorem onlyMem_writeBack (s : State) (l : StashLine) : OnlyMem s (s.writeBack l) := (onlyMem_setMem s _).trans (onlyMem_askBack _ l)

theorem onlyMem_probeStore (s : State) (p : Nat) : OnlyMem s (s.probeStore p) := by
  unfold State.probeStore
  dsimp only
  split
  · exact onlyMem_setMem s _
  · exact (onlyMem_setMem s _).trans (onlyMem_askBack _ _)

theorem onlyMem_takeSector (s : State) (ctx pa : Nat) : OnlyMem s (s.takeSector ctx pa) := by
  unfold State.takeSector
  split
  · exact .refl s
  · split <;> split
    · exact .refl s
    · exact onlyMem_modMem s _
    · exact .refl s
    · exact onlyMem_modMem s _

theorem onlyMem_writePa (s : State) (ctx pa : Nat) (x : Byte) : OnlyMem s (s.writePa ctx pa x) := by
  unfold State.writePa
  exact ((onlyMem_probeStore s (pa / 128)).trans (onlyMem_takeSector _ ctx pa)).trans (onlyMem_modMem _ _)

theorem onlyMem_writePas (ctx : Nat) : ∀ (ps : List Nat) (bs : List Byte) (s : State), OnlyMem s (s.writePas ctx ps bs)
  | [], _, s => .refl s
  | _ :: _, [], s => .refl s
  | p :: ps, b :: bs, s => (onlyMem_writePa s ctx p b).trans (onlyMem_writePas ctx ps bs _)

theorem onlyMem_installed (s : State) (l : Leaf) : OnlyMem s (s.installed l).1 := by
  unfold State.installed
  split
  · exact ⟨s.mem, s.nextId, s.free + 1, rfl⟩
  · exact .refl s

theorem onlyMem_tlbInstall (s : State) (die core ctx : Nat) (l : Leaf) (wr : Bool) : OnlyMem s (s.tlbInstall die core ctx l wr) := by
  unfold State.tlbInstall
  exact onlyMem_modMem s _

theorem onlyMem_walkEnd (s : State) (die core ctx va : Nat) (rd wr : Bool) : OnlyMem s (s.walkEnd die core ctx va rd wr).1 := by
  have h0 := onlyMem_askLines s die unitWalker (s.walkReads ctx va) .walk ctx
  have hset : ∀ (p : Prop) [Decidable p] (pa : Nat) (b : Byte) (u : State), OnlyMem u (if p then u else u.writePa ctx pa b) := by
    intro p _ pa b u
    split
    · exact .refl u
    · exact onlyMem_writePa u ctx pa b
  unfold State.walkEnd
  split
  · exact .refl s
  · dsimp only
    split
    · exact h0
    · exact ((h0.trans (hset _ _ _ _)).trans (onlyMem_installed _ _)).trans (onlyMem_tlbInstall _ die core ctx _ wr)

theorem onlyMem_translate (s : State) (die core ctx va : Nat) (heap rd wr : Bool) : OnlyMem s (s.translate die core ctx va heap rd wr).1 := by
  have hw := onlyMem_walkEnd s die core ctx va rd wr
  unfold State.translate
  split
  · exact .refl s
  · exact .refl s
  · split <;> rename_i he <;> rw [he] at hw <;> exact hw

theorem onlyMem_translateN (die core ctx : Nat) (rd wr : Bool) : ∀ (n va : Nat) (s : State), OnlyMem s (s.translateN die core ctx rd wr n va).1
  | 0, _, s => .refl s
  | n + 1, va, s => by
    have h1 := onlyMem_translate s die core ctx va true rd wr
    unfold State.translateN
    split <;> rename_i he <;> rw [he] at h1
    · exact h1
    · have h2 := h1.trans (onlyMem_translateN die core ctx rd wr n (va + 1) _)
      split <;> rename_i hf <;> rw [hf] at h2 <;> exact h2

theorem onlyMem_readGlb (s : State) (die core ctx va n : Nat) : OnlyMem s (s.readGlb die core ctx va n).1 := by
  have h1 := onlyMem_translateN die core ctx true false n va s
  unfold State.readGlb
  split <;> rename_i he <;> rw [he] at h1
  · exact h1
  · exact (h1.trans (onlyMem_askLines ..)).trans (onlyMem_l1DropPas ..)

theorem onlyMem_writeGlb (s : State) (die core ctx va : Nat) (bs : List Byte) : OnlyMem s (s.writeGlb die core ctx va bs).1 := by
  have h1 := onlyMem_translateN die core ctx false true bs.length va s
  unfold State.writeGlb
  split <;> rename_i he <;> rw [he] at h1
  · exact h1
  · exact ((h1.trans (onlyMem_writePas ..)).trans (onlyMem_askLines ..)).trans (onlyMem_l1DropPas ..)

/-- The slot of a ring is reserved by reads and a write (R288). -/
theorem onlyMem_ringReserve (s : State) (die unit ctx ring size : Nat) : OnlyMem s (s.ringReserve die unit ctx ring size).1 := by
  have h1 := onlyMem_readGlb s die unit ctx ring 64
  unfold State.ringReserve
  split
  · exact .refl s
  · split <;> rename_i he <;> rw [he] at h1
    · exact h1
    · split
      · exact h1
      · rename_i base count head tail _
        split
        · exact h1
        · have h2 := h1.trans (onlyMem_writeGlb _ die unit ctx (ring + 16) (leBytes 8 (head + 1)))
          split <;> rename_i hf <;> rw [hf] at h2 <;> exact h2

theorem onlyMem_ringPut (s : State) (die unit ctx ring size : Nat) (entry : Nat → Nat) : OnlyMem s (s.ringPut die unit ctx ring size entry).1 := by
  have h1 := onlyMem_ringReserve s die unit ctx ring size
  unfold State.ringPut
  split <;> rename_i he <;> rw [he] at h1
  · exact h1
  · exact h1
  · rename_i va phase
    have h2 := h1.trans (onlyMem_writeGlb _ die unit ctx va (leBytes size (entry phase)))
    split <;> rename_i hf <;> rw [hf] at h2 <;> exact h2

end Sys2Proof
end

section
/-!
PROOFS. The start of a submission (R301, R303): reading the records of its nodes and settling their states leaves every group, and of each queue what
the submission has set.
-/
namespace Sys2Proof
open Machine

/-! ## Reading node records -/

theorem onlyMem_handleUse (s : State) (die : Nat) (c : Context) (va : Nat) : OnlyMem s (s.handleUse die c va).1 := by
  have h1 := onlyMem_readGlb s die unitLauncher c.ctx va 8
  unfold State.handleUse
  split <;> rename_i he <;> rw [he] at h1
  · exact h1
  · rename_i s1 bs
    dsimp only
    split
    · exact h1
    · have h2 := h1.trans (onlyMem_readGlb s1 die unitLauncher c.ctx (c.handleTable + 32 * bits (leNat bs) 0 24) 32)
      split <;> rename_i hf <;> rw [hf] at h2 <;> exact h2

theorem onlyMem_handleUses (die : Nat) (c : Context) : ∀ (n va : Nat) (s : State), OnlyMem s (s.handleUses die c va n).1
  | 0, _, s => .refl s
  | n + 1, va, s => by
    have h1 := onlyMem_handleUse s die c va
    unfold State.handleUses
    split <;> rename_i he <;> rw [he] at h1
    · exact h1
    · have h2 := h1.trans (onlyMem_handleUses die c n (va + 8) _)
      split <;> rename_i hf <;> rw [hf] at h2 <;> exact h2

theorem onlyMem_successors (s : State) (die ctx va n count : Nat) : OnlyMem s (s.successors die ctx va n count).1 := by
  have h1 := onlyMem_readGlb s die unitLauncher ctx va (4 * n)
  unfold State.successors
  split <;> rename_i he <;> rw [he] at h1 <;> exact h1

theorem onlyMem_readNode (s : State) (h : HostQ) (c : Context) (count i : Nat) : OnlyMem s (s.readNode h c count i).1 := by
  have h1 := onlyMem_readGlb s (h.q % 8) unitLauncher h.ctx (h.base + 64 * i) 64
  unfold State.readNode
  dsimp only
  split <;> rename_i he <;> rw [he] at h1
  · exact h1
  · rename_i s1 bs
    have h2 := h1.trans (onlyMem_successors s1 (h.q % 8) h.ctx (fieldAt bs 128 64) (fieldAt bs 192 16) count)
    dsimp only
    split
    · exact h2
    · exact h2.trans (onlyMem_handleUses ..)

/-! ## What the settling of nodes leaves -/

/-- What a submission sets of its queue: that it runs, its records and how many they are, what still waits, and its signet. -/
def queueKey (h : HostQ) : Bool × Nat × List (Nat × Nat) × Nat × W64 := (h.running, h.base, h.waiting, h.nodes.length, h.signet)

/-- The groups, and what a submission has set of each queue, are the same in both states. -/
def SameQueues (s t : State) : Prop := t.groups = s.groups ∧ ∀ q, (t.hq? q).map queueKey = (s.hq? q).map queueKey

theorem SameQueues.refl (s : State) : SameQueues s s := ⟨rfl, fun _ => rfl⟩

theorem SameQueues.trans {s t u : State} (h1 : SameQueues s t) (h2 : SameQueues t u) : SameQueues s u :=
  ⟨h2.1.trans h1.1, fun q => (h2.2 q).trans (h1.2 q)⟩

theorem sameQueues_foldl {α : Type} {f : State → α → State} (h : ∀ s x, SameQueues s (f s x)) : ∀ (l : List α) (s : State), SameQueues s (l.foldl f s)
  | [], s => .refl s
  | x :: l, s => (h s x).trans (sameQueues_foldl h l (f s x))

theorem OnlyMem.sameQueues {s t : State} (h : OnlyMem s t) : SameQueues s t := by
  obtain ⟨m, n, f, rfl⟩ := h
  exact .refl s

theorem sameQueues_emit (s : State) (r : TraceRec) : SameQueues s (s.emit r) := by
  obtain ⟨o, n, h⟩ := emit_eq s r
  rw [h]
  exact .refl s

theorem sameQueues_modHq (s : State) (q : Nat) {f : HostQ → HostQ} (hq : ∀ x, (f x).q = x.q) (hk : ∀ x, queueKey (f x) = queueKey x) :
    SameQueues s (s.modHq q f) := by
  refine ⟨rfl, fun h => ?_⟩
  rw [hq?_modHq s q h f hq, Option.map_map]
  refine congrArg (Option.map · _) (funext fun x => ?_)
  simp only [Function.comp]
  split
  · exact hk x
  · rfl

theorem onlyMem_writeNode (s : State) (h : HostQ) (n : Node) : OnlyMem s (s.writeNode h n) := by
  have h2 := (onlyMem_writeGlb s (h.q % 8) unitLauncher h.ctx (h.base + 64 * n.idx + 1)
    (leBytes 1 n.st.code ++ leBytes 2 n.preds ++ leBytes 1 n.fault.toNat)).trans
    (onlyMem_writeGlb _ (h.q % 8) unitLauncher h.ctx (h.base + 64 * n.idx + 28) (leBytes 4 n.failIdx))
  unfold State.writeNode
  dsimp only
  split
  · exact h2.trans (onlyMem_writeGlb ..)
  · exact h2

theorem sameQueues_setNode (s : State) (q idx : Nat) (f : Node → Node) : SameQueues s (s.setNode q idx f) := by
  have h1 := sameQueues_modHq s q (f := fun h => { h with nodes := mapIf (fun n => n.idx == idx) f h.nodes }) (fun _ => rfl) fun x => by
    simp [queueKey, mapIf]
  unfold State.setNode
  dsimp only
  split
  · exact h1
  · split
    · exact h1
    · exact h1.trans (onlyMem_writeNode ..).sameQueues

theorem sameQueues_traceNode (s : State) (q idx : Nat) : SameQueues s (s.traceNode q idx) := by
  unfold State.traceNode
  split
  · exact .refl s
  · split
    · exact .refl s
    · exact sameQueues_emit s _

theorem sameQueues_failNode (s : State) (q idx : Nat) (code : Byte) : SameQueues s (s.failNode q idx code) := by
  unfold State.failNode
  split
  · exact .refl s
  · refine ((sameQueues_setNode s q idx _).trans (sameQueues_traceNode _ q idx)).trans (sameQueues_foldl (fun s d => ?_) _ _)
    split
    · exact .refl s
    · split
      · exact (sameQueues_setNode ..).trans (sameQueues_traceNode ..)
      · exact .refl s

/-! ## The start -/

/-- The records of a submission's nodes read one after another: each adds its node to the queue, and `bad` collects the invalid ones. -/
def readNodes (h1 : HostQ) (c : Context) (count : Nat) (r : State × List Nat) (i : Nat) : State × List Nat :=
  ((r.1.readNode h1 c count i).1.modHq h1.q fun h => { h with nodes := h.nodes ++ [(r.1.readNode h1 c count i).2.1] },
    if (r.1.readNode h1 c count i).2.2 then r.2 else r.2 ++ [i])

theorem foldl_readNodes {h1 x : HostQ} (c : Context) (count : Nat) : ∀ (is : List Nat) (r : State × List Nat), r.1.hq? h1.q = some x →
    (is.foldl (readNodes h1 c count) r).1.groups = r.1.groups ∧
    ∃ ns, (is.foldl (readNodes h1 c count) r).1.hq? h1.q = some { x with nodes := x.nodes ++ ns } ∧ ns.length = is.length
  | [], r, h => ⟨rfl, [], by simp [h], rfl⟩
  | i :: is, r, h => by
    obtain ⟨m, n, f, he⟩ := onlyMem_readNode r.1 h1 c count i
    have hx : (readNodes h1 c count r i).1.hq? h1.q = some { x with nodes := x.nodes ++ [(r.1.readNode h1 c count i).2.1] } := by
      unfold readNodes
      rw [hq?_modHq _ _ _ _ (by intro _; rfl), he]
      exact (congrArg _ h).trans (congrArg _ (if_pos rfl))
    obtain ⟨hg, ns, hq, hl⟩ := foldl_readNodes c count is _ hx
    refine ⟨hg.trans ?_, (r.1.readNode h1 c count i).2.1 :: ns, hq.trans ?_, congrArg (· + 1) hl⟩
    · change (r.1.readNode h1 c count i).1.groups = _
      rw [he]
    · simp

/-- The state in which queue `h` has started the submission of `count` records at `base`: each record read, those that are not valid failed, and those
without predecessors READY. -/
def startedState (s : State) (h : HostQ) (c : Context) (base count : Nat) (rest : List (Nat × Nat)) : State :=
  let h1 := { h with base := base, waiting := rest, running := true, nodes := [], signet := s.freshSignet (h.q % 8) 3 0,
                     wdRemain := h.wdPeriod * 65536000 }
  let r := (List.range count).foldl (readNodes h1 c count) ((s.modHq h.q fun _ => h1).bumpSeq (h.q % 8) 3 0, [])
  (List.range count).foldl (fun s i => s.setNode h.q i fun n =>
    if n.st == .waiting && n.preds == 0 then { n with st := .ready, readyAt := s.out.elapsed } else n)
    (r.2.foldl (fun s i => s.failNode h.q i fcIllegal) r.1)

theorem submissionStart_answers {s : State} {h : HostQ} {c : Context} {base count : Nat} {rest : List (Nat × Nat)}
    (hh : s.settleQueues.hq? s.ev.id = some h) (hw : h.waiting = (base, count) :: rest) (hc : s.settleQueues.ctx? h.ctx = some c) :
    exec .submissionStart s = .next (if h.running || !(h.st == .open_) then s.settleQueues
      else (startedState s.settleQueues h c base count rest).launchers) := by
  change execSubmissionStart s = _
  simp only [execSubmissionStart, hh, hw, hc]
  split <;> rfl

/-- The record that replaces those of a key is found under it. -/
theorem find?_mapIf_const {α : Type} (key : α → Nat) {k : Nat} {y : α} (hy : key y = k) (l : List α) :
    (mapIf (fun x => key x == k) (fun _ => y) l).find? (fun x => key x == k) = (l.find? fun x => key x == k).map fun _ => y := by
  have hp : ((fun x => key x == k) ∘ fun x => if key x == k then y else x) = fun x => key x == k := by
    funext x
    by_cases h : key x = k <;> simp [h, hy]
  rw [mapIf, List.find?_map, hp]
  cases h : l.find? (fun x => key x == k) with
  | none => rfl
  | some x => exact congrArg some (if_pos (List.find?_some h))

/-- The queue that starts a submission runs it, with its records read. -/
theorem startedState_queue {s : State} {h : HostQ} (hh : s.hq? h.q = some h) (c : Context) (base count : Nat) (rest : List (Nat × Nat)) :
    (startedState s h c base count rest).groups = s.groups ∧ ∃ h', (startedState s h c base count rest).hq? h.q = some h' ∧
      queueKey h' = (true, base, rest, count, s.freshSignet (h.q % 8) 3 0) := by
  unfold startedState
  set h1 : HostQ := { h with base := base, waiting := rest, running := true, nodes := [], signet := s.freshSignet (h.q % 8) 3 0,
                             wdRemain := h.wdPeriod * 65536000 }
  have hq : ((s.modHq h.q fun _ => h1).bumpSeq (h.q % 8) 3 0).hq? h1.q = some h1 :=
    (find?_mapIf_const (fun x : HostQ => x.q) (y := h1) rfl s.hqs).trans (congrArg _ hh)
  obtain ⟨hg, ns, hr, hl⟩ := foldl_readNodes c count (List.range count) ((s.modHq h.q fun _ => h1).bumpSeq (h.q % 8) 3 0, []) hq
  dsimp only
  set r := (List.range count).foldl (readNodes h1 c count) ((s.modHq h.q fun _ => h1).bumpSeq (h.q % 8) 3 0, [])
  have hfr := (sameQueues_foldl (fun s i => sameQueues_failNode s h.q i fcIllegal) r.2 r.1).trans
    (sameQueues_foldl (fun s i => sameQueues_setNode s h.q i fun n =>
      if n.st == .waiting && n.preds == 0 then { n with st := .ready, readyAt := s.out.elapsed } else n) (List.range count) _)
  refine ⟨hfr.1.trans hg, ?_⟩
  have hk := (hfr.2 h.q).trans (congrArg _ hr)
  obtain ⟨h', hf, he⟩ := Option.map_eq_some_iff.mp hk
  refine ⟨h', hf, he.trans ?_⟩
  simp [queueKey, h1, hl]

end Sys2Proof
end

section
/-!
PROOFS. Placement of a band, its release, and a kernel fault (R36, R38, R39, R55).
-/
namespace Sys2Proof
open Machine

/-! ## Placement (R36, R38) -/

/-- Bands, groups and memory are the same in both states. -/
def SameBands (s t : State) : Prop := t.bands = s.bands ∧ t.groups = s.groups ∧ SameMemory s t

theorem SameBands.refl (s : State) : SameBands s s := ⟨rfl, rfl, rfl, rfl⟩

theorem SameBands.trans {s t u : State} (h1 : SameBands s t) (h2 : SameBands t u) : SameBands s u :=
  ⟨h2.1.trans h1.1, h2.2.1.trans h1.2.1, h2.2.2.1.trans h1.2.2.1, h2.2.2.2.trans h1.2.2.2⟩

theorem sameBands_foldl {α : Type} {f : State → α → State} (h : ∀ s x, SameBands s (f s x)) : ∀ (l : List α) (s : State), SameBands s (l.foldl f s)
  | [], s => .refl s
  | x :: l, s => (h s x).trans (sameBands_foldl h l (f s x))

theorem sameBands_emit (s : State) (r : TraceRec) : SameBands s (s.emit r) := by
  obtain ⟨o, n, h⟩ := emit_eq s r
  rw [h]
  exact .refl s

/-- A lane of an initial group stands at ENTRY, its registers 0 (R38). -/
theorem initGroup_lane (s : State) (k : Kernel) (b : Band) (gid i : Nat) (slot : Nat × Nat) {l : Nat} (hl : l < 32) :
    (s.initGroup k b gid i slot).lane l = k.launch.lane (b.index * k.launch.bandGroups + i) l := by
  simp [Group.lane, State.initGroup, laneNos, List.getD_eq_getElem?_getD, hl]

theorem launchLane_rv (l : Launch) (q n r : Nat) : (l.lane q n).rv r = 0 := by
  simp only [Lane.rv, Launch.lane, List.getD_eq_getElem?_getD, List.getElem?_replicate]
  split <;> rfl

/-- A band placed stands last among the bands, its groups last among the groups (R36, R38). -/
theorem placeBand_eq (s : State) (k : Kernel) (i die core : Nat) : ∃ (b : Band) (slot : Nat → Nat × Nat),
    (s.placeBand k i die core).bands = s.bands ++ [b] ∧
    (s.placeBand k i die core).groups = s.groups ++ ((List.range k.launch.bandGroups).map fun j => s.initGroup k b (s.nextId + 1 + j) j (slot j)) ∧
    SameMemory s (s.placeBand k i die core) ∧
    b.kid = k.kid ∧ b.index = i ∧ b.die = die ∧ b.core = core ∧ b.ctx = k.ctx ∧ b.st = .resident := by
  have sems : ∀ (n ctx bid scope : Nat) (u : State), SameBands u ((List.range n).foldl (fun s _ => match s.freeSem die with
      | some i => s.takeSem die i .declared ctx bid 0 scope
      | none => s) u) := fun n ctx bid scope u => sameBands_foldl (fun s _ => by
    split
    · exact .refl s
    · exact .refl s) _ u
  have placed : ∀ (n ctx bid scope : Nat) (f : Context → Context) (r : TraceRec) (u : State), SameBands u _ :=
    fun n ctx bid scope f r u => ((sems n ctx bid scope u).trans (u := State.modCtx _ k.ctx f) (.refl _)).trans (sameBands_emit _ r)
  unfold State.placeBand State.emitUnit
  dsimp only
  exact ⟨_, fun j => (slotsFor (s.slotsTaken die core) k.launch.slotQuads).getD j (0, 0),
    (placed _ _ _ _ _ _ _).1, (placed _ _ _ _ _ _ _).2.1, (placed _ _ _ _ _ _ _).2.2, rfl, rfl, rfl, rfl, rfl, rfl⟩

end Sys2Proof
end

section
/-!
PROOFS. Release of a band and kernel faults (R39, R55): what stands afterwards.
-/
namespace Sys2Proof
open Machine

/-! ## Release (R39) -/

/-- A key that no cell has reads 0. -/
theorem cellGet_absent {k : Nat} : ∀ {m : List Host.Cell}, (∀ c ∈ m, c.1 ≠ k) → cellGet m k = 0
  | [], _ => rfl
  | (a, x) :: m, h => by
    have ha : a ≠ k := h (a, x) List.mem_cons_self
    simp only [cellGet, ha, if_false]
    exact cellGet_absent fun c hc => h c (List.mem_cons_of_mem _ hc)

theorem band?_filter_self (bs : List Band) (b : Nat) : (bs.filter fun x => !(x.bid == b)).find? (fun x => x.bid == b) = none := by
  simp [List.find?_eq_none]

/-- A band whose slots and stash have been returned is no band any more. -/
theorem freeBand_band? (s : State) (b : Band) : (s.freeBand b).band? b.bid = none := band?_filter_self _ _

theorem releaseBand_band? (s : State) (b : Band) : (s.releaseBand b).band? b.bid = none := by
  unfold State.releaseBand
  split <;> exact freeBand_band? _ b

/-- The stash of a band that has been freed where it stood reads zero (R39). -/
theorem freeBand_stash (s : State) {b : Band} (h : b.st ≠ .saved) {off : Nat} (hlo : 128 * b.stashBase ≤ off)
    (hhi : off < 128 * (b.stashBase + b.stashLines)) : cellGet (s.freeBand b).mem.stash (stashKey b.die b.core off) = 0 := by
  refine cellGet_absent fun c hc hk => ?_
  have hin := (List.mem_filter.mp hc).2
  have h1 : stashKey b.die b.core (128 * b.stashBase) ≤ c.1 := by rw [hk]; unfold stashKey; omega
  have h2 : c.1 < stashKey b.die b.core (128 * (b.stashBase + b.stashLines)) := by rw [hk]; unfold stashKey; omega
  simp [h, h1, h2] at hin

/-! ## Kernel faults (R55) -/

/-- Every group of `t` was one of `s`, of the same band. -/
def GroupsFrom (s t : State) : Prop := ∀ x ∈ t.groups, ∃ y ∈ s.groups, y.gid = x.gid ∧ y.band = x.band

theorem groupsFrom_of_eq {s t : State} (h : t.groups = s.groups) : GroupsFrom s t := fun x hx => ⟨x, h ▸ hx, rfl, rfl⟩

theorem GroupsFrom.refl (s : State) : GroupsFrom s s := groupsFrom_of_eq rfl

theorem GroupsFrom.trans {s t u : State} (h1 : GroupsFrom s t) (h2 : GroupsFrom t u) : GroupsFrom s u := by
  intro x hx
  obtain ⟨y, hy, h3, h4⟩ := h2 x hx
  obtain ⟨z, hz, h5, h6⟩ := h1 y hy
  exact ⟨z, hz, h5.trans h3, h6.trans h4⟩

theorem groupsFrom_foldl {α : Type} {f : State → α → State} (h : ∀ s x, GroupsFrom s (f s x)) : ∀ (l : List α) (s : State), GroupsFrom s (l.foldl f s)
  | [], s => .refl s
  | x :: l, s => (h s x).trans (groupsFrom_foldl h l (f s x))

theorem OnlyMem.groupsFrom {s t : State} (h : OnlyMem s t) : GroupsFrom s t := groupsFrom_of_eq h.sameQueues.1

theorem OnlyMem.of_fst {α : Type} {s t : State} {p : State × α} {x : α} (h : OnlyMem s p.1) (he : p = (t, x)) : OnlyMem s t := by
  rw [he] at h
  exact h

theorem groupsFrom_mapIf {s t : State} {p : Group → Bool} {f : Group → Group} (h : t.groups = mapIf p f s.groups)
    (hf : ∀ g, (f g).gid = g.gid ∧ (f g).band = g.band) : GroupsFrom s t := by
  intro x hx
  rw [h, mapIf, List.mem_map] at hx
  obtain ⟨y, hy, rfl⟩ := hx
  refine ⟨y, hy, ?_⟩
  split
  · exact ⟨(hf y).1.symm, (hf y).2.symm⟩
  · exact ⟨rfl, rfl⟩

theorem groupsFrom_modGroup (s : State) (gid : Nat) {f : Group → Group} (hf : ∀ g, (f g).gid = g.gid ∧ (f g).band = g.band) :
    GroupsFrom s (s.modGroup gid f) := groupsFrom_mapIf rfl hf

theorem groupsFrom_emit (s : State) (r : TraceRec) : GroupsFrom s (s.emit r) := groupsFrom_of_eq (emit_groups s r)

theorem groupsFrom_debugHalt (s : State) (g : Group) (cause : Nat) (pc : W32) : GroupsFrom s (s.debugHalt g cause pc) := by
  unfold State.debugHalt State.emitGroup
  exact (groupsFrom_mapIf (by rfl) (by intro g; exact ⟨rfl, rfl⟩)).trans (groupsFrom_emit _ _)

theorem groupsFrom_diverge (s : State) (kid : Nat) (gid : Option Nat) (die core : Nat) (pc : W32) (count : Nat) (bytes : Bool) :
    GroupsFrom s (s.diverge kid gid die core pc count bytes) := by
  unfold State.diverge
  dsimp only
  split
  · exact .refl s
  · split
    · exact .refl s
    · split
      · split
        · exact groupsFrom_mapIf (by rfl) (by intro g; exact ⟨rfl, rfl⟩)
        · exact groupsFrom_of_eq rfl
      · exact groupsFrom_of_eq rfl

theorem groupsFrom_settleRaise (s : State) (k : Kernel) : GroupsFrom s (s.settleRaise k) := by
  have back : ∀ (u : State) (y : Raise), GroupsFrom u (y.gid.elim u fun i => u.modGroup i fun g => { g with dbgHalt := y.halted }) := by
    intro u y
    cases y.gid with
    | none => exact .refl u
    | some i => exact groupsFrom_modGroup u i fun _ => ⟨rfl, rfl⟩
  have h1 := groupsFrom_foldl back k.raised.reverse s
  unfold State.settleRaise
  dsimp only
  split
  · exact .refl s
  · split
    · exact h1.trans (groupsFrom_emit (State.modKernel _ k.kid _) _)
    · have h2 := fun r => h1.trans (groupsFrom_emit (State.modKernel _ k.kid fun k => { k with raised := [], diverged := true }) r)
      split
      · exact (h2 _).trans (groupsFrom_debugHalt _ _ _ _)
      · exact h2 _

theorem groupsFrom_censusRelease (s : State) (b : Band) (k : Kernel) : GroupsFrom s (s.censusRelease b k) := by
  unfold State.censusRelease
  dsimp only
  split
  · exact groupsFrom_of_eq rfl
  · rename_i r _
    refine ((groupsFrom_foldl (fun u c => ?put) _ s).trans (groupsFrom_foldl (fun u i => ?check) _ _)).trans (groupsFrom_of_eq rfl)
    case put =>
      split <;> rename_i he
      · exact ((onlyMem_ringPut ..).of_fst he).groupsFrom
      · exact ((onlyMem_ringPut ..).of_fst he).groupsFrom.trans (groupsFrom_of_eq rfl)
    case check =>
      have h1 := (onlyMem_readGlb u b.die b.core b.ctx (r.base + 32 * i) 32).groupsFrom
      split <;> rename_i he <;> rw [he] at h1
      · exact h1
      · split
        · split
          · exact h1.trans (groupsFrom_diverge _ _ _ _ _ _ _ _)
          · exact h1
        · exact h1

theorem groupsFrom_endBand (s : State) (b : Band) (k : Kernel) : GroupsFrom s (s.endBand b k) := by
  unfold State.endBand State.emitUnit
  dsimp only
  exact (groupsFrom_censusRelease s b k).trans ((groupsFrom_of_eq rfl).trans (groupsFrom_emit _ _))

theorem groupsFrom_freeBand (s : State) (b : Band) : GroupsFrom s (s.freeBand b) :=
  (onlyMem_foldl (fun s l => onlyMem_writeBack s l) (s.mem.stashLines.filter fun l => l.band == b.bid) s).groupsFrom.trans (groupsFrom_of_eq rfl)

theorem groupsFrom_killBand (s : State) (gs : List Group) (b : Band) : GroupsFrom s (s.killBand gs b) := by
  have hlast : ∀ (u : State) (b' : Band), GroupsFrom u (if u.ghostsQuiet b' then u.freeBand b else u.modBand b.bid fun _ => b') := by
    intro u b'
    split
    · exact groupsFrom_freeBand u b
    · exact groupsFrom_of_eq rfl
  unfold State.killBand
  cases s.kernel? b.kid with
  | none => exact hlast s _
  | some k => exact (groupsFrom_endBand s b k).trans (hlast _ _)

theorem groupsFrom_childRecord (s : State) (k : Kernel) (status : Nat) (code : Byte) : GroupsFrom s (s.childRecord k status code) := by
  unfold State.childRecord
  split
  · split
    · exact .refl s
    · exact (onlyMem_ringPut ..).groupsFrom
  · exact .refl s

/-- The kernels that end with a kernel: those of its task (R55). -/
def taskKernels (s : State) (kid : Nat) : List Kernel := s.kernels.filter fun k => s.taskOf k.kid == s.taskOf kid

/-- The bands that end with a kernel. -/
def taskBands (s : State) (kid : Nat) : List Band := s.bands.filter fun b => ((taskKernels s kid).map fun k => k.kid).contains b.kid

/-- The groups that end with a kernel. -/
def taskGroups (s : State) (kid : Nat) : List Nat :=
  (s.groups.filter fun g => ((taskBands s kid).map fun b => b.bid).contains g.band).map fun g => g.gid

/-- Groups dropped are no groups any more, and the others are those that were there. -/
theorem foldl_dropGroup : ∀ (gids : List Nat) (s : State), ∀ x ∈ (gids.foldl (fun s i => s.dropGroup i) s).groups, x ∈ s.groups ∧ x.gid ∉ gids
  | [], _, x, hx => ⟨hx, by simp⟩
  | i :: gids, s, x, hx => by
    obtain ⟨hmem, hnot⟩ := foldl_dropGroup gids (s.dropGroup i) x hx
    obtain ⟨hs, hi⟩ := List.mem_filter.mp hmem
    exact ⟨hs, by simpa [hnot] using hi⟩

/-- The state in which the groups of a kernel's task have been dropped. -/
def taskDropped (s : State) (kid : Nat) : State :=
  (taskGroups s kid).foldl (fun s i => s.dropGroup i) ((taskKernels s kid).foldl (fun s k => s.settleRaise k) s)

/-- A group that stands after its task has been dropped belongs to no band of the task. -/
theorem taskDropped_band {s : State} {kid : Nat} {x : Group} (hx : x ∈ (taskDropped s kid).groups) {b : Band} (hb : b ∈ taskBands s kid) :
    x.band ≠ b.bid := by
  intro he
  obtain ⟨hmem, hnot⟩ := foldl_dropGroup _ _ x hx
  obtain ⟨y, hy, hgid, hband⟩ := groupsFrom_foldl groupsFrom_settleRaise _ s x hmem
  refine hnot (List.mem_map.mpr ⟨y, List.mem_filter.mpr ⟨hy, ?_⟩, hgid⟩)
  simpa [hband, he] using ⟨b, hb, rfl⟩

/-- The end of a task after its groups have been dropped: its work cancelled, its bands ended and its children's completions written (R55, R334). -/
def taskEnded (s : State) (kid : Nat) (code : Byte) : State :=
  let kids := (taskKernels s kid).map fun k => k.kid
  let s1 := taskDropped s kid
  let s3 := { s1 with chans := s1.chans.map fun (c : Channel) => c.cancel (fun p => kids.contains p.kid) code,
                      sync := { s1.sync with bars := s1.sync.bars.filter fun r => !(kids.contains r.kid) } }
  (taskKernels s kid).foldl (fun s k => s.childRecord k (if k.kid = kid then 2 else 1) code)
    ((taskBands s kid).foldl (fun t b => t.killBand s.groups b) s3)

/-- The node of a task fails with it, or the host is told. -/
def taskTold (s : State) (kid : Nat) (code : Byte) : State :=
  match s.kernel? (s.taskOf kid) with
  | some k => match k.parent with
    | .node q n => (taskEnded s kid code).failNode q n code
    | .host tag => (taskEnded s kid code).modOut fun o => { o with sent := o.sent ++ [HostMsg.event 0x100 [BitVec.ofNat 64 tag, code.setWidth 64]] }
    | .launch _ _ _ _ _ _ | .boot => taskEnded s kid code
  | none => taskEnded s kid code

theorem groupsFrom_taskEnded (s : State) (kid : Nat) (code : Byte) : GroupsFrom (taskDropped s kid) (taskEnded s kid code) := by
  unfold taskEnded
  refine GroupsFrom.trans ?_ (groupsFrom_foldl (fun t k => groupsFrom_childRecord t k (if k.kid = kid then 2 else 1) code) _ _)
  exact (groupsFrom_of_eq rfl).trans (groupsFrom_foldl (fun t b => groupsFrom_killBand t s.groups b) _ _)

theorem groupsFrom_taskTold (s : State) (kid : Nat) (code : Byte) : GroupsFrom (taskDropped s kid) (taskTold s kid code) := by
  have h := groupsFrom_taskEnded s kid code
  unfold taskTold
  split
  · split
    · exact h.trans (groupsFrom_of_eq (sameQueues_failNode _ _ _ code).1)
    · exact h
    · exact h
    · exact h
  · exact h

/-- What a fault of a kernel that stands leaves: no kernel of its task, and nothing of its bands in the tables (R55). -/
theorem kernelFault_eq {s : State} {kid : Nat} (h : taskKernels s kid ≠ []) (code : Byte) : ∃ t : TabState, s.kernelFault kid code =
    ({ taskTold s kid code with
        kernels := (taskTold s kid code).kernels.filter fun k => !(((taskKernels s kid).map fun k => k.kid).contains k.kid), tab := t }
      : State).dropCodes := by
  unfold State.kernelFault
  exact ⟨_, if_neg (by rwa [List.isEmpty_iff])⟩

section Fault
variable {s : State} {k : Kernel} (hk : s.kernel? k.kid = some k) (code : Byte)
include hk

theorem mem_taskKernels : k ∈ taskKernels s k.kid := List.mem_filter.mpr ⟨List.mem_of_find?_eq_some hk, by simp⟩

/-- A kernel that has faulted is no kernel any more. -/
theorem kernelFault_kernels : ∀ x ∈ (s.kernelFault k.kid code).kernels, x.kid ≠ k.kid := by
  obtain ⟨t, he⟩ := kernelFault_eq (List.ne_nil_of_mem (mem_taskKernels hk)) code
  intro x hx hxk
  rw [he] at hx
  have hnot := (List.mem_filter.mp hx).2
  simp only [hxk, Bool.not_eq_true', List.contains_eq_mem, decide_eq_false_iff_not] at hnot
  exact hnot (List.mem_map.mpr ⟨k, mem_taskKernels hk, rfl⟩)

/-- No group of its bands is left. -/
theorem kernelFault_groups {b : Band} (hb : b ∈ s.bands) (hbk : b.kid = k.kid) : ∀ x ∈ (s.kernelFault k.kid code).groups, x.band ≠ b.bid := by
  obtain ⟨t, he⟩ := kernelFault_eq (List.ne_nil_of_mem (mem_taskKernels hk)) code
  intro x hx
  rw [he] at hx
  obtain ⟨y, hy, -, hband⟩ := groupsFrom_taskTold s k.kid code x hx
  have hin : b ∈ taskBands s k.kid := List.mem_filter.mpr ⟨hb, by simpa [hbk] using ⟨k, mem_taskKernels hk, rfl⟩⟩
  exact hband ▸ taskDropped_band hy hin

end Fault

end Sys2Proof
end

section
/-!
PROOFS. The launcher of a die (O45): submissions, event waits, code objects, candidates, bands and tasks.
-/
namespace Sys2Proof
open Machine

/-! ## Event waits (R304) -/

section EventWait
variable {s : State} {h : HostQ} {n : Node} (hh : s.hq? s.ev.id = some h)
  (hn : h.nodes.find? (fun n => n.idx == s.ev.sub && n.kind == 3 && n.st == .running) = some n)
include hh hn

/-- A wait reads its word, and is done when the word is not 0. -/
theorem eventWait_here {ctx va : Nat} {u : State} {bs : List Byte} (he : n.evop = false) (ha : s.eventAt h.ctx n.body false = .here ctx va)
    (hr : s.readGlb (h.q % 8) unitLauncher ctx va 8 = (u, .ok bs)) :
    exec .eventWaitSatisfied s = .next (if leNat bs = 0 then u else (u.doneNode h.q n.idx).launchers) := by
  change execEventWaitSatisfied s = _
  simp only [execEventWaitSatisfied, hh, hn, he, ha, hr, Bool.false_eq_true, if_false]

/-- Another module's answer without a fault completes a signal, and a wait whose word is not 0. -/
theorem eventWait_away (ha : s.eventAt h.ctx n.body n.evop = .away) (hl : s.ev.lane = 0) : exec .eventWaitSatisfied s =
    .next (if n.evop = false ∧ leNat s.ev.bytes = 0 then s else (s.doneNode h.q n.idx).launchers) := by
  change execEventWaitSatisfied s = _
  have h1 : (0#8 : Byte) ≠ fcNoMapping := by decide
  have h2 : (0#8 : Byte) ≠ fcPeerUnreachable := by decide
  cases he : n.evop with
  | false =>
    rw [he] at ha
    by_cases hb : leNat s.ev.bytes = 0 <;> simp [execEventWaitSatisfied, hh, hn, he, ha, hl, hb]
  | true =>
    rw [he] at ha
    simp [execEventWaitSatisfied, hh, hn, he, ha, hl, h1, h2]

end EventWait

/-! ## Code objects (R306) -/

/-- The kernels of a code object marked as loaded. -/
def markLoaded (k : Kernel) (s : State) : State :=
  let same := fun (x : Kernel) => x.die == k.die && x.ctx == k.ctx && x.launch.code == k.launch.code
  { s with kernels := mapIf same (fun x => { x with loaded := true }) s.kernels }

/-- The code object of a kernel as its bytes and those of its handler table give it. -/
def codeRead (k : Kernel) (bs hb : List Byte) : CodeObj :=
  let ws := (List.range (3 * k.launch.clen)).map (wordAt bs)
  { die := k.die, ctx := k.ctx, addr := k.launch.code, words := ws, handlers := (List.range 256).map (wordAt hb), matrix := codeIsMatrix ws }

theorem codeObjectLoad_loads {s u v : State} {k : Kernel} {bs hb : List Byte} (hk : s.kernel? s.ev.id = some k) (hl : k.loaded = false)
    (hr : s.readGlb k.die unitLauncher k.ctx k.launch.code (12 * k.launch.clen) = (u, .ok bs))
    (hh : u.readGlb k.die unitLauncher k.ctx (k.launch.code - 1024) 1024 = (v, .ok hb)) : exec .codeObjectLoad s =
    .next (markLoaded k { v with codes := v.codes ++ [codeRead k bs hb] }) := by
  change execCodeObjectLoad s = _
  simp only [execCodeObjectLoad, hk, hl, hr, hh, Bool.false_eq_true, if_false]
  rfl

/-- The kernel whose code has been read is loaded. -/
theorem markLoaded_kernel? {s : State} {k : Kernel} (hk : s.kernel? k.kid = some k) : (markLoaded k s).kernel? k.kid = some { k with loaded := true } := by
  refine (mapIf_find (fun x : Kernel => x.kid == k.kid) _ _ _ (by intro _; rfl)).trans ?_
  rw [show s.kernels.find? (fun x => x.kid == k.kid) = some k from hk]
  simp

theorem kernel?_kid {s : State} {i : Nat} {k : Kernel} (hk : s.kernel? i = some k) : k.kid = i :=
  beq_iff_eq.mp (List.find?_some (p := fun k : Kernel => k.kid == i) hk)

/-! ## Candidates and bands -/

theorem bandPlace_places {s : State} {k : Kernel} {r : List Kernel} {ps : List (Nat × Nat × Nat)}
    (h : s.unblocked s.ev.die (s.launchCands s.ev.die) = k :: r) (hp : s.placesNow k = some ps) : exec .bandPlace s = .next (s.placeAll k ps) := by
  change execBandPlace s = _
  simp only [execBandPlace, h, State.placeFirst, hp]

theorem bandPlace_none {s : State} (h : s.unblocked s.ev.die (s.launchCands s.ev.die) = []) : exec .bandPlace s = .next s := by
  change execBandPlace s = _
  simp only [execBandPlace, h, State.placeFirst]

/-- The oldest candidate passed over for 100 µs blocks, or is rejected where it can never be resident (R311). -/
theorem blockingCandidate_answers {s : State} {k : Kernel} (hb : ∀ x ∈ s.kernels, x.die = s.ev.die → x.blocking = false)
    (hk : (sortBy (fun (k : Kernel) => k.readyAt) ((s.launchCands s.ev.die).filter fun (k : Kernel) => match k.passedAt with
      | some t => decide (t + usToUnits 100 ≤ s.out.elapsed)
      | none => false)).head? = some k) :
    exec .blockingCandidate s = .next (if s.everFits k then s.modKernel k.kid fun k => { k with blocking := true }
      else (s.kernelFault k.kid fcIllegal).settleQueues) := by
  change execBlockingCandidate s = _
  have hnone : (s.kernels.any fun k => k.die == s.ev.die && k.blocking) = false := by
    rw [List.any_eq_false]
    intro x hx
    by_cases hd : x.die = s.ev.die
    · simp [hb x hx hd]
    · simp [hd]
  simp only [execBlockingCandidate, hnone, Bool.false_eq_true, if_false]
  generalize hq : List.head? _ = cand
  obtain rfl : cand = some k := hq.symm.trans hk
  dsimp only
  split <;> rfl

theorem bandRelease_answers {s : State} {b : Band} (h : s.band? s.ev.id = some b) : exec .bandRelease s =
    .next (if b.st = .dying then (if s.ghostsQuiet b then s.freeBand b else s) else if s.bandDone b then s.releaseBand b else s) := by
  change execBandRelease s = _
  simp only [execBandRelease, h]

/-- A band that is done is resident. -/
theorem bandDone_resident {s : State} {b : Band} (h : s.bandDone b = true) : b.st = .resident := by
  simp only [State.bandDone, Bool.and_eq_true, beq_iff_eq, and_assoc] at h
  exact h.1

/-! ## Tasks (R54) -/

/-- The state without a kernel that has completed, and without the code that no other kernel names (R306). -/
def completed (s : State) (k : Kernel) : State := { s with kernels := s.kernels.filter fun x => !(x.kid == k.kid) }.dropCodes

theorem completed_kernels (s : State) (k : Kernel) : ∀ x ∈ (completed s k).kernels, x.kid ≠ k.kid := by
  intro x hx
  simpa using (List.mem_filter.mp hx).2

/-- A kernel of the host or of a node with nothing left completes. -/
theorem taskComplete_answers {s : State} {k : Kernel} (hk : s.kernel? s.ev.id = some k) (hp : k.launch.bandCount ≤ k.placed)
    (hr : k.launch.bandCount ≤ k.released) (hd : k.raised = []) (hc : ∀ x ∈ s.kernels, ∀ p b e n v w, x.parent = .launch p b e n v w → p ≠ k.kid)
    (hpar : ∀ p b e n v w, k.parent ≠ .launch p b e n v w) : exec .taskComplete s = .next (match k.parent with
      | .node q n => ((completed s k).modHq q HostQ.reload |>.doneNode q n).launchers
      | .launch _ _ _ _ _ _ => (completed s k).crecAll
      | .host t => (completed s k).modOut fun o => { o with sent := o.sent ++ [HostMsg.event 0x101 [BitVec.ofNat 64 t]] }
      | .boot => completed s k) := by
  change execTaskComplete s = _
  have hopen : ∀ f : Kernel → Bool, (∀ x, f x = true → ∃ p b e n v w, x.parent = .launch p b e n v w ∧ p = k.kid) → s.kernels.any f = false := by
    intro f hf
    refine List.any_eq_false.mpr fun x hx ht => ?_
    obtain ⟨p, b, e, n, v, w, hxp, hpk⟩ := hf x ht
    exact hc x hx p b e n v w hxp hpk
  have hchild : s.childRecord k 0 0 = s := by
    unfold State.childRecord
    split
    · exact absurd ‹_› (hpar _ _ _ _ _ _)
    · rfl
  unfold execTaskComplete
  rw [hk]
  dsimp only
  rw [hopen _ fun x hx => ?isChild, hchild, if_neg (by simp [hd]; omega)]
  case isChild =>
    split at hx
    · exact ⟨_, _, _, _, _, _, ‹_›, beq_iff_eq.mp hx⟩
    · exact absurd hx (by simp)
  cases k.parent <;> rfl

/-- Settles O45, event by event. -/
theorem launcherRunsTasks : Obligations.LauncherRunsTasks := by
  intro s
  refine ⟨⟨fun h c base count rest hh hw hc hr hst => ?starts, fun h hh hor => ?waits⟩,
    fun h n hh hn => ⟨fun ctx va u bs he ha hr => eventWait_here hh hn he ha hr, eventWait_away hh hn⟩,
    fun k u v bs hb hk hl hr hh hu hv hvc => ?code, fun k r ps => bandPlace_places, bandPlace_none, fun k hb hk => ?blocking, fun b h => ?release,
    fun k i die core => ?place, fun b => ⟨releaseBand_band? s b, freeBand_band? s b, fun h off hlo hhi => freeBand_stash s h hlo hhi⟩,
    fun k code hk => ⟨kernelFault_kernels hk code, fun b hb hbk => kernelFault_groups hk code hb hbk⟩,
    fun k t hk hpar hp hr hd hc => ?host, fun k q n hk hpar hp hr hd hc => ?node⟩
  case starts =>
    have hq : h.q = s.ev.id := beq_iff_eq.mp (List.find?_some (p := fun x : HostQ => x.q == s.ev.id) hh)
    obtain ⟨hg, h', hh', hkey⟩ := startedState_queue (hq ▸ hh) c base count rest
    simp only [queueKey, Prod.mk.injEq] at hkey
    obtain ⟨hrun, hbase, hwait, hlen, hsig⟩ := hkey
    have hx := submissionStart_answers hh hw hc
    rw [if_neg (by simp [hr, hst])] at hx
    exact ⟨_, h', hx, hh', hrun, hbase, hwait, hlen, hsig, hg⟩
  case waits =>
    change execSubmissionStart s = _
    have hbusy : (h.running || !(h.st == .open_)) = true := by
      rcases hor with hr | hst
      · simp [hr]
      · simp [hst]
    simp only [execSubmissionStart, hh]
    split
    · simp only [hbusy, if_true]
    · rfl
  case code =>
    have hkid := kernel?_kid hk
    refine ⟨_, _, codeObjectLoad_loads hk hl hr hh, congrArg (· ++ _) hvc, rfl, rfl, rfl, rfl, rfl, rfl, ?_⟩
    rw [markLoaded_kernel?]
    · rfl
    · unfold State.kernel?
      rw [← hkid] at hk
      exact hv ▸ hk
  case blocking =>
    have hx := blockingCandidate_answers hb hk
    exact ⟨fun hf => hx.trans (congrArg _ (if_pos hf)), fun hf => hx.trans (congrArg _ (if_neg (Bool.eq_false_iff.mp hf)))⟩
  case release =>
    have hx := bandRelease_answers h
    refine ⟨fun hd => ?_, fun hd hn => ?_, fun hst hg => ?_⟩
    · rw [hx, if_neg (by simp [bandDone_resident hd]), if_pos hd]
    · rw [hx, if_neg (Bool.eq_false_iff.mp hd)]
      split
      next hst => rw [if_neg (by simpa [hst] using hn)]
      next => rfl
    · rw [hx, if_pos hst, if_pos hg]
  case place =>
    obtain ⟨b, slot, hb, hg, hm, h1, h2, h3, h4, h5, h6⟩ := placeBand_eq s k i die core
    refine ⟨b, _, hb, hg, h1, h2, h3, h4, h5, h6, by simp, hm, fun x hx => ?_⟩
    obtain ⟨j, -, rfl⟩ := List.mem_map.mp hx
    refine ⟨rfl, h3, h4, rfl, rfl, rfl, fun l hl => ?_⟩
    rw [initGroup_lane s k b _ j _ hl]
    exact ⟨rfl, fun n => launchLane_rv .., rfl⟩
  case host =>
    have hx := taskComplete_answers hk hp hr hd hc (by simp [hpar])
    rw [hpar] at hx
    exact ⟨_, hx, rfl, completed_kernels s k, rfl, rfl, rfl⟩
  case node =>
    have hx := taskComplete_answers hk hp hr hd hc (by simp [hpar])
    rw [hpar] at hx
    exact ⟨completed s k, hx, completed_kernels s k⟩

end Sys2Proof
end

section
/-!
PROOFS. The copy and collective engines (R278 to R293, R430): the reading and start of a channel's records.
-/
namespace Sys2Proof
open Machine

/-! ## Channels -/

theorem chan?_cid {s : State} {i : Nat} {c : Channel} (h : s.chan? i = some c) : c.cid = i :=
  beq_iff_eq.mp (List.find?_some (p := fun x : Channel => x.cid == i) h)

theorem chan?_modChan (s : State) (i : Nat) (f : Channel → Channel) (hf : ∀ x, (f x).cid = x.cid) {c : Channel} (h : s.chan? i = some c) :
    (s.modChan i f).chan? i = some (f c) := by
  refine (find?_mapIf (fun x : Channel => x.cid) i f hf i s.chans).trans ?_
  rw [show s.chans.find? (fun x => x.cid == i) = some c from h, Option.map_some, if_pos rfl]

/-! ## CHAN_CHAIN_START (R286) -/

theorem chanChainStart_starts {s : State} {c : Channel} {p : Post} {ps : List Post} (h : s.chan? s.ev.id = some c) (hp : c.posts = p :: ps)
    (hi : c.st = .idle) : exec .chanChainStart s = .next (s.modChan c.cid fun c =>
      { c with posts := ps, cur := some (p.head, p), st := .running, node := p.node, failed := none, part := [], page := none }).launchers := by
  change execChanChainStart s = _
  simp only [execChanChainStart, h, hp, hi, if_true]

theorem chanChainStart_stays {s : State} {c : Channel} (h : s.chan? s.ev.id = some c) (hn : c.posts = [] ∨ c.st ≠ .idle) :
    exec .chanChainStart s = .next s := by
  change execChanChainStart s = _
  simp only [execChanChainStart, h]
  split
  · rfl
  · next p ps hp =>
    have hi : c.st ≠ .idle := hn.resolve_left (by simp [hp])
    exact if_neg hi

/-! ## Reading a record (R279, R298) -/

/-- Fields `k` to `k + n - 1` of a record, none of them in hand, read one after another; `v j` is the state before field `j` is read. -/
theorem readFields_reads {c : Channel} {ctx a : Nat} {v : Nat → State} {bs : Nat → List Byte} : ∀ (n k : Nat) (part : List (Nat × List Byte)),
    k + n ≤ 8 → (∀ x ∈ part, x.1 < k) →
    (∀ j < 8, (v j).readGlb c.die c.unit ctx (a + 8 * j) 8 = (v (j + 1), .ok (bs j))) →
    (v k).readFields c ctx a 255 (List.range' k n) part = (v (k + n), part ++ (List.range' k n).map fun j => (j, bs j), none)
  | 0, k, part, _, _, _ => by simp [State.readFields]
  | n + 1, k, part, hk, hp, hv => by
    have hbit : ∀ j < 8, bits 255 j 1 ≠ 0 := by decide
    have hnew : (part.any fun x => x.1 == k) = false := by
      simp only [List.any_eq_false, beq_iff_eq]
      exact fun x hx => (hp x hx).ne
    have ih := readFields_reads (c := c) (ctx := ctx) (a := a) n (k + 1) (part ++ [(k, bs k)]) (by omega) (by grind) hv
    rw [List.range'_succ, State.readFields, if_neg (by simp [hbit k (by omega), hnew]), hv k (by omega)]
    simpa [Nat.add_right_comm k 1 n, Nat.add_assoc] using ih

theorem readRecord_whole {s : State} {c : Channel} {ctx a : Nat} {v : Nat → State} {bs : Nat → List Byte} (hl : s.ev.lane % 256 = 0)
    (hp : c.part = []) (h0 : v 0 = s)
    (hv : ∀ k < 8, (v k).readGlb c.die c.unit ctx (a + 8 * k) 8 = (v (k + 1), .ok (bs k))) :
    s.readRecord c ctx a = ((v 8).modChan c.cid fun c => { c with part := [] }, .whole ((List.range 8).flatMap bs)) := by
  have hr := readFields_reads (c := c) (ctx := ctx) (a := a) (v := v) (bs := bs) 8 0 [] le_rfl (by simp) hv
  rw [h0] at hr
  simp only [State.readRecord, hl, if_true, hp, List.range_eq_range', hr]
  rfl

/-! ## ENGINE_RECORD_START (R279, R286, R292) -/

theorem readsNext_full {s : State} {c : Channel} (h : 8 ≤ c.recs.length) : s.readsNext c = false := by
  simp [State.readsNext, Nat.not_lt.mpr h]

theorem readsNext_doomed {s : State} {c : Channel} (hl : c.recs.length < 8) (hp : c.page = none) (hd : c.doomed ≠ []) :
    s.readsNext c = true := by
  simp [State.readsNext, hl, hp, hd]

theorem readsNext_cur {s : State} {c : Channel} {a : Nat} {p : Post} (hl : c.recs.length < 8) (hp : c.page = none) (hc : c.cur = some (a, p))
    (hn : s.needsMet p.needs = true) : s.readsNext c = true := by
  simp [State.readsNext, hl, hp, hc, hn]

theorem engineRecordStart_full {s : State} {c : Channel} (h : s.chan? s.ev.id = some c) (hl : 8 ≤ c.recs.length) :
    exec .engineRecordStart s = .next s := by
  change execEngineRecordStart s = _
  simp only [execEngineRecordStart, h, readsNext_full hl, Bool.not_false, if_true]

theorem engineRecordStart_doomed {s : State} {c : Channel} {a : Nat} {p : Post} {code : Byte} {rest : List (Nat × Post × Byte)}
    (h : s.chan? s.ev.id = some c) (hl : c.recs.length < 8) (hp : c.page = none) (hd : c.doomed = (a, p, code) :: rest) :
    exec .engineRecordStart s = .next (s.walkDoomed c a p code rest) := by
  change execEngineRecordStart s = _
  simp only [execEngineRecordStart, h, readsNext_doomed hl hp (hd ▸ List.cons_ne_nil _ _), hd, Bool.not_true, Bool.false_eq_true, if_false]

/-- A channel whose walk may go on, and what it has to read next: record `a` of post `p`. -/
structure WalkAt (s : State) (c : Channel) (a : Nat) (p : Post) : Prop where
  chan : s.chan? s.ev.id = some c
  doomed : c.doomed = []
  cur : c.cur = some (a, p)
  reads : s.readsNext c = true

theorem WalkAt.fault {s u : State} {c : Channel} {a : Nat} {p : Post} (h : WalkAt s c a p) {f : Byte} {va : Nat}
    (hr : s.readRecord c p.ctx a = (u, .fault f va)) :
    exec .engineRecordStart s = .next (if parkCode f then u.chanPage c (pageAt f p.ctx va) else u.declineChan c f) := by
  change execEngineRecordStart s = _
  simp only [execEngineRecordStart, h.chan, h.reads, h.doomed, h.cur, hr, Bool.not_true, Bool.false_eq_true, if_false]

theorem WalkAt.whole {s u : State} {c : Channel} {a : Nat} {p : Post} (h : WalkAt s c a p) {raw : List Byte}
    (hr : s.readRecord c p.ctx a = (u, .whole raw)) :
    exec .engineRecordStart s = .next (if fieldAt raw 0 1 = 1 ∧ fieldAt raw 1 1 = 1 ∧ c.recs.isEmpty = false then
      s.modChan c.cid fun c => { c with part := [] } else u.startRecord c a p raw) := by
  change execEngineRecordStart s = _
  simp only [execEngineRecordStart, h.chan, h.reads, h.doomed, h.cur, hr, Bool.not_true, Bool.false_eq_true, if_false, apply_ite Host.Outcome.next]

theorem parkCode_iff (f : Byte) : parkCode f = true ↔ faultClass f = 1 := beq_iff_eq

theorem chanPage_chan? {u : State} {c x : Channel} (f : ParkInfo) (hx : u.chan? c.cid = some x) :
    (u.chanPage c f).chan? c.cid = some { x with page := some f } :=
  chan?_modChan (u.engPage c f) c.cid _ (by intro _; rfl) hx

theorem startRecord_unowned (s : State) (c : Channel) (a : Nat) (p : Post) {raw : List Byte} (h : fieldAt raw 0 1 = 0) :
    s.startRecord c a p raw = (s.modChan c.cid fun c => { c with cur := none }).settleChan c.cid := if_pos h

/-- A record that has been read stands on its channel, and the walk goes on behind it. -/
def recStarted (s : State) (c : Channel) (a : Nat) (p : Post) (raw : List Byte) : State :=
  (s.addRec c.cid (EngRec.new s.nextId a raw p (ringOf c p.coll raw) (if p.coll then .gather else .moving))).modChan c.cid fun c =>
    { c with cur := (nextOf raw).map fun n => (n, p) }

/-- Whether a record breaks no rule of its fields (R279). -/
def recFieldsOk (s : State) (p : Post) (raw : List Byte) : Bool :=
  (if p.coll then collFieldsOk raw else copyFieldsOk raw) && s.recBarOk p raw

theorem startRecord_owned (s : State) (c : Channel) (a : Nat) (p : Post) {raw : List Byte} (h : fieldAt raw 0 1 = 1) :
    s.startRecord c a p raw = if recFieldsOk (recStarted s c a p raw) p raw then recStarted s c a p raw
      else (recStarted s c a p raw).finishRec s.nextId 2 fcCopyFault :=
  if_neg (h.trans_ne Nat.one_ne_zero)

end Sys2Proof
end

section
/-!
PROOFS. The copy and collective engines (R281 to R291, R430): the accesses of a record, the exchange of a collective, and completion.
-/
namespace Sys2Proof
open Machine

/-! ## Bytes moved (R281, R285, R287) -/

theorem engineAccess_waits {s : State} {c : Channel} {r : EngRec} (h : s.engRec? s.ev.id = some (c, r)) (hw : r.page ≠ none ∨ r.divert ≠ none) :
    exec .engineAccess s = .next s := by
  change execEngineAccess s = _
  have hb : (r.page.isSome || r.divert.isSome) = true := by
    simpa only [Bool.or_eq_true, Option.isSome_iff_ne_none] using hw
  simp only [execEngineAccess, h, hb, if_true]

theorem engineAccess_moves {s : State} {c : Channel} {r : EngRec} (h : s.engRec? s.ev.id = some (c, r)) (hp : r.page = none) (hd : r.divert = none)
    (hr : r.phase = .gather ∨ r.phase = .moving) :
    exec .engineAccess s = .next (if r.coll then s.collAccess c r (if s.ev.lane = 0 then 128 else min 128 s.ev.lane)
      else s.copyAccess c r (if s.ev.lane = 0 then 128 else min 128 s.ev.lane)) := by
  change execEngineAccess s = _
  simp only [execEngineAccess, h, hp, hd, Option.isSome_none, Bool.or_self, Bool.false_eq_true, if_false]
  obtain hr | hr := hr <;> rw [hr]

theorem collAccess_gather {s s1 : State} {c : Channel} {r : EngRec} {want : Nat} {bs : List Byte} {e : EngStop} (ht : r.team ≠ [])
    (hp : r.phase = .gather) (hw : 1 ≤ want)
    (hr : s.engRead c r.post 0 (fun i => (fieldAt r.raw 128 64 : Int) + r.own.length + (i : Nat)) (min want (r.sendBytes - r.own.length)) = (s1, bs, e))
    (hb : bs ≠ []) : s.collAccess c r want = s1.modRec r.rid fun r =>
      { r with own := r.own ++ bs, phase := if r.sendBytes ≤ r.own.length + bs.length then .exchange else .gather } := by
  simp only [State.collAccess, List.isEmpty_eq_false_iff.mpr ht, hp, max_eq_right hw, hr, List.isEmpty_eq_false_iff.mpr hb, Bool.false_eq_true, if_false]

theorem collAccess_moving {s : State} {c : Channel} {r : EngRec} {want : Nat} (ht : r.team ≠ []) (hp : r.phase = .moving) :
    s.collAccess c r want = s.writeSome c r 0 (collEsz r.type) (fun i => (fieldAt r.raw 192 64 : Int) + r.moved + (i : Nat))
      (r.own.take (max (collEsz r.type) (want / collEsz r.type * collEsz r.type))) (r.moved + r.own.length) := by
  simp only [State.collAccess, List.isEmpty_eq_false_iff.mpr ht, hp, Bool.false_eq_true, if_false]

theorem creditFor_store (s : State) (r : EngRec) : store (s.creditFor r) = store s := by
  unfold State.creditFor
  split <;> rfl

/-- A record that ends DONE changes no byte of memory or stash. -/
theorem finishRec_done_store (s : State) (rid : Nat) (code : Byte) : store (s.finishRec rid 0 code) = store s := by
  unfold State.finishRec
  split
  · rfl
  · exact creditFor_store ..

/-- Bytes that all find a place are all written. -/
theorem writeSome_all {s s1 : State} {c : Channel} {r : EngRec} {seg esz : Nat} {addr : Nat → Int} {bs : List Byte} {total : Nat}
    {ps : List (Nat × Place)} (he : s.engPlaces c r.post seg addr true bs.length 0 = (s1, ps, .none)) (hl : ps.length = bs.length)
    (hm : bs.length % esz = 0) (hb : bs ≠ []) : s.writeSome c r seg esz addr bs total =
      let s2 := ((s1.writeAt (ps.zip bs)).engAsk c r.post ps .write).modRec r.rid fun r =>
        { r with moved := r.moved + bs.length, own := r.own.drop bs.length }
      if total ≤ r.moved + bs.length then s2.finishRec r.rid 0 0 else s2 := by
  have hn : bs.length / esz * esz = bs.length := Nat.div_mul_cancel (Nat.dvd_of_mod_eq_zero hm)
  have hz : bs.length ≠ 0 := by simpa using hb
  have htake : ps.take bs.length = ps := hl ▸ List.take_length
  simp only [State.writeSome, he, hl, hn, List.take_length, htake, ne_eq, hz, not_false_eq_true, if_true]

theorem engAsk_modRec_store (s : State) (c : Channel) (p : Post) (ps : List (Nat × Place)) (op : SliceOp) (rid : Nat) (f : EngRec → EngRec) :
    store ((s.engAsk c p ps op).modRec rid f) = store s := askLines_store ..

theorem writeSome_all_store {s s1 : State} {c : Channel} {r : EngRec} {seg esz : Nat} {addr : Nat → Int} {bs : List Byte} {total : Nat}
    {ps : List (Nat × Place)} (he : s.engPlaces c r.post seg addr true bs.length 0 = (s1, ps, .none)) (hl : ps.length = bs.length)
    (hm : bs.length % esz = 0) (hb : bs ≠ []) : store (s.writeSome c r seg esz addr bs total) = store (s1.writeAt (ps.zip bs)) := by
  rw [writeSome_all he hl hm hb]
  dsimp only
  split
  · exact (finishRec_done_store ..).trans (engAsk_modRec_store ..)
  · exact engAsk_modRec_store ..

/-! ## The exchange of a collective (R284, R285, R430) -/

theorem collStepStart_starts {s : State} {c : Channel} {r : EngRec} (h : s.engRec? s.ev.id = some (c, r)) (hp : r.phase = .exchange)
    (ha : r.stepAt = none) : exec .collStepStart s =
      .next (if r.needed = [] then (((s.modRec r.rid fun r => { r with stepAt := some s.out.elapsed }).sendStep r).startRecv r.rid)
        else (s.modRec r.rid fun r => { r with stepAt := some s.out.elapsed }).sendStep r) := by
  change execCollStepStart s = _
  simp only [execCollStepStart, h, hp, ha, and_self, if_true, List.isEmpty_iff]

theorem collStepStart_stays {s : State} {c : Channel} {r : EngRec} (h : s.engRec? s.ev.id = some (c, r))
    (hn : r.phase ≠ .exchange ∨ r.stepAt ≠ none) : exec .collStepStart s = .next s := by
  change execCollStepStart s = _
  simp only [execCollStepStart, h]
  exact if_neg (not_and_or.mpr hn)

theorem collBeginNotice_arrives {s : State} {c : Channel} {r : EngRec} (h : s.engRec? s.ev.id = some (c, r)) (hc : r.coll = true)
    (hj : s.ev.sub ∈ r.needed) (hn : s.ev.sub ∉ r.notices) (hm : s.memberHere r s.ev.sub = false) :
    exec .collBeginNotice s = .next (s.modRec r.rid fun r => { r with notices := r.notices ++ [s.ev.sub] }) := by
  change execCollBeginNotice s = _
  simp [execCollBeginNotice, h, hc, hj, hn, hm]

theorem collStepData_arrives {s : State} {c : Channel} {r : EngRec} {n : Nat} (h : s.engRec? s.ev.id = some (c, r)) (hp : r.phase = .exchange)
    (ha : r.stepAt = some n) (hj : s.ev.sub ∈ r.needed) (hn : ∀ a ∈ r.arrivals, a.1 ≠ s.ev.sub) (hm : s.memberHere r s.ev.sub = false) :
    exec .collStepData s = .next (s.stepData c r s.ev.sub (s.ev.words.map fun w => w.toNat) s.ev.bytes) := by
  change execCollStepData s = _
  have hnew : (r.arrivals.any fun a => a.1 == s.ev.sub) = false := by simpa using hn
  simp [execCollStepData, h, hp, ha, hj, hnew, hm]

/-- A record that has taken the data of rank `j`. -/
def recTook (r : EngRec) (j t : Nat) (data : List Byte) : EngRec := { r with arrivals := r.arrivals ++ [(j, t, data)] }

theorem stepData_disagrees {s : State} {c : Channel} {r : EngRec} {j : Nat} {fields : List Nat} {data : List Byte} (h : fields ≠ r.agree) :
    s.stepData c r j fields data = s.finishRec r.rid 2 fcCopyFault := if_pos h

theorem stepData_agrees (s : State) (c : Channel) (r : EngRec) (j : Nat) (data : List Byte) :
    s.stepData c r j r.agree data = if r.needed.all (fun k => (recTook r j s.timeNs data).arrivals.any fun a => a.1 == k) then
        ((s.modRec r.rid fun _ => recTook r j s.timeNs data).emitUnit c.die 2 c.eng c.chn r.post.ctx r.post.signet 0x11 (j * 2 ^ 16)).startRecv r.rid
      else s.modRec r.rid fun _ => recTook r j s.timeNs data := if_neg (not_not.mpr rfl)

theorem took_all_iff (r : EngRec) (j t : Nat) (data : List Byte) :
    (r.needed.all (fun k => (recTook r j t data).arrivals.any fun a => a.1 == k)) = true ↔
      ∀ k ∈ r.needed, k ≠ j → ∃ a ∈ r.arrivals, a.1 = k := by
  simp only [recTook, List.all_eq_true, List.any_eq_true, List.mem_append, List.mem_singleton, beq_iff_eq]
  grind

theorem stepData_waits {s : State} {c : Channel} {r : EngRec} {j : Nat} {data : List Byte}
    (h : ∃ k ∈ r.needed, k ≠ j ∧ ∀ a ∈ r.arrivals, a.1 ≠ k) : s.stepData c r j r.agree data = s.modRec r.rid fun _ => recTook r j s.timeNs data := by
  obtain ⟨k, hk, hkj, ha⟩ := h
  rw [stepData_agrees, if_neg]
  rw [took_all_iff]
  intro hall
  obtain ⟨a, ham, hak⟩ := hall k hk hkj
  exact ha a ham hak

theorem stepData_completes {s : State} {c : Channel} {r : EngRec} {j : Nat} {data : List Byte}
    (h : ∀ k ∈ r.needed, k ≠ j → ∃ a ∈ r.arrivals, a.1 = k) : s.stepData c r j r.agree data =
      ((s.modRec r.rid fun _ => recTook r j s.timeNs data).emitUnit c.die 2 c.eng c.chn r.post.ctx r.post.signet 0x11 (j * 2 ^ 16)).startRecv r.rid := by
  rw [stepData_agrees, if_pos ((took_all_iff ..).mpr h)]

theorem collStepTimeout_early {s : State} {c : Channel} {r : EngRec} {n : Nat} (h : s.engRec? s.ev.id = some (c, r)) (hp : r.phase = .exchange)
    (ha : r.stepAt = some n)
    (ht : s.out.elapsed < n + usToUnits (if fieldAt r.raw 448 32 = 0 then 1000 else fieldAt r.raw 448 32)) : exec .collStepTimeout s = .next s := by
  change execCollStepTimeout s = _
  simp only [execCollStepTimeout, h, hp, ha, if_neg (Nat.not_le.mpr ht)]

theorem collStepTimeout_late {s : State} {c : Channel} {r : EngRec} {n : Nat} (h : s.engRec? s.ev.id = some (c, r)) (hp : r.phase = .exchange)
    (ha : r.stepAt = some n)
    (ht : n + usToUnits (if fieldAt r.raw 448 32 = 0 then 1000 else fieldAt r.raw 448 32) ≤ s.out.elapsed) :
    ∃ pay, exec .collStepTimeout s = .next ((s.emitUnit c.die 2 c.eng c.chn r.post.ctx r.post.signet 0x12 pay).finishRec r.rid 2 0x31) := by
  change ∃ pay, execCollStepTimeout s = _
  simp only [execCollStepTimeout, h, hp, ha, if_pos ht]
  exact ⟨_, rfl⟩

theorem emitUnit_eq (s : State) (die cls unit sub ctx : Nat) (signet : W64) (type payload : Nat) :
    ∃ o n, s.emitUnit die cls unit sub ctx signet type payload = { s with obs := o, nextId := n } := emit_eq ..

/-! ## Completion (R288, R289) -/

theorem completionRecordWrite_slot {s : State} {c : Channel} {r : EngRec} {status : Nat} {code : Byte} {va ph : Nat}
    (h : s.engRec? s.ev.id = some (c, r)) (hp : r.page = none) (hd : r.phase = .done status code) (hs : r.slot = some (va, ph)) :
    exec .completionRecordWrite s = .next (s.putCompletion c r status code va ph) := by
  change execCompletionRecordWrite s = _
  simp only [execCompletionRecordWrite, h, hp, hd, hs, Option.isSome_none, Bool.false_eq_true, if_false]

theorem completionRecordWrite_reserves {s u : State} {c : Channel} {r : EngRec} {status : Nat} {code : Byte} {va ph : Nat}
    (h : s.engRec? s.ev.id = some (c, r)) (hp : r.page = none) (hd : r.phase = .done status code) (hs : r.slot = none)
    (hr : s.ringReserve c.die c.unit r.post.ctx r.ring 32 = (u, .slot va ph)) : exec .completionRecordWrite s =
      .next ((u.modRec r.rid fun r => { r with slot := some (va, ph) }).putCompletion c r status code va ph) := by
  change execCompletionRecordWrite s = _
  simp only [execCompletionRecordWrite, h, hp, hd, hs, hr, Option.isSome_none, Bool.false_eq_true, if_false]

theorem completionRecordWrite_full {s u : State} {c : Channel} {r : EngRec} {status : Nat} {code : Byte}
    (h : s.engRec? s.ev.id = some (c, r)) (hp : r.page = none) (hd : r.phase = .done status code) (hs : r.slot = none)
    (hr : s.ringReserve c.die c.unit r.post.ctx r.ring 32 = (u, .full)) : exec .completionRecordWrite s = .next u := by
  change execCompletionRecordWrite s = _
  simp only [execCompletionRecordWrite, h, hp, hd, hs, hr, Option.isSome_none, Bool.false_eq_true, if_false]

theorem completionRecordWrite_clears {s : State} {c : Channel} {r : EngRec} (h : s.engRec? s.ev.id = some (c, r)) (hp : r.page = none)
    (hd : r.phase = .clearing) : exec .completionRecordWrite s = .next (s.clearOwn c r) := by
  change execCompletionRecordWrite s = _
  simp only [execCompletionRecordWrite, h, hp, hd, Option.isSome_none, Bool.false_eq_true, if_false]

theorem putCompletion_written {s u : State} {c : Channel} {r : EngRec} {status : Nat} {code : Byte} {va ph : Nat}
    (hw : s.writeGlb c.die c.unit r.post.ctx va (leBytes 32 (ph * 2 ^ 255 + s.completionWord r status code)) = (u, none)) :
    s.putCompletion c r status code va ph = u.recWritten c r := by
  unfold State.putCompletion
  rw [hw]

/-- A fault of the slot, other than a page fault, drops the completion. -/
theorem putCompletion_dropped {s u : State} {c : Channel} {r : EngRec} {status : Nat} {code : Byte} {va ph : Nat} {f : Byte × Nat}
    (hw : s.writeGlb c.die c.unit r.post.ctx va (leBytes 32 (ph * 2 ^ 255 + s.completionWord r status code)) = (u, some f))
    (hf : faultClass f.1 ≠ 1) : s.putCompletion c r status code va ph = (u.engFault c r.post r.addr fcCopyFault).recWritten c r := by
  unfold State.putCompletion
  rw [hw]
  exact if_neg ((parkCode_iff f.1).not.mpr hf)

theorem clearOwn_clears {s u : State} {c : Channel} {r : EngRec} {pa : Nat} (hr : r.raw ≠ [])
    (ht : s.translate c.die c.unit r.post.ctx r.addr true true true = (u, .ok pa)) : s.clearOwn c r =
      ((u.writePa r.post.ctx pa (u.readPa r.post.ctx pa &&& 0xFE)).askLines c.die c.unit [pa] .write r.post.ctx).recGone c r := by
  unfold State.clearOwn
  rw [if_neg (by simpa using hr), ht]

/-! ## DATA_UNCORRECTABLE (R53, R200, R291) -/

theorem dataUncorrectable_access {s : State} {a : Acc} (h : s.mem.accs.find? (fun a => a.aid == s.ev.id && s.ev.sub == 0) = some a)
    (hc : s.canPerform a = true) (hk : a.kind.isLoad = true ∨ a.kind.isAtom = true) :
    exec .dataUncorrectable s = .next ((s.dropAccs [a.aid]).rollback a.gid fcDataUncorrectable a.va) := by
  have h0 : s.ev.sub = 0 := by
    have := List.find?_some h
    simp only [Bool.and_eq_true, beq_iff_eq] at this
    exact this.2
  have hf : s.mem.accs.find? (fun a => a.aid == s.ev.id) = some a := by simpa [h0] using h
  have hok : (s.canPerform a && (a.kind.isLoad || a.kind.isAtom)) = true := by simpa [hc] using hk
  change execDataUncorrectable s = _
  simp only [execDataUncorrectable, h0, (by decide : (0 : Nat) ≠ 2), (by decide : (0 : Nat) ≠ 1), if_false, hf, hok, if_true]

theorem dataUncorrectable_rec {s : State} {c : Channel} {r : EngRec} (h : s.engRec? s.ev.id = some (c, r)) (h0 : s.ev.sub = 0)
    (ha : s.mem.accs = []) : exec .dataUncorrectable s = .next (s.recUncorrectable c r) := by
  change execDataUncorrectable s = _
  simp [execDataUncorrectable, h0, ha, h]

theorem recUncorrectable_source {s : State} {c : Channel} {r : EngRec} (hp : r.page = none) (hd : r.divert = none)
    (hr : r.phase = .gather ∨ r.phase = .moving ∧ r.coll = false) : s.recUncorrectable c r = s.finishRec r.rid 2 fcDataUncorrectable := by
  simp only [State.recUncorrectable, hp, hd, Option.isSome_none, Bool.or_self, Bool.false_eq_true, if_false]
  obtain hr | ⟨hr, hc⟩ := hr
  · rw [hr]
  · rw [hr, hc]
    rfl

theorem recUncorrectable_done {s : State} {c : Channel} {r : EngRec} {status : Nat} {code : Byte} (hp : r.page = none) (hd : r.divert = none)
    (hr : r.phase = .done status code) : s.recUncorrectable c r = (s.engFault c r.post r.addr fcCopyFault).recWritten c r := by
  simp only [State.recUncorrectable, hp, hd, hr, Option.isSome_none, Bool.or_self, Bool.false_eq_true, if_false, State.dropCompletion]

/-! ## Reductions (R285) -/

theorem length_collCombine (rop t esz : Nat) : ∀ (n : Nat) (a b : List Byte), (collCombine rop t esz n a b).length = esz * n
  | 0, _, _ => rfl
  | n + 1, a, b => by
    rw [collCombine, List.length_append, length_leBytes, length_collCombine, Nat.mul_succ, Nat.add_comm]

end Sys2Proof
end

section
/-!
PROOFS. The engines run the records of their channels (R275 to R293, R430).
-/
namespace Sys2Proof
open Machine

/-- Settles O50, event by event: what a channel reads, what a record in flight does, and how it completes. -/
theorem enginesRunRecords : Obligations.EnginesRunRecords := by
  unfold Obligations.EnginesRunRecords
  refine ⟨fun s c h => ?channel, fun s c r h => ?record, fun s a h hc hk => dataUncorrectable_access h hc hk,
    fun esz n rop t a b _ _ => length_collCombine rop t esz n a b⟩
  case channel =>
    have hcid : s.chan? c.cid = some c := (chan?_cid h).symm ▸ h
    refine ⟨fun p ps hp hi => ⟨_, chanChainStart_starts h hp hi, rfl, ⟨rfl, rfl⟩, chan?_modChan s c.cid _ (by intro _; rfl) hcid⟩,
      chanChainStart_stays h, engineRecordStart_full h, fun ctx a v bs hl hp h0 hv => readRecord_whole hl hp h0 hv,
      fun a p u f va hl hd hc hp hn hr => ?fault, fun a p u raw hl hd hc hp hn hr => ?whole,
      fun a p code rest hl hp hd => engineRecordStart_doomed h hl hp hd⟩
    case fault =>
      have hx := WalkAt.fault ⟨h, hd, hc, readsNext_cur hl hp hc hn⟩ hr
      refine ⟨fun hf => ⟨_, hx.trans (congrArg _ (if_pos ((parkCode_iff f).mpr hf))), ⟨rfl, rfl⟩, fun x hxc => chanPage_chan? _ hxc⟩, fun hf => ?_⟩
      exact hx.trans (congrArg _ (if_neg ((parkCode_iff f).not.mpr hf)))
    case whole =>
      have hx := WalkAt.whole ⟨h, hd, hc, readsNext_cur hl hp hc hn⟩ hr
      refine ⟨fun ho => ?unowned, fun ho hord hne => ?ordered, fun ho hord => ?starts⟩
      case unowned =>
        rw [hx, if_neg (fun hh => absurd (ho.symm.trans hh.1) Nat.zero_ne_one), startRecord_unowned _ _ _ _ ho]
      case ordered => rw [hx, if_pos ⟨ho, hord, List.isEmpty_eq_false_iff.mpr hne⟩]
      case starts =>
        have hgo : ¬(fieldAt raw 0 1 = 1 ∧ fieldAt raw 1 1 = 1 ∧ c.recs.isEmpty = false) := by
          rintro ⟨-, h1, hne⟩
          obtain h0 | h0 := hord
          · exact absurd (h0.symm.trans h1) Nat.zero_ne_one
          · exact List.isEmpty_eq_false_iff.mp hne h0
        have hs := hx.trans (congrArg _ ((if_neg hgo).trans (startRecord_owned u c a p ho)))
        refine ⟨fun hok => hs.trans (congrArg _ (if_pos ?_)), fun hok => hs.trans (congrArg _ (if_neg fun hall => ?_))⟩
        · obtain ⟨hfields, hbar⟩ := Bool.and_eq_true_iff.mp hok
          exact Bool.and_eq_true_iff.mpr ⟨hfields, of_decide_eq_true hbar⟩
        · have hbar := of_decide_eq_true (Bool.and_eq_true_iff.mp hok).2
          exact Bool.eq_false_iff.mp hbar (Bool.and_eq_true_iff.mp hall).2
  case record =>
    intro want
    have hwant : 1 ≤ want := by
      dsimp only [want]
      split <;> omega
    refine ⟨engineAccess_waits h, engineAccess_moves h, fun s1 bs e hp hd hg hc ht hr hb => ?gather, fun hp hd hm hc ht => ?moving,
      fun seg esz addr bs total s1 ps he hl hz hm hb => ?write, fun hp ha => collStepStart_starts h hp ha, collStepStart_stays h,
      collBeginNotice_arrives h, fun n hp ha hj hn hm => ?data, fun n hp ha => ⟨collStepTimeout_early h hp ha, fun ht => ?late⟩,
      fun status code hd hp => ?completion, fun u pa hd hp hr ht => (completionRecordWrite_clears h hp hd).trans (congrArg _ (clearOwn_clears hr ht)),
      fun _ _ => ⟨rfl, rfl⟩, fun h0 ha hp hd => ?uncorrectable⟩
    case gather =>
      rw [engineAccess_moves h hp hd (.inl hg), if_pos hc]
      exact congrArg _ (collAccess_gather ht hg hwant hr hb)
    case moving =>
      rw [engineAccess_moves h hp hd (.inr hm), if_pos hc]
      exact congrArg _ (collAccess_moving ht hm)
    case write =>
      obtain ⟨hbytes, hstash⟩ := Prod.mk.inj (writeSome_all_store (total := total) he hl hm hb)
      exact ⟨hbytes, hstash, fun hlt => (writeSome_all he hl hm hb).trans (if_neg (Nat.not_le.mpr hlt))⟩
    case data =>
      have hx := collStepData_arrives h hp ha hj hn hm
      refine ⟨fun hne => hx.trans (congrArg _ (stepData_disagrees hne)), fun hag hw => ?_, fun hag hw => ?_⟩
      · exact hx.trans (congrArg _ (hag ▸ stepData_waits hw))
      · exact hx.trans (congrArg _ (hag ▸ stepData_completes hw))
    case late =>
      obtain ⟨pay, hx⟩ := collStepTimeout_late h hp ha ht
      obtain ⟨o, n, he⟩ := emitUnit_eq s c.die 2 c.eng c.chn r.post.ctx r.post.signet 0x12 pay
      rw [he] at hx
      exact ⟨_, hx, rfl, rfl, rfl, rfl⟩
    case completion =>
      refine ⟨fun u va ph hs hw => ?_, fun u f va ph hs hw hf => ?_, fun u va ph hs hr => completionRecordWrite_reserves h hp hd hs hr,
        fun u hs hr => completionRecordWrite_full h hp hd hs hr⟩
      · exact (completionRecordWrite_slot h hp hd hs).trans (congrArg _ (putCompletion_written hw))
      · exact (completionRecordWrite_slot h hp hd hs).trans (congrArg _ (putCompletion_dropped hw hf))
    case uncorrectable =>
      have hx := dataUncorrectable_rec h h0 ha
      exact ⟨fun hr => hx.trans (congrArg _ (recUncorrectable_source hp hd hr)),
        fun status code hr => hx.trans (congrArg _ (recUncorrectable_done hp hd hr))⟩

end Sys2Proof
end

section
/-!
PROOFS. The issue latch (R62): what makes no chain issue leaves the latch as it is.
-/
namespace Sys2Proof
open Machine

theorem OnlyMem.cur {s t : State} (h : OnlyMem s t) : t.cur = s.cur := by
  obtain ⟨m, n, f, rfl⟩ := h
  rfl

/-- What each of some changes keeps, all of them one after another keep. -/
theorem foldl_keeps {σ α β : Type} (p : σ → β) {f : σ → α → σ} (h : ∀ s x, p (f s x) = p s) :
    ∀ (l : List α) (s : σ), p (l.foldl f s) = p s
  | [], _ => rfl
  | x :: l, s => (foldl_keeps p h l (f s x)).trans (h s x)

theorem foldl_cur {α : Type} {f : State → α → State} (h : ∀ s x, (f s x).cur = s.cur) (l : List α) (s : State) : (l.foldl f s).cur = s.cur :=
  foldl_keeps State.cur h l s

/-! ## Records, turns and tables -/

@[simp] theorem emit_cur (s : State) (r : TraceRec) : (s.emit r).cur = s.cur := by
  obtain ⟨o, n, h⟩ := emit_eq s r
  rw [h]

@[simp] theorem emitGroup_cur (s : State) (g : Group) (type payload : Nat) : (s.emitGroup g type payload).cur = s.cur := emit_cur s _

@[simp] theorem emitUnit_cur (s : State) (die cls unit sub ctx : Nat) (signet : W64) (type payload : Nat) :
    (s.emitUnit die cls unit sub ctx signet type payload).cur = s.cur := emit_cur s _

@[simp] theorem bumpSeq_cur (s : State) (die cls unit : Nat) : (s.bumpSeq die cls unit).cur = s.cur := rfl
@[simp] theorem takeTurn_cur (s : State) (u : ServedUnit) (die rank : Nat) : (s.takeTurn u die rank).cur = s.cur := rfl
@[simp] theorem fwEvent_cur (s : State) (die kind : Nat) (ws : List W64) : (s.fwEvent die kind ws).cur = s.cur := rfl
@[simp] theorem modNamed_cur (s : State) (band q : Nat) (f : NamedQ → NamedQ) : (s.modNamed band q f).cur = s.cur := rfl
@[simp] theorem modWork_cur (s : State) (w : Nat) (f : WorkQ → WorkQ) : (s.modWork w f).cur = s.cur := rfl
@[simp] theorem modSem_cur (s : State) (key : Nat) (f : SemSlot → SemSlot) : (s.modSem key f).cur = s.cur := rfl
@[simp] theorem l1Invalidate_cur (s : State) (die core : Nat) : (s.l1Invalidate die core).cur = s.cur := rfl

@[simp] theorem faultRecord_cur (s : State) (f : FaultInfo) : (s.faultRecord f).cur = s.cur := by
  unfold State.faultRecord
  split
  · rfl
  · rename_i c _
    have h := (onlyMem_ringPut s f.die f.core f.ctx c.faultRing 64 fun ph => f.word s.timeNs ph).cur
    split <;> rename_i he <;> rw [he] at h <;> exact h

/-! ## Results -/

@[simp] theorem deliver_cur (s : State) (gid oid : Nat) (ws : List RegWrite) : (s.deliver gid oid ws).cur = s.cur := rfl
@[simp] theorem bring_cur (s : State) (gid oid : Nat) (ws : List RegWrite) : (s.bring gid oid ws).cur = s.cur := rfl

@[simp] theorem endResult_cur (s : State) (gid oid : Nat) : (s.endResult gid oid).cur = s.cur := by
  unfold State.endResult
  split <;> rfl

@[simp] theorem setStat_cur (s : State) (gid code : Nat) : (s.setStat gid code).cur = s.cur := by
  unfold State.setStat
  split <;> rfl

/-! ## The end of a cycle -/

theorem modWd_cur (s : State) (f : HostQ → HostQ) : (s.modWd f).cur = s.cur := by
  unfold State.modWd
  split <;> rfl

theorem sysWrite_cur (s : State) (g : Group) (n v : Nat) : (s.sysWrite g n v).cur = s.cur := by
  unfold State.sysWrite
  repeat' split
  all_goals first | rfl | exact modWd_cur s _

theorem applyLate_cur (s : State) (w : LateWrite) : (s.applyLate w).cur = s.cur := by
  unfold State.applyLate
  split
  · rfl
  · split
    · rfl
    · split
      · rfl
      · split
        · rfl
        · split
          · exact sysWrite_cur s _ _ _
          · rfl

theorem applyLates_cur (s : State) (ds : List Nat) : (s.applyLates ds).cur = s.cur := foldl_cur applyLate_cur _ _

theorem endSteps_cur (s : State) (ds : List Nat) : (s.endSteps ds).cur = s.cur := by
  unfold State.endSteps
  refine foldl_cur (fun s g => ?_) _ _
  exact emitGroup_cur ..

theorem countElig_cur (s : State) (die core quad idx : Nat) : (s.countElig die core quad idx).cur = s.cur := rfl

theorem countQuad_cur (s : State) (q : Nat × Nat × Nat) : (s.countQuad q).cur = s.cur := by
  unfold State.countQuad
  dsimp only
  repeat' split
  all_goals rfl

theorem debugHalt_cur (s : State) (g : Group) (cause : Nat) (pc : W32) : (s.debugHalt g cause pc).cur = s.cur := emitGroup_cur _ g _ _

theorem settleRaise_cur (s : State) (k : Kernel) : (s.settleRaise k).cur = s.cur := by
  have hback : ((k.raised.reverse.foldl
      (fun (s : State) (y : Raise) => y.gid.elim s fun i => s.modGroup i fun g => { g with dbgHalt := y.halted }) s).modKernel k.kid
      fun k => { k with raised := [], diverged := true }).cur = s.cur :=
    foldl_cur (fun s y => by cases y.gid <;> rfl) _ _
  unfold State.settleRaise
  split
  · rfl
  · dsimp only
    split
    · exact (emitUnit_cur ..).trans hback
    · split
      · exact ((debugHalt_cur ..).trans (emitGroup_cur ..)).trans hback
      · exact (emitGroup_cur ..).trans hback

theorem settleRaises_cur (s : State) : s.settleRaises.cur = s.cur := foldl_cur settleRaise_cur _ _

/-! ## Semaphores -/

theorem semGoes_cur (s : State) (gid : Nat) : (s.semGoes gid).cur = s.cur := rfl

theorem semDrained_cur (s : State) (key : Nat) : (s.semDrained key).cur = s.cur := by
  unfold State.semDrained
  repeat' split
  · refine foldl_cur (fun s i => ?_) _ _
    exact setStat_cur ..
  all_goals rfl

theorem semDrains_cur (s : State) : s.semDrains.cur = s.cur := by
  unfold State.semDrains
  exact foldl_cur (fun _ _ => semDrained_cur ..) _ _

theorem acquireAt_cur (s : State) (g : Group) (scope : Nat) : (s.acquireAt g scope).cur = s.cur := by
  unfold State.acquireAt
  split <;> rfl

theorem semGive_cur (s : State) (x : SemSlot) (g : Group) : (s.semGive x g).cur = s.cur := (setStat_cur ..).trans (acquireAt_cur ..)

theorem semTurn_cur (s : State) (m : SemMsg) : (s.semTurn m).cur = s.cur := by
  unfold State.semTurn
  split <;> rfl

theorem semAlloc_cur (s : State) (m : SemMsg) (count : W32) (d a : Nat) : (s.semAlloc m count d a).1.cur = s.cur := by
  unfold State.semAlloc
  split <;> rfl

theorem semRelease_cur (s : State) (x : SemSlot) : (s.semRelease x).1.cur = s.cur := by
  unfold State.semRelease
  split
  · refine (semDrained_cur _ _).trans ?_
    split
    · exact semGive_cur (s.modSem x.key _) x _
    · rfl
  · split <;> rfl

theorem semAcquire_cur (s : State) (m : SemMsg) (x : SemSlot) : (s.semAcquire m x).cur = s.cur := by
  unfold State.semAcquire
  split
  · rfl
  · split
    · exact semGive_cur (s.semTake x) x _
    · rfl

theorem semTry_cur (s : State) (m : SemMsg) (x : SemSlot) : (s.semTry m x).1.cur = s.cur := by
  unfold State.semTry
  split
  · dsimp only
    split <;> rfl
  · rfl

theorem semFreed_cur (s : State) (x : SemSlot) (gid : Nat) : (s.semFreed x gid).1.cur = s.cur := by
  unfold State.semFreed
  split <;> rfl

theorem semServe_cur (s : State) (m : SemMsg) : (s.semServe m).cur = s.cur := by
  refine Eq.trans ?_ (semTurn_cur s m)
  unfold State.semServe
  dsimp only
  split
  · exact semAlloc_cur ..
  · exact setStat_cur ..
  · exact (setStat_cur ..).trans (semRelease_cur ..)
  · exact setStat_cur ..
  · exact semAcquire_cur ..
  · rfl
  · exact semTry_cur ..
  · exact setStat_cur ..
  · split
    · exact setStat_cur ..
    · have h := semFreed_cur (s.semTurn m) ‹SemSlot› m.gid
      split <;> rename_i he <;> rw [he] at h
      · exact (setStat_cur _ _ _).trans h
      · exact h

theorem semServes_cur : ∀ (n : Nat) (s : State), (State.semServes n s).cur = s.cur
  | 0, _ => rfl
  | n + 1, s => by
    unfold State.semServes
    split
    · rfl
    · exact (semServes_cur n _).trans (semServe_cur ..)


/-! ## Queues -/

theorem wakeQueue_cur (s : State) (gid : Nat) : (s.wakeQueue gid).cur = s.cur := rfl

theorem endQueue_cur (s : State) (o : QOp) (ws : List RegWrite) : (s.endQueue o ws).cur = s.cur := by
  unfold State.endQueue
  cases o.oid <;> dsimp only <;> split <;> rfl

theorem popExam_cur (band q : Nat) : ∀ (n : Nat) (s : State), (s.popExam band q n).cur = s.cur
  | 0, _ => rfl
  | n + 1, s => by
    unfold State.popExam
    dsimp only
    split
    · rfl
    · split
      · exact (popExam_cur band q n _).trans (endQueue_cur ..)
      · rfl

theorem doPush_cur (s : State) (o : QOp) : (s.doPush o).cur = s.cur := (popExam_cur ..).trans (endQueue_cur ..)

theorem pushExam_cur (band q : Nat) : ∀ (n : Nat) (s : State), (s.pushExam band q n).cur = s.cur
  | 0, _ => rfl
  | n + 1, s => by
    unfold State.pushExam
    dsimp only
    split
    · rfl
    · split
      · exact (pushExam_cur band q n _).trans (doPush_cur ..)
      · rfl

theorem serveNamed_cur (s : State) (o : QOp) : (s.serveNamed o).cur = s.cur := by
  unfold State.serveNamed
  dsimp only
  split
  · split
    · exact doPush_cur ..
    · rfl
  · split
    · exact doPush_cur ..
    · exact endQueue_cur ..
  · split
    · exact endQueue_cur ..
    · rfl
  · split <;> exact endQueue_cur ..
  · split <;> exact endQueue_cur ..
  · exact pushExam_cur ..
  · rfl

/-! ## Work queues -/

theorem ringStuck_cur (s : State) (x : WorkQ) (code : Byte) (va : Nat) : (s.ringStuck x code va).cur = s.cur :=
  (faultRecord_cur ..).trans (emitUnit_cur ..)

theorem ringEntry_cur (s : State) (was now : List W32) : (s.ringEntry was now).1.cur = s.cur := by
  unfold State.ringEntry
  split <;> rfl

theorem workRefill_cur (w : Nat) : ∀ (n : Nat) (s : State), (s.workRefill w n).cur = s.cur
  | 0, _ => rfl
  | n + 1, s => by
    unfold State.workRefill
    split
    · rfl
    · rename_i x _
      split
      · rfl
      · have h := (onlyMem_readGlb s x.die unitQueues x.ctx (x.base + 16 * x.rhead) 16).cur
        split <;> rename_i he <;> rw [he] at h
        · exact (ringStuck_cur ..).trans h
        · exact (workRefill_cur w n _).trans ((ringEntry_cur ..).trans h)

theorem workPut_cur (s : State) (w : Nat) (e : List W32) : (s.workPut w e).1.cur = s.cur := by
  unfold State.workPut
  split
  · rfl
  · rename_i x _
    split
    · rfl
    · split
      · have h := (onlyMem_writeGlb s x.die unitQueues x.ctx (x.base + 16 * ((x.rhead + x.rocc) % x.count)) (wordBytes e)).cur
        split <;> rename_i he <;> rw [he] at h
        · exact (ringStuck_cur ..).trans h
        · exact h
      · rfl

theorem workTake_cur (s : State) (w : Nat) : (s.workTake w).1.cur = s.cur := by
  unfold State.workTake
  repeat' split
  · rfl
  · rfl
  · exact workRefill_cur ..

theorem workAcquire_cur (s : State) (gid : Nat) : (s.workAcquire gid).cur = s.cur := by
  unfold State.workAcquire
  split <;> rfl

theorem bringQ_cur (s : State) (o : QOp) (ws : List RegWrite) : (s.bringQ o ws).cur = s.cur := by
  unfold State.bringQ
  split <;> rfl

theorem endWork_cur (s : State) (o : QOp) : (s.endWork o).cur = s.cur := by
  unfold State.endWork
  refine (wakeQueue_cur ..).trans ?_
  split
  · exact endResult_cur ..
  · rfl

theorem deqLane_cur (s : State) (w : Nat) (o : QOp) : (s.deqLane w o).cur = s.cur := by
  have h := workTake_cur s w
  unfold State.deqLane
  split
  · rename_i he _
    rw [he] at h
    dsimp only
    split
    · exact (endWork_cur ..).trans ((bringQ_cur ..).trans ((workAcquire_cur ..).trans h))
    · exact (bringQ_cur ..).trans ((workAcquire_cur ..).trans h)
  · rename_i he _
    rw [he] at h
    exact h

theorem enqLane_cur (s : State) (w : Nat) (o : QOp) : (s.enqLane w o).cur = s.cur := by
  unfold State.enqLane
  split
  · rename_i e _ _ _
    have h := workPut_cur s w e
    dsimp only
    split
    · split
      · exact (endWork_cur ..).trans ((bringQ_cur ..).trans h)
      · exact (bringQ_cur ..).trans h
    · exact h
  · rfl

theorem workSettle_cur (w : Nat) : ∀ (n : Nat) (s : State), (s.workSettle w n).cur = s.cur
  | 0, _ => rfl
  | n + 1, s => by
    unfold State.workSettle
    split
    · rfl
    · split
      · exact (workSettle_cur w n _).trans (deqLane_cur ..)
      · exact (workSettle_cur w n _).trans (enqLane_cur ..)
      · rfl

theorem workExam_cur (s : State) (w : Nat) : (s.workExam w).cur = s.cur := by
  unfold State.workExam
  split
  · rfl
  · exact workSettle_cur ..

theorem enqAll_cur (o : QOp) : ∀ (ls : List Nat) (es : List (List W32)) (full : Bool) (s : State), (s.enqAll o full ls es).1.cur = s.cur
  | [], _, _, _ => rfl
  | _ :: _, [], _, _ => rfl
  | l :: ls, e :: es, full, s => by
    unfold State.enqAll
    dsimp only
    refine (enqAll_cur o ls es _ _).trans ?_
    split
    · rfl
    · exact workPut_cur ..

theorem tryDeqAll_cur (o : QOp) : ∀ (ls : List Nat) (s : State), (s.tryDeqAll o ls).1.cur = s.cur
  | [], _ => rfl
  | l :: ls, s => by
    have h := workTake_cur s o.q
    unfold State.tryDeqAll
    split <;> rename_i he <;> rw [he] at h
    · exact (tryDeqAll_cur o ls _).trans ((workAcquire_cur ..).trans h)
    · exact (tryDeqAll_cur o ls _).trans h

theorem serveWork_cur (s : State) (o : QOp) : (s.serveWork o).cur = s.cur := by
  unfold State.serveWork
  split
  · exact ((workExam_cur ..).trans (endQueue_cur ..)).trans (enqAll_cur ..)
  · exact ((workExam_cur ..).trans (endQueue_cur ..)).trans (tryDeqAll_cur ..)
  · exact workExam_cur ..
  · exact workExam_cur ..
  · rfl

/-! ## Launches -/

theorem readLaunch_cur (s : State) (die ctx addr : Nat) : (s.readLaunch die ctx addr).1.cur = s.cur := by
  have h := (onlyMem_readGlb s die unitLauncher ctx addr 128).cur
  unfold State.readLaunch
  split
  · rfl
  · split <;> rename_i he <;> rw [he] at h <;> exact h

theorem readArgs_cur (s : State) (die ctx : Nat) (l : Launch) : (s.readArgs die ctx l).1.cur = s.cur := by
  have h := (onlyMem_readGlb s die unitLauncher ctx l.arg l.arglen).cur
  unfold State.readArgs
  split
  · rfl
  · split <;> rename_i he <;> rw [he] at h <;> exact h

theorem newKernel_cur (s : State) (ctx die queue prio : Nat) (parent : Parent) (l : Launch) (filler : Bool) (args : List Byte)
    (after : Option Needs) : (s.newKernel ctx die queue prio parent l filler args after).1.cur = s.cur := rfl

theorem serveLaunch_cur (s : State) (o : QOp) : (s.serveLaunch o).cur = s.cur := by
  unfold State.serveLaunch
  split
  · rename_i g b _ _
    have h1 := readLaunch_cur s b.die b.ctx o.q
    dsimp only
    split <;> rename_i he1 <;> rw [he1] at h1
    · exact (endQueue_cur ..).trans h1
    · rename_i s1 l
      have h2 := (readArgs_cur s1 b.die b.ctx l).trans h1
      split
      · rename_i he2 _
        rw [he2] at h2
        split
        · exact (endQueue_cur ..).trans ((emitGroup_cur ..).trans h2)
        · exact (endQueue_cur ..).trans h2
      · rename_i he2 _
        rw [he2] at h2
        exact (endQueue_cur ..).trans h2
  · rfl

theorem qopTake_cur (s : State) (o : QOp) : (s.qopTake o).cur = s.cur := by
  unfold State.qopTake
  split <;> rfl

theorem queueReleases_cur : ∀ (n : Nat) (s : State), (State.queueReleases n s).cur = s.cur
  | 0, _ => rfl
  | n + 1, s => by
    unfold State.queueReleases
    split
    · rfl
    · refine (queueReleases_cur n _).trans ?_
      split
      · exact (serveLaunch_cur ..).trans (qopTake_cur ..)
      · split
        · exact (serveWork_cur ..).trans (qopTake_cur ..)
        · exact (serveNamed_cur ..).trans (qopTake_cur ..)

/-! ## Channels -/

theorem chanPost_cur (s : State) (c : Channel) (p : Post) : (s.chanPost c p).1.cur = s.cur := by
  unfold State.chanPost
  split
  · rfl
  · split <;> rfl

theorem creditFor_cur (s : State) (r : EngRec) : (s.creditFor r).cur = s.cur := by
  unfold State.creditFor
  split <;> rfl

theorem cancelChan_cur (s : State) (cid : Nat) (p : Post → Bool) (code : Byte) : (s.cancelChan cid p code).cur = s.cur := by
  unfold State.cancelChan
  split
  · rfl
  · exact foldl_cur creditFor_cur _ _

theorem chanServe_cur (s : State) (c : Channel) (op : ChanOp) : (s.chanServe c op).1.cur = s.cur := by
  unfold State.chanServe
  split
  · split
    · exact chanPost_cur ..
    · rfl
  · rfl
  · exact cancelChan_cur ..

theorem chanServes_cur : ∀ (n : Nat) (s : State), (State.chanServes n s).cur = s.cur
  | 0, _ => rfl
  | n + 1, s => by
    unfold State.chanServes
    dsimp only
    split
    · rfl
    · refine (chanServes_cur n _).trans ((deliver_cur ..).trans ?_)
      split
      · exact chanServe_cur ..
      · rfl

/-! ## Nodes -/

theorem setNode_cur (s : State) (q idx : Nat) (f : Node → Node) : (s.setNode q idx f).cur = s.cur := by
  unfold State.setNode
  dsimp only
  split
  · rfl
  · split
    · rfl
    · exact (onlyMem_writeNode ..).cur

theorem traceNode_cur (s : State) (q idx : Nat) : (s.traceNode q idx).cur = s.cur := by
  unfold State.traceNode
  split
  · rfl
  · split
    · rfl
    · exact emitUnit_cur ..

theorem failNode_cur (s : State) (q idx : Nat) (code : Byte) : (s.failNode q idx code).cur = s.cur := by
  unfold State.failNode
  split
  · rfl
  · refine (foldl_cur (fun s d => ?_) _ _).trans ((traceNode_cur ..).trans (setNode_cur ..))
    split
    · rfl
    · split
      · exact (traceNode_cur ..).trans (setNode_cur ..)
      · rfl

theorem doneNode_cur (s : State) (q idx : Nat) : (s.doneNode q idx).cur = s.cur := by
  unfold State.doneNode
  split
  · rfl
  · exact (foldl_cur (fun _ _ => setNode_cur ..) _ _).trans ((traceNode_cur ..).trans (setNode_cur ..))

theorem startKernel_cur (s : State) (h : HostQ) (n : Node) : (s.startKernel h n).cur = s.cur := by
  have h1 := readLaunch_cur s (h.q % 8) h.ctx n.body
  unfold State.startKernel
  split <;> rename_i he <;> rw [he] at h1
  · exact (failNode_cur ..).trans h1
  · dsimp only
    split
    · exact (setNode_cur ..).trans h1
    · exact (failNode_cur ..).trans h1

theorem startCopy_cur (s : State) (h : HostQ) (n : Node) : (s.startCopy h n).cur = s.cur := by
  unfold State.startCopy
  split
  · exact failNode_cur ..
  · split
    · exact failNode_cur ..
    · dsimp only
      split
      · split
        · exact (setNode_cur ..).trans (chanPost_cur ..)
        · split
          · rfl
          · exact failNode_cur ..
      · split
        · exact setNode_cur ..
        · split
          · rfl
          · exact failNode_cur ..

theorem startEvent_cur (s : State) (h : HostQ) (n : Node) : (s.startEvent h n).cur = s.cur := by
  have hfault : ∀ (u : State) (code : Byte) (ctx va : Nat), (if parkCode code then
      u.fwEvent (h.q % 8) code.toNat [BitVec.ofNat 64 ctx, BitVec.ofNat 64 va, BitVec.ofNat 64 unitLauncher, 255]
      else u.failNode h.q n.idx code).cur = u.cur := by
    intro u code ctx va
    split
    · rfl
    · exact failNode_cur ..
  unfold State.startEvent
  split
  · exact setNode_cur ..
  · dsimp only
    split
    · exact setNode_cur ..
    · exact hfault ..
    · rename_i ctx va _
      have h1 := (onlyMem_writeGlb s (h.q % 8) unitLauncher ctx va (leBytes 8 1)).cur
      split <;> rename_i he <;> rw [he] at h1
      · exact (doneNode_cur ..).trans h1
      · exact (hfault ..).trans h1

theorem settleQueues_cur (s : State) : s.settleQueues.cur = s.cur := by
  unfold State.settleQueues
  refine foldl_cur (fun s h => ?_) _ _
  rfl

theorem startReady_cur : ∀ (n : Nat) (tried : List (Nat × Nat)) (s : State), (State.startReady n tried s).cur = s.cur
  | 0, _, s => settleQueues_cur s
  | n + 1, tried, s => by
    unfold State.startReady
    split
    · exact settleQueues_cur s
    · refine (startReady_cur n _ _).trans ?_
      split
      · exact startKernel_cur ..
      · exact startCopy_cur ..
      · exact startCopy_cur ..
      · exact startEvent_cur ..
      · exact startKernel_cur ..

/-! ## Bins -/

theorem binFire_cur (s : State) (x : Bin) : (s.binFire x).cur = s.cur := by
  unfold State.binFire
  split
  · rfl
  · split <;> rfl

theorem binExpire_cur (s : State) (x : Bin) : (s.binExpire x).cur = s.cur := by
  unfold State.binExpire
  split
  · rfl
  · exact binFire_cur ..

theorem fireBins_cur (s : State) (ds : List Nat) : (s.fireBins ds).cur = s.cur := by
  unfold State.fireBins
  refine foldl_cur (fun s x => ?_) _ _
  split
  · split
    · exact binExpire_cur ..
    · split
      · exact binFire_cur ..
      · rfl
  · rfl

theorem enterBin_cur (s : State) (r : PoolRec) : (s.enterBin r).cur = s.cur := by
  unfold State.enterBin
  split
  · unfold State.binPut
    dsimp only
    split <;> rfl
  · rfl

theorem enterBins_cur (s : State) (ds : List Nat) : (s.enterBins ds).cur = s.cur := by
  unfold State.enterBins
  exact foldl_cur (fun s r => enterBin_cur s r) _ _

/-! ## Slices -/

theorem tauWindow_cur (s : State) (ctx die : Nat) : (s.tauWindow ctx die).cur = s.cur := by
  unfold State.tauWindow
  split
  · rfl
  · dsimp only
    split <;> rfl

theorem findLapsed_cur (s : State) (die site set : Nat) : (s.findLapsed die site set).cur = s.cur := by
  unfold State.findLapsed
  refine foldl_cur (fun s l => ?_) _ _
  split
  · exact tauWindow_cur ..
  · rfl

theorem sweepDie_cur (s : State) (die : Nat) : (s.sweepDie die).cur = s.cur := by
  unfold State.sweepDie
  refine Eq.trans (State.modMem_cur ..) (foldl_cur (fun s x => ?_) _ _)
  exact findLapsed_cur ..

theorem sweepDies_cur (s : State) (ds : List Nat) : (s.sweepDies ds).cur = s.cur := by
  unfold State.sweepDies
  exact foldl_cur sweepDie_cur _ _

/-! ## The tick -/

theorem closeCycle_cur (s : State) (ds : List Nat) : (s.closeCycle ds).cur = s.cur := by
  unfold State.closeCycle
  refine (enterBins_cur ..).trans ((fireBins_cur ..).trans ((semDrains_cur _).trans ?_))
  exact (foldl_cur countQuad_cur _ _).trans ((endSteps_cur ..).trans (applyLates_cur ..))

theorem reachUnits_cur (s : State) : s.reachUnits.cur = s.cur := by
  unfold State.reachUnits
  exact (startReady_cur ..).trans ((chanServes_cur ..).trans ((queueReleases_cur ..).trans (semServes_cur ..)))

theorem passTime_cur (s : State) (n : Nat) : (s.passTime n).cur = s.cur := rfl

theorem turnDies_cur (s : State) (ds : List Nat) (n : Nat) : (s.turnDies ds n).cur = s.cur := rfl

/-- The end of a cycle leaves the latch as it is. -/
theorem tick_cur (s : State) : s.tick.cur = s.cur := by
  unfold State.tick
  split
  · rfl
  · exact (reachUnits_cur _).trans ((sweepDies_cur ..).trans ((turnDies_cur ..).trans ((passTime_cur ..).trans
      ((closeCycle_cur ..).trans (settleRaises_cur s)))))

/-! ## Steps -/

theorem afterStep_cur (s : State) (c : Issue) : (s.afterStep c).cur = s.cur := by
  unfold State.afterStep
  split
  · rfl
  · split
    · exact emitGroup_cur ..
    · rfl

/-- The end of a chain empties the latch. -/
theorem endChain_cur (s : State) (ctls : List Ctl) : (s.endChain ctls).cur = none := by
  unfold State.endChain
  split
  · assumption
  · split
    · rfl
    · dsimp only
      rw [apply_ite State.cur, ite_self]
      split
      · split
        · exact afterStep_cur ..
        · rfl
      · rfl

/-- A chain that an event has put into the latch has run and ended with the event. -/
theorem runChain_cur {s t : State} (h : s.runChain = .next t) : t.cur = none := by
  unfold State.runChain at h
  split at h
  · cases h
    assumption
  · dsimp only at h
    split at h
    · cases h
      exact endChain_cur ..
    · split at h <;> cases h
      exact endChain_cur ..

theorem take_cur {s t : State} {i : Instr} {e : Ev} (h0 : s.cur = none) (h : s.take i e = .next t) : t.cur = none := by
  unfold State.take at h
  split at h
  · cases h
    exact h0
  · split at h
    · split at h
      · exact runChain_cur h
      · cases h
      · cases h
    · cases h
      exact h0

theorem firstChange_cur {s t : State} (h0 : s.cur = none) : ∀ {es : List Item}, s.firstChange es = some t → t.cur = none
  | [], h => by cases h
  | e :: es, h => by
    unfold State.firstChange at h
    split at h
    · split at h
      · exact firstChange_cur h0 h
      · cases h
        exact take_cur h0 ‹_›
    · exact firstChange_cur h0 h

theorem defaultStep_cur {s t : State} (h0 : s.cur = none) (h : s.defaultStep = .next t) : t.cur = none := by
  unfold State.defaultStep at h
  split at h
  · exact take_cur h0 h
  · split at h
    · exact take_cur h0 h
    · split at h <;> cases h
      · exact firstChange_cur h0 ‹_›
      · exact (tick_cur s).trans h0

/-- Settles O16: an event that fills the latch ends with its chain, and what takes no event is the end of a cycle, which leaves the latch. -/
theorem stepsKeepLatchEmpty : Obligations.StepsKeepLatchEmpty := by
  intro s t h0 h
  unfold step at h
  split at h
  · refine take_cur ?_ h
    exact h0
  · refine defaultStep_cur ?_ h
    exact h0
  · exact defaultStep_cur h0 h

end Sys2Proof
end

section
/-!
PROOFS. A chain of one instruction (O26): the member that an issue has put into the latch is executed, and the chain ends.
-/
namespace Sys2Proof
open Machine

/-- A chain of one member is that member executed; its trap, if it raises one, is left to the end of the chain. -/
theorem runMembers_single (s0 s : State) (m : W32 × W32 × W32 × W32) : s0.runMembers true [m] s = s.runMember m := by
  unfold State.runMembers
  split
  next he =>
    rw [he]
    split <;> rfl
  next he => exact he.symm
  next he => exact he.symm

/-- What follows a chain of one member is its end (R62). -/
theorem runChain_single {s : State} {c : Issue} {m : W32 × W32 × W32 × W32} (hc : s.cur = some c) (hm : c.members = [m]) :
    s.runChain = match s.runMember m with
      | .next v => .next (v.endChain [ctlOf m.2.2.1.toNat])
      | .fault f => .fault f
      | .refused f => .refused f := by
  unfold State.runChain
  simp only [hc, hm, List.length_singleton, Nat.one_lt_ofNat, if_true, List.map_cons, List.map_nil, runMembers_single] <;> rfl

theorem take_event {s t : State} {i : Instr} {e : Ev} (hi : isEvent i = true) (h0 : s.out.tripped = false)
    (h : exec i { s with ev := e } = .next t) : s.take i e = t.runChain := by
  simp only [State.take, h0, hi, h, Bool.false_and, Bool.false_eq_true, if_false, if_true]

/-- Settles O26: the step takes the issue, and the chain that it has put into the latch is the one member decoded. -/
theorem stepRunsDecodedInstruction : Obligations.StepRunsDecodedInstruction := by
  intro s t g m d r e c ha h0 he hc hm hg hd
  have hrun : step s = t.runChain := (step_agenda ha).trans (take_event rfl h0 he)
  rw [hrun, runChain_single hc hm, runMember_decoded hc hg hd]
  rfl

end Sys2Proof
end

section
/-!
PROOFS. The events of the schedule (O28): gaps, switch markers and guards, and what holds an eligible group.
-/
namespace Sys2Proof
open Machine

/-! ## The events -/

section Events
variable {s : State} {g : Group} (hg : s.group? s.ev.id = some g)
include hg

/-- GAP_EXPIRE ends a gap that has run out (R64). -/
theorem gapExpire_answers : ∃ t, exec .gapExpire s = .next t ∧ SameMemory s t ∧ t.group? s.ev.id =
    some (if g.sched.gapUntil ≤ s.cycleOn g.die then { g with sched := { g.sched with gapUntil := 0 } } else g) := by
  refine ⟨_, rfl, ⟨rfl, rfl⟩, ?_⟩
  rw [group?_modGroup_same _ _ _ (fun x => by split <;> rfl), hg]
  rfl

/-- SWITCH_RELEASE ends a switch marker's wait once no result is outstanding (R64). -/
theorem switchRelease_answers : ∃ t, exec .switchRelease s = .next t ∧ SameMemory s t ∧ t.group? s.ev.id =
    some (if g.outs = [] then { g with sched := { g.sched with switched := false } } else g) := by
  refine ⟨_, rfl, ⟨rfl, rfl⟩, ?_⟩
  rw [group?_modGroup_same _ _ _ (fun x => by split <;> rfl), hg]
  simp only [Option.map_some, List.isEmpty_iff]

/-- The first group of the event's group's quadrant that the guard promotes (R318). -/
def promotedNext (s : State) (g : Group) : Option Group :=
  (s.quadOrder g.die g.core g.issueQuad).find? fun x => decide (224 ≤ x.sched.guard) && !x.sched.promoted

/-- GUARD_PROMOTE promotes the group whose turn it is (R318). -/
theorem guardPromote_promotes (h224 : 224 ≤ g.sched.guard) (hp : g.sched.promoted = false) (hf : promotedNext s g = some g) :
    ∃ t, exec .guardPromote s = .next t ∧ SameMemory s t ∧
      t.group? s.ev.id = some { g with sched := { g.sched with promoted := true } } ∧ g.gid ∈ t.order := by
  unfold promotedNext at hf
  have he := group?_gid hg
  change ∃ t, execGuardPromote s = .next t ∧ _
  simp only [execGuardPromote, hg, hf, h224, hp, Option.map_some, and_self, if_true]
  refine ⟨_, rfl, ⟨rfl, rfl⟩, ?_, by simp⟩
  rw [← he] at hg ⊢
  exact (group?_modGroup_same s g.gid (fun g => { g with sched := { g.sched with promoted := true } }) fun _ => rfl).trans (congrArg _ hg)

/-- GUARD_PROMOTE leaves what is not the next group to be promoted. -/
theorem guardPromote_idle (h : ¬ (224 ≤ g.sched.guard ∧ g.sched.promoted = false ∧ (promotedNext s g).map (fun x => x.gid) = some g.gid)) :
    exec .guardPromote s = .next s := by
  change execGuardPromote s = .next s
  unfold promotedNext at h
  simp only [execGuardPromote, hg, if_neg h]

end Events

/-! ## Eligibility (R316) -/

theorem mem_of_leastOf : ∀ {l : List Nat} {a : Nat}, leastOf l = some a → a ∈ l
  | x :: xs, a, h => by
    unfold leastOf at h
    split at h
    · simp_all
    · next y hy =>
      cases h
      have := mem_of_leastOf hy
      rcases Nat.le_total x y with hle | hle <;> simp [hle, this]

/-- A group with an issue address has an ACTIVE lane (R41). -/
theorem exists_active_of_issueAddr {g : Group} {a : Nat} (h : g.issueAddr = some a) : ∃ l < 32, (g.lane l).st = .active := by
  obtain ⟨l, hl, -⟩ := List.mem_map.mp (mem_of_leastOf h)
  obtain ⟨hl32, hst⟩ := List.mem_filter.mp hl
  exact ⟨l, List.mem_range.mp hl32, by simpa using hst⟩

/-- An eligible group is held by nothing of its own and has a chain, or the fault of its fetch, to issue (R316). -/
theorem unheld_of_eligible {s : State} {g : Group} (h : s.eligible g = true) : s.unheld g = true ∧ ∃ x, s.nextChain g = some x := by
  unfold State.eligible at h
  obtain ⟨hu, hn⟩ := Bool.and_eq_true_iff.mp h
  refine ⟨hu, ?_⟩
  cases hc : s.nextChain g with
  | none => simp [hc] at hn
  | some x => exact ⟨x, rfl⟩

theorem issueAddr_of_nextChain {s : State} {g : Group} {x : Nat × Except Byte (List (W32 × W32 × W32 × W32))} (h : s.nextChain g = some x) :
    ∃ a, g.issueAddr = some a := by
  unfold State.nextChain at h
  cases ha : g.issueAddr with
  | none => simp [ha] at h
  | some a => exact ⟨a, rfl⟩

/-- An eligible group enters no handler and is not saved: its results are written (R66, R367, R375). -/
theorem frozen_of_eligible {s : State} {g : Group} (h : s.eligible g = true) : g.frozen = false := by
  have hu := (unheld_of_eligible h).1
  simp only [State.unheld, Bool.and_eq_true, Bool.not_eq_true', Option.isNone_iff_eq_none] at hu
  simp [Group.frozen, hu]

/-! ## The choice of a quadrant (R317) -/

theorem mem_quadOrder {s : State} {die core quad : Nat} {g : Group} (h : g ∈ s.quadOrder die core quad) :
    g.die = die ∧ g.core = core ∧ g.issueQuad = quad := by
  obtain ⟨i, -, hi⟩ := List.mem_filterMap.mp h
  split at hi
  · split at hi
    · next hq =>
      cases hi
      simpa [and_assoc] using hq
    · cases hi
  · cases hi

/-- A quadrant chooses one of its groups that is eligible. -/
theorem choose_eligible {s : State} {die core quad : Nat} {g : Group} (h : s.choose die core quad = some g) :
    g ∈ s.quadOrder die core quad ∧ s.eligible g = true := by
  unfold State.choose at h
  dsimp only at h
  split at h
  · next x hx =>
    cases h
    have := List.find?_some hx
    exact ⟨List.mem_of_find?_eq_some hx, (Bool.and_eq_true_iff.mp this).2⟩
  · exact ⟨List.mem_of_find?_eq_some h, List.find?_some h⟩

/-- A quadrant that may choose has no group with a due result to be written (R66). -/
theorem dueResult_of_mayChoose {s : State} {die core quad : Nat} {g : Group} (h : s.mayChoose die core quad = true)
    (hg : g ∈ s.quadOrder die core quad) (hf : g.frozen = false) : s.dueResult g = false := by
  simp only [State.mayChoose, Bool.and_eq_true, Bool.not_eq_true', List.any_eq_false] at h
  have := h.2 g hg
  simp only [hf, Bool.not_false, Bool.and_true, Bool.or_eq_true, not_or, Bool.not_eq_true] at this
  exact this.1

theorem lt_due_of_dueResult {s : State} {g : Group} (h : s.dueResult g = false) : ∀ o ∈ g.outs, o.kind = .fixed → s.cycleOn g.die < o.due := by
  intro o ho hk
  have := List.any_eq_false.mp h o ho
  simpa [hk] using this

/-- Settles O28: the three events by their conditions, then what eligibility and the choice of a quadrant ask for. -/
theorem schedulingEvents : Obligations.SchedulingEvents := by
  refine ⟨fun s g hg => ⟨gapExpire_answers hg, switchRelease_answers hg, guardPromote_promotes hg, fun x hx hne => ?other, fun h => ?unready⟩,
    fun s g h => ?eligible, fun s die core quad g hm hc => ?chosen⟩
  case other =>
    refine guardPromote_idle hg fun h => hne ?_
    simpa [promotedNext, hx] using h.2.2
  case unready =>
    refine guardPromote_idle hg fun hp => ?_
    rcases h with h | h
    · omega
    · simp [h] at hp
  case eligible =>
    obtain ⟨hu, x, hx⟩ := unheld_of_eligible h
    obtain ⟨a, ha⟩ := issueAddr_of_nextChain hx
    simp only [State.unheld, State.clockRuns, Bool.and_eq_true, Bool.not_eq_true', Bool.and_eq_false_iff, Bool.or_eq_true, Bool.not_eq_false',
      List.isEmpty_iff, decide_eq_true_eq, Option.isNone_iff_eq_none] at hu
    obtain ⟨⟨⟨⟨⟨⟨⟨⟨⟨hsw, hgap⟩, hb⟩, ht⟩, hd⟩, hsv⟩, -⟩, hr⟩, hck⟩, -⟩ := hu
    refine ⟨fun h1 => ?_, hgap, hb, ht, fun h1 => ?_, hsv, hr, hck.1, exists_active_of_issueAddr ha⟩
    · rcases hsw with h2 | h2
      · exact absurd h1 (by simp [h2])
      · exact h2
    · rcases hd with h2 | h2
      · exact absurd h1 (by simp [h2])
      · exact h2
  case chosen =>
    obtain ⟨hin, he⟩ := choose_eligible hc
    obtain ⟨rfl, rfl, -⟩ := mem_quadOrder hin
    exact ⟨he, rfl, rfl, lt_due_of_dueResult (dueResult_of_mayChoose hm hin (frozen_of_eligible he))⟩

end Sys2Proof
end

section
/-!
PROOFS. The end of a chain (O27): its lanes go on, its control fields take effect, and the latch is empty (R62, R64).
-/
namespace Sys2Proof
open Machine

/-- A lane that the end of a chain moves: one still ACTIVE at the chain's address (R62). -/
def goOn (c : Issue) (l : Lane) : Lane := if l.st == .active && l.pc == c.addr then { l with pc := c.npc } else l

/-- The group of a chain after its end, with the control fields of its members `ctls` (R62, R64). -/
def chainEnded (s : State) (c : Issue) (ctls : List Ctl) (g : Group) : Group :=
  { (if c.moved then g else (lanesOf c.mask).foldl (fun g l => g.modLane l (goOn c)) g) with
    dbgStep := false, waitAt := s.timeNs,
    sched := { g.sched with switched := (ctls.any fun x => x.s == 1) && !g.outs.isEmpty,
                            gapUntil := if (ctls.map fun x => x.g.toNat).foldl max 0 = 0 then 0
                              else s.cycleOn g.die + (ctls.map fun x => x.g.toNat).foldl max 0 + 1,
                            gaveWay := ctls.any fun x => x.y == 1 } }

/-- A group that no debugger steps ends its chain in its lanes and control fields alone; Y sends it to the back of the order (R64). -/
theorem endChain_eq {s : State} {c : Issue} {g : Group} {ctls : List Ctl} (hc : s.cur = some c) (hg : s.group? c.gid = some g)
    (ht : s.trapNow = none) (hd : g.dbgHalt = false) : ∃ o, s.endChain ctls =
      { ({ s.occupy g (chainWords c.members) with cur := none } : State).modGroup c.gid (chainEnded s c ctls) with order := o } := by
  unfold State.endChain
  simp only [hc, hg, ht, hd, Option.isSome_none, Bool.false_eq_true, if_false, Bool.false_and]
  split
  · exact ⟨_, rfl⟩
  · exact ⟨_, rfl⟩

theorem chainEnded_gid (s : State) (c : Issue) (ctls : List Ctl) (g : Group) : (chainEnded s c ctls g).gid = g.gid := by
  unfold chainEnded
  split
  · rfl
  · exact foldl_modLane_gid (fun _ => goOn c) _ g

/-- What a lane reads after the end of a chain. -/
theorem chainEnded_lane (s : State) (c : Issue) (ctls : List Ctl) {g : Group} {l : Nat} (hl : l < g.lanes.length) :
    (chainEnded s c ctls g).lane l = if c.moved = false ∧ l ∈ lanesOf c.mask then goOn c (g.lane l) else g.lane l := by
  change Group.lane (if c.moved then g else (lanesOf c.mask).foldl (fun g l => g.modLane l (goOn c)) g) l = _
  cases c.moved with
  | true => simp
  | false =>
    simp only [Bool.false_eq_true, if_false, true_and]
    exact lane_foldl_modLane (fun _ => goOn c) l _ g (nodup_lanesOf _) hl

/-- The end of a chain leaves everything of its group but its lanes and its standing. -/
theorem chainEnded_rest (s : State) (c : Issue) (ctls : List Ctl) (g : Group) :
    (chainEnded s c ctls g).outs = g.outs ∧ (chainEnded s c ctls g).s = g.s := by
  unfold chainEnded
  split
  · exact ⟨rfl, rfl⟩
  · rw [foldl_modLane_eq (fun _ => goOn c)]
    exact ⟨rfl, rfl⟩

theorem chainEnded_gap (s : State) (c : Issue) (x : Ctl) (g : Group) :
    (chainEnded s c [x] g).sched.gapUntil = if x.g = 0 then 0 else s.cycleOn g.die + x.g.toNat + 1 := by
  have h0 : x.g.toNat = 0 ↔ x.g = 0 := by simp [← BitVec.toNat_inj]
  simp [chainEnded, h0]

/-- Settles O27: after a trap only the latch is emptied; otherwise the chain's group has ended its chain, lane by lane. -/
theorem chainEndAdvancesLanes : Obligations.ChainEndAdvancesLanes := by
  intro s c g x hc hg h32
  refine ⟨fun ht => ?trap, fun ht hd => ?ends⟩
  case trap => simp only [State.endChain, hc, ht, if_true]
  case ends =>
    obtain ⟨o, he⟩ := endChain_eq (ctls := [x]) hc hg ht hd
    obtain ⟨houts, hs⟩ := chainEnded_rest s c [x] g
    have hgroup : (s.endChain [x]).group? c.gid = some (chainEnded s c [x] g) := by
      rw [he]
      exact (group?_modGroup_same _ _ _ fun y => chainEnded_gid s c [x] y).trans (congrArg _ hg)
    refine ⟨_, endChain_cur s [x], hgroup, fun l hl => ?pc, ?switched, chainEnded_gap s c x g, ?gaveWay, houts, hs, ?memory⟩
    case pc =>
      rw [chainEnded_lane s c [x] (by omega)]
      by_cases hm : c.moved = false ∧ c.mask.getLsbD l = true
      · by_cases hp : (g.lane l).st = .active ∧ (g.lane l).pc = c.addr
        · simp [mem_lanesOf, hl, hm, hp, goOn]
        · have hstay : goOn c (g.lane l) = g.lane l := if_neg (by simpa using hp)
          rw [hstay, ite_self, if_neg fun h => hp h.2.2]
      · rw [if_neg fun h => hm ⟨h.1, (mem_lanesOf.mp h.2).2⟩, if_neg fun h => hm ⟨h.1, h.2.1⟩]
    case switched => simp [chainEnded]
    case gaveWay => simp [chainEnded]
    case memory =>
      rw [he]
      exact ⟨rfl, rfl⟩

end Sys2Proof
end

section
/-!
PROOFS. RESULT_WRITE of a fixed-latency result (O12): the registers that a result writes, lane by lane, and the flags that it raises (R66, R98).
-/
namespace Sys2Proof
open Machine

theorem SameMemory.sameByte {s t : State} (h : SameMemory s t) (a : Nat) : SameByte s t a := congrArg (cellGet · a) h.1

/-! ## What a result writes -/

theorem modLane_id (g : Group) (l : Nat) : g.modLane l (fun y => y) = g :=
  congrArg (fun ls => { g with lanes := ls }) (List.modify_id l g.lanes)

/-- The lane after the write of V[d] by a result whose mask still names it, or not (R67). -/
def laneWritten (mask : BitVec 32) (d : Nat) (f : Nat → W32) (l : Nat) (y : Lane) : Lane := if mask.getLsbD l then y.wv d (f l) else y

theorem apply_v (g : Group) (mask : BitVec 32) (l d : Nat) (f : Nat → W32) :
    g.apply mask (.v l d (f l)) = g.modLane l (laneWritten mask d f l) := by
  by_cases h : mask.getLsbD l = true
  · have hw : laneWritten mask d f l = fun y => y.wv d (f l) := funext fun _ => if_pos h
    rw [hw]
    exact if_pos h
  · have hw : laneWritten mask d f l = fun y => y := funext fun _ => if_neg h
    rw [hw, modLane_id]
    exact if_neg h

theorem foldl_apply_v (mask : BitVec 32) (d : Nat) (f : Nat → W32) (ls : List Nat) (g : Group) :
    (ls.map fun l => RegWrite.v l d (f l)).foldl (fun g w => g.apply mask w) g = ls.foldl (fun g l => g.modLane l (laneWritten mask d f l)) g := by
  rw [List.foldl_map]
  exact List.foldl_ext _ _ _ fun g l _ => apply_v g mask l d f

theorem orFlags_orFlags (gst : W32) (x : BitVec 5) : orFlags (orFlags gst x) x = orFlags gst x := by
  simp [orFlags, BitVec.or_assoc]

/-- One lane's flags after another: those of the lanes that the mask still names are ORed into GST (R67, R98). -/
theorem applyFlags_const (mask : BitVec 32) (x : BitVec 5) : ∀ (ls : List Nat) (g : Group),
    g.applyFlags mask (ls.map fun l => (l, x)) = { g with gst := if ls.any mask.getLsbD then orFlags g.gst x else g.gst }
  | [], _ => rfl
  | l :: ls, g => by
    have ih := applyFlags_const mask x ls (if mask.getLsbD l then { g with gst := orFlags g.gst x } else g)
    refine ih.trans ?_
    by_cases h : mask.getLsbD l = true
    · simp [h, orFlags_orFlags]
    · simp [h]

theorem any_lanesOf {m mask : BitVec 32} : (lanesOf m).any mask.getLsbD = false ↔ m &&& mask = 0 := by
  rw [List.any_eq_false]
  constructor
  · intro h
    refine BitVec.eq_of_getLsbD_eq fun l hl => ?_
    have hm := h l
    rw [mem_lanesOf] at hm
    cases hml : m.getLsbD l with
    | false => simp [hml]
    | true => simp [hml, hm ⟨hl, hml⟩]
  · intro h l hl
    have hb := congrArg (fun y : BitVec 32 => y.getLsbD l) h
    simpa [(mem_lanesOf.mp hl).2] using hb

/-- The group after a result that writes V[d] of the lanes of `m`, each with the flags `x`, where `mask` names the lanes that still get it. -/
def vLanded (g : Group) (m mask : BitVec 32) (d : Nat) (f : Nat → W32) (x : BitVec 5) : Group :=
  { g with lanes := ((lanesOf m).foldl (fun g l => g.modLane l (laneWritten mask d f l)) g).lanes,
           gst := if m &&& mask = 0 then g.gst else orFlags g.gst x }

theorem land_eq {g : Group} {o : Outst} {m : BitVec 32} {d : Nat} {f : Nat → W32} {x : BitVec 5}
    (hw : o.writes = (lanesOf m).map fun l => .v l d (f l)) (hf : o.flags = (lanesOf m).map fun l => (l, x)) :
    g.land o = vLanded g m o.mask d f x := by
  unfold Group.land vLanded
  rw [hw, hf, foldl_apply_v, applyFlags_const, foldl_modLane_eq]
  cases ha : (lanesOf m).any o.mask.getLsbD with
  | false => simp [any_lanesOf.mp ha]
  | true =>
    have hne : ¬ m &&& o.mask = 0 := fun h => by simp [any_lanesOf.mpr h] at ha
    rw [if_neg hne]
    rfl

/-- A lane that a result has landed in. -/
theorem vLanded_lane {g : Group} {m mask : BitVec 32} {d : Nat} {f : Nat → W32} {x : BitVec 5} (l : Nat) :
    (vLanded g m mask d f x).lane l = if l < g.lanes.length ∧ l ∈ lanesOf m then laneWritten mask d f l (g.lane l) else g.lane l := by
  change Group.lane ((lanesOf m).foldl (fun g l => g.modLane l (laneWritten mask d f l)) g) l = _
  by_cases hl : l < g.lanes.length
  · rw [lane_foldl_modLane _ l _ g (nodup_lanesOf m) hl]
    simp [hl]
  · have hn := length_foldl_modLane (laneWritten mask d f) (lanesOf m) g
    simp only [hl, false_and, if_false]
    simp only [Group.lane, List.getD_eq_getElem?_getD]
    rw [List.getElem?_eq_none (by omega), List.getElem?_eq_none (by omega)]

theorem rv_wv {y : Lane} {d : Nat} (hd : d < y.v.length) (v : W32) (r : Nat) : (y.wv d v).rv r = if r = d then v else y.rv r := by
  by_cases h : r = d
  · subst h
    simp [Lane.rv, Lane.wv, List.getD_eq_getElem?_getD, hd]
  · simp [Lane.rv, Lane.wv, List.getD_eq_getElem?_getD, h, Ne.symm h]

/-- A result leaves of a lane all but V[d]. -/
theorem laneWritten_rest (mask : BitVec 32) (d : Nat) (f : Nat → W32) (l : Nat) (y : Lane) :
    (laneWritten mask d f l y).p = y.p ∧ (laneWritten mask d f l y).pc = y.pc ∧ (laneWritten mask d f l y).st = y.st ∧
      (laneWritten mask d f l y).lr = y.lr := by
  unfold laneWritten
  split <;> exact ⟨rfl, rfl, rfl, rfl⟩

/-! ## The event -/

/-- A due fixed-latency result is written, and is then no longer outstanding (R66). -/
theorem writeDue_due {g : Group} {o : Outst} {cycle : Nat} (hf : g.frozen = false) (ho : g.outs = [o]) (hk : o.kind = .fixed) (hd : o.due ≤ cycle)
    (m : BitVec 32) : g.writeDue cycle 0 m = { g.land o with outs := [] } := by
  have hr : o.ready cycle = true := by simp [Outst.ready, hk, hd]
  simp [Group.writeDue, hf, ho, hk, hr, sortBy, insertBy]

/-- A group of which no fixed-latency result is due has none written (R66). -/
theorem writeDue_none {g : Group} {cycle : Nat} (h : ∀ o ∈ g.outs, o.kind = .fixed → cycle < o.due) (m : BitVec 32) :
    g.writeDue cycle 0 m = g := by
  have hn : ∀ o ∈ g.outs, (o.kind == .fixed && o.ready cycle) = false := by
    intro o ho
    by_cases hk : o.kind = .fixed
    · have := h o ho hk
      simp [hk, Outst.ready, this]
    · simp [hk]
  have hf : g.outs.filter (fun o => o.kind == .fixed && o.ready cycle) = [] := by
    rw [List.filter_eq_nil_iff]
    exact fun o ho => by simp [hn o ho]
  have hg : g.outs.filter (fun o => !(o.kind == .fixed && o.ready cycle)) = g.outs := by
    rw [List.filter_eq_self]
    exact fun o ho => by rw [hn o ho]; rfl
  unfold Group.writeDue
  split
  · rfl
  · rw [if_pos rfl]
    simp only [hf, hg]
    rfl

theorem apply_gid (g : Group) (mask : BitVec 32) (w : RegWrite) : (g.apply mask w).gid = g.gid := by
  cases w with
  | v | p | lr | lstat =>
    simp only [Group.apply]
    split <;> rfl
  | s r x =>
    simp only [Group.apply, Group.ws]
    split <;> rfl

/-- Results written to a group leave its name. -/
theorem land_gid (g : Group) (o : Outst) : (g.land o).gid = g.gid := by
  have hflags : ∀ (fs : List (Nat × BitVec 5)) (g : Group), (g.applyFlags o.mask fs).gid = g.gid := by
    intro fs g
    refine foldl_keeps Group.gid (fun g f => ?_) fs g
    split <;> rfl
  exact (hflags _ _).trans (foldl_keeps Group.gid (fun g w => apply_gid g o.mask w) _ _)

theorem writeDue_gid (g : Group) (cycle : Nat) (m : BitVec 32) : (g.writeDue cycle 0 m).gid = g.gid := by
  unfold Group.writeDue
  split
  · rfl
  · rw [if_pos rfl]
    exact foldl_keeps Group.gid land_gid _ g

/-- RESULT_WRITE of the fixed-latency results of a group: the group has them written, and nothing else of the state changes (R66). -/
theorem resultWrite_fixed {s : State} {g : Group} (hg : s.group? s.ev.id = some g) (h0 : s.ev.sub = 0) :
    ∃ t, exec .resultWrite s = .next t ∧ t.group? s.ev.id = some (g.writeDue (s.cycleOn g.die) 0 s.evLanes) ∧
      (∀ h, h ≠ s.ev.id → t.group? h = s.group? h) ∧ SameMemory s t := by
  have hx : exec .resultWrite s = .next (s.modGroup s.ev.id fun g => g.writeDue (s.cycleOn g.die) 0 s.evLanes) := by
    change execResultWrite s = _
    simp only [execResultWrite, h0, if_true]
  refine ⟨_, hx, ?_, fun h hne => group?_modGroup_ne s _ (fun g => writeDue_gid g _ _) hne, ⟨rfl, rfl⟩⟩
  rw [group?_modGroup_same s _ _ fun g => writeDue_gid g _ _, hg]
  rfl

/-- Settles O12: the due result has landed, lane by lane; a result that is not due leaves the group. -/
theorem dueResultIsWritten : Obligations.DueResultIsWritten := by
  refine ⟨fun s g o m d f x hg h0 hf ho hk hd hw hfl h32 hlen => ?due, fun s g hg h0 hn => ?notDue⟩
  case due =>
    obtain ⟨t, hx, ht, hne, hm⟩ := resultWrite_fixed hg h0
    rw [writeDue_due hf ho hk hd, land_eq hw hfl] at ht
    refine ⟨t, _, hx, ht, rfl, fun l hl r => ?rv, fun l => ?rest, rfl, rfl, rfl, rfl, rfl, hne, hm.sameByte⟩
    case rv =>
      change ((vLanded g m o.mask d f x).lane l).rv r = _
      rw [vLanded_lane, laneWritten]
      by_cases hml : m.getLsbD l = true
      · by_cases hol : o.mask.getLsbD l = true
        · simp [mem_lanesOf, h32, hl, hml, hol, rv_wv (hlen l hl)]
        · simp [hol]
      · simp [mem_lanesOf, hml]
    case rest =>
      change ((vLanded g m o.mask d f x).lane l).p = _ ∧ ((vLanded g m o.mask d f x).lane l).pc = _ ∧
        ((vLanded g m o.mask d f x).lane l).st = _ ∧ ((vLanded g m o.mask d f x).lane l).lr = _
      rw [vLanded_lane]
      split
      · exact laneWritten_rest ..
      · exact ⟨rfl, rfl, rfl, rfl⟩
  case notDue =>
    obtain ⟨t, hx, ht, -, hm⟩ := resultWrite_fixed hg h0
    rw [writeDue_none hn] at ht
    exact ⟨t, hx, ht, hm.sameByte⟩

end Sys2Proof
end

section
/-!
PROOFS. The forms that give a result (O13): what their issue leaves, and that their results name lanes of Active(g) alone.
-/
namespace Sys2Proof
open Machine

/-! ## The frame -/

/-- The issue of what gives a result adds that result, and changes nothing else but the next free name (R62, R65). -/
theorem givesKind_frame {k : OutKind} {i : Instr} {s : State} {c : Issue} {lat : Nat} {ws : List RegWrite} {fs : List (Nat × BitVec 5)}
    (h : GivesKind k i s c lat ws fs) : ∃ o, exec i s = .next (s.addOut c.gid o) ∧ SameMemory s (s.addOut c.gid o) ∧
      SameRegisters s (s.addOut c.gid o) := by
  obtain ⟨o, hx, -⟩ := h
  exact ⟨o, hx, addOut_memory s _ o, addOut_registers s _ o⟩

/-! ## Results that name lanes of Active(g) -/

/-- A write of one lane's register names a lane of Active(g). -/
def WritesActive (c : Issue) : RegWrite → Prop
  | .v l _ _ => l ∈ lanesOf c.mask
  | .p l _ _ => l ∈ lanesOf c.mask
  | _ => True

/-- An instruction whose fields R71 allows completes with one result, whose writes and flags name lanes of Active(g) alone. -/
def Completes (k : OutKind) (lat : Nat) (s : State) (c : Issue) (g : Group) (i : Instr) : Prop :=
  i.wf (s.regsOf g) = true → ∃ ws fs, GivesKind k i s c lat ws fs ∧ (∀ w ∈ ws, WritesActive c w) ∧ ∀ e ∈ fs, e.1 ∈ lanesOf c.mask

/-- The rows of a list complete so, all of them. -/
def CompletesAll (k : OutKind) (lat : Nat) (s : State) (c : Issue) (g : Group) (is : List Instr) : Prop := ∀ i ∈ is, Completes k lat s c g i

theorem completesAll_nil {k : OutKind} {lat : Nat} {s : State} {c : Issue} {g : Group} : CompletesAll k lat s c g [] := List.forall_mem_nil _

theorem completesAll_cons {k : OutKind} {lat : Nat} {s : State} {c : Issue} {g : Group} {i : Instr} {is : List Instr} :
    CompletesAll k lat s c g (i :: is) ↔ Completes k lat s c g i ∧ CompletesAll k lat s c g is := List.forall_mem_cons

theorem vWrites_active (c : Issue) (d : BitVec 6) (f : Nat → W32) : ∀ w ∈ vWrites c d f, WritesActive c w := by
  intro w hw
  obtain ⟨l, hl, rfl⟩ := List.mem_map.mp hw
  exact hl

theorem pWrites_active (c : Issue) (d : Nat) (f : Nat → Bool) : ∀ w ∈ pWrites c d f, WritesActive c w := by
  intro w hw
  obtain ⟨l, hl, rfl⟩ := List.mem_map.mp hw
  exact hl

theorem lanesDo_active (c : Issue) {f : Nat → List RegWrite} (h : ∀ l ∈ lanesOf c.mask, ∀ w ∈ f l, WritesActive c w) :
    ∀ w ∈ lanesDo c.mask f, WritesActive c w := by
  intro w hw
  obtain ⟨l, hl, hw⟩ := List.mem_flatMap.mp hw
  exact h l hl w hw

theorem laneFlags_active (c : Issue) (f : Nat → BitVec 5) : ∀ e ∈ laneFlags c f, e.1 ∈ lanesOf c.mask := by
  intro e he
  obtain ⟨l, hl, rfl⟩ := List.mem_map.mp he
  exact hl

section Forms
variable {s : State} {c : Issue} {g : Group} {i : Instr} {lat : Nat} {d a b : BitVec 6} (h : Issues s c g)
include h

theorem formVVV_completes {f : W32 → W32 → W32 → W32} (he : exec i s = formVVV i lat d a b f s := by dsimp only [exec]; rfl) :
    Completes .fixed lat s c g i :=
  fun hw => ⟨_, _, formVVV_gives ⟨h, hw⟩ he, vWrites_active _ _ _, List.forall_mem_nil _⟩

theorem formVV_completes {f : W32 → W32} (he : exec i s = formVV i lat d a f s := by dsimp only [exec]; rfl) :
    Completes .fixed lat s c g i :=
  fun hw => ⟨_, _, formVV_gives ⟨h, hw⟩ he, vWrites_active _ _ _, List.forall_mem_nil _⟩

theorem formV_completes {f : Issue → Group → Nat → W32} (he : exec i s = formV i lat d f s := by dsimp only [exec]; rfl) :
    Completes .fixed lat s c g i :=
  fun hw => ⟨_, _, formV_gives ⟨h, hw⟩ he, vWrites_active _ _ _, List.forall_mem_nil _⟩

theorem formP_completes {p : Nat} {f : Issue → Group → Nat → Bool} (he : exec i s = formP i lat p f s := by dsimp only [exec]; rfl) :
    Completes .fixed lat s c g i :=
  fun hw => ⟨_, _, formP_gives ⟨h, hw⟩ he, pWrites_active _ _ _, List.forall_mem_nil _⟩

theorem formS_completes {f : Issue → Group → W64} (he : exec i s = formS i lat d f s := by dsimp only [exec]; rfl) :
    Completes .fixed lat s c g i :=
  fun hw => ⟨_, _, formS_gives ⟨h, hw⟩ he, by simp [WritesActive], List.forall_mem_nil _⟩

theorem formDivide_completes {f : W32 → W32 → W32} (he : exec i s = formDivide i d a b f s := by dsimp only [exec]; rfl) :
    Completes .divide 1 s c g i :=
  fun hw => ⟨_, _, formDivide_gives ⟨h, hw⟩ he, vWrites_active _ _ _, List.forall_mem_nil _⟩

theorem formFlags_completes {f : Issue → Group → Nat → List RegWrite × BitVec 5} (he : exec i s = formFlags i lat f s)
    (hf : ∀ l ∈ lanesOf c.mask, ∀ w ∈ (f c g l).1, WritesActive c w) : Completes .fixed lat s c g i :=
  fun hw => ⟨_, _, formFlags_gives ⟨h, hw⟩ he, lanesDo_active c hf, laneFlags_active _ _⟩

theorem formF_completes {f : Nat → Nat → Nat → Nat × BitVec 5} (he : exec i s = formF i lat d a b f s := by dsimp only [exec]; rfl) :
    Completes .fixed lat s c g i :=
  formFlags_completes h he fun l hl => by simpa [WritesActive] using hl

theorem formF1_completes {f : W32 → Nat × BitVec 5} (he : exec i s = formF1 i lat d a f s := by dsimp only [exec]; rfl) :
    Completes .fixed lat s c g i :=
  formFlags_completes h he fun l hl => by simpa [WritesActive] using hl

/-- A meaning that posts one fixed-latency result of its own (R65). -/
theorem postFixed_completes {k : Issue → Group → State} {ws : List RegWrite} (he : exec i s = issue i s k) (hk : k c g = s.postFixed c g lat ws)
    (hws : ∀ w ∈ ws, WritesActive c w) : Completes .fixed lat s c g i := by
  intro hw
  refine ⟨ws, [], postFixed_gives h.2 ?_, hws, List.forall_mem_nil _⟩
  rw [he, issue_ready ⟨h, hw⟩, hk]

/-! ## The rows -/

theorem iaddc_completes : Completes .fixed 4 s c g (.iaddc d a b) :=
  postFixed_completes h rfl rfl <| lanesDo_active c fun l hl => by simpa [WritesActive] using hl

theorem fcmp_completes (k : BitVec 3) : Completes .fixed 5 s c g (.fcmp d a b k) :=
  formFlags_completes h rfl fun l hl => by simpa [WritesActive] using hl

theorem fsincosT_completes : Completes .fixed 24 s c g (.fsincosT d a) :=
  formFlags_completes h rfl fun l hl => by simpa [WritesActive] using hl

/-- FCVT draws u for SR in each lane at the issue (R96), and posts its result with its flags. -/
theorem fcvt_completes (sp t m : BitVec 3) : Completes .fixed 5 s c g (.fcvt d a sp t m) := by
  intro hw
  refine ⟨_, _, postFlags_gives h.2 (issue_ready ⟨h, hw⟩ _), lanesDo_active c fun l hl => ?_, laneFlags_active _ _⟩
  simpa [WritesActive] using hl

/-- SEL writes V[D] in the lanes whose predicate holds, which are lanes of Active(g) (R168). -/
theorem sel_completes (n : BitVec 1) (k : BitVec 3) : Completes .fixed 4 s c g (.sel d a n k) := by
  refine postFixed_completes h rfl rfl <| lanesDo_active c fun l hl => ?_
  split
  · simpa [WritesActive] using hl
  · exact List.forall_mem_nil _

omit h in
theorem sreadWrites_active (k q : BitVec 1) (f : Nat → Nat) : ∀ w ∈ sreadWrites d k q c.mask f, WritesActive c w := by
  unfold sreadWrites
  split
  · simp [WritesActive]
  · exact lanesDo_active c fun l hl => by simpa [WritesActive] using hl

/-- SREAD of a register that the group may read (R80, R116). -/
theorem sread_completes (k q : BitVec 1) {n : BitVec 9} (hn : n.toNat < 0x100 ∨ g.firmware = true) : Completes .fixed 4 s c g (.sread d k q n) := by
  have hok : ¬ (0x100 ≤ n.toNat ∧ g.firmware = false) := by
    rintro ⟨h1, h2⟩
    rcases hn with h3 | h3
    · omega
    · simp [h2] at h3
  exact postFixed_completes h rfl (if_neg hok) (sreadWrites_active k q _)

theorem ialu_completes : CompletesAll .fixed 4 s c g [.iadd d a b, .isub d a b, .imin d a b, .imax d a b, .iminu d a b, .imaxu d a b, .iabsd d a b,
    .iaddc d a b] := by
  simp only [completesAll_cons, completesAll_nil, and_true]
  exact ⟨formVVV_completes h, formVVV_completes h, formVVV_completes h, formVVV_completes h, formVVV_completes h, formVVV_completes h,
    formVVV_completes h, iaddc_completes h⟩

theorem imul_completes : CompletesAll .fixed 5 s c g [.imul d a b, .imulh d a b, .imulhu d a b, .imad d a b] := by
  simp only [completesAll_cons, completesAll_nil, and_true]
  refine ⟨?_, ?_, ?_, ?_⟩ <;> exact formVVV_completes h

theorem divide_completes : CompletesAll .divide 1 s c g [.idiv d a b, .idivu d a b, .irem d a b, .iremu d a b] := by
  simp only [completesAll_cons, completesAll_nil, and_true]
  refine ⟨?_, ?_, ?_, ?_⟩ <;> exact formDivide_completes h

theorem logic_completes (sp : BitVec 6) : CompletesAll .fixed 4 s c g [.andd d a b, .orr d a b, .xor d a b, .andn d a b, .orn d a b, .xnor d a b,
    .notb d a, .shl d a b, .shr d a b, .sar d a b, .rol d a b, .ror d a b, .fshl d a b, .fshr d a b, .clz d a, .ctz d a, .popc d a, .brev d a,
    .bitil d a sp, .bitdl d a sp, .bytep d a b, .bfe d a b, .bfeu d a b, .bfi d a b] := by
  simp only [completesAll_cons, completesAll_nil, and_true]
  exact ⟨formVVV_completes h, formVVV_completes h, formVVV_completes h, formVVV_completes h, formVVV_completes h, formVVV_completes h,
    formVV_completes h, formVVV_completes h, formVVV_completes h, formVVV_completes h, formVVV_completes h, formVVV_completes h,
    formVVV_completes h, formVVV_completes h, formVV_completes h, formVV_completes h, formVV_completes h, formVV_completes h, formVV_completes h,
    formVV_completes h, formVVV_completes h, formVVV_completes h, formVVV_completes h, formVVV_completes h⟩

theorem imm_completes (f q : BitVec 3) (k : BitVec 5) (i : BitVec 9) (w : BitVec 15) (x : BitVec 32) : CompletesAll .fixed 4 s c g [.icmp d a b f,
    .iaddi d a i, .iandi d a i, .iori d a i, .ixori d a i, .shli d a k, .shri d a k, .sari d a k, .roli d a k, .icmpi f q a i, .lea d a b f,
    .movi d w, .movl d x, .movlSx d x, .movlZx d x, .movlHi d x] := by
  simp only [completesAll_cons, completesAll_nil, and_true]
  exact ⟨formP_completes h, formVV_completes h, formVV_completes h, formVV_completes h, formVV_completes h, formVV_completes h, formVV_completes h,
    formVV_completes h, formVV_completes h, formP_completes h, formVVV_completes h, formV_completes h, formV_completes h, formS_completes h,
    formS_completes h, formS_completes h⟩

theorem farith_completes (f : BitVec 3) : CompletesAll .fixed 5 s c g [.fadd d a b, .fsub d a b, .fmul d a b, .fmin d a b, .fmax d a b,
    .fminm d a b, .fmaxm d a b, .fabsd d a b, .ffma d a b, .ffms d a b, .fnfma d a b, .fnfms d a b, .pkfma d a b, .pkadd d a b, .pkmul d a b,
    .pkfmaF16 d a b, .fcmp d a b f] := by
  simp only [completesAll_cons, completesAll_nil, and_true]
  exact ⟨formF_completes h, formF_completes h, formF_completes h, formF_completes h, formF_completes h, formF_completes h, formF_completes h,
    formF_completes h, formF_completes h, formF_completes h, formF_completes h, formF_completes h, formF_completes h, formF_completes h,
    formF_completes h, formF_completes h, fcmp_completes h f⟩

theorem convert_completes (f q m : BitVec 3) : CompletesAll .fixed 5 s c g [.fcvt d a f q m, .frnd d a m, .fcvti d a f m, .icvtf d a f m,
    .fscaleb d a b, .frexpe d a, .frexpm d a, .fclass d a, .fsgnj d a b, .fsgnjn d a b, .fabs d a, .fneg d a] := by
  simp only [completesAll_cons, completesAll_nil, and_true]
  exact ⟨fcvt_completes h f q m, formF1_completes h, formF1_completes h, formF1_completes h, formF_completes h, formF1_completes h,
    formF1_completes h, formF1_completes h, formF_completes h, formF_completes h, formF1_completes h, formF1_completes h⟩

theorem sfu_completes : CompletesAll .fixed 12 s c g [.frcp d a, .frsq d a, .fsqrt d a, .fexp2 d a, .flog2 d a, .fsint d a, .fcost d a,
    .ftanh d a] := by
  simp only [completesAll_cons, completesAll_nil, and_true]
  refine ⟨?_, ?_, ?_, ?_, ?_, ?_, ?_, ?_⟩ <;> exact formF1_completes h

theorem fdivx_completes : CompletesAll .fixed 24 s c g [.fdiv d a b, .fsincosT d a, .ferf d a] := by
  simp only [completesAll_cons, completesAll_nil, and_true]
  exact ⟨formF_completes h, fsincosT_completes h, formF1_completes h⟩

theorem lane_completes : CompletesAll .fixed 6 s c g [.shflIdx d a b, .shflUp d a b, .shflDown d a b, .shflXor d a b, .voteAll d a, .voteAny d a,
    .voteBal d a, .matchLanes d a, .lredAdd d a, .lredMin d a, .lredMax d a, .lscanAdd d a] := by
  simp only [completesAll_cons, completesAll_nil, and_true]
  exact ⟨formV_completes h, formV_completes h, formV_completes h, formV_completes h, formP_completes h, formP_completes h, formV_completes h,
    formV_completes h, formV_completes h, formV_completes h, formV_completes h, formV_completes h⟩

theorem move_completes (n k : BitVec 1) (f : BitVec 3) : CompletesAll .fixed 4 s c g [.mov d a, .movs d a n, .smov d a, .smovs d a, .sel d a k f,
    .pmovPFromV d a, .pmovVFromP d a] := by
  simp only [completesAll_cons, completesAll_nil, and_true]
  exact ⟨formVV_completes h, formV_completes h, formS_completes h, formS_completes h, sel_completes h k f, formP_completes h, formV_completes h⟩

theorem scalar_completes (i : BitVec 9) (f : BitVec 3) : CompletesAll .fixed 4 s c g [.sadd d a b, .ssub d a b, .sand d a b, .sor d a b,
    .sxor d a b, .sshl d a b, .sshr d a b, .smul d a b, .saddi d a i, .scmp d a b f] := by
  simp only [completesAll_cons, completesAll_nil, and_true]
  exact ⟨formS_completes h, formS_completes h, formS_completes h, formS_completes h, formS_completes h, formS_completes h, formS_completes h,
    formS_completes h, formS_completes h, formP_completes h⟩

end Forms

/-- What the completion of rows says of the writes and flags of their results, lane by lane. -/
theorem completes_lanes {k : OutKind} {lat : Nat} {s : State} {c : Issue} {g : Group} {is : List Instr}
    (h : CompletesAll k lat s c g is) :
    ∀ i ∈ is, i.wf (s.regsOf g) = true → ∃ ws fs, GivesKind k i s c lat ws fs ∧
      (∀ l r v, RegWrite.v l r v ∈ ws → l < 32 ∧ c.mask.getLsbD l = true) ∧
      (∀ l r v, RegWrite.p l r v ∈ ws → l < 32 ∧ c.mask.getLsbD l = true) ∧
      ∀ e ∈ fs, e.1 < 32 ∧ c.mask.getLsbD e.1 = true := by
  intro i hi hw
  obtain ⟨ws, fs, hg, hws, hfs⟩ := h i hi hw
  exact ⟨ws, fs, hg, fun l r v hm => mem_lanesOf.mp (hws _ hm), fun l r v hm => mem_lanesOf.mp (hws _ hm), fun e he => mem_lanesOf.mp (hfs e he)⟩

/-- Settles O13: the frame of a result, then the rows, each by its form. -/
theorem resultFormsFrame : Obligations.ResultFormsFrame := by
  refine ⟨fun k i s c lat ws fs h => ?frame, fun s c g d a b sp f m q n0 n k i w x h => ?rows⟩
  case frame =>
    obtain ⟨o, hx, hm, hr⟩ := givesKind_frame h
    exact ⟨_, hx, hm.sameByte, hm, hr, rfl, rfl, rfl, rfl, rfl, rfl, rfl, rfl⟩
  case rows =>
    exact ⟨completes_lanes (ialu_completes h), completes_lanes (imul_completes h), completes_lanes (divide_completes h),
      completes_lanes (logic_completes h sp), completes_lanes (imm_completes h f q k i w x), completes_lanes (farith_completes h f),
      completes_lanes (convert_completes h f q m), completes_lanes (sfu_completes h), completes_lanes (fdivx_completes h),
      completes_lanes (lane_completes h), completes_lanes (move_completes h n0 n f), completes_lanes (scalar_completes h i f),
      fun hi => completes_lanes (completesAll_cons.mpr ⟨sread_completes h n0 n hi, completesAll_nil⟩)⟩

end Sys2Proof
end

section
/-!
PROOFS. The tables of a matrix unit, ordered by key (R257): the value of a key after a write, after a run of writes and after a removal.
-/
namespace Sys2Proof
open Machine

section
variable {α : Type}

/-- The keys of a table ascend. -/
def Ascending (t : List (Nat × α)) : Prop := t.Pairwise fun p q => p.1 < q.1

theorem sparseGet_absent (d : α) : ∀ {t : List (Nat × α)} {a : Nat}, (∀ p ∈ t, p.1 ≠ a) → sparseGet d t a = d
  | [], _, _ => rfl
  | (k, y) :: r, a, h => by
    obtain ⟨hk, hr⟩ := List.forall_mem_cons.mp h
    rw [sparseGet, if_neg hk, sparseGet_absent d hr]

theorem sparseGet_filter (d : α) (p : Nat → Bool) : ∀ (t : List (Nat × α)) (a : Nat),
    sparseGet d (t.filter fun e => p e.1) a = if p a then sparseGet d t a else d
  | [], a => by simp [sparseGet]
  | (k, y) :: r, a => by
    have ih := sparseGet_filter d p r a
    rw [List.filter_cons]
    by_cases hk : k = a
    · subst hk
      by_cases hp : p k = true
      · simp [hp, sparseGet]
      · simpa [hp] using ih
    · by_cases hp : p k = true <;> simp [hp, hk, sparseGet, ih]

variable [DecidableEq α]

theorem mem_sparsePut {d x : α} {a : Nat} {p : Nat × α} : ∀ {t : List (Nat × α)}, p ∈ sparsePut d t a x → p.1 = a ∨ p ∈ t
  | [], h => by
    unfold sparsePut at h
    split at h <;> simp_all
  | (k, y) :: r, h => by
    unfold sparsePut at h
    split at h
    · split at h
      · exact .inr h
      · exact (List.mem_cons.mp h).imp (fun e => by rw [e]) id
    · split at h
      · split at h
        · exact .inr (List.mem_cons_of_mem _ h)
        · exact (List.mem_cons.mp h).imp (fun e => by rw [e]) (List.mem_cons_of_mem _)
      · rcases List.mem_cons.mp h with rfl | h
        · exact .inr List.mem_cons_self
        · exact (mem_sparsePut h).imp id (List.mem_cons_of_mem _)

theorem ascending_put {d : α} (a : Nat) (x : α) : ∀ {t : List (Nat × α)}, Ascending t → Ascending (sparsePut d t a x)
  | [], _ => by
    unfold sparsePut
    split
    · exact .nil
    · exact List.pairwise_singleton _ _
  | (k, y) :: r, h => by
    obtain ⟨hk, hr⟩ := List.pairwise_cons.mp h
    unfold sparsePut
    split
    case isTrue hlt =>
      split
      · exact h
      · exact List.pairwise_cons.mpr ⟨List.forall_mem_cons.mpr ⟨hlt, fun p hp => hlt.trans (hk p hp)⟩, h⟩
    case isFalse hge =>
      split
      case isTrue he =>
        subst he
        split
        · exact hr
        · exact List.pairwise_cons.mpr ⟨hk, hr⟩
      case isFalse hne =>
        refine List.pairwise_cons.mpr ⟨fun p hp => ?_, ascending_put a x hr⟩
        rcases mem_sparsePut hp with e | hp
        · show k < p.1
          omega
        · exact hk p hp

theorem sparseGet_put_same (d x : α) {a : Nat} : ∀ {t : List (Nat × α)}, Ascending t → sparseGet d (sparsePut d t a x) a = x
  | [], _ => by by_cases hx : x = d <;> simp [sparsePut, sparseGet, hx]
  | (k, y) :: r, h => by
    obtain ⟨hk, hr⟩ := List.pairwise_cons.mp h
    rcases Nat.lt_trichotomy a k with hlt | rfl | hgt
    · have habs : sparseGet d ((k, y) :: r) a = d :=
        sparseGet_absent d (List.forall_mem_cons.mpr ⟨hlt.ne', fun p hp => (hlt.trans (hk p hp)).ne'⟩)
      by_cases hx : x = d
      · simp [sparsePut, hlt, hx, habs]
      · simp [sparsePut, hlt, hx, sparseGet]
    · have habs : sparseGet d r a = d := sparseGet_absent d fun p hp => (hk p hp).ne'
      by_cases hx : x = d <;> simp [sparsePut, hx, sparseGet, habs]
    · simp [sparsePut, hgt.not_gt, hgt.ne, hgt.ne', sparseGet, sparseGet_put_same d x hr]

theorem sparseGet_put_ne (d x : α) {a b : Nat} (hb : b ≠ a) : ∀ t : List (Nat × α), sparseGet d (sparsePut d t a x) b = sparseGet d t b
  | [] => by by_cases hx : x = d <;> simp [sparsePut, sparseGet, hx, hb.symm]
  | (k, y) :: r => by
    rcases Nat.lt_trichotomy a k with hlt | rfl | hgt
    · by_cases hx : x = d <;> simp [sparsePut, hlt, hx, sparseGet, hb.symm]
    · by_cases hx : x = d <;> simp [sparsePut, hx, sparseGet, hb.symm]
    · simp [sparsePut, hgt.not_gt, hgt.ne', sparseGet, sparseGet_put_ne d x hb r]

theorem sparseGet_put (d x : α) {t : List (Nat × α)} (h : Ascending t) (a b : Nat) :
    sparseGet d (sparsePut d t a x) b = if b = a then x else sparseGet d t b := by
  split
  case isTrue e => rw [e, sparseGet_put_same d x h]
  case isFalse e => exact sparseGet_put_ne d x e t

/-- A run of `n` values written from `base` on. -/
def sparseRun (d : α) (t : List (Nat × α)) (base : Nat) (f : Nat → α) (n : Nat) : List (Nat × α) :=
  (List.range n).foldl (fun t i => sparsePut d t (base + i) (f i)) t

theorem sparseRun_succ (d : α) (t : List (Nat × α)) (base : Nat) (f : Nat → α) (n : Nat) :
    sparseRun d t base f (n + 1) = sparsePut d (sparseRun d t base f n) (base + n) (f n) := by
  rw [sparseRun, List.range_succ, List.foldl_append]
  rfl

theorem sparseGet_run (d : α) {t : List (Nat × α)} (h : Ascending t) (base : Nat) (f : Nat → α) (b : Nat) : ∀ n : Nat,
    Ascending (sparseRun d t base f n) ∧
    sparseGet d (sparseRun d t base f n) b = if base ≤ b ∧ b < base + n then f (b - base) else sparseGet d t b
  | 0 => ⟨h, (if_neg (by omega)).symm⟩
  | n + 1 => by
    obtain ⟨ha, hg⟩ := sparseGet_run d h base f b n
    rw [sparseRun_succ]
    refine ⟨ascending_put _ _ ha, ?_⟩
    rw [sparseGet_put d _ ha, hg]
    by_cases hb : b = base + n
    · rw [if_pos hb, if_pos (by omega), hb, Nat.add_sub_cancel_left]
    · rw [if_neg hb]
      exact if_congr (by omega) rfl rfl

end

end Sys2Proof
end

section
/-!
PROOFS. The matrix unit found after an update, and the matrix instructions as they issue: their checks, their fills and what the queue holds
afterwards (R262 to R271).
-/
namespace Sys2Proof
open Machine

/-! ## The unit found after an update -/

/-- The element that an update names, found after it. -/
theorem find?_mapIf_own {α : Type} {p : α → Bool} {f : α → α} (hf : ∀ x, p x = true → p (f x) = true) :
    ∀ l : List α, (mapIf p f l).find? p = (l.find? p).map f
  | [] => rfl
  | x :: l => by
    have ih := find?_mapIf_own hf l
    rw [mapIf] at ih ⊢
    cases hx : p x <;> simp [hx, hf, ih]

theorem mapIf_congr {α : Type} {p : α → Bool} {f f' : α → α} (h : ∀ x, p x = true → f x = f' x) (l : List α) : mapIf p f l = mapIf p f' l :=
  List.map_congr_left fun x _ => by
    cases hx : p x with
    | false => rfl
    | true => exact h x hx

/-- The die, core and quadrant of a unit. -/
def matPlace (u : MatUnit) : Nat × Nat × Nat := (u.die, u.core, u.quad)

theorem matPlace_iff {u : MatUnit} {die core quad : Nat} :
    (u.die == die && u.core == core && u.quad == quad) = true ↔ matPlace u = (die, core, quad) := by
  simp [matPlace, and_assoc]

theorem place_of_matAt {s : State} {die core quad : Nat} {u : MatUnit} (h : s.matAt die core quad = some u) : matPlace u = (die, core, quad) :=
  by
  have hp := List.find?_some h
  exact matPlace_iff.mp hp

theorem matAt_own {s : State} {die core quad : Nat} {u : MatUnit} (h : s.matAt die core quad = some u) : s.matAt u.die u.core u.quad = some u := by
  obtain ⟨rfl, rfl, rfl⟩ : u.die = die ∧ u.core = core ∧ u.quad = quad := by simpa [matPlace] using place_of_matAt h
  exact h

theorem matAt_modMat {s : State} {die core quad : Nat} {u : MatUnit} {f : MatUnit → MatUnit} (h : s.matAt die core quad = some u)
    (hf : ∀ v, matPlace v = (die, core, quad) → matPlace (f v) = (die, core, quad)) : (s.modMat die core quad f).matAt die core quad = some (f u) := by
  have hown := find?_mapIf_own (p := fun u : MatUnit => u.die == die && u.core == core && u.quad == quad) (f := f)
    (fun v hv => matPlace_iff.mpr (hf v (matPlace_iff.mp hv))) s.mats
  exact hown.trans (congrArg (Option.map f) h)

theorem modMat_congr {s : State} {die core quad : Nat} {f f' : MatUnit → MatUnit} (h : ∀ v, matPlace v = (die, core, quad) → f v = f' v) :
    s.modMat die core quad f = s.modMat die core quad f' :=
  congrArg (fun ms => { s with mats := ms }) (mapIf_congr (fun v hv => h v (matPlace_iff.mp hv)) s.mats)

theorem addQuarters_place (u : MatUnit) (cycle : Nat) (m : MatWord) (qs : List Quarter) : matPlace (u.addQuarters cycle m qs) = matPlace u := by
  unfold MatUnit.addQuarters
  split
  · rfl
  · split
    · split <;> rfl
    · rfl

/-! ## The checks of the lanes -/

theorem any_lanesOf_iff (m : BitVec 32) (p : Nat → Bool) : (lanesOf m).any p = true ↔ ∃ l < 32, m.getLsbD l = true ∧ p l = true := by
  simp [List.any_eq_true, mem_lanesOf, and_assoc]

theorem any_lanesOf_eq_false {m : BitVec 32} {p : Nat → Bool} (h : ¬ ∃ l < 32, m.getLsbD l = true ∧ p l = true) : (lanesOf m).any p = false :=
  Bool.eq_false_iff.mpr (mt (any_lanesOf_iff m p).mp h)

theorem if_anyLane {α : Type} {m : BitVec 32} {p : Nat → Prop} [DecidablePred p] (h : ∃ l < 32, m.getLsbD l = true ∧ p l) (x y : α) :
    (if (lanesOf m).any fun l => decide (p l) then x else y) = x := if_pos ((any_lanesOf_iff m _).mpr (by simpa using h))

theorem if_noLane {α : Type} {m : BitVec 32} {p : Nat → Prop} [DecidablePred p] (h : ¬ ∃ l < 32, m.getLsbD l = true ∧ p l) (x y : α) :
    (if (lanesOf m).any fun l => decide (p l) then x else y) = y :=
  if_neg (ne_true_of_eq_false (any_lanesOf_eq_false (by simpa using h)))

theorem badLane_none {m : BitVec 32} {va : Nat → Int} {bad : Nat → Int → Bool} (h : ¬ ∃ l < 32, m.getLsbD l = true ∧ bad l (va l) = true) :
    badLane m va bad = none := by
  have hno : (lanesOf m).find? (fun l => bad l (va l)) = none :=
    List.find?_eq_none.mpr fun l hl hb => h ⟨l, (mem_lanesOf.mp hl).1, (mem_lanesOf.mp hl).2, hb⟩
  rw [badLane, hno]
  rfl

/-- No lane is misaligned where every lane's address is aligned to 16 bytes. -/
theorem badLane_aligned {m : BitVec 32} {va : Nat → Nat} (h : ¬ ∃ l < 32, m.getLsbD l = true ∧ va l % 16 ≠ 0) :
    badLane m (fun l => (va l : Int)) (fun _ v => v % 16 != 0) = none :=
  badLane_none fun ⟨l, hl, hm, hb⟩ => h ⟨l, hl, hm, fun h16 => by
    have : (va l : Int) % 16 = 0 := by omega
    simp [this] at hb⟩

/-- No lane is outside its segment where every lane's bytes are inside. -/
theorem badLane_inside {s : State} {g : Group} {m : BitVec 32} {va : Nat → Nat} {n : Nat} {wr : Bool}
    (h : ¬ ∃ l < 32, m.getLsbD l = true ∧ s.segOk g (g.lane l) 1 (va l) n wr = false) :
    badLane m (fun l => (va l : Int)) (fun l v => !(s.segOk g (g.lane l) 1 v n wr)) = none :=
  badLane_none fun ⟨l, hl, hm, hb⟩ => h ⟨l, hl, hm, by simpa using hb⟩

/-! ## What the queue takes -/

/-- The MLD instruction that a group's unit takes. -/
def mldOpOf (s : State) (c : Issue) (g : Group) (b : Band) (lanes : List Nat) (minor d bf oid av dv count : Nat) : MldOp :=
  { mid := s.nextId, needs := g.matNeeds, gid := c.gid, band := b.bid, oid := oid, pc := c.pc, minor := minor, d := d, b := bf,
    lanes := lanes.map fun l => (l, (g.lane l).rv dv, (g.lane l).rv av), count := count }

theorem acceptMld_mat {s : State} {g : Group} {u : MatUnit} (h : s.mat? g = some u) {view : MatUnit → MatUnit}
    (hv : ∀ v, matPlace (view v) = matPlace v) (c : Issue) (b : Band) (lanes : List Nat) (minor d bf oid av dv count : Nat) :
    (s.acceptMld c g b lanes minor d bf oid av dv count view).mat? g =
      some { view u.close with queue := (view u.close).queue ++ [.mld (mldOpOf s c g b lanes minor d bf oid av dv count)] } :=
  matAt_modMat (s := { s with nextId := s.nextId + 1 }) h fun v hp => (hv v.close).trans hp

section
variable {s : State} {c : Issue} {g : Group} {u : MatUnit} {x : Band} (hu : s.mat? g = some u) (hx : s.band? g.band = some x)
include hu hx

theorem withMat_eq (k : MatUnit → Band → State) : s.withMat c g k = k u x := by
  unfold State.withMat
  rw [hu, hx]

theorem issue_withMat {i : Instr} (h : Ready i s c g) (k : Issue → Group → MatUnit → Band → State) :
    issue i s (fun c g => s.withMat c g (k c g)) = .next (k c g u x) := by
  rw [issue_ready h, withMat_eq hu hx]

end

theorem mldRead_misaligned {off align : Nat} (h : off % align ≠ 0) (s : State) (c : Issue) (g : Group) (b : Band) (n : Nat) (k : State → State) :
    s.mldRead c g b off n align k = s.takeTrap c g fcAlign 0 (BitVec.ofNat 64 off) := if_pos h

theorem mldRead_filled {s w : State} {c : Issue} {g : Group} {b : Band} {off n align : Nat} (h : off % align = 0)
    (hs : s.segOk g (g.lane (lowLane c.mask)) 1 off n false = true) (hf : s.fillBytes b off n false = (w, none)) (k : State → State) :
    s.mldRead c g b off n align k = k w := by
  unfold State.mldRead
  rw [if_neg (not_not.mpr h), hs, hf]
  rfl

/-! ## The forms -/

section
variable {s : State} {c : Issue} {g : Group} {u : MatUnit} {x : Band} (hu : s.mat? g = some u) (hx : s.band? g.band = some x)
include hu hx

theorem mswap_accepted (h : Ready .mswap s c g) : exec .mswap s =
    .next (s.acceptMld c g x [] 1 0 0 0 0 0 0 fun u => { u with viewA := u.viewS, viewS := u.viewA }) := issue_withMat hu hx h _

theorem maccrd_answer {d a : BitVec 6} (h : Ready (.maccrd d a) s c g) : exec (.maccrd d a) s =
    .next (if (lanesOf c.mask).any fun l => decide (16383 < ((g.lane l).rv a.toNat).toNat) then s.takeTrap c g fcIllegal 0 0
      else (s.postAwait c g .matrix).acceptMld c g x (lanesOf c.mask) 3 d.toNat 0 s.nextId a.toNat d.toNat 0 id) := issue_withMat hu hx h _

theorem maccwr_answer {d a : BitVec 6} (h : Ready (.maccwr d a) s c g) : exec (.maccwr d a) s =
    .next (if (lanesOf c.mask).any fun l => decide (16383 < ((g.lane l).rv a.toNat).toNat) then s.takeTrap c g fcIllegal 0 0
      else s.acceptMld c g x (lanesOf c.mask) 4 0 0 0 a.toNat d.toNat 0 id) := issue_withMat hu hx h _

theorem maccclr_answer {a : BitVec 6} (h : Ready (.maccclr a) s c g) : exec (.maccclr a) s =
    .next (if (lanesOf c.mask).any fun l => decide (127 < ((g.lane l).rv a.toNat).toNat) then s.takeTrap c g fcIllegal 0 0
      else s.acceptMld c g x (lanesOf c.mask) 5 0 0 0 a.toNat a.toNat 0 id) := issue_withMat hu hx h _

theorem mloadb_answer {d a : BitVec 6} {n : BitVec 2} {t : BitVec 3} (h : Ready (.mloadb d a n t) s c g) : exec (.mloadb d a n t) s =
    .next (s.mldRead c g x ((g.lane (lowLane c.mask)).rv a.toNat).toNat (4096 * (n.toNat + 1)) 128 fun s1 =>
      s1.acceptMld c g x (lanesOf c.mask) 0 d.toNat (n.toNat * 8 + t.toNat) 0 a.toNat 0 0 fun u =>
        { u with viewS := { loaded := true, tag := t.toNat, fmt := d.toNat, kb := n.toNat } }) := issue_withMat hu hx h _

theorem mscl_answer {d a b : BitVec 6} (h : Ready (.mscl d a b) s c g) : exec (.mscl d a b) s =
    let slot := ((g.lane (lowLane c.mask)).rv d.toNat).toNat
    let count := ((g.lane (lowLane c.mask)).rv b.toNat).toNat
    .next (if 1023 < slot ∨ count = 0 ∨ 1024 < slot + count then s.takeTrap c g fcIllegal 0 0
      else s.mldRead c g x ((g.lane (lowLane c.mask)).rv a.toNat).toNat (4 * count) 4 fun s1 =>
        s1.acceptMld c g x (lanesOf c.mask) 2 0 0 0 a.toNat d.toNat count id) := issue_withMat hu hx h _

/-- The lanes that an MACCCVT refuses (R271). -/
def cvtRefuses (g : Group) (d a : BitVec 6) (l : Nat) : Bool :=
  decide (127 < ((g.lane l).rv d.toNat).toNat) || bits ((g.lane l).rv a.toNat).toNat 24 8 == 255 || bits ((g.lane l).rv a.toNat).toNat 19 5 != 0

omit hu hx in
theorem cvtRefuses_iff (d a : BitVec 6) (l : Nat) : cvtRefuses g d a l = true ↔ 127 < ((g.lane l).rv d.toNat).toNat ∨
    bits ((g.lane l).rv a.toNat).toNat 24 8 = 255 ∨ bits ((g.lane l).rv a.toNat).toNat 19 5 ≠ 0 := by
  simp [cvtRefuses, or_assoc]

theorem macccvt_refused {d a : BitVec 6} {y : BitVec 3} (h : Ready (.macccvt d a y) s c g) (hb : (lanesOf c.mask).any (cvtRefuses g d a) = true) :
    exec (.macccvt d a y) s = .next (s.takeTrap c g fcIllegal 0 0) :=
  (issue_withMat hu hx h _).trans (congrArg _ (if_pos hb))

theorem macccvt_accepted {d a : BitVec 6} {y : BitVec 3} (h : Ready (.macccvt d a y) s c g)
    {off : Nat → Nat} (hoff : off = fun l => bits ((g.lane l).rv a.toNat).toNat 0 19) {w : State} {ls : List Nat}
    (hb : (lanesOf c.mask).any (cvtRefuses g d a) = false) (h16 : ¬ ∃ l < 32, c.mask.getLsbD l = true ∧ off l % 16 ≠ 0)
    (hs : ¬ ∃ l < 32, c.mask.getLsbD l = true ∧ s.segOk g (g.lane l) 1 (off l) (cvtRow y.toNat) true = false)
    (hf : (s.censusSite g c.pc).fillLanes c x true (cvtRow y.toNat) off = (w, ls)) (hls : ls ≠ []) (hg : (w.group? c.gid).isSome = true) :
    exec (.macccvt d a y) s = .next (w.acceptMld c g x ls 6 y.toNat 0 0 a.toNat d.toNat 0 id) := by
  subst hoff
  refine (issue_withMat hu hx h _).trans (congrArg _ ((if_neg (ne_true_of_eq_false hb)).trans ?_))
  dsimp only
  rw [badLane_aligned h16, badLane_inside hs, hf]
  have hrun : ¬ (ls.isEmpty || (w.group? c.gid).isNone) = true := by simpa [hls, Option.isSome_iff_ne_none] using hg
  exact if_neg hrun

end

/-! ## MQ -/

/-- The quarter operations of an MQ of the lanes `ls`, from the name `n` on (R263). -/
def mqQuarters (n : Nat) (c : Issue) (g : Group) (b : Band) (m : MatWord) (row off : Nat → Nat) (ls : List Nat) : List Quarter :=
  (quartersOf (maskOf fun l => ls.contains l)).zipIdx.map fun q =>
    { qid := n + q.2, needs := g.matNeeds, gid := c.gid, band := b.bid, pc := c.pc, quarter := q.1, word := m,
      lanes := (ls.filter fun l => l / 8 == q.1).map fun l => { lane := l, row := row l, off := off l, bytes := [] } }

theorem mqQuarters_quarter (n : Nat) (c : Issue) (g : Group) (b : Band) (m : MatWord) (row off : Nat → Nat) (ls : List Nat) :
    ((mqQuarters n c g b m row off ls).map fun q => q.quarter) = quartersOf (maskOf fun l => ls.contains l) :=
  List.map_map.trans (List.zipIdx_map_fst 0 _)

theorem mem_mqQuarters {n : Nat} {c : Issue} {g : Group} {b : Band} {m : MatWord} {row off : Nat → Nat} {ls : List Nat} {q : Quarter}
    (h : q ∈ mqQuarters n c g b m row off ls) : q.gid = c.gid ∧ q.band = b.bid ∧ q.pc = c.pc ∧ q.word = m ∧
      (q.lanes.map fun e => (e.lane, e.row, e.off)) = (ls.filter fun l => l / 8 == q.quarter).map fun l => (l, row l, off l) := by
  obtain ⟨y, -, rfl⟩ := List.mem_map.mp h
  exact ⟨rfl, rfl, rfl, rfl, List.map_map⟩

/-- The state once the unit `u` has taken the quarter operations of an MQ issued in `s`, whose fills have left `w`. -/
def mqTaken (s w : State) (u : MatUnit) (m : MatWord) (qs : List Quarter) : State :=
  ({ w with nextId := w.nextId + qs.length }).modMat u.die u.core u.quad fun u => u.addQuarters (s.cycleOn u.die) m qs

theorem mqTaken_mat {s w : State} {g : Group} {u : MatUnit} (h : w.mat? g = some u) (m : MatWord) (qs : List Quarter) :
    (mqTaken s w u m qs).mat? g = some (u.addQuarters (s.cycleOn u.die) m qs) := by
  have hplace : matPlace u = (g.die, g.core, g.matQuad) := place_of_matAt h
  obtain ⟨hd, hc, hq⟩ : u.die = g.die ∧ u.core = g.core ∧ u.quad = g.matQuad := by simpa [matPlace] using hplace
  unfold mqTaken
  rw [hd, hc, hq]
  exact (matAt_modMat (s := { w with nextId := w.nextId + qs.length }) h fun v hv => (addQuarters_place ..).trans hv).trans (by rw [hd])

section
variable {s : State} {c : Issue} {g : Group} {u : MatUnit} {x : Band} (hu : s.mat? g = some u) (hx : s.band? g.band = some x)
  {d a : BitVec 6} {m : MatWord} (h : Ready (.mq d a m) s c g)
include hu hx h

theorem mq_refused (hb : mqBankOk u.viewA m = false ∨ ∃ l < 32, c.mask.getLsbD l = true ∧ mqRowOk m ((g.lane l).rv d.toNat).toNat = false) :
    exec (.mq d a m) s = .next (s.takeTrap c g fcIllegal 0 0) := by
  have hany : (!(mqBankOk u.viewA m) || (lanesOf c.mask).any fun l => !(mqRowOk m ((g.lane l).rv d.toNat).toNat)) = true := by
    rw [Bool.or_eq_true, any_lanesOf_iff]
    simpa using hb
  refine (issue_ready h _).trans (congrArg _ ?_)
  dsimp only
  rw [hu, hx]
  exact if_pos hany

theorem mq_accepted {row off : Nat → Nat} (hrow : row = fun l => ((g.lane l).rv d.toNat).toNat) (hoff : off = fun l => ((g.lane l).rv a.toNat).toNat)
    {w : State} {ls : List Nat} (hb : mqBankOk u.viewA m = true) (hr : ¬ ∃ l < 32, c.mask.getLsbD l = true ∧ mqRowOk m (row l) = false)
    (h16 : ¬ ∃ l < 32, c.mask.getLsbD l = true ∧ off l % 16 ≠ 0)
    (hs : ¬ ∃ l < 32, c.mask.getLsbD l = true ∧ s.segOk g (g.lane l) 1 (off l) (rowBytes m.afmt.toNat m.kb.toNat) false = false)
    (hf : (s.censusSite g c.pc).fillLanes c x false (rowBytes m.afmt.toNat m.kb.toNat) off = (w, ls)) (hg : (w.group? c.gid).isSome = true) :
    exec (.mq d a m) s = .next (mqTaken s w u m (mqQuarters w.nextId c g x m row off ls)) := by
  subst hrow hoff
  have hany : ¬ (!(mqBankOk u.viewA m) || (lanesOf c.mask).any fun l => !(mqRowOk m ((g.lane l).rv d.toNat).toNat)) = true := by
    rw [hb, any_lanesOf_eq_false (by simpa using hr)]
    exact Bool.false_ne_true
  have hrun : ¬ (w.group? c.gid).isNone = true := by simpa [Option.isSome_iff_ne_none] using hg
  refine (issue_ready h _).trans (congrArg _ ?_)
  dsimp only
  rw [hu, hx]
  refine (if_neg hany).trans ?_
  rw [badLane_aligned h16, badLane_inside hs, hf]
  exact if_neg hrun

end

end Sys2Proof
end

section
/-!
PROOFS. The items of a matrix unit's queue as they take effect: a pass that closes, starts, completes or meets a parity error, and an MLD
instruction (R264 to R273).
-/
namespace Sys2Proof
open Machine

/-! ## Passes close and start -/

section
variable {s : State} {u : MatUnit} (hu : s.matAt s.ev.die s.ev.core s.ev.quad = some u)
include hu

theorem evUnit_die : u.die = s.ev.die := congrArg Prod.fst (place_of_matAt hu)

theorem passClose_answer {o : Nat} {qs : List Quarter} (hq : u.queue.getLast? = some (.pass o false qs)) :
    exec .matrixPassClose s = .next (if o + 7 ≤ s.cycleOn u.die then s.modMat u.die u.core u.quad MatUnit.close else s) := by
  have he : s.evUnit = some u := hu
  dsimp only [exec]
  unfold execMatrixPassClose
  rw [he]
  dsimp only
  rw [hq, evUnit_die hu]

theorem passStart_answer {o : Nat} {qs : List Quarter} {rest : List MatItem} (hq : u.queue = .pass o true qs :: rest) (hr : u.running = none)
    (hn : ∀ q ∈ qs, s.needsMet q.needs = true) :
    let r := qs.foldl (fun (r : State × List Quarter) q => let x := r.1.readQuarter q; (x.1, r.2 ++ [x.2])) (s, [])
    exec .matrixPassStart s = .next (r.1.modMat u.die u.core u.quad fun v => { v with
      queue := .pass o true r.2 :: rest,
      running := some (s.cycleOn u.die + 4 * qs.length * ((qs.head?.map fun q => matWidth q.word.afmt.toNat).getD 0) + 6) }) := by
  have he : s.evUnit = some u := hu
  have hstart : ((true || decide (o + 7 < s.cycleOn u.die)) && qs.all fun q => s.needsMet q.needs) = true := by simpa using hn
  intro r
  dsimp only [exec]
  unfold execMatrixPassStart
  rw [he]
  dsimp only
  rw [hq, hr]
  refine congrArg _ ((if_pos hstart).trans (modMat_congr fun v hv => ?_))
  rw [show v.die = u.die from congrArg Prod.fst hv]

theorem passComplete_answer {o n : Nat} {e : Bool} {qs : List Quarter} {rest : List MatItem} (hq : u.queue = .pass o e qs :: rest)
    (hr : u.running = some n) (hn : n ≤ s.cycleOn u.die) : exec .matrixPassComplete s = .next (if u.active.poisoned
      then (s.popMat u.die u.core u.quad).passParity qs
      else qs.foldl (fun s q => s.quarterDone u.die u.core u.quad q) (s.popMat u.die u.core u.quad)) := by
  have he : s.evUnit = some u := hu
  dsimp only [exec]
  unfold execMatrixPassComplete
  rw [he]
  dsimp only
  rw [hq, hr]
  exact congrArg _ (if_pos hn)

theorem macroParity_answer {o n : Nat} {e : Bool} {qs : List Quarter} {rest : List MatItem} (hq : u.queue = .pass o e qs :: rest)
    (hr : u.running = some n) : exec .macroParity s = .next (((s.popMat u.die u.core u.quad).modMat u.die u.core u.quad fun u =>
      { u with active := { u.active with poisoned := true } }).passParity qs) := by
  have he : s.evUnit = some u := hu
  dsimp only [exec]
  unfold execMacroParity
  rw [he]
  dsimp only
  rw [hq, hr]

theorem mldComplete_answer {op : MldOp} {rest : List MatItem} (hq : u.queue = .mld op :: rest) (hr : u.running = none)
    (hn : s.needsMet op.needs = true) : exec .mldComplete s = .next ((s.popMat u.die u.core u.quad).mldEffect u op) := by
  have he : s.evUnit = some u := hu
  dsimp only [exec]
  unfold execMldComplete
  rw [he]
  dsimp only
  rw [hq, hr]
  exact congrArg _ (if_pos hn)

end

theorem popMat_mat {s : State} {u : MatUnit} (h : s.matAt u.die u.core u.quad = some u) {i : MatItem} {rest : List MatItem} (hq : u.queue = i :: rest) :
    (s.popMat u.die u.core u.quad).matAt u.die u.core u.quad = some { u with queue := rest, running := none } := by
  have hpop := matAt_modMat h (f := fun u => { u with queue := u.queue.drop 1, running := none }) fun v hv => hv
  rw [hq] at hpop
  exact hpop

theorem readQuarter_empty (s : State) {q : Quarter} (h : q.lanes = []) : s.readQuarter q = (s, q) := by
  obtain ⟨_, _, _, _, _, _, _, ls⟩ := q
  subst h
  rfl

/-- Quarter operations without a lane read no row. -/
theorem foldl_readQuarter_empty (s : State) : ∀ (qs acc : List Quarter), (∀ q ∈ qs, q.lanes = []) →
    qs.foldl (fun (r : State × List Quarter) q => let x := r.1.readQuarter q; (x.1, r.2 ++ [x.2])) (s, acc) = (s, acc ++ qs)
  | [], acc, _ => by simp
  | q :: qs, acc, h => by
    obtain ⟨hq, hqs⟩ := List.forall_mem_cons.mp h
    have ih := foldl_readQuarter_empty s qs (acc ++ [q]) hqs
    rw [List.foldl_cons]
    dsimp only
    rw [readQuarter_empty s hq]
    exact ih.trans (by simp)

/-! ## The writes of a pass -/

/-- The value that a lane's writes give column `j` of its accumulator row (R263, R265). -/
def laneValue (u : MatUnit) (m : MatWord) (x : MatLane) (j : Nat) : W32 := BitVec.ofNat 32 (if m.acc = 1
  then (fp32.add (u.elem (x.row * 128 + j)).toNat (u.total m x.bytes j)).1 else u.total m x.bytes j)

/-- The write of column `j` by a lane of a pass over the unit `u`, with the counts. -/
def laneWrite (u : MatUnit) (m : MatWord) (x : MatLane) (r : MatUnit × Nat × Nat) (j : Nat) : MatUnit × Nat × Nat :=
  let e := (x.row + j / 128) * 128 + j % 128
  let t := u.total m x.bytes j
  let y := if m.acc = 1 then (fp32.add (r.1.elem e).toNat t).1 else t
  let v := fp32.decode y
  (r.1.setElem e (BitVec.ofNat 32 y), r.2.1 + (if v.isNan then 1 else 0), r.2.2 + (match v with
    | .inf _ => 1
    | _ => 0))

theorem laneWrites_eq (u : MatUnit) (m : MatWord) (x : MatLane) :
    u.laneWrites m x = (List.range (m.ncol.toNat + 1)).foldl (laneWrite u m x) (u, 0, 0) := rfl

theorem laneWrite_fst (u : MatUnit) (m : MatWord) (x : MatLane) (r : MatUnit × Nat × Nat) (j : Nat) :
    (laneWrite u m x r j).1 = r.1.setElem (x.row * 128 + j) (BitVec.ofNat 32 (if m.acc = 1
      then (fp32.add (r.1.elem (x.row * 128 + j)).toNat (u.total m x.bytes j)).1 else u.total m x.bytes j)) := by
  have he : (x.row + j / 128) * 128 + j % 128 = x.row * 128 + j := by omega
  dsimp only [laneWrite]
  rw [he]

theorem laneWrites_place (u : MatUnit) (m : MatWord) (x : MatLane) : matPlace (u.laneWrites m x).1 = matPlace u := by
  rw [laneWrites_eq]
  exact foldl_keeps (fun r : MatUnit × Nat × Nat => matPlace r.1) (fun r j => by rw [laneWrite_fst]; rfl) _ _

/-- Element by element: each column is written once, from the value that it had. -/
theorem foldl_laneWrite_elem {u : MatUnit} (hacc : Ascending u.acc) (m : MatWord) (x : MatLane) : ∀ n : Nat,
    Ascending ((List.range n).foldl (laneWrite u m x) (u, 0, 0)).1.acc ∧
    ∀ j, ((List.range n).foldl (laneWrite u m x) (u, 0, 0)).1.elem (x.row * 128 + j) =
      if j < n then laneValue u m x j else u.elem (x.row * 128 + j)
  | 0 => ⟨hacc, fun _ => rfl⟩
  | n + 1 => by
    obtain ⟨ha, he⟩ := foldl_laneWrite_elem hacc m x n
    rw [List.range_succ, List.foldl_append]
    show Ascending (laneWrite u m x _ n).1.acc ∧ ∀ j, (laneWrite u m x _ n).1.elem _ = _
    rw [laneWrite_fst, he n, if_neg (Nat.lt_irrefl n)]
    refine ⟨ascending_put _ _ ha, fun j => (sparseGet_put 0 _ ha _ _).trans ?_⟩
    by_cases hj : j = n
    · rw [hj, if_pos rfl, if_pos (Nat.lt_succ_self n)]
      rfl
    · rw [if_neg fun h => hj (Nat.add_left_cancel h)]
      exact (he j).trans (if_congr (by omega) rfl rfl)

theorem laneWrites_elem {u : MatUnit} (hacc : Ascending u.acc) (m : MatWord) (x : MatLane) {j : Nat} (hj : j ≤ m.ncol.toNat) :
    (u.laneWrites m x).1.elem (x.row * 128 + j) = laneValue u m x j :=
  ((foldl_laneWrite_elem hacc m x _).2 j).trans (if_pos (Nat.lt_succ_of_le hj))

theorem censusAdd_none {s : State} (h : s.obs.census = []) (bid gid : Nat) (pc : W32) (add : List Nat) : s.censusAdd bid gid pc add = s := by
  unfold State.censusAdd
  rw [h]
  rfl

/-- A quarter operation of one lane writes that lane's row. -/
theorem quarterDone_lane {s : State} {u : MatUnit} {q : Quarter} {x : MatLane} (hu : s.matAt u.die u.core u.quad = some u) (hq : q.lanes = [x])
    (hc : s.obs.census = []) : s.quarterDone u.die u.core u.quad q = s.modMat u.die u.core u.quad fun _ => (u.laneWrites q.word x).1 := by
  unfold State.quarterDone
  rw [hq, List.foldl_cons, List.foldl_nil, hu]
  exact censusAdd_none (s := s.modMat u.die u.core u.quad fun _ => (u.laneWrites q.word x).1) hc _ _ _ _

theorem eraseDups_replicate {α : Type} [BEq α] [LawfulBEq α] (n : Nat) (x : α) : (List.replicate (n + 1) x).eraseDups = [x] := by
  rw [List.replicate_succ, List.eraseDups_cons]
  simp

theorem passParity_one {s : State} {qs : List Quarter} {gid bid : Nat} (hne : qs ≠ []) (hq : ∀ q ∈ qs, q.gid = gid ∧ q.band = bid)
    (hg : (s.group? gid).isSome = true) : s.passParity qs = s.rollback gid fcMacroParity 0 := by
  obtain ⟨g, hg⟩ := Option.isSome_iff_exists.mp hg
  have hrep : qs.map (fun q => (q.gid, q.band)) = List.replicate (qs.length - 1 + 1) (gid, bid) := by
    rw [Nat.sub_add_cancel (List.length_pos_of_ne_nil hne), List.eq_replicate_iff]
    refine ⟨List.length_map _, fun y hy => ?_⟩
    obtain ⟨q, hmem, rfl⟩ := List.mem_map.mp hy
    exact Prod.ext (hq q hmem).1 (hq q hmem).2
  unfold State.passParity
  rw [hrep, eraseDups_replicate, List.foldl_cons, List.foldl_nil]
  dsimp only
  rw [hg]

/-! ## The effects of the MLD instructions -/

theorem length_readSth (s : State) (b : Band) (off n : Nat) : (s.readSth b off n).length = n := by
  simp [State.readSth, Band.sthPlaces]

theorem onlyMem_writeStash (s : State) (die core off : Nat) (x : Byte) : OnlyMem s (s.writeStash die core off x) := by
  unfold State.writeStash
  dsimp only
  split
  · exact onlyMem_modMem s _
  · exact (onlyMem_modMem s _).trans (onlyMem_modMem _ _)

theorem onlyMem_writePlace (s : State) (ctx : Nat) (p : Place) (x : Byte) : OnlyMem s (s.writePlace ctx p x) := by
  unfold State.writePlace
  split
  case h_1 => exact onlyMem_writePa ..
  case h_2 =>
    dsimp only
    split
    · exact (onlyMem_writeStash ..).trans (onlyMem_takeSector ..)
    · exact onlyMem_writeStash ..
  case h_3 => exact .refl s

theorem onlyMem_writePlaces (ctx : Nat) : ∀ (ps : List Place) (bs : List Byte) (s : State), OnlyMem s (s.writePlaces ctx ps bs)
  | [], _, s => .refl s
  | _ :: _, [], s => .refl s
  | p :: ps, b :: bs, s => (onlyMem_writePlace s ctx p b).trans (onlyMem_writePlaces ctx ps bs _)

theorem OnlyMem.obs {s t : State} (h : OnlyMem s t) : t.obs = s.obs := by
  obtain ⟨_, _, _, rfl⟩ := h
  rfl

theorem writeSth_obs (s : State) (b : Band) (off : Nat) (bs : List Byte) : (s.writeSth b off bs).obs = s.obs := (onlyMem_writePlaces ..).obs

theorem cellGet_image {bs : List Byte} {i : Nat} (h : i < bs.length) : cellGet (cellsPut [] 0 bs) i = bs.getD i 0 := by
  simpa using cellGet_puts_inside (m := []) 0 bs rfl i h

section
variable {p : State} {u : MatUnit} {op : MldOp}

theorem mldEffect_swap (h : op.minor = 1) :
    p.mldEffect u op = p.modMat u.die u.core u.quad fun u => { u with active := u.shadow, shadow := u.active } := by
  simp [State.mldEffect, h]

theorem mldEffect_read (h : op.minor = 3) :
    p.mldEffect u op = p.deliver op.gid op.oid (op.lanes.map fun x => .v x.1 op.d (u.elem x.2.2.toNat)) := by
  simp [State.mldEffect, h]

section
variable {l : Nat} {v e : W32} (hl : op.lanes = [(l, v, e)])
include hl

theorem mldEffect_write (h : op.minor = 4) : p.mldEffect u op = p.modMat u.die u.core u.quad fun u => u.setElem e.toNat v := by
  simp [State.mldEffect, h, hl]

theorem mldEffect_clear (h : op.minor = 5) : p.mldEffect u op =
    p.modMat u.die u.core u.quad fun u => { u with acc := u.acc.filter fun x => !(x.1 / 128 == e.toNat) } := by
  simp [State.mldEffect, h, hl]

theorem mldEffect_convert (h : op.minor = 6) : p.mldEffect u op = p.cvtLane u op (l, v, e) := by
  simp [State.mldEffect, h, hl]

end

section
variable {l : Nat} {v e : W32} {rest : List (Nat × W32 × W32)} {x : Band} {w : State} (hl : op.lanes = (l, v, e) :: rest)
  (hx : p.band? op.band = some x)
include hl hx

theorem mldEffect_load (h : op.minor = 0) (hf : p.fillBytes x e.toNat (4096 * (op.b / 8 + 1)) false = (w, none)) :
    p.mldEffect u op = w.modMat u.die u.core u.quad fun u => { u with shadow := {
      loaded := true, tag := op.b % 8, fmt := op.d, kb := op.b / 8, poisoned := false,
      img := cellsPut [] 0 (w.readSth x e.toNat (4096 * (op.b / 8 + 1))) } } := by
  simp [State.mldEffect, h, hl, hx, hf]

theorem mldEffect_scale (h : op.minor = 2) (hf : p.fillBytes x e.toNat (4 * op.count) false = (w, none)) :
    p.mldEffect u op = w.modMat u.die u.core u.quad fun u => { u with
      scale := sparseRun 0x7F u.scale (4 * v.toNat) (fun i => (w.readSth x e.toNat (4 * op.count)).getD i 0) (4 * op.count) } := by
  simp [State.mldEffect, h, hl, hx, hf, length_readSth, sparseRun]

end

theorem cvtLane_stored {l : Nat} {v e : W32} {x : Band} {w : State} (hx : p.band? op.band = some x)
    (hf : p.fillBytes x (bits e.toNat 0 19) (cvtRow op.d) true = (w, none)) (hc : w.obs.census = []) :
    p.cvtLane u op (l, v, e) = w.writeSth x (bits e.toNat 0 19) (packElems (fmtOf op.d).width
      ((List.range 128).map fun k => (cvtElem (fmtOf op.d) (bits e.toNat 24 8) (u.elem (v.toNat * 128 + k))).1)) := by
  unfold State.cvtLane
  dsimp only
  rw [hx]
  dsimp only
  rw [hf, List.map_map]
  exact censusAdd_none (by rw [writeSth_obs, hc]) _ _ _ _

end

end Sys2Proof
end

section
/-!
PROOFS. Matrix instructions enter the queue, and its items take effect in order (O42; R262 to R273).
-/
namespace Sys2Proof
open Machine

/-- Settles O42: the forms by what `acceptMld` and `addQuarters` leave in the unit of the group, the events by what each item makes of the unit that
`matAt` finds, the accumulator and the scale memory by the reads of a table after its writes. -/
theorem matrixInstructionsEnterQueue : Obligations.MatrixInstructionsEnterQueue := by
  unfold Obligations.MatrixInstructionsEnterQueue
  refine ⟨?forms, fun s u hu => ⟨?close, ?startEmpty, ?start, ?complete, ?lane, ?mld⟩, ?quarter, ?parity⟩
  case forms =>
    intro s c g u x d a b m n tg y h hu hx va vd low accepts lanes any
    refine ⟨?mswap, fun hin => ⟨?maccrd, ?maccwr⟩, fun hout i hi hw => ?outside, ?maccclr, ?clrOutside, fun hw => ⟨?loadAlign, ?load⟩,
      fun hw => ⟨?sclBad, ?scl⟩, fun hw => ⟨?cvtBad, ?cvt⟩, fun hw => ⟨?mqBad, ?mq⟩⟩
    case mswap =>
      exact fun hw => ⟨_, mldOpOf s c g x [] 1 0 0 0 0 0 0, mswap_accepted hu hx ⟨h, hw⟩, ⟨rfl, rfl⟩, fun _ => rfl,
        acceptMld_mat hu (fun _ => by rfl) .., rfl, rfl, rfl, rfl, rfl⟩
    case maccrd =>
      exact fun hw => ⟨_, _, (maccrd_answer hu hx ⟨h, hw⟩).trans (congrArg _ (if_noLane hin ..)), ⟨rfl, rfl⟩,
        addOut_registers s c.gid (c.outst g s .matrix 1 true [] [] 0),
        acceptMld_mat (s := s.postAwait c g .matrix) hu (fun _ => by rfl) .., rfl, rfl, rfl, rfl, rfl, rfl, rfl, rfl⟩
    case maccwr =>
      exact fun hw => ⟨_, _, (maccwr_answer hu hx ⟨h, hw⟩).trans (congrArg _ (if_noLane hin ..)), ⟨rfl, rfl⟩, fun _ => rfl,
        acceptMld_mat hu (fun _ => by rfl) .., rfl, rfl, rfl, rfl, rfl, rfl⟩
    case outside =>
      rcases List.mem_cons.mp hi with rfl | hi
      · exact (maccrd_answer hu hx ⟨h, hw⟩).trans (congrArg _ (if_anyLane hout ..))
      · obtain rfl := List.mem_singleton.mp hi
        exact (maccwr_answer hu hx ⟨h, hw⟩).trans (congrArg _ (if_anyLane hout ..))
    case maccclr =>
      exact fun hin hw => ⟨_, _, (maccclr_answer hu hx ⟨h, hw⟩).trans (congrArg _ (if_noLane hin ..)), ⟨rfl, rfl⟩, fun _ => rfl,
        acceptMld_mat hu (fun _ => by rfl) .., rfl, rfl, rfl, rfl, rfl, rfl⟩
    case clrOutside => exact fun hout hw => (maccclr_answer hu hx ⟨h, hw⟩).trans (congrArg _ (if_anyLane hout ..))
    case loadAlign => exact fun hal => (mloadb_answer hu hx ⟨h, hw⟩).trans (congrArg _ (mldRead_misaligned hal ..))
    case load =>
      intro w hal hs hf hwu
      exact ⟨_, mldOpOf w c g x (lanesOf c.mask) 0 d.toNat (n.toNat * 8 + tg.toNat) 0 a.toNat 0 0,
        (mloadb_answer hu hx ⟨h, hw⟩).trans (congrArg _ (mldRead_filled hal hs hf _)), rfl, rfl,
        acceptMld_mat hwu (fun _ => by rfl) .., rfl, rfl, rfl, List.map_map⟩
    case sclBad => exact fun hbad => (mscl_answer hu hx ⟨h, hw⟩).trans (congrArg _ (if_pos hbad))
    case scl =>
      intro w hlow hc hsum hal hs hf hwu
      have hok : ¬ (1023 < vd low ∨ ((g.lane low).rv b.toNat).toNat = 0 ∨ 1024 < vd low + ((g.lane low).rv b.toNat).toNat) := by omega
      exact ⟨_, _, (mscl_answer hu hx ⟨h, hw⟩).trans (congrArg _ ((if_neg hok).trans (mldRead_filled hal hs hf _))), rfl, rfl,
        acceptMld_mat hwu (fun _ => by rfl) .., rfl, rfl, rfl⟩
    case cvtBad =>
      exact fun hbad => macccvt_refused hu hx ⟨h, hw⟩ ((any_lanesOf_iff _ _).mpr (by simpa only [any, cvtRefuses_iff] using hbad))
    case cvt =>
      intro w ls hok h16 hs hf hls hg hwu
      have hall := any_lanesOf_eq_false (m := c.mask) (p := cvtRefuses g d a) (by simpa only [any, cvtRefuses_iff] using hok)
      exact ⟨_, _, macccvt_accepted hu hx ⟨h, hw⟩ rfl hall h16 hs hf hls hg, rfl, rfl, acceptMld_mat hwu (fun _ => by rfl) .., rfl, rfl, rfl⟩
    case mqBad => exact fun hbad => mq_refused hu hx ⟨h, hw⟩ hbad
    case mq =>
      intro w ls hb hr h16 hs hf hg hwu
      exact ⟨_, _, mq_accepted hu hx ⟨h, hw⟩ rfl rfl hb hr h16 hs hf hg, rfl, rfl, mqTaken_mat hwu .., mqQuarters_quarter ..,
        fun q => mem_mqQuarters⟩
  case close =>
    intro o qs hq
    have he := passClose_answer hu hq
    exact ⟨fun ho => ⟨_, he.trans (congrArg _ (if_pos ho)), ⟨rfl, rfl⟩, rfl, matAt_modMat (matAt_own hu) fun _ hv => hv⟩,
      fun ho => he.trans (congrArg _ (if_neg (by omega)))⟩
  case startEmpty =>
    intro o qs rest hq hr hn
    have he := passStart_answer hu hq hr fun q hmem => (hn q hmem).1
    rw [foldl_readQuarter_empty s qs [] fun q hmem => (hn q hmem).2] at he
    exact ⟨_, he, ⟨rfl, rfl⟩, rfl, matAt_modMat (matAt_own hu) fun _ hv => hv⟩
  case start => exact fun o qs rest hq hr hn => passStart_answer hu hq hr hn
  case complete =>
    intro o e qs rest n hq hr hn p
    have he := passComplete_answer hu hq hr hn
    exact ⟨fun hp => he.trans (congrArg _ (if_pos hp)), fun hp => he.trans (congrArg _ (if_neg (ne_true_of_eq_false hp))),
      macroParity_answer hu hq hr⟩
  case lane => exact fun m x j hacc hj => laneWrites_elem hacc m x hj
  case mld =>
    intro op rest hq hr hn p
    have hp : p.matAt u.die u.core u.quad = some { u with queue := rest, running := none } := popMat_mat (matAt_own hu) hq
    refine ⟨mldComplete_answer hu hq hr hn, hp, fun h => ?swap, mldEffect_read, ?write, ?clear, ?load, ?scale, ?convert⟩
    case swap =>
      rw [mldEffect_swap h]
      exact ⟨_, matAt_modMat hp fun _ hv => hv, rfl, rfl, rfl⟩
    case write =>
      intro l v e h hl hacc
      rw [mldEffect_write hl h]
      exact ⟨_, matAt_modMat hp fun _ hv => hv, fun k => sparseGet_put 0 v hacc e.toNat k⟩
    case clear =>
      intro l v e h hl
      rw [mldEffect_clear hl h]
      refine ⟨_, matAt_modMat hp fun _ hv => hv, fun k => (sparseGet_filter 0 (fun k => !(k / 128 == e.toNat)) u.acc k).trans ?_⟩
      by_cases hk : k / 128 = e.toNat
      · simp [hk]
      · simp [hk, MatUnit.elem]
    case load =>
      intro l v e rest x w w' h hl hx hf hw'
      rw [mldEffect_load hl hx h hf]
      have hlen := length_readSth w x e.toNat (4096 * (op.b / 8 + 1))
      generalize w.readSth x e.toNat (4096 * (op.b / 8 + 1)) = bs at hlen ⊢
      exact ⟨_, matAt_modMat hw' fun _ hv => hv, rfl, rfl, rfl, rfl, rfl, rfl, fun i hi => cellGet_image (hi.trans_eq hlen.symm)⟩
    case scale =>
      intro l v e rest x w w' h hl hx hf hw' hsc
      rw [mldEffect_scale hl hx h hf]
      refine ⟨_, matAt_modMat hw' fun _ hv => hv, rfl, fun i => (sparseGet_run 0x7F hsc _ _ i _).2.trans ?_⟩
      rw [← Nat.mul_add]
    case convert => exact fun l v e x w h hl hx hf hc => (mldEffect_convert hl h).trans (cvtLane_stored hx hf hc)
  case quarter =>
    intro s u q x hu hq hc
    rw [quarterDone_lane hu hq hc]
    exact ⟨matAt_modMat hu fun _ _ => laneWrites_place .., ⟨rfl, rfl⟩, rfl⟩
  case parity => exact fun s qs gid bid hne hq hg => passParity_one hne hq hg

end Sys2Proof
end

section
/-!
PROOFS. Rounding (R88, R93, R95): the values of a format's patterns, the units that a rounding counts in, and what `Fmt.round` delivers.
-/
namespace Sys2Proof
open Machine

/-! ## Quotients in units of a power of two -/

/-- The value (-1)^s m 2^e. -/
def ratOf (s : Bool) (m : Nat) (e : Int) : ℚ := (if s then -(m : ℚ) else (m : ℚ)) * (2 : ℚ) ^ e

/-- A magnitude under a sign. -/
def withSign (s : Bool) (x : ℚ) : ℚ := if s then -x else x

theorem ratOf_eq (s : Bool) (m : Nat) (e : Int) : ratOf s m e = withSign s (m * 2 ^ e) := by
  cases s
  · rfl
  · exact neg_mul ..

theorem abs_withSign_sub (s : Bool) (x y : ℚ) : |withSign s x - withSign s y| = |x - y| := by
  cases s
  · rfl
  · exact (congrArg abs (neg_sub_neg x y)).trans (abs_sub_comm y x)

/-- Magnitudes of opposite sign lie at least as far apart as one of them from 0. -/
theorem le_abs_withSign_sub {s t : Bool} (h : t ≠ s) {x y : ℚ} (hx : 0 ≤ x) : y ≤ |withSign t x - withSign s y| := by
  rw [le_abs]
  cases s <;> cases t
  · exact absurd rfl h
  · right
    simp only [withSign, if_true, Bool.false_eq_true, if_false]
    linarith
  · left
    simp only [withSign, if_true, Bool.false_eq_true, if_false]
    linarith
  · exact absurd rfl h

theorem two_zpow_pos (e : Int) : (0 : ℚ) < 2 ^ e := zpow_pos two_pos e

theorem two_zpow_add (a b : Int) : (2 : ℚ) ^ (a + b) = 2 ^ a * 2 ^ b := zpow_add₀ two_ne_zero a b

theorem binade_units (q : Int) (p : Nat) : (2 : ℚ) ^ (q + p) = (2 ^ p : Nat) * 2 ^ q := by
  rw [add_comm, two_zpow_add, zpow_natCast, Nat.cast_pow, Nat.cast_ofNat]

theorem scaled_den_pos (n : Nat) {d : Nat} (hd : 0 < d) (e : Int) : 0 < (scaled n d e).2 := by
  unfold scaled
  split <;> positivity

theorem scaled_div (n d : Nat) (e : Int) : ((scaled n d e).1 : ℚ) / (scaled n d e).2 = n / d * 2 ^ e := by
  unfold scaled
  split
  case isTrue h =>
    obtain ⟨k, rfl⟩ := Int.eq_ofNat_of_zero_le h
    simp [div_mul_eq_mul_div]
  case isFalse h =>
    obtain ⟨k, hk⟩ := Int.eq_ofNat_of_zero_le (show 0 ≤ -e by omega)
    obtain rfl : e = -(k : Int) := by omega
    simp only [neg_neg, Int.toNat_natCast, Nat.cast_mul, Nat.cast_pow, Nat.cast_ofNat, zpow_neg, zpow_natCast]
    rw [div_mul_eq_div_div, div_eq_mul_inv _ ((2 : ℚ) ^ k)]

/-- `leadExp` names the binade of a quotient. -/
theorem leadExp_spec {n d : Nat} (hn : n ≠ 0) (hd : d ≠ 0) :
    (2 : ℚ) ^ leadExp n d ≤ n / d ∧ (n : ℚ) / d < 2 ^ (leadExp n d + 1) := by
  have hd0 : (0 : ℚ) < d := by exact_mod_cast Nat.pos_of_ne_zero hd
  have hnl : (2 : ℚ) ^ (n.log2 : Int) ≤ n := by exact_mod_cast Nat.log2_self_le hn
  have hnu : (n : ℚ) < 2 ^ ((n.log2 : Int) + 1) := by exact_mod_cast Nat.lt_log2_self (n := n)
  have hdl : (2 : ℚ) ^ (d.log2 : Int) ≤ d := by exact_mod_cast Nat.log2_self_le hd
  have hdu : (d : ℚ) < 2 ^ ((d.log2 : Int) + 1) := by exact_mod_cast Nat.lt_log2_self (n := d)
  set l : Int := (n.log2 : Int) - d.log2 with hl
  have hlow : (2 : ℚ) ^ (l - 1) ≤ n / d := by
    rw [le_div_iff₀ hd0]
    calc (2 : ℚ) ^ (l - 1) * d ≤ 2 ^ (l - 1) * 2 ^ ((d.log2 : Int) + 1) := by gcongr
      _ = 2 ^ (n.log2 : Int) := by rw [← two_zpow_add]; congr 1; omega
      _ ≤ n := hnl
  have hhigh : (n : ℚ) / d < 2 ^ (l + 1) := by
    rw [div_lt_iff₀ hd0]
    calc (n : ℚ) < 2 ^ ((n.log2 : Int) + 1) := hnu
      _ = 2 ^ (l + 1) * 2 ^ (d.log2 : Int) := by rw [← two_zpow_add]; congr 1; omega
      _ ≤ 2 ^ (l + 1) * d := by gcongr
  have hb : (0 : ℚ) < (scaled n d (-l)).2 := by exact_mod_cast scaled_den_pos n (Nat.pos_of_ne_zero hd) (-l)
  have hcmp : (scaled n d (-l)).2 ≤ (scaled n d (-l)).1 ↔ (2 : ℚ) ^ l ≤ n / d := by
    rw [← Nat.cast_le (α := ℚ), ← one_le_div hb, scaled_div, zpow_neg, ← div_eq_mul_inv, one_le_div (two_zpow_pos l)]
  have he : leadExp n d = if (scaled n d (-l)).2 ≤ (scaled n d (-l)).1 then l else l - 1 := rfl
  rw [he]
  split
  case isTrue h => exact ⟨hcmp.mp h, hhigh⟩
  case isFalse h => exact ⟨hlow, by simpa using mt hcmp.mpr h⟩

/-! ## Rounding to an integer -/

theorem up_of_exact (m : RMode) (u : Nat) (s : Bool) (lo : Nat) {d : Nat} (hd : 0 < d) : m.up u s lo 0 d = false := by
  cases m <;> simp [RMode.up, Nat.ne_of_lt hd]; omega

section Units
variable (m : RMode) (u : Nat) (s : Bool) (n : Nat) {d : Nat} (hd : d ≠ 0) (e q : Int)

/-- What is rounded, in units of 2^q. -/
def inUnits (n d : Nat) (e q : Int) : ℚ := n / d * 2 ^ (e - q)

theorem inUnits_mul (n d : Nat) (e q : Int) : inUnits n d e q * 2 ^ q = n / d * 2 ^ e := by
  rw [inUnits, mul_assoc, ← two_zpow_add, sub_add_cancel]

include hd

/-- The integer part and the remainder that `roundAt` decides by. -/
theorem roundAt_parts : ∃ lo r b : Nat, r < b ∧ inUnits n d e q = lo + r / b ∧
    roundAt m u s n d e q = (lo + (if m.up u s lo r b then 1 else 0), r == 0) := by
  have hb := scaled_den_pos n (Nat.pos_of_ne_zero hd) (e - q)
  unfold roundAt inUnits
  rw [← scaled_div]
  generalize scaled n d (e - q) = p at hb ⊢
  refine ⟨p.1 / p.2, p.1 % p.2, p.2, Nat.mod_lt _ hb, ?_, rfl⟩
  have hb0 : (p.2 : ℚ) ≠ 0 := by exact_mod_cast hb.ne'
  rw [add_div' _ _ _ hb0]
  congr 1
  exact_mod_cast (Nat.div_add_mod' _ _).symm

omit hd in
theorem remainder_lt_one {r b : Nat} (h : r < b) : (r : ℚ) / b < 1 :=
  (div_lt_one (by exact_mod_cast (by omega : 0 < b))).mpr (by exact_mod_cast h)

/-- A rounding lies below no integer that the value does not lie below. -/
theorem le_roundAt {t : Nat} (ht : (t : ℚ) ≤ inUnits n d e q) : t ≤ (roundAt m u s n d e q).1 := by
  obtain ⟨lo, r, b, hr, hv, hx⟩ := roundAt_parts m u s n hd e q
  have hr1 := remainder_lt_one hr
  have : (t : ℚ) < (lo + 1 : Nat) := by push_cast; linarith
  have := Nat.cast_lt.mp this
  rw [hx]
  exact Nat.le_add_right_of_le (by omega)

/-- A rounding goes up from a value that is no integer only. -/
theorem roundAt_lt : ((roundAt m u s n d e q).1 : ℚ) < inUnits n d e q + 1 := by
  obtain ⟨lo, r, b, hr, hv, hx⟩ := roundAt_parts m u s n hd e q
  rw [hx, hv]
  rcases Nat.eq_zero_or_pos r with rfl | h0
  · simp [up_of_exact m u s lo hr]
  · have : (0 : ℚ) < r / b := div_pos (by exact_mod_cast h0) (by exact_mod_cast (by omega : 0 < b))
    split <;> push_cast <;> linarith

theorem roundAt_le {t : Nat} (ht : inUnits n d e q ≤ t) : (roundAt m u s n d e q).1 ≤ t := by
  have := (roundAt_lt m u s n hd e q).trans_le (add_le_add_left ht 1)
  exact Nat.lt_succ_iff.mp (by exact_mod_cast this)

/-- An integer rounds to itself, and no other value is exact. -/
theorem roundAt_exact_iff {x : Nat} : roundAt m u s n d e q = (x, true) ↔ inUnits n d e q = x := by
  obtain ⟨lo, r, b, hr, hv, hx⟩ := roundAt_parts m u s n hd e q
  constructor
  · intro h
    obtain ⟨hlo, h0⟩ := Prod.mk.inj (hx.symm.trans h)
    obtain rfl : r = 0 := by simpa using h0
    rw [hv, ← hlo]
    simp [up_of_exact m u s lo hr]
  · intro h
    have h0 : r = 0 := by
      by_contra h0
      have hpos : (0 : ℚ) < r / b := div_pos (by exact_mod_cast Nat.pos_of_ne_zero h0) (by exact_mod_cast (by omega : 0 < b))
      have hlt := remainder_lt_one hr
      have h1 : lo < x := by exact_mod_cast (by linarith : (lo : ℚ) < x)
      have h2 : x < lo + 1 := by exact_mod_cast (by linarith : (x : ℚ) < lo + 1)
      omega
    subst h0
    obtain rfl : lo = x := by exact_mod_cast (by simpa using hv.symm.trans h : (lo : ℚ) = x)
    simp [hx, up_of_exact m u s lo hr]

theorem roundAt_rne : |((roundAt .rne u s n d e q).1 : ℚ) - inUnits n d e q| ≤ 1 / 2 := by
  obtain ⟨lo, r, b, hr, hv, hx⟩ := roundAt_parts .rne u s n hd e q
  rw [hx, hv]
  have hb : (0 : ℚ) < b := by exact_mod_cast (by omega : 0 < b)
  have hr1 := remainder_lt_one hr
  have hnn : (0 : ℚ) ≤ r / b := by positivity
  split
  case isTrue h =>
    have : b ≤ 2 * r := by
      simp only [RMode.up, Bool.or_eq_true, decide_eq_true_eq, Bool.and_eq_true, beq_iff_eq] at h
      omega
    have : (1 : ℚ) / 2 ≤ r / b := by
      rw [div_le_div_iff₀ two_pos hb]
      exact_mod_cast (by omega : 1 * b ≤ r * 2)
    rw [abs_le]
    push_cast
    constructor <;> linarith
  case isFalse h =>
    have : 2 * r ≤ b := by
      simp only [RMode.up, Bool.or_eq_true, decide_eq_true_eq, not_or] at h
      omega
    have : (r : ℚ) / b ≤ 1 / 2 := by
      rw [div_le_div_iff₀ hb two_pos]
      exact_mod_cast (by omega : r * 2 ≤ 1 * b)
    rw [abs_le]
    push_cast
    constructor <;> linarith

theorem le_roundAt_rup : inUnits n d e q ≤ (roundAt .rup u false n d e q).1 := by
  obtain ⟨lo, r, b, hr, hv, hx⟩ := roundAt_parts .rup u false n hd e q
  have hr1 := remainder_lt_one hr
  rw [hx, hv]
  rcases Nat.eq_zero_or_pos r with rfl | h0
  · simp [RMode.up]
  · simp [RMode.up, h0, hr1.le]

theorem roundAt_rdn_le : ((roundAt .rdn u false n d e q).1 : ℚ) ≤ inUnits n d e q := by
  obtain ⟨lo, r, b, hr, hv, hx⟩ := roundAt_parts .rdn u false n hd e q
  rw [hx, hv]
  simp [RMode.up]
  positivity

end Units

/-- No integer is nearer than one within a half. -/
theorem abs_nearest {x : Nat} {v : ℚ} (h : |(x : ℚ) - v| ≤ 1 / 2) (t : Nat) : |(x : ℚ) - v| ≤ |(t : ℚ) - v| := by
  by_cases htx : t = x
  · rw [htx]
  · have hone : (1 : ℚ) ≤ |(x : ℚ) - t| := by
      have : 1 ≤ |(x : Int) - t| := Int.one_le_abs (by omega)
      exact_mod_cast this
    have := abs_sub_le (x : ℚ) v t
    rw [abs_sub_comm v] at this
    linarith

/-! ## Magnitudes of a format -/

/-- How often the spacing of the magnitude with pattern `k` doubles the least one; the exponent fields 0 and 1 share the least (R88). -/
def magStep (f : Fmt) (k : Nat) : Nat := k / 2 ^ f.mb - 1

/-- The significand of the magnitude with pattern `k`. -/
def magSig (f : Fmt) (k : Nat) : Nat := k - magStep f k * 2 ^ f.mb

/-- The exponent of the least spacing of a format. -/
def leastExp (f : Fmt) : Int := f.emin - f.mb

/-- The value of the magnitude with pattern `k`. -/
def magVal (f : Fmt) (k : Nat) : ℚ := magSig f k * 2 ^ (leastExp f + magStep f k)

/-- The finite magnitudes are those whose pattern is neither an infinity's nor a NaN's (R88, R89). -/
theorem le_maxCode_iff {f : Fmt} (hf : 0 < f.eb) {k : Nat} (hk : k < 2 ^ (f.eb + f.mb)) : k ≤ f.maxCode ↔
    ¬ (f.nans = 0 ∧ k / 2 ^ f.mb = 2 ^ f.eb - 1) ∧ ¬ (f.nans = 1 ∧ k / 2 ^ f.mb = 2 ^ f.eb - 1 ∧ k % 2 ^ f.mb = 2 ^ f.mb - 1) := by
  have hP : 0 < 2 ^ f.mb := Nat.two_pow_pos _
  have hT : 2 ≤ 2 ^ f.eb := Nat.le_self_pow (Nat.ne_of_gt hf) 2
  rw [Nat.pow_add] at hk
  have hE : k / 2 ^ f.mb < 2 ^ f.eb := (Nat.div_lt_iff_lt_mul hP).mpr hk
  have htop : (2 ^ f.eb - 1) * 2 ^ f.mb = 2 ^ f.eb * 2 ^ f.mb - 2 ^ f.mb := Nat.sub_one_mul ..
  have hbelow : k / 2 ^ f.mb < 2 ^ f.eb - 1 ↔ k < (2 ^ f.eb - 1) * 2 ^ f.mb := Nat.div_lt_iff_lt_mul hP
  have hsum := Nat.div_add_mod' k (2 ^ f.mb)
  have hM := Nat.mod_lt k hP
  have hTP : 2 * 2 ^ f.mb ≤ 2 ^ f.eb * 2 ^ f.mb := Nat.mul_le_mul_right _ hT
  unfold Fmt.maxCode
  rw [Nat.pow_add]
  generalize hE' : k / 2 ^ f.mb = E at *
  match f.nans with
  | 0 => simp; omega
  | 1 =>
    simp
    constructor
    · rintro h rfl
      omega
    · intro h
      by_cases hEt : E = 2 ^ f.eb - 1
      · have := h hEt
        subst hEt
        omega
      · omega
  | _ + 2 => simp; omega

theorem bits_exponent (f : Fmt) (y : Nat) : bits y f.mb f.eb = y % 2 ^ (f.eb + f.mb) / 2 ^ f.mb := by
  rw [bits, Nat.add_comm f.eb, Nat.pow_add, Nat.mod_mul_right_div_self]

theorem bits_fraction (f : Fmt) (y : Nat) : bits y 0 f.mb = y % 2 ^ (f.eb + f.mb) % 2 ^ f.mb := by
  rw [bits, pow_zero, Nat.div_one, Nat.mod_mod_of_dvd _ (Nat.pow_dvd_pow 2 (Nat.le_add_left ..))]

/-- What a pattern means, by its sign and its magnitude (R88). -/
theorem decode_of_le {f : Fmt} (hf : 0 < f.eb) {y : Nat} (h : y % 2 ^ (f.eb + f.mb) ≤ f.maxCode) :
    f.decode y = .fin (bits y (f.eb + f.mb) 1 == 1) (magSig f (y % 2 ^ (f.eb + f.mb))) (leastExp f + magStep f (y % 2 ^ (f.eb + f.mb))) := by
  have hk := Nat.mod_lt y (Nat.two_pow_pos (f.eb + f.mb))
  unfold Fmt.decode
  simp only [bits_exponent, bits_fraction]
  generalize y % 2 ^ (f.eb + f.mb) = k at *
  obtain ⟨h0, h1⟩ := (le_maxCode_iff hf hk).mp h
  rw [if_neg h0, if_neg h1, magSig, magStep, leastExp]
  have hsum := Nat.div_add_mod' k (2 ^ f.mb)
  split
  case isTrue hz =>
    rw [hz] at hsum ⊢
    congr 1
    · omega
    · simp
  case isFalse hz =>
    have hsub : (k / 2 ^ f.mb - 1) * 2 ^ f.mb = k / 2 ^ f.mb * 2 ^ f.mb - 2 ^ f.mb := Nat.sub_one_mul ..
    have hle : 2 ^ f.mb ≤ k / 2 ^ f.mb * 2 ^ f.mb := Nat.le_mul_of_pos_left _ (Nat.pos_of_ne_zero hz)
    congr 1
    · omega
    · rw [Fmt.emin, Nat.cast_sub (Nat.pos_of_ne_zero hz)]
      omega

/-- No pattern above the largest finite magnitude is a finite value (R88, R89). -/
theorem le_maxCode_of_fin {f : Fmt} (hf : 0 < f.eb) {y : Nat} {s : Bool} {n : Nat} {e : Int} (h : f.decode y = .fin s n e) :
    y % 2 ^ (f.eb + f.mb) ≤ f.maxCode := by
  rw [le_maxCode_iff hf (Nat.mod_lt y (Nat.two_pow_pos (f.eb + f.mb)))]
  unfold Fmt.decode at h
  simp only [bits_exponent, bits_fraction] at h
  constructor
  · intro h0
    rw [if_pos h0] at h
    split at h <;> simp at h
  · intro h1
    rw [if_neg (by omega), if_pos h1] at h
    simp at h

theorem maxCode_lt {f : Fmt} (hf : 0 < f.eb) : f.maxCode < 2 ^ (f.eb + f.mb) := by
  have hpos := Nat.two_pow_pos (f.eb + f.mb)
  have htop : (2 ^ f.eb - 1) * 2 ^ f.mb ≤ 2 ^ (f.eb + f.mb) := by
    rw [Nat.pow_add]
    exact Nat.mul_le_mul_right _ (Nat.sub_le ..)
  have hone : 0 < (2 ^ f.eb - 1) * 2 ^ f.mb := Nat.mul_pos (Nat.sub_pos_of_lt (Nat.one_lt_two_pow hf.ne')) (Nat.two_pow_pos _)
  have htwo : 2 ≤ 2 ^ (f.eb + f.mb) := Nat.le_self_pow (by omega) 2
  unfold Fmt.maxCode
  split <;> omega

theorem signed_mod {f : Fmt} (s : Bool) {k : Nat} (hk : k < 2 ^ (f.eb + f.mb)) : f.signed s k % 2 ^ (f.eb + f.mb) = k := by
  cases s <;> simp [Fmt.signed, Nat.mod_eq_of_lt hk]

theorem signed_sign {f : Fmt} (s : Bool) {k : Nat} (hk : k < 2 ^ (f.eb + f.mb)) : (bits (f.signed s k) (f.eb + f.mb) 1 == 1) = s := by
  cases s <;> simp [Fmt.signed, bits, Nat.div_eq_of_lt hk]

/-- A pattern is its sign and its magnitude. -/
theorem signed_of_pattern {f : Fmt} {y : Nat} (hy : y < 2 ^ f.width) :
    f.signed (bits y (f.eb + f.mb) 1 == 1) (y % 2 ^ (f.eb + f.mb)) = y := by
  have hw : 2 ^ f.width = 2 ^ (f.eb + f.mb) * 2 := by rw [Fmt.width, Nat.add_assoc, Nat.add_comm, Nat.pow_succ]
  have hlt : y / 2 ^ (f.eb + f.mb) < 2 := Nat.div_lt_of_lt_mul (hw ▸ hy)
  have hsum := Nat.div_add_mod' y (2 ^ (f.eb + f.mb))
  unfold Fmt.signed bits
  rw [pow_one, Nat.mod_eq_of_lt hlt]
  rcases Nat.le_one_iff_eq_zero_or_eq_one.mp (Nat.lt_succ_iff.mp hlt) with h | h <;> rw [h] at hsum ⊢ <;> simpa using hsum

/-- A finite magnitude under a sign (R88). -/
theorem decode_signed {f : Fmt} (hf : 0 < f.eb) (s : Bool) {k : Nat} (hk : k ≤ f.maxCode) :
    f.decode (f.signed s k) = .fin s (magSig f k) (leastExp f + magStep f k) := by
  have hlt := hk.trans_lt (maxCode_lt hf)
  rw [decode_of_le hf (by rwa [signed_mod s hlt]), signed_mod s hlt, signed_sign s hlt]

/-- A finite pattern is a finite magnitude under its sign (R88). -/
theorem fin_of_decode {f : Fmt} (hf : 0 < f.eb) {y : Nat} {s : Bool} {n : Nat} {e : Int} (h : f.decode y = .fin s n e) :
    ∃ k ≤ f.maxCode, n = magSig f k ∧ e = leastExp f + magStep f k ∧ (y < 2 ^ f.width → y = f.signed s k) := by
  have hk := le_maxCode_of_fin hf h
  obtain ⟨rfl, rfl, rfl⟩ := FV.fin.inj ((decode_of_le hf hk).symm.trans h)
  exact ⟨_, hk, rfl, rfl, fun hy => (signed_of_pattern hy).symm⟩

theorem ratOf_magSig (f : Fmt) (s : Bool) (k : Nat) : ratOf s (magSig f k) (leastExp f + magStep f k) = withSign s (magVal f k) :=
  ratOf_eq ..

/-- The significand counted in units of the `i`th spacing, and the pattern of the magnitude. -/
theorem magVal_units (f : Fmt) {i x : Nat} (hx : x ≤ 2 ^ (f.mb + 1)) (hi : i = 0 ∨ 2 ^ f.mb ≤ x) :
    magVal f (i * 2 ^ f.mb + x) = x * 2 ^ (leastExp f + i) := by
  have hP := Nat.two_pow_pos f.mb
  rw [Nat.pow_succ] at hx
  have hdiv : (i * 2 ^ f.mb + x) / 2 ^ f.mb = i + x / 2 ^ f.mb := by rw [Nat.add_comm, Nat.add_mul_div_right _ _ hP, Nat.add_comm]
  rcases hx.lt_or_eq with hlt | rfl
  · have hstep : magStep f (i * 2 ^ f.mb + x) = i := by
      rw [magStep, hdiv]
      have : x / 2 ^ f.mb < 2 := Nat.div_lt_of_lt_mul hlt
      have : 2 ^ f.mb ≤ x → 0 < x / 2 ^ f.mb := fun h => Nat.div_pos h hP
      omega
    rw [magVal, magSig, hstep, Nat.add_sub_cancel_left]
  · have hstep : magStep f (i * 2 ^ f.mb + 2 ^ f.mb * 2) = i + 1 := by
      rw [magStep, hdiv, Nat.mul_div_cancel_left _ hP]
      omega
    have hsig : i * 2 ^ f.mb + 2 ^ f.mb * 2 - (i + 1) * 2 ^ f.mb = 2 ^ f.mb := by
      rw [Nat.add_mul]
      omega
    rw [magVal, magSig, hstep, hsig]
    push_cast
    rw [← add_assoc, zpow_add_one₀ two_ne_zero]
    ring

theorem magSig_bounds (f : Fmt) (k : Nat) : magSig f k < 2 ^ (f.mb + 1) ∧ (magStep f k = 0 ∨ 2 ^ f.mb ≤ magSig f k) ∧
    magStep f k * 2 ^ f.mb + magSig f k = k := by
  have hP := Nat.two_pow_pos f.mb
  have hsum := Nat.div_add_mod' k (2 ^ f.mb)
  have hM := Nat.mod_lt k hP
  have hsub : (k / 2 ^ f.mb - 1) * 2 ^ f.mb = k / 2 ^ f.mb * 2 ^ f.mb - 2 ^ f.mb := Nat.sub_one_mul ..
  rw [magSig, magStep, Nat.pow_succ]
  rcases Nat.eq_zero_or_pos (k / 2 ^ f.mb) with h0 | h0
  · rw [h0] at hsum hsub ⊢
    omega
  · have hle : 2 ^ f.mb ≤ k / 2 ^ f.mb * 2 ^ f.mb := Nat.le_mul_of_pos_left _ h0
    omega

theorem eq_zero_of_magSig {f : Fmt} {k : Nat} (h : magSig f k = 0) : k = 0 := by
  obtain ⟨-, hi, hsum⟩ := magSig_bounds f k
  have := Nat.two_pow_pos f.mb
  obtain h0 : magStep f k = 0 := by omega
  rw [h0, h] at hsum
  omega

theorem magVal_nonneg (f : Fmt) (k : Nat) : 0 ≤ magVal f k := by unfold magVal; positivity

theorem magVal_zero (f : Fmt) : magVal f 0 = 0 := by simp [magVal, magSig]

/-- A magnitude is a whole number of units of 2^q, or lies below what a significand of the format counts in them. -/
theorem magVal_grid (f : Fmt) (k : Nat) (q : Int) :
    (∃ t : Nat, magVal f k = t * 2 ^ q) ∨ leastExp f < q ∧ magVal f k < 2 ^ (q + f.mb) := by
  rcases le_or_gt q (leastExp f + magStep f k) with hle | hlt
  · left
    obtain ⟨j, hj⟩ : ∃ j : Nat, leastExp f + magStep f k = q + j := ⟨(leastExp f + magStep f k - q).toNat, by omega⟩
    refine ⟨magSig f k * 2 ^ j, ?_⟩
    rw [magVal, hj, two_zpow_add, zpow_natCast]
    push_cast
    ring
  · right
    refine ⟨by omega, ?_⟩
    calc magVal f k < (2 ^ (f.mb + 1) : Nat) * 2 ^ (leastExp f + magStep f k) := by
          unfold magVal
          gcongr
          exact (magSig_bounds f k).1
      _ = 2 ^ (leastExp f + magStep f k + (f.mb + 1 : Nat)) := (binade_units ..).symm
      _ ≤ 2 ^ (q + f.mb) := zpow_le_zpow_right₀ one_le_two (by omega)

/-- Magnitudes stand in the order of their patterns. -/
theorem magVal_strictMono (f : Fmt) : StrictMono (magVal f) := by
  refine strictMono_nat_of_lt_succ fun k => ?_
  obtain ⟨hlt, hi, hsum⟩ := magSig_bounds f k
  have hnext := magVal_units f (i := magStep f k) (x := magSig f k + 1) hlt (hi.imp id fun h => by omega)
  rw [← Nat.add_assoc, hsum] at hnext
  have hp := two_zpow_pos (leastExp f + magStep f k)
  rw [hnext, magVal]
  gcongr
  exact Nat.lt_succ_self _

/-! ## Rounding to a format -/

/-- The exponent of the units in which a rounding to a format counts. -/
def quantum (f : Fmt) (n d : Nat) (e : Int) : Int := max (leadExp n d + e - f.mb) (leastExp f)

/-- The magnitude that a rounding delivers unless it overflows. -/
def roundCode (f : Fmt) (m : RMode) (u : Nat) (s : Bool) (n d : Nat) (e : Int) : Nat :=
  (quantum f n d e - leastExp f).toNat * 2 ^ f.mb + (roundAt m u s n d e (quantum f n d e)).1

section Round
variable (f : Fmt) (m : RMode) (u : Nat) (s : Bool) {n d : Nat} (e : Int)

theorem round_overflow (h : f.maxCode < roundCode f m u s n d e) : (f.round m u s n d e).2 = flagOF ||| flagNX :=
  congrArg Prod.snd (if_pos h)

theorem round_fst (h : roundCode f m u s n d e ≤ f.maxCode) : (f.round m u s n d e).1 = f.signed s (roundCode f m u s n d e) :=
  congrArg Prod.fst (if_neg (Nat.not_lt.mpr h))

theorem round_flags (h : roundCode f m u s n d e ≤ f.maxCode) : ∃ tiny : Bool, (f.round m u s n d e).2 =
    (if (roundAt m u s n d e (quantum f n d e)).2 then 0 else flagIf tiny flagUF ||| flagNX) ∧ (f.emin ≤ leadExp n d + e → tiny = false) :=
  ⟨_, congrArg Prod.snd (if_neg (Nat.not_lt.mpr h)), fun h => by simp; omega⟩

theorem round_no_overflow (h : roundCode f m u s n d e ≤ f.maxCode) : (f.round m u s n d e).2 &&& flagOF = 0 := by
  obtain ⟨tiny, hfl, -⟩ := round_flags f m u s e h
  rw [hfl]
  cases tiny <;> split <;> decide

theorem leastExp_le_quantum : leastExp f ≤ quantum f n d e := le_max_right ..

variable (hn : n ≠ 0) (hd : d ≠ 0)
include hn hd

theorem value_lt_quantum : (n : ℚ) / d * 2 ^ e < 2 ^ (quantum f n d e + f.mb + 1) := by
  calc (n : ℚ) / d * 2 ^ e < 2 ^ (leadExp n d + 1) * 2 ^ e := by
        have := (leadExp_spec hn hd).2
        have := two_zpow_pos e
        gcongr
    _ = 2 ^ (leadExp n d + 1 + e) := (two_zpow_add ..).symm
    _ ≤ 2 ^ (quantum f n d e + f.mb + 1) := zpow_le_zpow_right₀ one_le_two (by unfold quantum; omega)

theorem quantum_le_value (h : leastExp f < quantum f n d e) : 2 ^ (quantum f n d e + f.mb) ≤ (n : ℚ) / d * 2 ^ e := by
  have hq : quantum f n d e + f.mb = leadExp n d + e := by unfold quantum at h ⊢; omega
  rw [hq, two_zpow_add]
  gcongr
  exact (leadExp_spec hn hd).1

/-- The delivered magnitude is the rounded count of its units. -/
theorem magVal_roundCode : magVal f (roundCode f m u s n d e) = (roundAt m u s n d e (quantum f n d e)).1 * 2 ^ quantum f n d e := by
  have hq := leastExp_le_quantum f e (n := n) (d := d)
  have hto : leastExp f + ((quantum f n d e - leastExp f).toNat : Int) = quantum f n d e := by omega
  have hval := inUnits_mul n d e (quantum f n d e)
  rw [roundCode, magVal_units f, hto]
  · refine roundAt_le m u s n hd e _ ?_
    rw [← mul_le_mul_iff_left₀ (two_zpow_pos (quantum f n d e)), hval]
    refine (value_lt_quantum f e hn hd).le.trans_eq ?_
    rw [add_assoc, ← binade_units, Nat.cast_add, Nat.cast_one]
  · by_cases h : leastExp f < quantum f n d e
    · right
      refine le_roundAt m u s n hd e _ ?_
      rw [← mul_le_mul_iff_left₀ (two_zpow_pos (quantum f n d e)), hval]
      exact (binade_units ..).symm.trans_le (quantum_le_value f e hn hd h)
    · left
      omega

/-- Between a magnitude and a value not below it stands a whole number of the value's units. -/
theorem exists_units_of_le {k : Nat} (h : magVal f k ≤ n / d * 2 ^ e) :
    ∃ t : Nat, magVal f k ≤ t * 2 ^ quantum f n d e ∧ (t : ℚ) * 2 ^ quantum f n d e ≤ n / d * 2 ^ e := by
  rcases magVal_grid f k (quantum f n d e) with ⟨t, ht⟩ | ⟨hq, hlt⟩
  · exact ⟨t, ht.le, ht ▸ h⟩
  · rw [binade_units] at hlt
    exact ⟨2 ^ f.mb, hlt.le, (binade_units ..).symm.trans_le (quantum_le_value f e hn hd hq)⟩

/-- A magnitude not below a value is a whole number of the value's units. -/
theorem exists_units_of_ge {k : Nat} (h : n / d * 2 ^ e ≤ magVal f k) : ∃ t : Nat, magVal f k = t * 2 ^ quantum f n d e :=
  (magVal_grid f k (quantum f n d e)).resolve_right fun ⟨hq, hlt⟩ =>
    absurd (h.trans_lt hlt) (not_lt.mpr (quantum_le_value f e hn hd hq))

/-- A finite magnitude not above the value is not above its rounding. -/
theorem magVal_le_roundCode {k : Nat} (h : magVal f k ≤ n / d * 2 ^ e) : magVal f k ≤ magVal f (roundCode f m u s n d e) := by
  obtain ⟨t, hkt, htv⟩ := exists_units_of_le f e hn hd h
  rw [magVal_roundCode f m u s e hn hd]
  rw [← inUnits_mul n d e (quantum f n d e), mul_le_mul_iff_left₀ (two_zpow_pos _)] at htv
  refine hkt.trans ?_
  gcongr
  exact le_roundAt m u s n hd e _ htv

/-- A finite magnitude not below the value is not below its rounding. -/
theorem roundCode_le_magVal {k : Nat} (h : n / d * 2 ^ e ≤ magVal f k) : magVal f (roundCode f m u s n d e) ≤ magVal f k := by
  obtain ⟨t, ht⟩ := exists_units_of_ge f e hn hd h
  rw [ht, ← inUnits_mul n d e (quantum f n d e), mul_le_mul_iff_left₀ (two_zpow_pos _)] at h
  rw [magVal_roundCode f m u s e hn hd, ht]
  gcongr
  exact roundAt_le m u s n hd e _ h

/-- A value not above the largest finite magnitude does not overflow. -/
theorem roundCode_le_maxCode (h : n / d * 2 ^ e ≤ magVal f f.maxCode) : roundCode f m u s n d e ≤ f.maxCode :=
  (magVal_strictMono f).le_iff_le.mp (roundCode_le_magVal f m u s e hn hd h)

/-- A rounding lies less than one unit above the value. -/
theorem magVal_roundCode_lt : magVal f (roundCode f m u s n d e) < n / d * 2 ^ e + 2 ^ quantum f n d e := by
  rw [magVal_roundCode f m u s e hn hd, ← inUnits_mul n d e (quantum f n d e), ← add_one_mul]
  have := two_zpow_pos (quantum f n d e)
  gcongr
  exact roundAt_lt m u s n hd e _

theorem le_roundCode_rup : (n : ℚ) / d * 2 ^ e ≤ magVal f (roundCode f .rup u false n d e) := by
  rw [magVal_roundCode f .rup u false e hn hd, ← inUnits_mul n d e (quantum f n d e)]
  gcongr
  exact le_roundAt_rup u n hd e _

theorem roundCode_rdn_le : magVal f (roundCode f .rdn u false n d e) ≤ n / d * 2 ^ e := by
  rw [magVal_roundCode f .rdn u false e hn hd, ← inUnits_mul n d e (quantum f n d e)]
  gcongr
  exact roundAt_rdn_le u n hd e _

omit hn in
/-- A rounding is exact where the value is a whole number of its units. -/
theorem roundAt_quantum_exact_iff {x : Nat} :
    roundAt m u s n d e (quantum f n d e) = (x, true) ↔ (n : ℚ) / d * 2 ^ e = x * 2 ^ quantum f n d e := by
  rw [roundAt_exact_iff m u s n hd, ← inUnits_mul n d e (quantum f n d e), mul_left_inj' (two_zpow_pos _).ne']

/-- A whole number of the units of a rounding is delivered as it is. -/
theorem round_units {x : Nat} (h : (n : ℚ) / d * 2 ^ e = x * 2 ^ quantum f n d e) :
    (roundAt m u s n d e (quantum f n d e)).2 = true ∧ magVal f (roundCode f m u s n d e) = n / d * 2 ^ e := by
  have hx := (roundAt_quantum_exact_iff f m u s e hd).mpr h
  rw [magVal_roundCode f m u s e hn hd, hx]
  exact ⟨rfl, h.symm⟩

/-- RNE delivers a magnitude within one unit of the value. -/
theorem abs_roundCode_rne_le : |magVal f (roundCode f .rne u s n d e) - n / d * 2 ^ e| ≤ 2 ^ quantum f n d e := by
  have hp := two_zpow_pos (quantum f n d e)
  rw [magVal_roundCode f .rne u s e hn hd, ← inUnits_mul n d e (quantum f n d e), ← sub_mul, abs_mul, abs_of_pos hp]
  exact mul_le_of_le_one_left hp.le ((roundAt_rne u s n hd e _).trans (by norm_num))

/-- No whole number of units is nearer to the value than what RNE delivers. -/
theorem roundCode_rne_nearest_units (t : Nat) :
    |magVal f (roundCode f .rne u s n d e) - n / d * 2 ^ e| ≤ |(t : ℚ) * 2 ^ quantum f n d e - n / d * 2 ^ e| := by
  rw [magVal_roundCode f .rne u s e hn hd, ← inUnits_mul n d e (quantum f n d e), ← sub_mul, ← sub_mul, abs_mul, abs_mul]
  exact mul_le_mul_of_nonneg_right (abs_nearest (roundAt_rne u s n hd e _) t) (abs_nonneg _)

/-- RNE delivers a nearest finite magnitude (R93). -/
theorem roundCode_rne_nearest (k : Nat) :
    |magVal f (roundCode f .rne u s n d e) - n / d * 2 ^ e| ≤ |magVal f k - n / d * 2 ^ e| := by
  rcases le_total (magVal f k) (n / d * 2 ^ e) with h | h
  · obtain ⟨t, hkt, htv⟩ := exists_units_of_le f e hn hd h
    refine (roundCode_rne_nearest_units f u s e hn hd t).trans ?_
    rw [abs_of_nonpos (by linarith), abs_of_nonpos (by linarith)]
    linarith
  · obtain ⟨t, ht⟩ := exists_units_of_ge f e hn hd h
    rw [ht]
    exact roundCode_rne_nearest_units f u s e hn hd t

end Round

/-- RNE delivers a nearest magnitude, the magnitudes under the other sign included (R93). -/
theorem roundCode_rne_nearest_signed (f : Fmt) (u : Nat) (s : Bool) {n d : Nat} (e : Int) (hn : n ≠ 0) (hd : d ≠ 0) (sg sz : Bool) (k : Nat) :
    |withSign sg (magVal f (roundCode f .rne u s n d e)) - withSign sg (n / d * 2 ^ e)| ≤
      |withSign sz (magVal f k) - withSign sg (n / d * 2 ^ e)| := by
  rw [abs_withSign_sub]
  by_cases hs : sz = sg
  · subst hs
    rw [abs_withSign_sub]
    exact roundCode_rne_nearest f u s e hn hd k
  · have h0 := roundCode_rne_nearest f u s e hn hd 0
    have hv : (0 : ℚ) ≤ n / d * 2 ^ e := by positivity
    rw [magVal_zero, zero_sub, abs_neg, abs_of_nonneg hv] at h0
    exact h0.trans (le_abs_withSign_sub hs (magVal_nonneg f k))

end Sys2Proof
end

section
/-!
PROOFS. RNE delivers a nearest value, and representable values are exact (O9; R93, R95).
-/
namespace Sys2Proof
open Machine

/-- A finite pattern's own spacing is the unit in which its value is rounded. -/
theorem quantum_magSig {f : Fmt} {k : Nat} (hn : magSig f k ≠ 0) :
    quantum f (magSig f k) 1 (leastExp f + magStep f k) = leastExp f + magStep f k := by
  obtain ⟨hlt, hi, -⟩ := magSig_bounds f k
  obtain ⟨hlo, hhi⟩ := leadExp_spec hn one_ne_zero
  rw [Nat.cast_one, div_one] at hlo hhi
  have hle : leadExp (magSig f k) 1 < f.mb + 1 := by
    rw [← zpow_lt_zpow_iff_right₀ (one_lt_two (α := ℚ))]
    exact hlo.trans_lt (by exact_mod_cast hlt)
  have hge : 2 ^ f.mb ≤ magSig f k → (f.mb : Int) < leadExp (magSig f k) 1 + 1 := by
    intro h
    rw [← zpow_lt_zpow_iff_right₀ (one_lt_two (α := ℚ))]
    exact lt_of_le_of_lt (by exact_mod_cast h) hhi
  unfold quantum
  omega

/-- A finite pattern rounds to itself (R93, R95). -/
theorem ofFV_decode {f : Fmt} (hf : 0 < f.eb) (m : RMode) (u : Nat) {x : Nat} (hx : x < 2 ^ f.width) {s : Bool} {n : Nat} {e : Int}
    (h : f.decode x = .fin s n e) : f.ofFV m u (.fin s n e) = (x, 0) := by
  obtain ⟨k, hk, rfl, rfl, hxk⟩ := fin_of_decode hf h
  obtain ⟨-, hi, hsum⟩ := magSig_bounds f k
  rw [hxk hx]
  by_cases hn : magSig f k = 0
  · obtain rfl := eq_zero_of_magSig hn
    exact if_pos hn
  · have hq := quantum_magSig hn
    have hex : roundAt m u s (magSig f k) 1 (leastExp f + magStep f k) (quantum f (magSig f k) 1 (leastExp f + magStep f k)) =
        (magSig f k, true) := by
      rw [roundAt_quantum_exact_iff f m u s _ one_ne_zero, hq, Nat.cast_one, div_one]
    have hcode : roundCode f m u s (magSig f k) 1 (leastExp f + magStep f k) = k := by
      rw [roundCode, hex, hq, add_sub_cancel_left, Int.toNat_natCast]
      exact hsum
    obtain ⟨_, hfl, -⟩ := round_flags f m u s (leastExp f + magStep f k) (hcode.trans_le hk)
    rw [hex, if_pos rfl] at hfl
    have hfst := round_fst f m u s (leastExp f + magStep f k) (hcode.trans_le hk)
    rw [hcode] at hfst
    exact (if_neg hn).trans (Prod.ext hfst hfl)

/-- Settles O9: the nearest of two signed magnitudes, and the exact rounding of a value counted in its own spacing. -/
theorem roundingIsToNearest : Obligations.RoundingIsToNearest := by
  refine ⟨fun sg n e hn hov => ?nearest, fun f hf m u x hx hfin => ?exact⟩
  case nearest =>
    intro val z sz nz ez hz
    obtain ⟨k, hk, rfl, rfl, -⟩ := fin_of_decode (by decide) hz
    have hround : fp32.ofFV .rne 0 (.fin sg n e) = fp32.round .rne 0 sg n 1 e := if_neg hn
    rw [hround] at hov ⊢
    have hfin : roundCode fp32 .rne 0 sg n 1 e ≤ fp32.maxCode := by
      by_contra hlt
      rw [round_overflow fp32 .rne 0 sg e (Nat.lt_of_not_le hlt)] at hov
      exact absurd hov (by decide)
    rw [round_fst fp32 .rne 0 sg e hfin, decode_signed (by decide) sg hfin]
    have hnear := roundCode_rne_nearest_signed fp32 0 sg e hn one_ne_zero sg sz k
    rw [Nat.cast_one, div_one] at hnear
    change |ratOf sg _ _ - ratOf sg n e| ≤ |ratOf sz _ _ - ratOf sg n e|
    rwa [ratOf_magSig, ratOf_magSig, ratOf_eq sg n]
  case exact =>
    obtain ⟨s, n, e, h⟩ := hfin
    rw [h]
    refine ofFV_decode ?_ m u hx h
    fin_cases hf <;> decide

end Sys2Proof
end

section
/-!
PROOFS. Multiplies and the divide family, and the divider's completion (O2; R99, R127, R128, R164).
-/
namespace Sys2Proof
open Machine

/-! ## Values -/

/-- A form of three operands gives any description `r` of its results, lane by lane. -/
theorem formVVV_results {i : Instr} {s : State} {c : Issue} {g : Group} {lat : Nat} {d a b : BitVec 6} {f : W32 → W32 → W32 → W32}
    {r : Nat → W32}
    (h : Issues s c g) (hr : ∀ l, f ((g.lane l).rv a.toNat) ((g.lane l).rv b.toNat) ((g.lane l).rv d.toNat) = r l)
    (he : exec i s = formVVV i lat d a b f s := by dsimp only [exec]; rfl) (hw : i.wf (s.regsOf g) = true) :
    Gives i s c lat (vWrites c d r) [] :=
  funext hr ▸ formVVV_gives ⟨h, hw⟩ he

/-- The divider gives any description `r` of its results, lane by lane. -/
theorem formDivide_results {i : Instr} {s : State} {c : Issue} {g : Group} {d a b : BitVec 6} {f : W32 → W32 → W32} {r : Nat → W32}
    (h : Issues s c g) (hr : ∀ l, f ((g.lane l).rv a.toNat) ((g.lane l).rv b.toNat) = r l)
    (he : exec i s = formDivide i d a b f s := by dsimp only [exec]; rfl) (hw : i.wf (s.regsOf g) = true) :
    GivesKind .divide i s c 1 (vWrites c d r) [] :=
  funext hr ▸ formDivide_gives ⟨h, hw⟩ he

theorem mul_eq_ofNat (a b : W32) : a * b = BitVec.ofNat 32 (a.toNat * b.toNat) :=
  BitVec.eq_of_toNat_eq (by simp)

theorem mulAdd_eq_ofNat (a b d : W32) : a * b + d = BitVec.ofNat 32 (a.toNat * b.toNat + d.toNat) :=
  BitVec.eq_of_toNat_eq (by simp)

theorem divS_eq (a b : W32) : divS a b = if b = 0 then 0xFFFFFFFF#32 else a.sdiv b :=
  if_congr Iff.rfl rfl (BitVec.eq_of_toInt_eq (by rw [BitVec.toInt_sdiv, BitVec.toInt_ofInt]))

theorem divU_eq (a b : W32) : divU a b = if b = 0 then 0xFFFFFFFF#32 else a / b :=
  if_congr Iff.rfl rfl (BitVec.eq_of_toNat_eq (by simp [Nat.mod_eq_of_lt ((Nat.div_le_self ..).trans_lt a.isLt)]))

theorem remS_eq (a b : W32) : remS a b = if b = 0 then a else a.srem b :=
  if_congr Iff.rfl rfl (BitVec.eq_of_toInt_eq (by rw [BitVec.toInt_ofInt, ← BitVec.toInt_srem, BitVec.toInt_bmod_cancel]))

theorem remU_eq (a b : W32) : remU a b = if b = 0 then a else a % b :=
  if_congr Iff.rfl rfl (BitVec.eq_of_toNat_eq (by simp [Nat.mod_eq_of_lt ((Nat.mod_le ..).trans_lt a.isLt)]))

/-! ## A result that lands in part of its lanes -/

/-- A write leaves the V registers of a lane that its mask does not name. -/
theorem apply_v_unnamed {mask : BitVec 32} {l : Nat} (h : mask.getLsbD l = false) (g : Group) (w : RegWrite) :
    ((g.apply mask w).lane l).v = (g.lane l).v := by
  have hlane : ∀ (l' : Nat) (f : Lane → Lane), ((if mask.getLsbD l' then g.modLane l' f else g).lane l).v = (g.lane l).v := by
    intro l' f
    by_cases hl : l = l'
    · rw [← hl, h]
      rfl
    · split
      · rw [lane_modLane_ne f hl]
      · rfl
  cases w with
  | v l' r x | p l' r x | lr l' x => exact hlane l' _
  | s r x =>
    simp only [Group.apply, Group.ws]
    split <;> rfl
  | lstat x =>
    simp only [Group.apply]
    split <;> rfl

theorem applyFlags_lanes (mask : BitVec 32) (fs : List (Nat × BitVec 5)) (g : Group) : (g.applyFlags mask fs).lanes = g.lanes :=
  foldl_keeps Group.lanes (fun g f => by split <;> rfl) fs g

/-- A result leaves the V registers of a lane that it no longer names (R67, R164). -/
theorem land_v_unnamed {o : Outst} {l : Nat} (h : o.mask.getLsbD l = false) (g : Group) : ((g.land o).lane l).v = (g.lane l).v := by
  have hfl : (g.land o).lane l = (o.writes.foldl (fun g w => g.apply o.mask w) g).lane l :=
    congrArg (fun ls : List Lane => ls.getD l Lane.empty) (applyFlags_lanes ..)
  rw [hfl]
  exact foldl_keeps (fun g => (g.lane l).v) (apply_v_unnamed h) _ g

theorem landPart_gid (g : Group) (o : Outst) (m : BitVec 32) : (g.landPart o m).gid = g.gid := by
  unfold Group.landPart
  dsimp only
  split <;> exact land_gid ..

theorem clearMask_all (m : BitVec 32) : clearMask m 0xFFFFFFFF#32 = 0 := by
  simp [clearMask]

theorem getLsbD_clearMask {m x : BitVec 32} {l : Nat} (hl : l < 32) : (clearMask m x).getLsbD l = (m.getLsbD l && !x.getLsbD l) := by
  simp [clearMask, hl]

theorem landPart_last {o : Outst} {m : BitVec 32} (h : clearMask o.mask m = 0) (g : Group) :
    g.landPart o m = { g.land o with outs := g.outs.filter fun x => !(x.oid == o.oid) } := if_pos h

theorem landPart_rest {o : Outst} {m : BitVec 32} (h : clearMask o.mask m ≠ 0) (g : Group) :
    g.landPart o m = { g.land { o with mask := o.mask &&& m, writes := o.writes.filter RegWrite.ofLane } with
      outs := mapIf (fun x => x.oid == o.oid) (fun x => { x with mask := clearMask o.mask m }) g.outs } := if_neg h

/-- A lane whose result is still outstanding keeps its V registers (R164). -/
theorem landPart_v_waiting {o : Outst} {m : BitVec 32} {l : Nat} (hl : l < 32) (ho : o.mask.getLsbD l = true) (hm : m.getLsbD l = false) (g : Group) :
    ((g.landPart o m).lane l).v = (g.lane l).v := by
  have hne : ¬ clearMask o.mask m = 0 := by
    intro h0
    have := getLsbD_clearMask (m := o.mask) (x := m) hl
    simp [h0, ho, hm] at this
  rw [landPart_rest hne]
  exact land_v_unnamed (o := { o with mask := o.mask &&& m, writes := o.writes.filter RegWrite.ofLane }) (by simp [hm]) g

/-- The group after its outstanding result of a name has landed in the lanes of a mask. -/
def landNamed (oid : Nat) (m : BitVec 32) (g : Group) : Group :=
  match g.out? oid with
  | some o => g.landPart o m
  | none => g

theorem landNamed_gid (oid : Nat) (m : BitVec 32) (g : Group) : (landNamed oid m g).gid = g.gid := by
  unfold landNamed
  split
  · exact landPart_gid ..
  · rfl

/-- DIVIDE_COMPLETE lands the oldest result of the divider (R128), in the lanes that the event names. -/
theorem divideComplete_next {s : State} {gid oid : Nat} {rest : List (Nat × Nat)} {g : Group} {o : Outst}
    (hd : s.divides s.ev.die s.ev.core s.ev.quad = (oid, gid) :: rest) (hg : s.group? gid = some g) (ho : g.out? oid = some o) :
    ∃ t, exec .divideComplete s = .next t ∧ t.group? gid = some (g.landPart o s.evLanes) ∧ (∀ h, h ≠ gid → t.group? h = s.group? h) ∧
      SameMemory s t ∧ t.out = s.out := by
  have hx : exec .divideComplete s = .next (s.modGroup gid (landNamed oid s.evLanes)) := by
    change execDivideComplete s = _
    unfold execDivideComplete
    rw [hd]
    rfl
  refine ⟨_, hx, ?_, fun h hne => group?_modGroup_ne s _ (landNamed_gid oid s.evLanes) hne, ⟨rfl, rfl⟩, rfl⟩
  rw [group?_modGroup_same s gid _ (landNamed_gid oid s.evLanes), hg, Option.map_some, landNamed, ho]

/-- Settles O2: the forms by their values, the event by the result that it lands. -/
theorem multiplyDivideResults : Obligations.MultiplyDivideResults := by
  refine ⟨fun s c g d a b h => ⟨?multiplies, ?divides⟩, fun s gid oid rest g o hd hg ho => ?complete⟩
  case multiplies =>
    simp only [List.forall_mem_cons]
    exact ⟨formVVV_results h fun l => mul_eq_ofNat .., formVVV_results h fun l => rfl, formVVV_results h fun l => rfl,
      formVVV_results h fun l => mulAdd_eq_ofNat .., List.forall_mem_nil _⟩
  case divides =>
    simp only [List.forall_mem_cons]
    exact ⟨formDivide_results h fun l => divS_eq .., formDivide_results h fun l => divU_eq .., formDivide_results h fun l => remS_eq ..,
      formDivide_results h fun l => remU_eq .., List.forall_mem_nil _⟩
  case complete =>
    obtain ⟨t, hx, ht, hne, hm, hout⟩ := divideComplete_next hd hg ho
    refine ⟨t, hx, fun hw => ?all, fun g' hg' l hl hol hml => ?waiting, fun hrest => ?outs, hne, hm, hout⟩
    case all =>
      have hoid : o.oid = oid := by simpa using List.find?_some ho
      have hall : s.evLanes = 0xFFFFFFFF#32 := by simp [State.evLanes, hw]
      rw [ht, hall, landPart_last (clearMask_all _), hoid]
    case waiting =>
      obtain rfl := Option.some.inj (ht.symm.trans hg')
      exact landPart_v_waiting hl hol hml g
    case outs =>
      have hoid : o.oid = oid := by simpa using List.find?_some ho
      rw [ht, Option.map_some, landPart_rest hrest, hoid]

end Sys2Proof
end

section
/-!
PROOFS. Floating-point arithmetic (O7; R93, R94, R149 to R151): the forms that raise flags, and the one rounding of each.
-/
namespace Sys2Proof
open Machine

/-- An instruction whose fields R71 allows gives V[D] of each lane of Active(g) a pattern, with flags (R98). -/
def GivesFlagged (s : State) (c : Issue) (g : Group) (lat : Nat) (d : BitVec 6) (p : Instr × (Nat → Nat × BitVec 5)) : Prop :=
  p.1.wf (s.regsOf g) = true → Gives p.1 s c lat (vWrites c d fun l => BitVec.ofNat 32 (p.2 l).1) (laneFlags c fun l => (p.2 l).2)

theorem formF_flagged {i : Instr} {s : State} {c : Issue} {g : Group} {lat : Nat} {d a b : BitVec 6} {f : Nat → Nat → Nat → Nat × BitVec 5}
    {r : Nat → Nat × BitVec 5} (h : Issues s c g)
    (hr : ∀ l, f ((g.lane l).rv a.toNat).toNat ((g.lane l).rv b.toNat).toNat ((g.lane l).rv d.toNat).toNat = r l)
    (he : exec i s = formF i lat d a b f s := by dsimp only [exec]; rfl) : GivesFlagged s c g lat d (i, r) := by
  intro hw
  have hx := formFlags_gives ⟨h, hw⟩ he
  simp only [lanesDo_v, hr] at hx
  exact hx

theorem formF1_flagged {i : Instr} {s : State} {c : Issue} {g : Group} {lat : Nat} {d a : BitVec 6} {f : W32 → Nat × BitVec 5} (h : Issues s c g)
    (he : exec i s = formF1 i lat d a f s := by dsimp only [exec]; rfl) :
    GivesFlagged s c g lat d (i, fun l => f ((g.lane l).rv a.toNat)) := by
  intro hw
  have hx := formFlags_gives ⟨h, hw⟩ he
  simp only [lanesDo_v] at hx
  exact hx

/-- Settles O7: each row is its form, whose value is the one rounding by definition. -/
theorem floatArithmeticResults : Obligations.FloatArithmeticResults := by
  intro s c g d a b h A B D round fused two
  change ∀ p ∈ _, GivesFlagged s c g 5 d p
  simp only [List.forall_mem_cons]
  exact ⟨formF_flagged h fun l => rfl, formF_flagged h fun l => rfl, formF_flagged h fun l => rfl, formF_flagged h fun l => rfl,
    formF_flagged h fun l => rfl, formF_flagged h fun l => rfl, formF_flagged h fun l => rfl, formF_flagged h fun l => rfl,
    formF_flagged h fun l => rfl, formF_flagged h fun l => rfl, formF_flagged h fun l => rfl, formF_flagged h fun l => rfl, List.forall_mem_nil _⟩

end Sys2Proof
end

section
/-!
PROOFS. Floating-point order (O8; R93, R94, R149, R152): NaNs by their patterns, minimum and maximum, comparisons, and the canonical NaN.
-/
namespace Sys2Proof
open Machine

/-! ## NaNs of FP32 -/

/-- An FP32 pattern is a NaN where its exponent is all ones and its fraction is not 0 (R88). -/
def nan32 (x : Nat) : Bool := x / 2 ^ 23 % 256 == 255 && x % 2 ^ 23 != 0

/-- The fraction MSB of a signalling NaN is 0 (R94). -/
def sig32 (x : Nat) : Bool := nan32 x && x / 2 ^ 22 % 2 == 0

/-- What an FP32 pattern means, by its exponent and fraction fields (R88). -/
theorem decode_fp32 (x : Nat) : fp32.decode x = if x / 2 ^ 23 % 256 = 255
    then (if x % 2 ^ 23 = 0 then .inf (x / 2 ^ 31 % 2 == 1) else .nan (x / 2 ^ 22 % 2 == 0))
    else if x / 2 ^ 23 % 256 = 0 then .fin (x / 2 ^ 31 % 2 == 1) (x % 2 ^ 23) (-149)
    else .fin (x / 2 ^ 31 % 2 == 1) (2 ^ 23 + x % 2 ^ 23) ((x / 2 ^ 23 % 256 : Nat) - 127 - 23) := by
  simp [Fmt.decode, fp32, bits, Fmt.emin]

theorem decode_nan32 (x : Nat) : (fp32.decode x).isNan = nan32 x ∧ (fp32.decode x).isSig = sig32 x := by
  rw [decode_fp32, sig32, nan32]
  generalize x / 2 ^ 23 % 256 = e
  generalize x % 2 ^ 23 = m
  by_cases he : e = 255
  · by_cases hm : m = 0 <;> simp [he, hm, FV.isNan, FV.isSig]
  · by_cases h0 : e = 0 <;> simp [he, h0, FV.isNan, FV.isSig]

theorem isNan_decode (x : Nat) : (fp32.decode x).isNan = nan32 x := (decode_nan32 x).1

theorem isSig_decode (x : Nat) : (fp32.decode x).isSig = sig32 x := (decode_nan32 x).2

/-! ## The order of values -/

/-- The order of the minimum and the maximum: as the values, and -0 below +0 (R94). -/
def less32 (x y : Nat) : Bool :=
  (fp32.decode x).lt (fp32.decode y) || ((fp32.decode x).eq (fp32.decode y) && x == 2 ^ 31 && y == 0)

theorem unitsAt_neg_eq {m n : Nat} {e k q : Int} (h : unitsAt true m e q = unitsAt false n k q) : m = 0 ∧ n = 0 := by
  simp only [unitsAt, if_true, Bool.false_eq_true, if_false] at h
  have hm : m * 2 ^ (e - q).toNat = 0 := by omega
  have hn : n * 2 ^ (k - q).toNat = 0 := by omega
  simpa using And.intro hm hn

theorem pattern_of_zero {x : Nat} (hx : x < 2 ^ 32) {s : Bool} {e : Int} (h : fp32.decode x = .fin s 0 e) : x = if s then 2 ^ 31 else 0 := by
  obtain ⟨k, -, hk, -, hp⟩ := fin_of_decode (by decide) h
  rw [hp hx, eq_zero_of_magSig hk.symm]
  rfl

/-- Equal values of which the first alone is negative are -0 and +0. -/
theorem zeros_of_eq {x y : Nat} (hx : x < 2 ^ 32) (hy : y < 2 ^ 32) (he : (fp32.decode x).eq (fp32.decode y) = true)
    (hs : (fp32.decode x).isNeg = true) (ht : (fp32.decode y).isNeg = false) : x = 2 ^ 31 ∧ y = 0 := by
  match hdx : fp32.decode x, hdy : fp32.decode y with
  | .fin s m e, .fin t n k =>
    rw [hdx] at he hs
    rw [hdy] at he ht
    obtain rfl : s = true := hs
    obtain rfl : t = false := ht
    obtain ⟨rfl, rfl⟩ := unitsAt_neg_eq (of_decide_eq_true he)
    exact ⟨pattern_of_zero hx hdx, pattern_of_zero hy hdy⟩
  | .inf s, .inf t =>
    rw [hdx] at he hs
    rw [hdy] at he ht
    simp_all [FV.eq, FV.isNeg]
  | .nan _, _ => simp [hdx, FV.eq] at he
  | .inf _, .nan _ => simp [hdx, hdy, FV.eq] at he
  | .inf _, .fin _ _ _ => simp [hdx, hdy, FV.eq] at he
  | .fin _ _ _, .nan _ => simp [hdx, hdy, FV.eq] at he
  | .fin _ _ _, .inf _ => simp [hdx, hdy, FV.eq] at he

theorem below_decode {x y : Nat} (hx : x < 2 ^ 32) (hy : y < 2 ^ 32) : (fp32.decode x).below (fp32.decode y) = less32 x y := by
  refine congrArg (_ || ·) (Bool.eq_iff_iff.mpr ?_)
  simp only [Bool.and_eq_true, Bool.not_eq_true', beq_iff_eq, and_assoc]
  refine and_congr_right fun he => ⟨fun ⟨hs, ht⟩ => zeros_of_eq hx hy he hs ht, ?_⟩
  rintro ⟨rfl, rfl⟩
  decide

/-- Minimum and maximum of FP32 (R94). -/
theorem minMax_fp32 (num big : Bool) {x y : Nat} (hx : x < 2 ^ 32) (hy : y < 2 ^ 32) : fp32.minMax num big x y =
    (if nan32 x && nan32 y then 0x7FC00000 else if nan32 x then (if num then y else 0x7FC00000)
      else if nan32 y then (if num then x else 0x7FC00000)
      else if big then (if less32 x y then y else x) else (if less32 y x then y else x), flagIf (sig32 x || sig32 y) flagNV) := by
  simp only [Fmt.minMax, isNan_decode, isSig_decode, below_decode hx hy, below_decode hy hx]
  cases nan32 x <;> cases nan32 y <;> rfl

/-- The comparisons of FP32 (R152). -/
theorem fcmpHolds_fp32 (k x y : Nat) : fcmpHolds k x y =
    ((match k with
      | 0 => (fp32.decode x).eq (fp32.decode y)
      | 1 => !((fp32.decode x).eq (fp32.decode y))
      | 2 => (fp32.decode x).lt (fp32.decode y) && !(nan32 x) && !(nan32 y)
      | 3 => ((fp32.decode x).lt (fp32.decode y) || (fp32.decode x).eq (fp32.decode y)) && !(nan32 x) && !(nan32 y)
      | 4 => !(nan32 x || nan32 y)
      | _ => nan32 x || nan32 y), flagIf (sig32 x || sig32 y) flagNV) := by
  simp only [fcmpHolds, isNan_decode, isSig_decode]
  match k with
  | 0 | 1 | 4 | _ + 5 => rfl
  | 2 | 3 =>
    refine congrArg (·, _) ?_
    cases nan32 x <;> cases nan32 y <;> simp

/-! ## Canonical NaNs -/

theorem isNan_neg (x : FV) : x.neg.isNan = x.isNan := by
  cases x <;> rfl

/-- A NaN operand makes a sum a NaN, invalid where a NaN is signalling (R94). -/
theorem add_of_nan {x y : FV} (h : x.isNan = true ∨ y.isNan = true) : x.add y = (.nan false, x.isSig || y.isSig) := by
  match x, y with
  | .nan _, _ => rfl
  | .inf _, .nan g | .fin _ _ _, .nan g => exact congrArg (Prod.mk _) (Bool.or_false g)
  | .inf _, .inf _ | .inf _, .fin _ _ _ | .fin _ _ _, .inf _ | .fin _ _ _, .fin _ _ _ => simp [FV.isNan] at h

/-- A NaN operand makes a product a NaN, invalid where a NaN is signalling (R94). -/
theorem mul_of_nan {x y : FV} (h : x.isNan = true ∨ y.isNan = true) : x.mul y = (.nan false, x.isSig || y.isSig) := by
  match x, y with
  | .nan _, _ => rfl
  | .inf _, .nan g | .fin _ _ _, .nan g => exact congrArg (Prod.mk _) (Bool.or_false g)
  | .inf _, .inf _ | .inf _, .fin _ _ _ | .fin _ _ _, .inf _ | .fin _ _ _, .fin _ _ _ => simp [FV.isNan] at h

theorem rneOf_nan (f : Fmt) (nv : Bool) : f.rneOf (.nan false, nv) = (f.canon, if nv then flagNV else 0) := by
  cases nv <;> simp [Fmt.rneOf, Fmt.ofFV, flagIf]

section Canonical
variable (f : Fmt) {a b d : Nat}

theorem add_canon (h : (f.decode a).isNan = true ∨ (f.decode b).isNan = true) :
    f.add a b = (f.canon, if (f.decode a).isSig || (f.decode b).isSig then flagNV else 0) :=
  (congrArg f.rneOf (add_of_nan h)).trans (rneOf_nan ..)

theorem sub_canon (h : (f.decode a).isNan = true ∨ (f.decode b).isNan = true) : (f.sub a b).1 = f.canon := by
  rw [← isNan_neg (f.decode b)] at h
  exact congrArg Prod.fst ((congrArg f.rneOf (add_of_nan h)).trans (rneOf_nan ..))

theorem mul_canon (h : (f.decode a).isNan = true ∨ (f.decode b).isNan = true) :
    f.mul a b = (f.canon, if (f.decode a).isSig || (f.decode b).isSig then flagNV else 0) :=
  (congrArg f.rneOf (mul_of_nan h)).trans (rneOf_nan ..)

theorem fma_canon (h : (f.decode a).isNan = true ∨ (f.decode b).isNan = true ∨ (f.decode d).isNan = true) (np nq : Bool) :
    (f.fma np nq a b d).1 = f.canon := by
  have hneg : ∀ (n : Bool) (x : FV), (if n then x.neg else x).isNan = x.isNan := by
    intro n x
    cases n
    · rfl
    · exact isNan_neg x
  have hsum : (if np then ((f.decode a).mul (f.decode b)).1.neg else ((f.decode a).mul (f.decode b)).1).isNan = true ∨
      (if nq then (f.decode d).neg else f.decode d).isNan = true := by
    rw [hneg, hneg]
    rcases or_assoc.mpr h with hp | hd
    · rw [mul_of_nan hp]
      exact Or.inl rfl
    · exact Or.inr hd
  unfold Fmt.fma
  dsimp only
  rw [add_of_nan hsum, rneOf_nan]

end Canonical

/-- Settles O8: the forms by what minimum, maximum and comparison make of FP32 patterns, and the canonical NaN of each rounded result. -/
theorem floatOrderResults : Obligations.FloatOrderResults := by
  refine ⟨fun s c g d a b k h => ?order, fun f _ a b d => ?canon⟩
  case order =>
    intro A B nan sig nv lt eq less pick
    refine ⟨?minMax, fun hw => ?compare⟩
    case minMax =>
      have hm : ∀ num big l, fp32.minMax num big (A l) (B l) = (pick num big (A l) (B l), nv l) := fun num big l =>
        minMax_fp32 num big (BitVec.isLt _) (BitVec.isLt _)
      change ∀ p ∈ _, GivesFlagged s c g 5 d p
      simp only [List.forall_mem_cons]
      exact ⟨formF_flagged h (hm true false), formF_flagged h (hm true true), formF_flagged h (hm false false), formF_flagged h (hm false true),
        List.forall_mem_nil _⟩
    case compare =>
      have hx := formFlags_gives (i := .fcmp d a b k) ⟨h, hw⟩ (by dsimp only [exec]; rfl)
      rw [lanesDo_p] at hx
      simp only [fcmpHolds_fp32] at hx
      exact hx
  case canon =>
    exact ⟨fun h => ⟨congrArg Prod.fst (add_canon f h), sub_canon f h, congrArg Prod.fst (mul_canon f h)⟩, fma_canon f,
      fun h => ⟨congrArg Prod.snd (add_canon f h), congrArg Prod.snd (mul_canon f h)⟩, by decide, by decide, by decide⟩

end Sys2Proof
end

section
/-!
PROOFS. FDIV and FSQRT (R100, R160, R161): the exact quotient, the integer root, and the nearest value to a root.
-/
namespace Sys2Proof
open Machine

/-! ## FP32 values -/

theorem leastExp_fp32 : leastExp fp32 = -149 := by decide

/-- The significand and exponent of a finite FP32 value (R88, R89). -/
theorem fin_bounds {y : Nat} {s : Bool} {m : Nat} {e : Int} (h : fp32.decode y = .fin s m e) :
    m < 2 ^ 24 ∧ -149 ≤ e ∧ e ≤ 104 ∧ (e = -149 ∨ 2 ^ 23 ≤ m) := by
  obtain ⟨k, hk, rfl, rfl, -⟩ := fin_of_decode (by decide) h
  obtain ⟨hlt, hi, hsum⟩ := magSig_bounds fp32 k
  rw [leastExp_fp32]
  change _ < 2 ^ 24 at hlt
  change _ ∨ 2 ^ 23 ≤ _ at hi
  change _ * 2 ^ 23 + _ = _ at hsum
  change k ≤ 0x7F7FFFFF at hk
  omega

theorem two_zpow_127_le : (2 : ℚ) ^ (127 : Int) ≤ magVal fp32 fp32.maxCode := by
  have h := magVal_units fp32 (i := 253) (x := 2 ^ 23) (by decide) (Or.inr le_rfl)
  rw [leastExp_fp32] at h
  refine le_of_eq_of_le ?_ ((magVal_strictMono fp32).monotone (by decide : 253 * 2 ^ 23 + 2 ^ 23 ≤ fp32.maxCode))
  exact Eq.trans (by norm_num) h.symm

/-- A rounding to FP32 of less than 2^127 is a finite value. -/
theorem round32_finite {m : RMode} {u : Nat} {s : Bool} {n d : Nat} {e : Int} (hn : n ≠ 0) (hd : d ≠ 0)
    (h : (n : ℚ) / d * 2 ^ e ≤ 2 ^ (127 : Int)) :
    roundCode fp32 m u s n d e ≤ fp32.maxCode :=
  roundCode_le_maxCode fp32 m u s e hn hd (h.trans two_zpow_127_le)

/-! ## The root -/

/-- `isqrt` is the integer part of the root, where that has no more than the bits named. -/
theorem isqrt_spec (n : Nat) : ∀ (k r : Nat), r * r ≤ n → n < (r + 2 ^ k) * (r + 2 ^ k) →
    isqrt n k r * isqrt n k r ≤ n ∧ n < (isqrt n k r + 1) * (isqrt n k r + 1)
  | 0, r, hlo, hhi => ⟨hlo, hhi⟩
  | k + 1, r, hlo, hhi => by
    unfold isqrt
    split
    case isTrue h => exact isqrt_spec n k _ h (by rwa [Nat.add_assoc, ← Nat.two_mul, ← Nat.pow_succ'])
    case isFalse h => exact isqrt_spec n k r hlo (Nat.lt_of_not_le h)

/-- A power of two that does not exceed a number is not above its binade. -/
theorem le_leadExp {n : Nat} (hn : n ≠ 0) {a : Nat} (h : 2 ^ a ≤ n) : (a : Int) ≤ leadExp n 1 := by
  have hhi := (leadExp_spec hn one_ne_zero).2
  rw [Nat.cast_one, div_one] at hhi
  have hlt : (2 : ℚ) ^ (a : Int) < 2 ^ (leadExp n 1 + 1) := lt_of_le_of_lt (by exact_mod_cast h) hhi
  rw [zpow_lt_zpow_iff_right₀ one_lt_two] at hlt
  omega

theorem leadExp_lt {n : Nat} (hn : n ≠ 0) {a : Nat} (h : n < 2 ^ a) : leadExp n 1 < a := by
  have hlo := (leadExp_spec hn one_ne_zero).1
  rw [Nat.cast_one, div_one] at hlo
  rw [← zpow_lt_zpow_iff_right₀ (one_lt_two (α := ℚ))]
  exact hlo.trans_lt (by exact_mod_cast h)

section Nearest
variable {y a v : ℚ} (h : |y - v| ≤ |a - v|)
include h

theorem le_of_nearest_of_lt (ha : a < y) : a ≤ v := by
  by_contra hlt
  rw [abs_of_pos (by linarith), abs_of_pos (by linarith)] at h
  linarith

theorem ge_of_nearest_of_gt (ha : y < a) : v ≤ a := by
  by_contra hlt
  rw [abs_of_neg (by linarith), abs_of_neg (by linarith)] at h
  linarith

theorem mid_le_of_nearest (ha : a ≤ v) : (y + a) / 2 ≤ v := by
  rw [abs_of_nonpos (sub_nonpos.mpr ha)] at h
  linarith [le_abs_self (y - v)]

theorem le_mid_of_nearest (ha : v ≤ a) : v ≤ (y + a) / 2 := by
  rw [abs_of_nonneg (sub_nonneg.mpr ha)] at h
  linarith [neg_le_abs (y - v)]

end Nearest

section Root
variable {n r : Nat} {k : Int} (hr : 2 ^ 32 ≤ r)

/-- The half above the integer root, which stands for the tail of an inexact root. -/
def rootTail (r : Nat) (k : Int) : ℚ := ((2 * r + 1 : Nat) : ℚ) / (1 : Nat) * 2 ^ (k - 1)

theorem rootTail_eq (r : Nat) (k : Int) : rootTail r k = (r + 1 / 2) * 2 ^ k := by
  rw [rootTail, zpow_sub_one₀ two_ne_zero]
  push_cast
  ring

theorem le_root_of_le {M : Nat} (h : (M : ℚ) * 2 ^ k ≤ rootTail r k) : M ≤ r := by
  rw [rootTail_eq, mul_le_mul_iff_left₀ (two_zpow_pos k)] at h
  exact Nat.lt_succ_iff.mp (by exact_mod_cast (by linarith : (M : ℚ) < r + 1))

theorem root_lt_of_le {M : Nat} (h : rootTail r k ≤ (M : ℚ) * 2 ^ k) : r < M := by
  rw [rootTail_eq, mul_le_mul_iff_left₀ (two_zpow_pos k)] at h
  exact_mod_cast (by linarith : (r : ℚ) < M)

theorem sq_units (M : Nat) (k : Int) : ((M : ℚ) * 2 ^ k) ^ 2 = (M * M : Nat) * 2 ^ (2 * k) := by
  rw [mul_pow, two_mul, two_zpow_add, pow_two, pow_two, Nat.cast_mul]

/-- What RNE makes of the tail. -/
def rootCode (r : Nat) (k : Int) : Nat := roundCode fp32 .rne 0 false (2 * r + 1) 1 (k - 1)

/-- The units in which the tail's rounding counts. -/
def rootQuantum (r : Nat) (k : Int) : Int := quantum fp32 (2 * r + 1) 1 (k - 1)

theorem rootCode_nearest (z : Nat) : |magVal fp32 (rootCode r k) - rootTail r k| ≤ |magVal fp32 z - rootTail r k| :=
  roundCode_rne_nearest fp32 0 false (k - 1) (Nat.succ_ne_zero _) one_ne_zero z

theorem rootCode_nearest_units (t : Nat) : |magVal fp32 (rootCode r k) - rootTail r k| ≤ |(t : ℚ) * 2 ^ rootQuantum r k - rootTail r k| :=
  roundCode_rne_nearest_units fp32 0 false (k - 1) (Nat.succ_ne_zero _) one_ne_zero t

/-- No whole number of the integer root's units squares to an operand whose root is no whole number of them. -/
theorem sq_units_ne (hlo : r * r < n) (hhi : n < (r + 1) * (r + 1)) (M : Nat) : ((M : ℚ) * 2 ^ k) ^ 2 ≠ n * 2 ^ (2 * k) := by
  rw [sq_units]
  intro h
  have hMn : M * M = n := by exact_mod_cast mul_right_cancel₀ (two_zpow_pos (2 * k)).ne' h
  have h1 := Nat.mul_self_lt_mul_self_iff.mp (hlo.trans_eq hMn.symm)
  have h2 := Nat.mul_self_lt_mul_self_iff.mp (hMn.trans_lt hhi)
  omega

include hr

/-- The tail's rounding counts in an even number of the units of the integer root. -/
theorem rootQuantum_units (t : Nat) : ∃ M : Nat, (t : ℚ) * 2 ^ rootQuantum r k = 2 * (M * 2 ^ k) := by
  have h := le_leadExp (n := 2 * r + 1) (a := 33) (by omega) (by omega)
  have hle : k + 1 ≤ rootQuantum r k := le_trans (show k + 1 ≤ leadExp (2 * r + 1) 1 + (k - 1) - (23 : Nat) by omega) (le_max_left ..)
  obtain ⟨j, hj⟩ : ∃ j : Nat, rootQuantum r k = k + 1 + j := ⟨(rootQuantum r k - (k + 1)).toNat, by omega⟩
  refine ⟨t * 2 ^ j, ?_⟩
  rw [hj, two_zpow_add, two_zpow_add, zpow_natCast]
  push_cast
  ring

theorem rootCode_units : ∃ M : Nat, magVal fp32 (rootCode r k) = 2 * (M * 2 ^ k) := by
  rw [rootCode, magVal_roundCode fp32 .rne 0 false _ (Nat.succ_ne_zero _) one_ne_zero]
  exact rootQuantum_units hr _

/-- Halfway from the rounded root to a whole number of its units is a whole number of the units of the integer root. -/
theorem mid_units (t : Nat) : ∃ M : Nat, (magVal fp32 (rootCode r k) + t * 2 ^ rootQuantum r k) / 2 = (M : ℚ) * 2 ^ k := by
  obtain ⟨M, hM⟩ := rootCode_units hr (k := k)
  obtain ⟨T, hT⟩ := rootQuantum_units hr (k := k) t
  refine ⟨M + T, ?_⟩
  rw [hM, hT]
  push_cast
  ring

/-- Halfway from the rounded root to a value below it lies below the root. -/
theorem mid_lt_root (hn : r * r < n) {z : Nat} (h : magVal fp32 z < magVal fp32 (rootCode r k)) :
    ((magVal fp32 (rootCode r k) + magVal fp32 z) / 2) ^ 2 < n * 2 ^ (2 * k) := by
  have hzv := le_of_nearest_of_lt (rootCode_nearest z) h
  obtain ⟨t, hzt, htv⟩ := exists_units_of_le fp32 (k - 1) (Nat.succ_ne_zero _) one_ne_zero hzv
  have hmid := mid_le_of_nearest (rootCode_nearest_units t) htv
  obtain ⟨M, hM⟩ := mid_units hr (k := k) t
  have hMr : M ≤ r := le_root_of_le (hM.symm.trans_le hmid)
  have h0 := magVal_nonneg fp32 z
  have h1 := magVal_nonneg fp32 (rootCode r k)
  calc ((magVal fp32 (rootCode r k) + magVal fp32 z) / 2) ^ 2 ≤ ((M : ℚ) * 2 ^ k) ^ 2 := by
        rw [← hM]
        gcongr
        exact hzt
    _ = ((M * M : Nat) : ℚ) * 2 ^ (2 * k) := sq_units ..
    _ < n * 2 ^ (2 * k) := by
        have := two_zpow_pos (2 * k)
        gcongr
        exact (Nat.mul_le_mul hMr hMr).trans_lt hn

/-- Halfway from the rounded root to a value above it lies above the root. -/
theorem root_lt_mid (hn : n < (r + 1) * (r + 1)) {z : Nat} (h : magVal fp32 (rootCode r k) < magVal fp32 z) :
    n * 2 ^ (2 * k) < ((magVal fp32 (rootCode r k) + magVal fp32 z) / 2) ^ 2 := by
  have hvz := ge_of_nearest_of_gt (rootCode_nearest z) h
  obtain ⟨t, ht⟩ : ∃ t : Nat, magVal fp32 z = t * 2 ^ rootQuantum r k := exists_units_of_ge fp32 (k - 1) (Nat.succ_ne_zero _) one_ne_zero hvz
  have hmid := le_mid_of_nearest (rootCode_nearest z) hvz
  obtain ⟨M, hM⟩ := mid_units hr (k := k) t
  rw [ht, hM] at hmid
  have hMr : r < M := root_lt_of_le hmid
  rw [ht, hM, sq_units]
  have := two_zpow_pos (2 * k)
  gcongr
  exact hn.trans_le (Nat.mul_le_mul hMr hMr)

theorem rootCode_sq_ne (hlo : r * r < n) (hhi : n < (r + 1) * (r + 1)) : magVal fp32 (rootCode r k) ^ 2 ≠ n * 2 ^ (2 * k) := by
  obtain ⟨M, hM⟩ := rootCode_units hr (k := k)
  have h := sq_units_ne (k := k) hlo hhi (2 * M)
  rwa [Nat.cast_mul, Nat.cast_ofNat, mul_assoc, ← hM] at h

/-- The rounding of the tail is inexact. -/
theorem rootTail_inexact : (roundAt .rne 0 false (2 * r + 1) 1 (k - 1) (rootQuantum r k)).2 = false := by
  by_contra h
  have hx : rootTail r k = _ :=
    (roundAt_quantum_exact_iff fp32 .rne 0 false (n := 2 * r + 1) (k - 1) one_ne_zero).mp (Prod.ext rfl (eq_true_of_ne_false h))
  obtain ⟨M, hM⟩ := rootQuantum_units hr (k := k) (roundAt .rne 0 false (2 * r + 1) 1 (k - 1) (rootQuantum r k)).1
  have hMv : rootTail r k = (2 * M : Nat) * 2 ^ k := by
    refine (hx.trans hM).trans ?_
    push_cast
    ring
  have h1 := le_root_of_le hMv.ge
  have h2 := root_lt_of_le hMv.le
  omega

end Root

/-- The rounding of what is not below the least subnormal is above 0. -/
theorem round32_pos {m : RMode} {u : Nat} {s : Bool} {n d : Nat} {e : Int} (hn : n ≠ 0) (hd : d ≠ 0)
    (h : 2 ^ (-149 : Int) ≤ (n : ℚ) / d * 2 ^ e) :
    0 < magVal fp32 (roundCode fp32 m u s n d e) := by
  have h1 := magVal_units fp32 (i := 0) (x := 1) (by decide) (Or.inl rfl)
  rw [leastExp_fp32] at h1
  norm_num at h1
  have hle := magVal_le_roundCode fp32 m u s e hn hd (k := 1) (by rw [h1]; norm_num at h ⊢; exact h)
  exact (h1 ▸ by positivity : 0 < magVal fp32 1).trans_le hle

/-- A root that is a whole number is delivered as it is. -/
theorem exactRoot_units {r : Nat} {k : Int} (hk : -107 ≤ k) (hr : r ≠ 0) (hlt : r < 2 ^ 46) (hd : 2 ^ 32 ∣ r) :
    ∃ x : Nat, (r : ℚ) / (1 : Nat) * 2 ^ k = x * 2 ^ quantum fp32 r 1 k := by
  obtain ⟨w, rfl⟩ := hd
  have hlead := leadExp_lt hr hlt
  have hq : quantum fp32 (2 ^ 32 * w) 1 k ≤ k + 32 :=
    max_le (show leadExp (2 ^ 32 * w) 1 + k - (23 : Nat) ≤ k + 32 by omega) (show leastExp fp32 ≤ k + 32 by rw [leastExp_fp32]; omega)
  generalize quantum fp32 (2 ^ 32 * w) 1 k = q at hq ⊢
  obtain ⟨j, hj⟩ : ∃ j : Nat, k + 32 = q + j := ⟨(k + 32 - q).toNat, by omega⟩
  refine ⟨w * 2 ^ j, ?_⟩
  have hpow : (2 : ℚ) ^ k * 2 ^ (32 : Int) = 2 ^ q * 2 ^ (j : Int) := by rw [← two_zpow_add, ← two_zpow_add, hj]
  rw [zpow_natCast, zpow_ofNat] at hpow
  push_cast
  linear_combination (w : ℚ) * hpow

/-- The roots of FP32 values lie in the range of the format. -/
theorem root_range {x : ℚ} {k : Int} (hk : -107 ≤ k ∧ k ≤ 20) (h1 : 1 ≤ x) (h2 : x ≤ 2 ^ 47) :
    2 ^ (-149 : Int) ≤ x * 2 ^ k ∧ x * 2 ^ k ≤ 2 ^ (127 : Int) := by
  have hlo : (2 : ℚ) ^ (-107 : Int) ≤ 2 ^ k := zpow_le_zpow_right₀ one_le_two hk.1
  have hhi : (2 : ℚ) ^ k ≤ 2 ^ (20 : Int) := zpow_le_zpow_right₀ one_le_two hk.2
  have hp := two_zpow_pos k
  constructor
  · calc (2 : ℚ) ^ (-149 : Int) ≤ 1 * 2 ^ (-107 : Int) := by norm_num
      _ ≤ x * 2 ^ k := by gcongr
  · calc x * 2 ^ k ≤ 2 ^ 47 * 2 ^ (20 : Int) := by gcongr
      _ ≤ 2 ^ (127 : Int) := by norm_num

/-- The root's operand as a whole number n of units 2^(2 k), of which FSQRT takes the integer root r. -/
theorem fsqrt32_parts {a m : Nat} {e : Int} (h : fp32.decode a = .fin false m e) (hm : m ≠ 0) :
    ∃ (w : Nat) (k : Int), (w = 64 ∨ w = 65) ∧ e - w = 2 * k ∧
    fsqrt32 a = if isqrt (m * 2 ^ w) 46 0 * isqrt (m * 2 ^ w) 46 0 = m * 2 ^ w then fp32.round .rne 0 false (isqrt (m * 2 ^ w) 46 0) 1 k
      else fp32.round .rne 0 false (2 * isqrt (m * 2 ^ w) 46 0 + 1) 1 (k - 1) := by
  unfold fsqrt32
  rw [h]
  by_cases ho : e % 2 = 1
  · refine ⟨65, (e - 65) / 2, Or.inr rfl, by omega, ?_⟩
    simp [hm, ho]
  · refine ⟨64, (e - 64) / 2, Or.inl rfl, by omega, ?_⟩
    simp [hm, ho]

/-- FSQRT of a positive value delivers the FP32 value that lies nearest to the root, with NX where it is not the root (R100, R160). -/
theorem fsqrt32_nearest {a m : Nat} {e : Int} (h : fp32.decode a = .fin false m e) (hm : m ≠ 0) : ∃ c ≤ fp32.maxCode,
    (fsqrt32 a).1 = fp32.signed false c ∧ 0 < magVal fp32 c ∧ (fsqrt32 a).2 = (if magVal fp32 c ^ 2 = m * 2 ^ e then 0 else flagNX) ∧
      ∀ z, (magVal fp32 c < magVal fp32 z → m * 2 ^ e < ((magVal fp32 c + magVal fp32 z) / 2) ^ 2) ∧
        (magVal fp32 z < magVal fp32 c → ((magVal fp32 c + magVal fp32 z) / 2) ^ 2 < m * 2 ^ e) := by
  obtain ⟨hm24, he0, he1, -⟩ := fin_bounds h
  obtain ⟨w, k, hw, hwk, hf⟩ := fsqrt32_parts h hm
  have hx : (m : ℚ) * 2 ^ e = (m * 2 ^ w : Nat) * 2 ^ (2 * k) := by
    rw [show e = w + 2 * k by omega, two_zpow_add, zpow_natCast]
    push_cast
    ring
  rw [hx, hf]
  have hnw : 2 ^ 64 ≤ m * 2 ^ w ∧ m * 2 ^ w < 2 ^ 92 ∧ 2 ^ 64 ∣ m * 2 ^ w := by
    refine ⟨?_, ?_, dvd_mul_of_dvd_right (pow_dvd_pow 2 (by omega)) m⟩ <;> rcases hw with rfl | rfl <;> omega
  generalize hn : m * 2 ^ w = n at hnw ⊢
  obtain ⟨hnlo, hnhi, hdvd⟩ := hnw
  obtain ⟨hlo, hhi⟩ := isqrt_spec n 46 0 (Nat.zero_le _) hnhi
  generalize isqrt n 46 0 = r at hlo hhi ⊢
  have hrlo : 2 ^ 32 ≤ r := by
    by_contra hlt
    have := Nat.mul_self_le_mul_self (show r + 1 ≤ 2 ^ 32 by omega)
    omega
  have hrhi : r < 2 ^ 46 := by
    by_contra hge
    have := Nat.mul_self_le_mul_self (Nat.le_of_not_lt hge)
    omega
  have hk : -107 ≤ k ∧ k ≤ 20 := by omega
  split
  case isTrue hsq =>
    have hr0 : r ≠ 0 := by omega
    have hd : 2 ^ 32 ∣ r := (Nat.pow_dvd_pow_iff two_ne_zero).mp (by rw [pow_two r, hsq, ← pow_mul]; exact hdvd)
    obtain ⟨x, hxu⟩ := exactRoot_units hk.1 hr0 hrhi hd
    obtain ⟨hexact, hval⟩ := round_units fp32 .rne 0 false k hr0 one_ne_zero hxu
    obtain ⟨hge, hle⟩ := root_range (x := (r : ℚ) / (1 : Nat)) hk (by rw [Nat.cast_one, div_one]; exact_mod_cast (by omega : 1 ≤ r))
      (by rw [Nat.cast_one, div_one]; exact_mod_cast (by omega : r ≤ 2 ^ 47))
    have hmax := round32_finite (m := .rne) (u := 0) (s := false) hr0 one_ne_zero hle
    have hpos := round32_pos (m := .rne) (u := 0) (s := false) hr0 one_ne_zero hge
    have hsqv : ((n : Nat) : ℚ) * 2 ^ (2 * k) = magVal fp32 (roundCode fp32 .rne 0 false r 1 k) ^ 2 := by
      rw [hval, Nat.cast_one, div_one, sq_units, hsq]
    refine ⟨_, hmax, round_fst fp32 .rne 0 false k hmax, hpos, ?flag, fun z => ?nearest⟩
    case flag =>
      obtain ⟨_, hfl, -⟩ := round_flags fp32 .rne 0 false k hmax
      rw [hfl, if_pos hexact, if_pos hsqv.symm]
    case nearest =>
      have hz := magVal_nonneg fp32 z
      rw [hsqv]
      exact ⟨fun h => pow_lt_pow_left₀ (by linarith) hpos.le two_ne_zero, fun h => pow_lt_pow_left₀ (by linarith) (by linarith) two_ne_zero⟩
  case isFalse hsq =>
    have hlt : r * r < n := lt_of_le_of_ne hlo hsq
    have hr1 : (1 : ℚ) ≤ r := by exact_mod_cast (by omega : 1 ≤ r)
    have hr47 : (r : ℚ) + 1 ≤ 2 ^ 47 := by exact_mod_cast (by omega : r + 1 ≤ 2 ^ 47)
    obtain ⟨hge, hle⟩ := root_range (x := (r : ℚ) + 1 / 2) hk (by linarith only [hr1]) (by linarith only [hr47])
    rw [← rootTail_eq] at hge hle
    have hmax : rootCode r k ≤ fp32.maxCode := round32_finite (Nat.succ_ne_zero _) one_ne_zero hle
    refine ⟨rootCode r k, hmax, round_fst fp32 .rne 0 false (k - 1) hmax, round32_pos (Nat.succ_ne_zero _) one_ne_zero hge, ?flag,
      fun z => ⟨root_lt_mid hrlo hhi, mid_lt_root hrlo hlt⟩⟩
    case flag =>
      obtain ⟨tiny, hfl, htiny⟩ := round_flags fp32 .rne 0 false (k - 1) hmax
      have hlead := le_leadExp (n := 2 * r + 1) (a := 33) (by omega) (by omega)
      have hinexact := rootTail_inexact hrlo (k := k)
      rw [rootQuantum] at hinexact
      rw [hfl, if_neg (rootCode_sq_ne hrlo hlt hhi), hinexact, htiny (show (-126 : Int) ≤ _ by omega)]
      rfl

end Sys2Proof
end

section
/-!
PROOFS. The free choice of a special function (R100): the values within a bound, and FRCP's and FRSQ's bounds.
-/
namespace Sys2Proof
open Machine

/-! ## The choice -/

/-- A number over 1 is that number, in the form in which a rounding names its value. -/
theorem natCast_div_one (n : Nat) : (n : ℚ) / (1 : Nat) = n := by rw [Nat.cast_one, div_one]

/-- The rounding of a positive fixed-point value that does not overflow. -/
theorem fxRound_eq {m : RMode} {x : Nat} {q : Int} (hx : x ≠ 0) (h : (x : ℚ) * 2 ^ q ≤ magVal fp32 fp32.maxCode) :
    fxRound m x q = roundCode fp32 m 0 false x 1 q := by
  have hc := roundCode_le_maxCode fp32 m 0 false q hx one_ne_zero ((natCast_div_one x).symm ▸ h)
  have hr := round_fst fp32 m 0 false q hc
  unfold fxRound
  rw [if_neg (by exact_mod_cast hx), decide_eq_false (by omega), Int.natAbs_natCast]
  dsimp only
  rw [hr]
  change roundCode fp32 m 0 false x 1 q ≤ 0x7F7FFFFF at hc
  change (if roundCode fp32 m 0 false x 1 q = _ then _ else if roundCode fp32 m 0 false x 1 q = _ then _ else roundCode fp32 m 0 false x 1 q) = _
  rw [if_neg (by omega), if_neg (by omega)]

theorem ordOf_finite {c : Nat} (h : c ≤ fp32.maxCode) : ordOf c = c := if_neg (by change c ≤ 0x7F7FFFFF at h; omega)

/-- The choice is a value between the bounds, where there is one (R100). -/
theorem sfuChoose_mem (op : Nat) (a : W32) {lo hi : Nat} {q : Int} (hlo : lo ≠ 0) (hhi : (hi : ℚ) * 2 ^ q ≤ magVal fp32 fp32.maxCode) {z : Nat}
    (hlz : (lo : ℚ) * 2 ^ q ≤ magVal fp32 z) (hzh : magVal fp32 z ≤ hi * 2 ^ q) :
    ∃ c ≤ fp32.maxCode, sfuChoose op a lo hi q = c ∧ (lo : ℚ) * 2 ^ q ≤ magVal fp32 c ∧ magVal fp32 c ≤ hi * 2 ^ q := by
  have hmono := magVal_strictMono fp32
  have hlh : lo ≤ hi := by
    have := (mul_le_mul_iff_left₀ (two_zpow_pos q)).mp (hlz.trans hzh)
    exact_mod_cast this
  have hhi0 : hi ≠ 0 := by omega
  have hlmax := (hlz.trans hzh).trans hhi
  have hi1 := roundCode_le_magVal fp32 .rup 0 false q hlo one_ne_zero ((natCast_div_one lo).symm ▸ hlz)
  have hi2 := le_roundCode_rup fp32 0 q hlo one_ne_zero
  have hj1 := magVal_le_roundCode fp32 .rdn 0 false q hhi0 one_ne_zero ((natCast_div_one hi).symm ▸ hzh)
  have hj2 := roundCode_rdn_le fp32 0 q hhi0 one_ne_zero
  have hjc := roundCode_le_maxCode fp32 .rdn 0 false q hhi0 one_ne_zero ((natCast_div_one hi).symm ▸ hhi)
  rw [natCast_div_one] at hi2 hj2
  have hij := hmono.le_iff_le.mp (hi1.trans hj1)
  unfold sfuChoose
  rw [fxRound_eq hlo hlmax, fxRound_eq hhi0 hhi]
  generalize roundCode fp32 .rup 0 false lo 1 q = i at *
  generalize roundCode fp32 .rdn 0 false hi 1 q = j at *
  have hpick : i + Config.sfuPick op a % (j - i + 1) ≤ j := by
    have : Config.sfuPick op a % (j - i + 1) < j - i + 1 := Nat.mod_lt _ (Nat.succ_pos _)
    omega
  refine ⟨i + Config.sfuPick op a % (j - i + 1), hpick.trans hjc, ?_, hi2.trans (hmono.monotone (Nat.le_add_right ..)),
    (hmono.monotone hpick).trans hj2⟩
  dsimp only
  rw [ordOf_finite (hij.trans hjc), ordOf_finite hjc, if_neg (by omega), show ((j : Int) - i).toNat = j - i by omega, ofOrd, if_neg (by omega)]
  omega

theorem ulpExp_eq (x : Nat) (q : Int) : ulpExp x q = max ((x.log2 : Int) + q - 23) (-149) := rfl

/-- A result within `k` ulp: a value between the bounds, each moved by `u` (R100). -/
theorem sfuUlps_mem (op : Nat) (a : W32) {k lo hi u : Nat} {q : Int} (hk : 0 < k) (hlh : lo ≤ hi) (hq : q ≤ ulpExp hi q)
    (hu : u = k * 2 ^ (ulpExp hi q - q).toNat) (hlo : u < lo) (hmax : ((hi + u : Nat) : ℚ) * 2 ^ q ≤ 2 ^ (127 : Int)) :
    ∃ c ≤ fp32.maxCode, sfuUlps op a k false lo hi q = c ∧ ((lo - u : Nat) : ℚ) * 2 ^ q ≤ magVal fp32 c ∧
      magVal fp32 c ≤ (hi + u : Nat) * 2 ^ q := by
  have hlo0 : lo ≠ 0 := by omega
  have hs : sfuUlps op a k false lo hi q = sfuChoose op a (lo - u : Nat) (hi + u : Nat) q := by
    unfold sfuUlps
    dsimp only
    rw [if_neg Bool.false_ne_true, Int.natAbs_natCast, Nat.cast_sub hlo.le, hu]
    push_cast
    rfl
  have hquant : (2 : ℚ) ^ quantum fp32 lo 1 q ≤ u * 2 ^ q := by
    have hlead := leadExp_lt hlo0 (hlh.trans_lt Nat.lt_log2_self)
    have hle : quantum fp32 lo 1 q ≤ ulpExp hi q :=
      max_le_max (show leadExp lo 1 + q - (23 : Nat) ≤ hi.log2 + q - 23 by push_cast at hlead; omega) leastExp_fp32.le
    calc (2 : ℚ) ^ quantum fp32 lo 1 q ≤ 2 ^ (q + (ulpExp hi q - q).toNat) := zpow_le_zpow_right₀ one_le_two (by omega)
      _ = (2 ^ (ulpExp hi q - q).toNat : Nat) * 2 ^ q := binade_units ..
      _ ≤ u * 2 ^ q := by
        rw [hu]
        gcongr
        exact Nat.le_mul_of_pos_left _ hk
  have hup := le_roundCode_rup fp32 0 q hlo0 one_ne_zero
  have hlt := magVal_roundCode_lt fp32 .rup 0 false q hlo0 one_ne_zero
  rw [natCast_div_one] at hup hlt
  rw [hs]
  have hpos := two_zpow_pos q
  refine sfuChoose_mem op a (by omega) (hmax.trans two_zpow_127_le) (z := roundCode fp32 .rup 0 false lo 1 q) (le_trans ?_ hup) ?_
  · gcongr
    exact Nat.sub_le ..
  · refine hlt.le.trans ((add_le_add_right hquant _).trans ?_)
    rw [← add_mul, ← Nat.cast_add]
    gcongr

/-- A magnitude of a binade's value or more is a whole number of that binade's units. -/
theorem magVal_units_of_ge {f : Fmt} {k : Nat} {q : Int} (h : 2 ^ (q + f.mb) ≤ magVal f k) : ∃ t : Nat, magVal f k = t * 2 ^ q :=
  (magVal_grid f k q).resolve_right fun ⟨_, hlt⟩ => absurd h (not_le.mpr hlt)

/-- The values within `k` ulp, counted in units finer than their own by less than a significand's width. -/
theorem sfuUlps_units (op : Nat) (a : W32) {k lo hi u g : Nat} {q : Int} (hk : 0 < k) (hlh : lo ≤ hi) (hq : q ≤ ulpExp hi q)
    (hu : u = k * 2 ^ (ulpExp hi q - q).toNat) (hg : 2 ^ (g + 23) + u ≤ lo) (hmax : ((hi + u : Nat) : ℚ) * 2 ^ q ≤ 2 ^ (127 : Int)) :
    ∃ c ≤ fp32.maxCode, ∃ t : Nat, sfuUlps op a k false lo hi q = c ∧ magVal fp32 c = (2 ^ g * t : Nat) * 2 ^ q ∧
      lo ≤ 2 ^ g * t + u ∧ 2 ^ g * t ≤ hi + u := by
  have hg0 := Nat.two_pow_pos (g + 23)
  obtain ⟨c, hc, hcs, hclo, hchi⟩ := sfuUlps_mem op a hk hlh hq hu (by omega) hmax
  obtain ⟨t, ht⟩ := magVal_units_of_ge (f := fp32) (k := c) (q := q + g) (by
    refine le_trans ?_ hclo
    rw [show q + g + (fp32.mb : Int) = q + (g + 23 : Nat) from add_assoc .., binade_units]
    gcongr
    omega)
  have hty : magVal fp32 c = (2 ^ g * t : Nat) * 2 ^ q := by
    rw [ht, two_zpow_add, zpow_natCast]
    push_cast
    ring
  rw [hty, mul_le_mul_iff_left₀ (two_zpow_pos q)] at hclo hchi
  exact ⟨c, hc, t, hcs, hty, Nat.sub_le_iff_le_add.mp (by exact_mod_cast hclo), by exact_mod_cast hchi⟩

theorem binade_unique {v : ℚ} {a b : Int} (ha : 2 ^ a ≤ v) (ha' : v < 2 ^ (a + 1)) (hb : 2 ^ b ≤ v) (hb' : v < 2 ^ (b + 1)) : a = b := by
  have h1 := (zpow_lt_zpow_iff_right₀ (one_lt_two (α := ℚ))).mp (ha.trans_lt hb')
  have h2 := (zpow_lt_zpow_iff_right₀ (one_lt_two (α := ℚ))).mp (hb.trans_lt ha')
  omega

theorem binade_shift {x : ℚ} {a : Int} (h : 2 ^ a ≤ x ∧ x < 2 ^ (a + 1)) (q : Int) :
    2 ^ (a + q) ≤ x * 2 ^ q ∧ x * 2 ^ q < 2 ^ (a + q + 1) := by
  have hp := two_zpow_pos q
  rw [add_right_comm, two_zpow_add, two_zpow_add]
  exact ⟨mul_le_mul_of_nonneg_right h.1 hp.le, mul_lt_mul_of_pos_right h.2 hp⟩

/-! ## FRCP -/

/-- A value in coarse units within `u` of the integer part of a quotient that is no such unit is within `u` of the quotient. -/
theorem within_of_reciprocal {m X y u : Nat} (hm : m < 2 ^ 24) (hlo : m * X < 2 ^ 100) (hhi : 2 ^ 100 < m * (X + 1)) (hy : 2 ^ 52 ∣ y)
    (hu : 2 ^ 52 ∣ u) (h1 : X ≤ y + u) (h2 : y ≤ X + 1 + u) : 2 ^ 100 ≤ m * (y + u) ∧ m * y ≤ 2 ^ 100 + m * u := by
  obtain ⟨t, rfl⟩ := hy
  obtain ⟨w, rfl⟩ := hu
  rw [Nat.mul_succ] at hhi
  constructor
  · by_contra hlt
    have := Nat.mul_le_mul_left m h1
    have hP : m * (2 ^ 52 * t + 2 ^ 52 * w) = 2 ^ 52 * (m * (t + w)) := by ring
    omega
  · by_contra hlt
    have hwt : w ≤ t := by
      by_contra hgt
      have := Nat.mul_le_mul_left m (Nat.mul_le_mul_left (2 ^ 52) (Nat.le_of_not_le hgt))
      omega
    obtain ⟨v, rfl⟩ := Nat.exists_eq_add_of_le hwt
    have := Nat.mul_le_mul_left m (show 2 ^ 52 * v ≤ X + 1 by omega)
    rw [Nat.mul_left_comm] at this
    have hP : m * (2 ^ 52 * (w + v)) = m * (2 ^ 52 * w) + 2 ^ 52 * (m * v) := by ring
    have hX : m * (X + 1) = m * X + m := Nat.mul_succ ..
    omega

theorem abs_sub_quotient_le {N m y u : Nat} (hm : (0 : ℚ) < m) (h1 : 2 ^ N ≤ m * (y + u)) (h2 : m * y ≤ 2 ^ N + m * u) :
    |(y : ℚ) - 2 ^ N / m| ≤ u := by
  have h1' : (2 : ℚ) ^ N ≤ (u + y) * m := by exact_mod_cast h1.trans_eq (by ring)
  have h2' : (y : ℚ) * m ≤ 2 ^ N + u * m := by exact_mod_cast (Nat.mul_comm m y ▸ Nat.mul_comm m u ▸ h2)
  rw [abs_sub_le_iff, sub_le_iff_le_add, sub_le_iff_le_add, div_le_iff₀ hm, ← sub_le_iff_le_add', le_div_iff₀ hm, sub_mul, sub_le_iff_le_add]
  exact ⟨h2', h1'⟩

/-- The integer part of 2^100 over a significand that is no power of two. -/
theorem reciprocal_bounds {m : Nat} (hm : 2 ^ 23 ≤ m ∧ m < 2 ^ 24) (hp : m ≠ 2 ^ m.log2) :
    m * (2 ^ 100 / m) < 2 ^ 100 ∧ 2 ^ 100 < m * (2 ^ 100 / m + 1) ∧ 2 ^ 76 ≤ 2 ^ 100 / m ∧ 2 ^ 100 / m + 1 < 2 ^ 77 := by
  have hne : m * (2 ^ 100 / m) ≠ 2 ^ 100 := by
    intro h
    obtain ⟨j, -, hj⟩ := (Nat.dvd_prime_pow Nat.prime_two).mp ⟨_, h.symm⟩
    rw [hj, Nat.log2_two_pow] at hp
    exact hp rfl
  have hlt := Nat.lt_mul_div_succ (2 ^ 100) (show 0 < m by omega)
  have hle := Nat.mul_div_le (2 ^ 100) m
  have hm23 : m ≠ 2 ^ 23 := by
    rintro rfl
    exact hp (by rw [Nat.log2_two_pow])
  refine ⟨lt_of_le_of_ne hle hne, hlt, (Nat.le_div_iff_mul_le (by omega)).mpr (by omega), ?_⟩
  have : 2 ^ 100 / m ≤ 2 ^ 100 / (2 ^ 23 + 1) := Nat.div_le_div_left (by omega) (by norm_num)
  omega

/-- The exact reciprocal of m 2^e, in units of 2^q. -/
theorem reciprocal_units {m : Nat} {e : Int} : (2 ^ 100 : ℚ) / m * 2 ^ (-e - 100) = (m * 2 ^ e : ℚ)⁻¹ := by
  rw [sub_eq_add_neg, two_zpow_add, zpow_neg, zpow_neg, mul_inv, zpow_ofNat]
  field_simp

/-- A pattern within 1 ulp of an exact magnitude, under a sign (R100). -/
def WithinUlp (r : Nat) (s : Bool) (v : ℚ) : Prop :=
  ∃ c ≤ fp32.maxCode, r = fp32.signed s c ∧
    ∀ k : Int, (2 : ℚ) ^ k ≤ v → v < 2 ^ (k + 1) → |magVal fp32 c - v| ≤ 2 ^ max (k - 23) (-149)

section Reciprocal
variable {a : W32} {s : Bool} {m : Nat} {e : Int} (h : fp32.decode a.toNat = .fin s m e) (hm : 2 ^ 23 ≤ m)
include h hm

/-- FRCP of a power of two is a rounding of the exact value. -/
theorem frcp32_power (hp : m = 2 ^ m.log2) : WithinUlp (frcp32 a).1 s (m * 2 ^ e : ℚ)⁻¹ := by
  obtain ⟨-, he0, -, -⟩ := fin_bounds h
  have hm0 : m ≠ 0 := by omega
  have hv : ((1 : Nat) : ℚ) / m * 2 ^ (-e) = (m * 2 ^ e : ℚ)⁻¹ := by rw [Nat.cast_one, one_div, zpow_neg, mul_inv]
  have hle : (m * 2 ^ e : ℚ)⁻¹ ≤ 2 ^ (127 : Int) := by
    refine inv_le_of_inv_le₀ (by positivity) ?_
    calc ((2 : ℚ) ^ (127 : Int))⁻¹ ≤ (2 ^ 23 : Nat) * 2 ^ (-149 : Int) := by norm_num
      _ ≤ m * 2 ^ e := by
        gcongr
        exact one_le_two
  have hmax := round32_finite (m := .rne) (u := 0) (s := s) one_ne_zero hm0 (hv.trans_le hle)
  refine ⟨_, hmax, ?_, fun k hk1 hk2 => ?_⟩
  · rw [← round_fst fp32 .rne 0 s (-e) hmax, frcp32, h]
    dsimp only
    rw [if_neg hm0, if_pos hp]
  · obtain ⟨hlo, hhi⟩ := binade_shift (leadExp_spec one_ne_zero hm0) (-e)
    rw [hv] at hlo hhi
    have hk := binade_unique hk1 hk2 hlo hhi
    have hnear := abs_roundCode_rne_le fp32 0 s (-e) one_ne_zero hm0
    rw [hv, quantum, ← hk, leastExp_fp32] at hnear
    exact hnear

/-- FRCP of another normal value is a choice within 1 ulp of the exact value. -/
theorem frcp32_choice (hp : m ≠ 2 ^ m.log2) : WithinUlp (frcp32 a).1 s (m * 2 ^ e : ℚ)⁻¹ := by
  obtain ⟨hm24, he0, he1, -⟩ := fin_bounds h
  obtain ⟨hXlo, hXhi, hX76, hX77⟩ := reciprocal_bounds ⟨hm, hm24⟩ hp
  generalize hX : 2 ^ 100 / m = X at *
  have hlog : (X + 1).log2 = 76 := (Nat.log2_eq_iff (by omega)).mpr ⟨by omega, hX77⟩
  generalize hq : -e - 100 = q
  have hulp : ulpExp (X + 1 : Nat) q = max (53 + q) (-149) := by rw [ulpExp_eq, hlog]; omega
  generalize hD : (ulpExp (X + 1 : Nat) q - q).toNat = D
  have hD53 : 53 ≤ D ∧ D ≤ 55 := by omega
  have hu55 : 2 ^ D ≤ 2 ^ 55 := Nat.pow_le_pow_right two_pos hD53.2
  have hpos := two_zpow_pos q
  have hsmall : ∀ x ≤ 2 ^ 78, ((x : Nat) : ℚ) * 2 ^ q ≤ 2 ^ (127 : Int) := by
    intro x hx
    have hq49 : (2 : ℚ) ^ q ≤ 2 ^ (49 : Int) := zpow_le_zpow_right₀ one_le_two (by omega)
    calc (x : ℚ) * 2 ^ q ≤ (2 ^ 78 : Nat) * 2 ^ (49 : Int) := by gcongr
      _ ≤ 2 ^ (127 : Int) := by norm_num
  obtain ⟨c, hc, t, hcs, hty, hclo, hchi⟩ := sfuUlps_units 0 a (k := 1) (lo := X) (hi := X + 1) (u := 2 ^ D) (g := 52) (q := q) one_pos
    (Nat.le_succ _) (by omega) (by rw [hD, Nat.one_mul]) (by omega) (hsmall _ (by omega))
  refine ⟨c, hc, ?_, fun k hk1 hk2 => ?_⟩
  · have hXi : (2 ^ 100 : Int) / m = X := by exact_mod_cast congrArg Nat.cast hX
    have hpast := round_no_overflow fp32 .rtz 0 false q (round32_finite (by omega) one_ne_zero ((natCast_div_one X).symm ▸ hsmall X (by omega)))
    have hmod : c % 2 ^ 31 = c := Nat.mod_eq_of_lt (hc.trans_lt (by decide))
    unfold frcp32
    rw [h]
    dsimp only
    rw [if_neg (by omega), if_neg hp, hXi, hq, Int.toNat_natCast, hpast, if_neg (by decide), ← Nat.cast_succ, hcs, hmod]
    rfl
  · have hm0 : (0 : ℚ) < m := by exact_mod_cast (by omega : 0 < m)
    have hv : (m * 2 ^ e : ℚ)⁻¹ = 2 ^ 100 / m * 2 ^ q := by rw [← hq, reciprocal_units]
    have hXv : (2 : ℚ) ^ (76 : Int) ≤ 2 ^ 100 / m ∧ (2 : ℚ) ^ 100 / m < 2 ^ (76 + 1 : Int) := by
      have h77 := hXhi.trans_le (Nat.mul_le_mul_left m hX77.le)
      rw [le_div_iff₀ hm0, div_lt_iff₀ hm0]
      exact ⟨by exact_mod_cast (by omega : 2 ^ 76 * m ≤ 2 ^ 100), by exact_mod_cast (Nat.mul_comm m _ ▸ h77 : 2 ^ 100 < 2 ^ 77 * m)⟩
    obtain ⟨hlo, hhi⟩ := binade_shift hXv q
    rw [← hv] at hlo hhi
    have hk := binade_unique hk1 hk2 hlo hhi
    have hue : (2 : ℚ) ^ max (k - 23) (-149) = (2 ^ D : Nat) * 2 ^ q := by
      rw [← binade_units]
      congr 1
      omega
    obtain ⟨hlow, hhigh⟩ := within_of_reciprocal hm24 hXlo hXhi ⟨t, rfl⟩ (pow_dvd_pow 2 (by omega)) hclo hchi
    rw [hv, hty, hue, ← sub_mul, abs_mul, abs_of_pos hpos]
    gcongr
    exact abs_sub_quotient_le hm0 hlow hhigh

/-- FRCP of a normal value lies within 1 ulp of the exact value (R100, R160). -/
theorem frcp32_ulp : WithinUlp (frcp32 a).1 s (m * 2 ^ e : ℚ)⁻¹ := by
  by_cases hp : m = 2 ^ m.log2
  · exact frcp32_power h hm hp
  · exact frcp32_choice h hm hp

end Reciprocal

/-! ## FRSQ -/

section InverseRoot
variable {N m X : Nat} (hN : N = 200 ∨ N = 201) (hm0 : m ≠ 0) (hm : m < 2 ^ 24) (hlo : X * X * m ≤ 2 ^ N) (hhi : 2 ^ N < (X + 1) * (X + 1) * m)

include hN hm0 hm hlo hhi in
/-- The integer part of an inverse root has at least 88 and at most 101 bits. -/
theorem inverseRoot_range : 2 ^ 88 ≤ X ∧ X < 2 ^ 101 := by
  constructor
  · by_contra hlt
    have h1 := Nat.mul_le_mul_right m (Nat.mul_self_le_mul_self (show X + 1 ≤ 2 ^ 88 by omega))
    rcases hN with rfl | rfl <;> omega
  · by_contra hge
    have h1 := Nat.mul_le_mul_right m (Nat.mul_self_le_mul_self (Nat.le_of_not_lt hge))
    have h2 := Nat.pos_of_ne_zero hm0
    rcases hN with rfl | rfl <;> omega

include hN hm hlo in
/-- A whole number of coarse units just above the integer part of an inverse root does not exceed the root. -/
theorem coarse_sq_le (hX : X < 2 ^ 101) {w : Nat} (hw : 2 ^ 64 ∣ w) (h : w ≤ X + 2) : w * w * m ≤ 2 ^ N := by
  obtain ⟨t, rfl⟩ := hw
  have h1 := Nat.mul_le_mul_right m (Nat.mul_self_le_mul_self h)
  have h2 : (X + 2) * (X + 2) * m = X * X * m + (4 * X + 4) * m := by ring
  have h3 : (4 * X + 4) * m ≤ 2 ^ 103 * 2 ^ 24 := Nat.mul_le_mul (by omega) hm.le
  have h4 : 2 ^ 64 * t * (2 ^ 64 * t) * m = 2 ^ 128 * (t * t * m) := by ring
  rcases hN with rfl | rfl <;> omega

include hN hm hhi in
/-- A whole number of coarse units not below the integer part of an inverse root is not below the root. -/
theorem le_coarse_sq (hX : X < 2 ^ 101) {w : Nat} (hw : 2 ^ 64 ∣ w) (h : X ≤ w) : 2 ^ N ≤ w * w * m := by
  obtain ⟨t, rfl⟩ := hw
  have h1 := Nat.mul_le_mul_right m (Nat.mul_self_le_mul_self h)
  have h2 : (X + 1) * (X + 1) * m = X * X * m + (2 * X + 1) * m := by ring
  have h3 : (2 * X + 1) * m ≤ 2 ^ 102 * 2 ^ 24 := Nat.mul_le_mul (by omega) hm.le
  have h4 : 2 ^ 64 * t * (2 ^ 64 * t) * m = 2 ^ 128 * (t * t * m) := by ring
  rcases hN with rfl | rfl <;> omega

include hN hm0 hm hlo hhi in
/-- The integer part of an inverse root stands well within its binade. -/
theorem inverseRoot_binade : ∃ i, 64 ≤ i ∧ i ≤ 76 ∧ 2 ^ 24 * 2 ^ i ≤ X ∧ X + 2 < 2 ^ 25 * 2 ^ i := by
  obtain ⟨hX88, hX101⟩ := inverseRoot_range hN hm0 hm hlo hhi
  have hge := Nat.log2_self_le (show X ≠ 0 by omega)
  have hlt := Nat.lt_log2_self (n := X)
  have h88 : 87 < X.log2 := Nat.succ_lt_succ_iff.mp ((Nat.pow_lt_pow_iff_right one_lt_two).mp (hX88.trans_lt hlt))
  have h101 : X.log2 < 101 := (Nat.pow_lt_pow_iff_right one_lt_two).mp (hge.trans_lt hX101)
  obtain ⟨i, hi⟩ := Nat.exists_eq_add_of_le (show 24 ≤ X.log2 by omega)
  rw [hi, Nat.pow_add] at hge
  rw [hi, show 24 + i + 1 = 25 + i by omega, Nat.pow_add] at hlt
  refine ⟨i, by omega, by omega, hge, ?_⟩
  by_contra hbig
  have hle := coarse_sq_le hN hm hlo hX101 (Dvd.dvd.mul_left (pow_dvd_pow 2 (show 64 ≤ i by omega)) _) (Nat.le_of_not_lt hbig)
  have := Nat.mul_le_mul_right m (Nat.mul_self_le_mul_self (Nat.succ_le_of_lt hlt))
  exact absurd (hhi.trans_le this) (not_lt.mpr hle)

end InverseRoot

/-- FRSQ's integer root X of the operand's inverse, in units of 2^q. -/
theorem frsq32_parts {a : W32} {m : Nat} {e : Int} (h : fp32.decode a.toNat = .fin false m e) (hm : m ≠ 0) : ∃ (N : Nat) (q : Int) (X : Nat),
    (N = 200 ∨ N = 201) ∧ -e - N = 2 * q ∧ X * X * m ≤ 2 ^ N ∧ 2 ^ N < (X + 1) * (X + 1) * m ∧
      (frsq32 a).1 = sfuUlps 1 a 2 false X (X + 2 : Nat) q := by
  have hfst : ∀ r : Nat, (match fp32.decode r with
      | .fin _ y j => let t := scaled (y * y * m) 1 (2 * j + e); if t.1 = t.2 then (r, 0) else delivered r
      | _ => delivered r).1 = r := by
    intro r
    split
    · dsimp only
      split <;> rfl
    · rfl
  have hroot : ∀ N, N = 200 ∨ N = 201 → isqrt (2 ^ N / m) 102 0 * isqrt (2 ^ N / m) 102 0 * m ≤ 2 ^ N ∧
      2 ^ N < (isqrt (2 ^ N / m) 102 0 + 1) * (isqrt (2 ^ N / m) 102 0 + 1) * m := by
    intro N hN
    have hn : 2 ^ N / m < (0 + 2 ^ 102) * (0 + 2 ^ 102) := by
      refine (Nat.div_le_self ..).trans_lt ?_
      rcases hN with rfl | rfl <;> norm_num
    obtain ⟨hlo, hhi⟩ := isqrt_spec (2 ^ N / m) 102 0 (Nat.zero_le _) hn
    exact ⟨(Nat.mul_le_mul_right m hlo).trans (Nat.div_mul_le_self ..), (Nat.div_lt_iff_lt_mul (Nat.pos_of_ne_zero hm)).mp hhi⟩
  unfold frsq32
  rw [h]
  by_cases ho : e % 2 = 0
  · obtain ⟨hlo, hhi⟩ := hroot 200 (Or.inl rfl)
    refine ⟨200, (-e - 200) / 2, _, Or.inl rfl, by omega, hlo, hhi, ?_⟩
    simp only [hm, ho, if_false, Bool.false_eq_true, bne_self_eq_false]
    exact hfst _
  · obtain ⟨hlo, hhi⟩ := hroot 201 (Or.inr rfl)
    refine ⟨201, (-e - 201) / 2, _, Or.inr rfl, by omega, hlo, hhi, ?_⟩
    have ho' : (e % 2 != 0) = true := by simpa using ho
    simp only [hm, ho', if_false, if_true, Bool.false_eq_true]
    exact hfst _

section InverseRootUnits
variable {N m X i : Nat} {e q : Int} (hq : -e - N = 2 * q)
include hq

/-- The square of a number of units times the operand. -/
theorem sq_mul_operand (w : Nat) : ((w : ℚ) * 2 ^ q) ^ 2 * (m * 2 ^ e) = (w * w * m : Nat) / 2 ^ N := by
  have hexp : (2 : ℚ) ^ (2 * q) * 2 ^ e = (2 ^ N)⁻¹ := by rw [← two_zpow_add, show 2 * q + e = -(N : Int) by omega, zpow_neg, zpow_natCast]
  rw [sq_units, div_eq_mul_inv, ← hexp]
  push_cast
  ring

/-- The binade of the inverse root is that of its integer part. -/
theorem inverseRoot_exponent (hm0 : m ≠ 0) (hlo : X * X * m ≤ 2 ^ N) (hhi : 2 ^ N < (X + 1) * (X + 1) * m) (hXB : 2 ^ 24 * 2 ^ i ≤ X)
    (hXB' : X + 2 < 2 ^ 25 * 2 ^ i) {k : Int} (hk1 : (2 : ℚ) ^ (2 * k) ≤ (m * 2 ^ e : ℚ)⁻¹)
    (hk2 : (m * 2 ^ e : ℚ)⁻¹ < 2 ^ (2 * k + 2)) :
    k = q + i + 24 := by
  have hx0 : (0 : ℚ) < m * 2 ^ e := mul_pos (by exact_mod_cast Nat.pos_of_ne_zero hm0) (two_zpow_pos e)
  have hbinade : ∀ j : Nat, ((2 ^ j * 2 ^ i : Nat) * 2 ^ q : ℚ) ^ 2 = 2 ^ (2 * (q + i + j)) := by
    intro j
    rw [← Nat.pow_add, ← binade_units, pow_two, ← two_zpow_add]
    congr 1
    push_cast
    ring
  have h1 : (2 : ℚ) ^ (2 * (q + i + (24 : Nat))) ≤ (m * 2 ^ e : ℚ)⁻¹ := by
    rw [← hbinade, ← one_div, le_div_iff₀ hx0, sq_mul_operand hq, div_le_one (by positivity)]
    exact_mod_cast (Nat.mul_le_mul_right m (Nat.mul_self_le_mul_self hXB)).trans hlo
  have h2 : (m * 2 ^ e : ℚ)⁻¹ < 2 ^ (2 * (q + i + (25 : Nat))) := by
    rw [← hbinade, ← one_div, div_lt_iff₀ hx0, sq_mul_operand hq, one_lt_div (by positivity)]
    exact_mod_cast hhi.trans_le (Nat.mul_le_mul_right m (Nat.mul_self_le_mul_self (by omega)))
  have h3 := (zpow_lt_zpow_iff_right₀ (one_lt_two (α := ℚ))).mp (h1.trans_lt hk2)
  have h4 := (zpow_lt_zpow_iff_right₀ (one_lt_two (α := ℚ))).mp (hk1.trans_lt h2)
  push_cast at h3 h4
  omega

end InverseRootUnits

/-- FRSQ of a positive value lies within 2 ulp of the exact value (R100, R160). -/
theorem frsq32_ulps {a : W32} {m : Nat} {e : Int} (h : fp32.decode a.toNat = .fin false m e) (hm0 : m ≠ 0) :
    ∃ c ≤ fp32.maxCode, (frsq32 a).1 = fp32.signed false c ∧ ∀ k : Int, (2 : ℚ) ^ (2 * k) ≤ (m * 2 ^ e : ℚ)⁻¹ →
      (m * 2 ^ e : ℚ)⁻¹ < 2 ^ (2 * k + 2) → 2 ^ (k - 22) < magVal fp32 c ∧ (magVal fp32 c - 2 ^ (k - 22)) ^ 2 * (m * 2 ^ e) ≤ 1 ∧
        1 ≤ (magVal fp32 c + 2 ^ (k - 22)) ^ 2 * (m * 2 ^ e) := by
  obtain ⟨hm, he0, he1, -⟩ := fin_bounds h
  obtain ⟨N, q, X, hN, hq, hlo, hhi, hf⟩ := frsq32_parts h hm0
  obtain ⟨i, hi64, hi76, hXB, hXB'⟩ := inverseRoot_binade hN hm0 hm hlo hhi
  have hX101 := (inverseRoot_range hN hm0 hm hlo hhi).2
  have hlog : (X + 2).log2 = i + 24 := (Nat.log2_eq_iff (by omega)).mpr ⟨by rw [Nat.pow_add]; omega, by
    rw [show i + 24 + 1 = i + 25 by omega, Nat.pow_add]; omega⟩
  have hulp : ulpExp (X + 2 : Nat) q = i + 1 + q := by rw [ulpExp_eq, hlog]; omega
  have hB := Nat.two_pow_pos i
  obtain ⟨c, hc, t, hcs, hty, hclo, hchi⟩ := sfuUlps_units 1 a (k := 2) (lo := X) (hi := X + 2) (u := 4 * 2 ^ i) (g := i) (q := q) two_pos
    (by omega) (by omega) (by rw [hulp, show (i + 1 + q - q : Int).toNat = i + 1 by omega, Nat.pow_succ]; omega)
    (by rw [Nat.pow_add]; omega) (by
      have hq26 : (2 : ℚ) ^ q ≤ 2 ^ (-26 : Int) := zpow_le_zpow_right₀ one_le_two (by omega)
      calc ((X + 2 + 4 * 2 ^ i : Nat) : ℚ) * 2 ^ q ≤ (2 ^ 102 : Nat) * 2 ^ (-26 : Int) := by
            gcongr
            omega
        _ ≤ 2 ^ (127 : Int) := by norm_num)
  refine ⟨c, hc, hf.trans hcs, fun k hk1 hk2 => ?_⟩
  have hdvd : 2 ^ 64 ∣ 2 ^ i := pow_dvd_pow 2 hi64
  have hut : 4 * 2 ^ i < 2 ^ i * t := by omega
  have hbelow := coarse_sq_le hN hm hlo hX101 (w := 2 ^ i * t - 4 * 2 ^ i) (Nat.dvd_sub (hdvd.mul_right _) (hdvd.mul_left _)) (by omega)
  have habove := le_coarse_sq hN hm hhi hX101 (w := 2 ^ i * t + 4 * 2 ^ i) (Nat.dvd_add (hdvd.mul_right _) (hdvd.mul_left _)) hclo
  have hu : (2 : ℚ) ^ (k - 22) = (4 * 2 ^ i : Nat) * 2 ^ q := by
    rw [inverseRoot_exponent hq hm0 hlo hhi hXB hXB' hk1 hk2, show q + i + 24 - 22 = q + (2 + i : Nat) by push_cast; ring, binade_units, Nat.pow_add]
  have hpos := two_zpow_pos q
  rw [hty, hu]
  refine ⟨?_, ?_, ?_⟩
  · gcongr
  · rw [← sub_mul, ← Nat.cast_sub hut.le, sq_mul_operand hq, div_le_one (by positivity)]
    exact_mod_cast hbelow
  · rw [← add_mul, ← Nat.cast_add, sq_mul_operand hq, one_le_div (by positivity)]
    exact_mod_cast habove

end Sys2Proof
end

section
/-!
PROOFS. The special functions (O11; R100, R101, R160, R161): their operands without a finite result, their exact cases, and the bounds.
-/
namespace Sys2Proof
open Machine

/-! ## NaN operands -/

section Nan
variable {x : W32} {sig : Bool} (h : fp32.decode x.toNat = .nan sig)
include h

theorem fsqrt32_nan : fsqrt32 x.toNat = (0x7FC00000, if sig then flagNV else 0) := by
  unfold fsqrt32
  rw [h]
  rfl

theorem frcp32_nan : frcp32 x = (0x7FC00000, if sig then flagNV else 0) := by
  unfold frcp32
  rw [h]
  rfl

theorem frsq32_nan : frsq32 x = (0x7FC00000, if sig then flagNV else 0) := by
  unfold frsq32
  rw [h]
  rfl

theorem fexp2_nan : fexp2 x = (0x7FC00000, if sig then flagNV else 0) := by
  unfold fexp2
  rw [h]
  rfl

theorem flog2_nan : flog2 x = (0x7FC00000, if sig then flagNV else 0) := by
  unfold flog2
  rw [h]
  rfl

theorem turnFn_nan (op : Nat) : turnFn op x = (0x7FC00000, if sig then flagNV else 0) := by
  unfold turnFn
  rw [h]
  rfl

theorem ftanh32_nan : ftanh32 x = (0x7FC00000, if sig then flagNV else 0) := by
  unfold ftanh32
  rw [h]
  rfl

theorem ferf32_nan : ferf32 x = (0x7FC00000, if sig then flagNV else 0) := by
  unfold ferf32
  rw [h]
  rfl

end Nan

/-! ## FSINCOS.T -/

theorem fsincosT_gives {s : State} {c : Issue} {g : Group} {d a : BitVec 6} (h : Issues s c g) (hw : (Instr.fsincosT d a).wf (s.regsOf g) = true) :
    Gives (.fsincosT d a) s c 24 ((lanesOf c.mask).flatMap fun l =>
      [.v l d.toNat (BitVec.ofNat 32 (turnFn 5 ((g.lane l).rv a.toNat)).1),
        .v l (d.toNat + 1) (BitVec.ofNat 32 (turnFn 6 ((g.lane l).rv a.toNat)).1)])
      (laneFlags c fun l => (turnFn 5 ((g.lane l).rv a.toNat)).2 ||| (turnFn 6 ((g.lane l).rv a.toNat)).2) :=
  formFlags_gives ⟨h, hw⟩ (by dsimp only [exec]; rfl)

/-! ## FDIV -/

/-- FDIV of finite values (R161): the rounded quotient, unless an operand is 0. -/
theorem fdiv32_fin {x y : Nat} {t u : Bool} {m n : Nat} {e k : Int} (hx : fp32.decode x = .fin t m e) (hy : fp32.decode y = .fin u n k) :
    if m = 0 ∧ n = 0 then fdiv32 x y = (0x7FC00000, flagNV) else if n = 0 then fdiv32 x y = (if t != u then 0xFF800000 else 0x7F800000, flagDZ)
      else if m = 0 then fdiv32 x y = (if t != u then 2 ^ 31 else 0, 0) else fdiv32 x y = fp32.round .rne 0 (t != u) m n (e - k) := by
  have hs : fdiv32 x y = if n = 0 then (if m = 0 then (fp32.canon, flagNV) else (fp32.signed (t != u) fp32.infCode, flagDZ))
      else if m = 0 then (fp32.signed (t != u) 0, 0) else fp32.round .rne 0 (t != u) m n (e - k) := by
    unfold fdiv32
    rw [hx, hy]
    rfl
  rw [hs]
  by_cases hn : n = 0
  · by_cases hm : m = 0
    · rw [if_pos ⟨hm, hn⟩, if_pos hn, if_pos hm]
      rfl
    · rw [if_neg fun h => hm h.1, if_pos hn, if_pos hn, if_neg hm]
      rfl
  · rw [if_neg fun h => hn h.2, if_neg hn, if_neg hn]
    by_cases hm : m = 0
    · rw [if_pos hm, if_pos hm]
      rfl
    · rw [if_neg hm, if_neg hm]

/-- FDIV with an infinite operand and no NaN (R161). -/
theorem fdiv32_inf {x y : Nat} {t u : Bool} (hx : fp32.decode x = .inf t) (hy : fp32.decode y = .inf u) : fdiv32 x y = (0x7FC00000, flagNV) := by
  unfold fdiv32
  rw [hx, hy]
  rfl

theorem fdiv32_inf_fin {x y : Nat} {t u : Bool} {n : Nat} {k : Int} (hx : fp32.decode x = .inf t) (hy : fp32.decode y = .fin u n k) :
    fdiv32 x y = (if t != u then 0xFF800000 else 0x7F800000, 0) := by
  unfold fdiv32
  rw [hx, hy]
  rfl

theorem fdiv32_fin_inf {x y : Nat} {t u : Bool} {m : Nat} {e : Int} (hx : fp32.decode x = .fin t m e) (hy : fp32.decode y = .inf u) :
    fdiv32 x y = (if t != u then 2 ^ 31 else 0, 0) := by
  unfold fdiv32
  rw [hx, hy]
  rfl

/-- FDIV with a NaN operand (R94, R161). -/
theorem fdiv32_nan {x y : Nat} (h : (fp32.decode x).isNan = true ∨ (fp32.decode y).isNan = true) :
    fdiv32 x y = (0x7FC00000, if (fp32.decode x).isSig || (fp32.decode y).isSig then flagNV else 0) := by
  unfold fdiv32
  generalize fp32.decode x = v at h ⊢
  generalize fp32.decode y = w at h ⊢
  match v, w with
  | .nan _, _ => rfl
  | .inf _, .nan _ | .fin _ _ _, .nan _ => rfl
  | .inf _, .inf _ | .inf _, .fin _ _ _ | .fin _ _ _, .inf _ | .fin _ _ _, .fin _ _ _ => simp [FV.isNan] at h

/-- FSQRT of a value below 0 (R160). -/
theorem fsqrt32_neg {x n : Nat} {e : Int} (hx : fp32.decode x = .fin true n e) (hn : n ≠ 0) : fsqrt32 x = (0x7FC00000, flagNV) := by
  unfold fsqrt32
  rw [hx]
  exact if_neg hn

/-! ## Values under a sign -/

theorem withSign_of_nonneg {s : Bool} {x : ℚ} (hx : 0 ≤ x) (h : 0 ≤ withSign s x) : withSign s x = x := by
  cases s
  · rfl
  · have h' : 0 ≤ -x := h
    exact (by linarith : -x = x)

theorem withSign_inv (s : Bool) (x : ℚ) : (withSign s x)⁻¹ = withSign s x⁻¹ := by
  cases s
  · rfl
  · exact inv_neg

theorem abs_withSign (s : Bool) {x : ℚ} (hx : 0 ≤ x) : |withSign s x| = x := by
  cases s
  · exact abs_of_nonneg hx
  · exact (abs_neg x).trans (abs_of_nonneg hx)

/-- A positive value has no sign and a significand above 0. -/
theorem pos_of_ratOf {s : Bool} {n : Nat} {e : Int} (h : 0 < ratOf s n e) : s = false ∧ n ≠ 0 ∧ ratOf s n e = n * 2 ^ e := by
  have hx : (0 : ℚ) ≤ n * 2 ^ e := by positivity
  rw [ratOf_eq] at h
  have heq := withSign_of_nonneg hx h.le
  refine ⟨?_, ?_, (ratOf_eq ..).trans heq⟩
  · cases s
    · rfl
    · have h' : 0 < -((n : ℚ) * 2 ^ e) := h
      linarith
  · rintro rfl
    rw [heq] at h
    simp at h

/-- A value of 2^-126 or more is normal (R89). -/
theorem normal_of_ratOf {y : Nat} {s : Bool} {n : Nat} {e : Int} (h : fp32.decode y = .fin s n e) (hx : (2 : ℚ) ^ (-126 : Int) ≤ |ratOf s n e|) :
    2 ^ 23 ≤ n := by
  obtain ⟨-, -, -, rfl | hn⟩ := fin_bounds h
  · rw [ratOf_eq, abs_withSign s (by positivity), show (-126 : Int) = -149 + (23 : Nat) by norm_num, binade_units,
      mul_le_mul_iff_left₀ (two_zpow_pos _)] at hx
    exact_mod_cast hx
  · exact hn

/-- Settles O11: the forms and their listed values, FDIV by the classes of its operands, and the bounds of FSQRT, FRCP and FRSQ by the magnitude that
each delivers. -/
theorem specialFunctionResults : Obligations.SpecialFunctionResults := by
  intro s c g d a b h A val gives special ofNan finite
  have one : ∀ (i : Instr) (lat : Nat) (f : W32 → Nat × BitVec 5), exec i s = formF1 i lat d a f s → gives i lat f :=
    fun i lat f he => formF1_flagged h he
  have values : ∀ (f : W32 → Nat × BitVec 5) {xs : List (Nat × Nat × BitVec 5)},
      (xs.all fun x => f (BitVec.ofNat 32 x.1) == (x.2.1, x.2.2)) = true → special f xs :=
    fun f xs hx x hm => eq_of_beq (List.all_eq_true.mp hx x hm)
  refine ⟨⟨fun x => fsqrt32 x.toNat, one (.fsqrt d a) 12 (fun x => fsqrt32 x.toNat) rfl, fun x sig => fsqrt32_nan,
      values (fun x => fsqrt32 x.toNat) (by decide), fun x n e hx hn => fsqrt32_neg hx hn, ?root⟩,
    ⟨fun x y => fdiv32 x.toNat y.toNat, formF_flagged h fun l => rfl, fun x y => ?quotient⟩,
    ⟨frcp32, one (.frcp d a) 12 frcp32 rfl, fun x sig => frcp32_nan, values frcp32 (by decide), ?reciprocal⟩,
    ⟨frsq32, one (.frsq d a) 12 frsq32 rfl, fun x sig => frsq32_nan, values frsq32 (by decide), ?inverseRoot⟩,
    ⟨fexp2, one (.fexp2 d a) 12 fexp2 rfl, fun x sig => fexp2_nan, values fexp2 (by decide)⟩,
    ⟨flog2, one (.flog2 d a) 12 flog2 rfl, fun x sig => flog2_nan, values flog2 (by decide)⟩,
    ⟨turnFn 5, turnFn 6, one (.fsint d a) 12 (turnFn 5) rfl, fun x sig hx => turnFn_nan hx 5, values (turnFn 5) (by decide),
      one (.fcost d a) 12 (turnFn 6) rfl, fun x sig hx => turnFn_nan hx 6, values (turnFn 6) (by decide), fsincosT_gives h⟩,
    ⟨ftanh32, one (.ftanh d a) 12 ftanh32 rfl, fun x sig => ftanh32_nan, values ftanh32 (by decide)⟩,
    ⟨ferf32, one (.ferf d a) 24 ferf32 rfl, fun x sig => ferf32_nan, values ferf32 (by decide)⟩⟩
  case root =>
    intro x sg n e hx hpos
    obtain ⟨rfl, hn, heq⟩ := pos_of_ratOf hpos
    obtain ⟨c, hc, hfst, hc0, hfl, hnear⟩ := fsqrt32_nearest hx hn
    refine ⟨_, _, _, (congrArg fp32.decode hfst).trans (decode_signed (by decide) false hc), ?_⟩
    change 0 < ratOf _ _ _ ∧ (_ = if ratOf _ _ _ * ratOf _ _ _ = ratOf _ _ _ then _ else _) ∧ _
    rw [heq, ratOf_magSig]
    refine ⟨hc0, by rw [hfl, pow_two]; rfl, fun z sz nz ez hz hz0 => ?_⟩
    obtain ⟨k, -, rfl, rfl, -⟩ := fin_of_decode (by decide) hz
    have hvz : val sz (magSig fp32 k) (leastExp fp32 + magStep fp32 k) = magVal fp32 k :=
      (ratOf_magSig ..).trans (withSign_of_nonneg (magVal_nonneg ..) (hz0.trans_eq (ratOf_magSig ..)))
    rw [hvz]
    exact hnear k
  case quotient =>
    match hx : fp32.decode x.toNat, hy : fp32.decode y.toNat with
    | .fin t m e, .fin u n k => exact fdiv32_fin hx hy
    | .inf t, .inf u => exact fdiv32_inf hx hy
    | .inf t, .fin u n k => exact fdiv32_inf_fin hx hy
    | .fin t m e, .inf u => exact fdiv32_fin_inf hx hy
    | .nan p, .nan q | .inf _, .nan q | .fin _ _ _, .nan q =>
      have hn := fdiv32_nan (x := x.toNat) (y := y.toNat) (Or.inr (by rw [hy]; rfl))
      rw [hx, hy] at hn
      exact hn
    | .nan p, .inf _ | .nan p, .fin _ _ _ =>
      have hn := fdiv32_nan (x := x.toNat) (y := y.toNat) (Or.inl (by rw [hx]; rfl))
      rw [hx, hy] at hn
      exact Bool.or_false p ▸ hn
  case reciprocal =>
    intro x sg n e hx hnorm
    obtain ⟨c, hc, hfst, hulp⟩ := frcp32_ulp hx (normal_of_ratOf hx hnorm)
    refine ⟨_, _, _, (congrArg fp32.decode hfst).trans (decode_signed (by decide) sg hc), fun k => ?_⟩
    change _ ≤ |(ratOf _ _ _)⁻¹| → |(ratOf _ _ _)⁻¹| < _ → |ratOf _ _ _ - (ratOf _ _ _)⁻¹| ≤ _
    rw [ratOf_magSig, ratOf_eq, withSign_inv, abs_withSign sg (by positivity), abs_withSign_sub]
    exact hulp k
  case inverseRoot =>
    intro x sg n e hx hpos
    obtain ⟨rfl, hn, heq⟩ := pos_of_ratOf hpos
    obtain ⟨c, hc, hfst, hulps⟩ := frsq32_ulps hx hn
    refine ⟨_, _, _, (congrArg fp32.decode hfst).trans (decode_signed (by decide) false hc), fun k => ?_⟩
    change _ ≤ (ratOf _ _ _)⁻¹ → (ratOf _ _ _)⁻¹ < _ →
      _ < ratOf _ _ _ ∧ (ratOf _ _ _ - _) ^ 2 * ratOf _ _ _ ≤ 1 ∧ 1 ≤ (ratOf _ _ _ + _) ^ 2 * ratOf _ _ _
    rw [heq, ratOf_magSig]
    exact hulps k

end Sys2Proof
end

section
/-!
PROOFS. SREAD (O23; R31, R113 to R116): what it writes, what the special registers show, and the latch of TIME's fraction.
-/
namespace Sys2Proof
open Machine

/-! ## The writes of an SREAD (R116) -/

/-- .H picks the high word of a value. -/
theorem sreadWord_eq (h : BitVec 1) (x : Nat) : (if h = 1 then x / 2 ^ 32 else x) = x / 2 ^ (32 * h.toNat) := by
  obtain rfl | rfl := BitVec.eq_zero_or_eq_one h
  · simp
  · rfl

theorem sreadWrites_scalar (d : BitVec 6) (h : BitVec 1) (mask : BitVec 32) (f : Nat → Nat) :
    sreadWrites d 1 h mask f = [.s d.toNat (BitVec.ofNat 64 (f (lowLane mask)))] := rfl

theorem sreadWrites_vector (c : Issue) (d : BitVec 6) (h : BitVec 1) (f : Nat → Nat) :
    sreadWrites d 0 h c.mask f = vWrites c d fun l => BitVec.ofNat 32 (f l / 2 ^ (32 * h.toNat)) := by
  rw [← lanesDo_v]
  simp only [← sreadWord_eq]
  rfl

/-- SREAD of a register that the group may read posts its result for 4 cycles later (R80, R116). -/
theorem sread_gives {s : State} {c : Issue} {g : Group} {d : BitVec 6} {k h : BitVec 1} {n : BitVec 9} (hr : Ready (.sread d k h n) s c g)
    (hn : n.toNat < 0x100 ∨ g.firmware = true) :
    Gives (.sread d k h n) s c 4 (sreadWrites d k h c.mask fun l => s.special g l n.toNat) [] := by
  have allowed : ¬ (0x100 ≤ n.toNat ∧ g.firmware = false) := fun ⟨hsys, huser⟩ =>
    hn.elim (Nat.not_lt.mpr hsys) (Bool.eq_false_iff.mp huser)
  exact postFixed_gives hr.1.2 ((issue_ready hr _).trans (by rw [if_neg allowed]))

/-! ## Special registers (R31, R113) -/

theorem special_coord (s : State) (g : Group) (l : Nat) {i : Nat} (hi : i < 8) :
    s.special g l (8 + i) = (g.lane l).coord.getD i 0 % 2 ^ 16 := by
  have h0 : 8 + i ≠ 0 := by omega
  have h1 : 8 + i ≠ 1 := by omega
  have h8 : 8 ≤ 8 + i ∧ 8 + i < 16 := by omega
  simp only [State.special, if_neg h0, if_neg h1, if_pos h8, Nat.add_sub_cancel_left]

section Placed
variable {s : State} {g : Group} {b : Band} (hb : s.band? g.band = some b)
include hb

theorem ctxOf_placed : s.ctxOf g = b.ctx := by simp only [State.ctxOf, hb]

theorem ofBand_placed (f : Band → Nat) : s.ofBand g f = f b := by simp only [State.ofBand, hb]

/-- CYCLE counts from the cycle of the group's own die in which band 0 of the kernel was placed (R114). -/
theorem cycleOf_placed {k : Kernel} {y : List Nat} (hk : s.kernel? b.kid = some k) (hy : k.startCycle = some y) :
    s.cycleOf g = s.cycleOn g.die - y.getD g.die 0 := by
  simp only [State.cycleOf, State.kernelOf?, hb, hk, hy]

end Placed

/-! ## TIME and TIMEF (R114) -/

/-- The group gains one result, due in 4 cycles, that writes `v` to the target of an SREAD, and its latch of the fraction becomes `latch`. -/
def ReadsTime (s : State) (c : Issue) (g : Group) (d : BitVec 6) (k h : BitVec 1) (t : State) (v : Nat) (latch : Option (BitVec 16)) : Prop :=
  ∃ o : Outst, t.group? c.gid = some { g with outs := g.outs ++ [o], timeLatch := latch } ∧ o.due = s.cycleOn g.die + 4 ∧ SameMemory s t ∧
    (k = 1 → o.writes = [.s d.toNat (BitVec.ofNat 64 v)]) ∧
    (k = 0 → o.writes = vWrites c d fun _ => BitVec.ofNat 32 (v / 2 ^ (32 * h.toNat)))

/-- An SREAD whose result is posted and whose latch is then set from what the group holds apart from its results. -/
theorem postFixed_readsTime {s : State} {c : Issue} {g : Group} (hg : s.group? c.gid = some g) (d : BitVec 6) (k h : BitVec 1) (v : Nat)
    {f : Group → Option (BitVec 16)} {latch : Option (BitVec 16)} (hf : ∀ os, f { g with outs := os } = latch) :
    ReadsTime s c g d k h ((s.postFixed c g 4 (sreadWrites d k h c.mask fun _ => v)).modGroup c.gid fun x => { x with timeLatch := f x }) v
      latch := by
  let o := c.outst g s .fixed 4 false (sreadWrites d k h c.mask fun _ => v) [] 0
  have posted : (s.addOut c.gid o).group? c.gid = some { g with outs := g.outs ++ [o] } := by
    rw [State.addOut_group, hg]
    rfl
  refine ⟨o, hf (g.outs ++ [o]) ▸ group?_own posted _ fun _ => rfl, rfl, ⟨rfl, rfl⟩, ?scalar, ?vector⟩
  case scalar =>
    rintro rfl
    exact sreadWrites_scalar d h c.mask fun _ => v
  case vector =>
    rintro rfl
    exact sreadWrites_vector c d h fun _ => v

/-- The fraction of TIME is its low 16 bits (R113). -/
theorem ofNat_mod_65536 (x : Nat) : BitVec.ofNat 16 (x % 65536) = BitVec.ofNat 16 x :=
  BitVec.eq_of_toNat_eq (Nat.mod_mod x (2 ^ 16))

section Time
variable {s : State} {c : Issue} {g : Group} {d : BitVec 6} {k h : BitVec 1} (hi : Issues s c g)
include hi

theorem sreadTime_reads (hw : (Instr.sreadTime d k h).wf (s.regsOf g) = true) : ∃ t, exec (.sreadTime d k h) s = .next t ∧
    ReadsTime s c g d k h t (s.timeOn g.die / 65536) (some (BitVec.ofNat 16 (s.timeOn g.die % 65536))) := by
  exact ⟨_, issue_ready ⟨hi, hw⟩ _, postFixed_readsTime hi.2 d k h _ fun _ => congrArg some (ofNat_mod_65536 _).symm⟩

theorem sreadTimef_reads (hw : (Instr.sreadTimef d k h).wf (s.regsOf g) = true) : ∃ t, exec (.sreadTimef d k h) s = .next t ∧
    ReadsTime s c g d k h t ((g.timeLatch.map fun x => x.toNat).getD (s.timeOn g.die % 65536)) none := by
  refine ⟨_, issue_ready ⟨hi, hw⟩ _, ?_⟩
  cases g.timeLatch with
  | none => exact postFixed_readsTime hi.2 d k h _ fun _ => rfl
  | some x => exact postFixed_readsTime hi.2 d k h _ fun _ => rfl

end Time

/-- Settles O23: the result of SREAD, the special registers one by one, and the two reads of the time. -/
theorem sreadReadsRegister : Obligations.SreadReadsRegister := by
  refine ⟨fun s c g d k h n hr hn => ⟨?scalar, ?vector⟩, fun s g b l hb => ?registers,
    fun s c g d k h hi => ⟨sreadTime_reads hi, sreadTimef_reads hi⟩⟩
  case scalar =>
    rintro rfl
    exact sread_gives hr hn
  case vector =>
    rintro rfl
    exact sreadWrites_vector c d h _ ▸ sread_gives hr hn
  case registers =>
    have gslot : g.gslot = match g.helper with | none => g.quad * 32 + g.slot | some e => 128 + e := by
      cases hh : g.helper <;> simp only [Group.gslot, hh]
    exact ⟨rfl, gslot, fun i hi => special_coord s g l hi, rfl, rfl, rfl, ctxOf_placed hb, ofBand_placed hb _, ofBand_placed hb _, rfl, rfl, rfl,
      fun k y hk hy => cycleOf_placed hb hk hy⟩

end Sys2Proof
end

section
/-!
PROOFS. The words of the integer rows (R70, R78, R81, R123): a word written as the sum of its fields is the encoding of its row, and a word
that no row matches is rejected.
-/
namespace Sys2Proof

/-- The control fields of a word whose bits [31:27] are zero. -/
def noCtl : Ctl := { c := 0, s := 0, g := 0, y := 0 }

/-- The word `w` is read as `i`, whatever word follows it. -/
def Reads (w : W32) (i : Instr) : Prop := ∀ x, ∃ y, decodeWords w x = .ok y ∧ y.instr = i

theorem reads_of_encode {c : Ctl} {i : Instr} {w : W32} (h : encode c i = some [w]) (hr : rowOf i = some i) : Reads w i :=
  fun x => ⟨_, decodeWords_of_encode x h hr, rfl⟩

theorem word_noCtl (n : Nat) : word noCtl n = BitVec.ofNat 32 n :=
  congrArg (BitVec.ofNat 32) (by simp [noCtl])

/-- The word of a row as the sum of its fields (R70, R123): the sum that the row's encoding makes, with the control fields zero. -/
theorem reads_sum {n y : Nat} {i : Instr} (h : encode noCtl i = some [word noCtl y] := by rfl) (hn : n = y := by omega)
    (hr : rowOf i = some i := by rfl) : Reads (BitVec.ofNat 32 n) i :=
  hn ▸ word_noCtl y ▸ reads_of_encode h hr

/-- A word whose major has no row for it is rejected (R81). -/
theorem decodeWords_noRow {w : W32} {m : Nat} (hm : bits w.toNat 21 6 = m) (hrow : ∀ x, (opcodeRows w.toNat x).getD m none = none) (x : W32) :
    decodeWords w x = .error .noRow := by
  rw [decodeWords, decodeInstr_eq, hm, hrow]

/-- The fields of a word of format RRR read back (R70). -/
theorem rrr_fields {m f : Nat} (d a b : BitVec 6) (hm : m < 64) (hf : f < 8) :
    let w := (BitVec.ofNat 32 (m * 2 ^ 21 + d.toNat * 2 ^ 15 + a.toNat * 2 ^ 9 + b.toNat * 2 ^ 3 + f)).toNat
    bits w 21 6 = m ∧ bits w 0 3 = f ∧ bits w 3 6 = b.toNat := by
  simp only [bits, BitVec.toNat_ofNat]
  omega

theorem rrr_noRow {m f : Nat} {d a b : BitVec 6} (hm : m < 64) (hf : f < 8)
    (hrow : ∀ w x, bits w 0 3 = f → bits w 3 6 = b.toNat → (opcodeRows w x).getD m none = none) (x : W32) :
    decodeWords (BitVec.ofNat 32 (m * 2 ^ 21 + d.toNat * 2 ^ 15 + a.toNat * 2 ^ 9 + b.toNat * 2 ^ 3 + f)) x = .error .noRow := by
  obtain ⟨hmajor, hminor, hb⟩ := rrr_fields d a b hm hf
  exact decodeWords_noRow hmajor (fun x => hrow _ _ hminor hb) x

end Sys2Proof
end

section
/-!
PROOFS. The register forms by any description of their results (R122, R144).
-/
namespace Sys2Proof
open Machine

/-- The instruction, where R71 allows its fields, gives V[D] of each lane of Active(g) a value with property `P`, `lat` cycles after the issue. -/
def GivesWith (s : State) (c : Issue) (g : Group) (lat : Nat) (d : BitVec 6) (i : Instr) (P : Nat → W32 → Prop) : Prop :=
  i.wf (s.regsOf g) = true → ∃ f, Gives i s c lat (vWrites c d f) [] ∧ ∀ l, P l (f l)

section Forms
variable {s : State} {c : Issue} {g : Group} {i : Instr} {lat : Nat} {d a b : BitVec 6} (h : Issues s c g)
include h

/-- A form of one operand gives any description `r` of its results, lane by lane. -/
theorem formVV_results {f : W32 → W32} {r : Nat → W32} (hr : ∀ l, f ((g.lane l).rv a.toNat) = r l)
    (he : exec i s = formVV i lat d a f s := by dsimp only [exec]; rfl) (hw : i.wf (s.regsOf g) = true) :
    Gives i s c lat (vWrites c d r) [] :=
  funext hr ▸ formVV_gives ⟨h, hw⟩ he

theorem formV_results {f : Issue → Group → Nat → W32} {r : Nat → W32} (hr : ∀ l, f c g l = r l)
    (he : exec i s = formV i lat d f s := by dsimp only [exec]; rfl) (hw : i.wf (s.regsOf g) = true) : Gives i s c lat (vWrites c d r) [] :=
  funext hr ▸ formV_gives ⟨h, hw⟩ he

theorem formS_results {f : Issue → Group → W64} {r : W64} (hr : f c g = r)
    (he : exec i s = formS i lat d f s := by dsimp only [exec]; rfl) (hw : i.wf (s.regsOf g) = true) :
    Gives i s c lat [.s d.toNat r] [] :=
  hr ▸ formS_gives ⟨h, hw⟩ he

/-- A comparison gives any description `r` of its truth, lane by lane, that holds for the condition codes that R71 allows. -/
theorem formP_results {p : Nat} {f : Issue → Group → Nat → Bool} {r : Nat → Bool} (hr : i.wf (s.regsOf g) = true → ∀ l, f c g l = r l)
    (he : exec i s = formP i lat p f s := by dsimp only [exec]; rfl) (hw : i.wf (s.regsOf g) = true) :
    Gives i s c lat (pWrites c p r) [] :=
  funext (hr hw) ▸ formP_gives ⟨h, hw⟩ he

theorem formVV_with (f : W32 → W32) {P : Nat → W32 → Prop} (hp : ∀ l, P l (f ((g.lane l).rv a.toNat)))
    (he : exec i s = formVV i lat d a f s := by dsimp only [exec]; rfl) :
    GivesWith s c g lat d i P :=
  fun hw => ⟨_, formVV_gives ⟨h, hw⟩ he, hp⟩

theorem formVVV_with (f : W32 → W32 → W32 → W32) {P : Nat → W32 → Prop}
    (hp : ∀ l, P l (f ((g.lane l).rv a.toNat) ((g.lane l).rv b.toNat) ((g.lane l).rv d.toNat)))
    (he : exec i s = formVVV i lat d a b f s := by dsimp only [exec]; rfl) :
    GivesWith s c g lat d i P :=
  fun hw => ⟨_, formVVV_gives ⟨h, hw⟩ he, hp⟩

end Forms

end Sys2Proof
end

section
/-!
PROOFS. Shifts by an amount below the width or not, in V and S registers (R130, R142).
-/
namespace Sys2Proof

theorem shiftLeft_eq {n : Nat} (x : BitVec n) (k : Nat) : x <<< k = if k < n then BitVec.ofNat n (x.toNat * 2 ^ k) else 0 := by
  split
  · exact BitVec.eq_of_toNat_eq (by simp [Nat.shiftLeft_eq])
  · exact BitVec.shiftLeft_eq_zero (by omega)

theorem ushiftRight_eq {n : Nat} (x : BitVec n) (k : Nat) : x >>> k = if k < n then BitVec.ofNat n (x.toNat / 2 ^ k) else 0 := by
  split
  · apply BitVec.eq_of_toNat_eq
    have : x.toNat / 2 ^ k < 2 ^ n := (Nat.div_le_self ..).trans_lt x.isLt
    rw [BitVec.toNat_ushiftRight, Nat.shiftRight_eq_div_pow, BitVec.toNat_ofNat, Nat.mod_eq_of_lt this]
  · exact BitVec.ushiftRight_eq_zero (by omega)

end Sys2Proof
end

section
/-!
PROOFS. Integer arithmetic (O1; R125, R126).
-/
namespace Sys2Proof
open Machine

theorem sub_eq_ofInt {n : Nat} (a b : BitVec n) : a - b = BitVec.ofInt n (a.toInt - b.toInt) :=
  BitVec.eq_of_toInt_eq (by rw [BitVec.toInt_sub, BitVec.toInt_ofInt])

theorem sMin_eq (a b : W32) : sMin a b = BitVec.ofInt 32 (min a.toInt b.toInt) := by
  rw [sMin, BitVec.sle, min_def]
  by_cases h : a.toInt ≤ b.toInt <;> simp [h]

theorem sMax_eq (a b : W32) : sMax a b = BitVec.ofInt 32 (max a.toInt b.toInt) := by
  rw [sMax, BitVec.sle, max_def]
  by_cases h : a.toInt ≤ b.toInt <;> simp [h]

theorem uMin_eq (a b : W32) : uMin a b = BitVec.ofNat 32 (min a.toNat b.toNat) := by
  rw [uMin, BitVec.ule, min_def]
  by_cases h : a.toNat ≤ b.toNat <;> simp [h]

theorem uMax_eq (a b : W32) : uMax a b = BitVec.ofNat 32 (max a.toNat b.toNat) := by
  rw [uMax, BitVec.ule, max_def]
  by_cases h : a.toNat ≤ b.toNat <;> simp [h]

theorem absDiff_eq (a b : W32) : absDiff a b = BitVec.ofInt 32 |a.toInt - b.toInt| := by
  rw [absDiff, Int.abs_eq_natAbs, BitVec.ofInt_natCast]

/-- The sum of IADDC does not overflow its 33 bits (R126). -/
theorem addCarry_toNat (a b : W32) (k : Bool) : (addCarry a b k).toNat = a.toNat + b.toNat + if k then 1 else 0 := by
  cases k <;> simp [addCarry] <;> omega

/-- The two writes of IADDC in a lane (R126). -/
theorem addCarry_writes {t : Nat} {x : BitVec 33} (h : x.toNat = t) (l d : Nat) :
    [RegWrite.v l d (x.setWidth 32), .p l 6 (x.getLsbD 32)] = [.v l d (BitVec.ofNat 32 t), .p l 6 (decide (2 ^ 32 ≤ t))] := by
  subst h
  have hlt := x.isLt
  rw [BitVec.ofNat_toNat, BitVec.getLsbD, Nat.testBit_eq_decide_div_mod_eq]
  have : x.toNat / 2 ^ 32 % 2 = 1 ↔ 2 ^ 32 ≤ x.toNat := by omega
  simp only [this]

theorem iaddc_gives {s : State} {c : Issue} {g : Group} {d a b : BitVec 6} (h : Issues s c g) (hw : (Instr.iaddc d a b).wf (s.regsOf g) = true) :
    Gives (.iaddc d a b) s c 4 ((lanesOf c.mask).flatMap fun l =>
      let t := ((g.lane l).rv a.toNat).toNat + ((g.lane l).rv b.toNat).toNat + if (g.lane l).rp 6 then 1 else 0
      [.v l d.toNat (BitVec.ofNat 32 t), .p l 6 (decide (2 ^ 32 ≤ t))]) [] := by
  apply postFixed_gives h.2
  have hx : exec (.iaddc d a b) s = execIaddc d a b s := by dsimp only [exec]
  rw [hx, execIaddc, issue_ready ⟨h, hw⟩, lanesDo]
  simp only [addCarry_writes (addCarry_toNat ..)]

/-- Settles O1: each row by its value, and its word as the encoding of the row. -/
theorem integerArithmeticResults : Obligations.IntegerArithmeticResults := by
  refine fun s c g d a b h => ⟨?rows, iaddc_gives h, ?words⟩
  case rows =>
    simp only [List.forall_mem_cons]
    exact ⟨formVVV_results h fun l => rfl, formVVV_results h fun l => sub_eq_ofInt .., formVVV_results h fun l => sMin_eq ..,
      formVVV_results h fun l => sMax_eq .., formVVV_results h fun l => uMin_eq .., formVVV_results h fun l => uMax_eq ..,
      formVVV_results h fun l => absDiff_eq .., List.forall_mem_nil _⟩
  case words =>
    simp only [List.zipIdx_cons, List.zipIdx_nil, List.forall_mem_cons]
    exact ⟨reads_sum, reads_sum, reads_sum, reads_sum, reads_sum, reads_sum, reads_sum, reads_sum, List.forall_mem_nil _⟩

end Sys2Proof
end

section
/-!
PROOFS. Comparisons (O4; R136, R143).
-/
namespace Sys2Proof
open Machine

/-- The truth of a condition code of R136 over signed and unsigned values; the last is that of code 5. -/
def condTruth {n : Nat} (k : BitVec 3) (x y : BitVec n) : Bool :=
  match k.toNat with
  | 0 => decide (x = y) | 1 => decide (x ≠ y) | 2 => decide (x.toInt < y.toInt) | 3 => decide (x.toInt ≤ y.toInt)
  | 4 => decide (x.toNat < y.toNat) | _ => decide (x.toNat ≤ y.toNat)

/-- Codes 0 to 5 (R136). -/
theorem condHolds_eq {n : Nat} {k : BitVec 3} (hk : condOk k = true) (x y : BitVec n) : condHolds k x y = condTruth k x y := by
  have hle : k.toNat ≤ 5 := by simpa [condOk] using hk
  unfold condHolds condTruth
  generalize k.toNat = m at hle
  interval_cases m
  on_goal 2 => exact (decide_not (p := x = y)).symm
  all_goals rfl

/-- Settles O4: each comparison by its condition, of which `wf` shuts out codes 6 and 7. -/
theorem comparisonResults : Obligations.ComparisonResults := by
  refine fun s c g a b d k q i h => ⟨formP_results h fun hw l => ?vector, formP_results h fun hw l => ?immediate,
    formP_results h fun hw l => ?scalar⟩
  case vector =>
    have hk : condOk k = true := (Bool.and_eq_true_iff.mp hw).2
    exact condHolds_eq hk ..
  case immediate =>
    have hk : condOk k = true := (Bool.and_eq_true_iff.mp hw).1
    exact condHolds_eq hk ..
  case scalar =>
    have hk : condOk k = true := (Bool.and_eq_true_iff.mp hw).2
    exact condHolds_eq hk ..

end Sys2Proof
end

section
/-!
PROOFS. Immediate forms, LEA, constants and scalar instructions (O5; R137 to R144).
-/
namespace Sys2Proof
open Machine

theorem add_signExtend {m n : Nat} (x : BitVec n) (i : BitVec m) : x + i.signExtend n = BitVec.ofInt n (x.toInt + i.toInt) := by
  rw [BitVec.ofInt_add, BitVec.ofInt_toInt]
  rfl

theorem lea_eq (x y : W32) (n : Nat) : x + y <<< n = BitVec.ofNat 32 (x.toNat + y.toNat * 2 ^ n) :=
  BitVec.eq_of_toNat_eq (by simp [Nat.shiftLeft_eq])

/-- MOVL's high form puts the literal above the low word (R140). -/
theorem literal_append_eq (lit : W32) (x : W64) : lit ++ x.setWidth 32 = BitVec.ofNat 64 (lit.toNat * 2 ^ 32 + x.toNat % 2 ^ 32) := by
  apply BitVec.eq_of_toNat_eq
  rw [BitVec.toNat_append, ← Nat.shiftLeft_add_eq_or_of_lt (BitVec.isLt _)]
  have := lit.isLt
  simp [Nat.shiftLeft_eq]
  omega

/-- Settles O5: each row by its value, and its word as the encoding of the row. -/
theorem immediateScalarResults : Obligations.ImmediateScalarResults := by
  refine fun s c g d a b i m f lit h => ⟨?lanes, ?scalars, ?immediateWords, reads_sum, reads_sum, ?scalarWords⟩
  case lanes =>
    simp only [List.forall_mem_cons]
    exact ⟨formVV_results h fun l => add_signExtend .., formVV_results h fun l => congrArg _ (BitVec.ofNat_toNat ..).symm,
      formVV_results h fun l => congrArg _ (BitVec.ofNat_toNat ..).symm, formVV_results h fun l => congrArg _ (BitVec.ofNat_toNat ..).symm,
      formVVV_results h fun l => lea_eq .., formV_results h fun l => rfl, formV_results h fun l => rfl, List.forall_mem_nil _⟩
  case scalars =>
    simp only [List.forall_mem_cons]
    exact ⟨formS_results h rfl, formS_results h (BitVec.ofNat_toNat ..).symm, formS_results h (literal_append_eq ..), formS_results h rfl,
      formS_results h (sub_eq_ofInt ..), formS_results h rfl, formS_results h rfl, formS_results h rfl, formS_results h (shiftLeft_eq ..),
      formS_results h (ushiftRight_eq ..), formS_results h rfl, formS_results h (add_signExtend ..), List.forall_mem_nil _⟩
  case immediateWords =>
    simp only [List.forall_mem_cons]
    exact ⟨reads_sum, reads_sum, reads_sum, reads_sum, reads_sum, List.forall_mem_nil _⟩
  case scalarWords =>
    simp only [List.zipIdx_cons, List.zipIdx_nil, List.forall_mem_cons]
    exact ⟨reads_sum, reads_sum, reads_sum, reads_sum, reads_sum, reads_sum, reads_sum, reads_sum, List.forall_mem_nil _⟩

end Sys2Proof
end

section
/-!
PROOFS. Logic, shifts, counts and fields (O3; R129 to R135).
-/
namespace Sys2Proof
open Machine

/-! ## Shifts -/

theorem shA_eq (x : W32) (k : Nat) :
    shA x k = if k < 32 then BitVec.ofInt 32 (x.toInt / 2 ^ k) else if x.msb then 0xFFFFFFFF#32 else 0 := by
  split
  · exact congrArg (BitVec.ofInt 32) (Int.shiftRight_eq_div_pow ..)
  · next hk =>
    have hle : 32 ≤ k := Nat.le_of_not_lt hk
    cases hm : x.msb
    case false => exact (BitVec.sshiftRight_eq_of_msb_false hm).trans (BitVec.ushiftRight_eq_zero hle)
    case true => exact (BitVec.sshiftRight_eq_of_msb_true hm).trans (congrArg (~~~ ·) (BitVec.ushiftRight_eq_zero hle))

theorem rotL_of_lt (x : W32) {k : Nat} (hk : k < 32) : rotL x k = x.rotateLeft k := by
  rw [rotL, Nat.mod_eq_of_lt hk]

/-- What FSHL drops above bit 63 does not reach its result (R130). -/
theorem funnelL_eq (d a : W32) (n : Nat) :
    funnelL d a n = BitVec.ofNat 32 ((d.toNat * 2 ^ 32 + a.toNat) * 2 ^ min n 32 / 2 ^ 32) := by
  apply BitVec.eq_of_toNat_eq
  rw [funnelL, BitVec.toNat_ofNat, BitVec.toNat_ofNat]
  omega

/-! ## Counts -/

/-- The least number below `n` with a property, or `n`. -/
theorem firstBelow_spec (p : Nat → Bool) (n : Nat) : let r := ((List.range n).find? p).getD n
    r ≤ n ∧ (∀ k < r, p k = false) ∧ (r < n → p r = true) := by
  cases h : (List.range n).find? p with
  | none =>
    rw [List.find?_range_eq_none] at h
    simpa using h
  | some r =>
    rw [List.find?_range_eq_some] at h
    obtain ⟨hr, hmem, hlow⟩ := h
    have hlt : r < n := by simpa using hmem
    exact ⟨hlt.le, fun k hk => by simpa using hlow k hk, fun _ => hr⟩

theorem firstBelow_toNat (p : Nat → Bool) :
    (BitVec.ofNat 32 (((List.range 32).find? p).getD 32)).toNat = ((List.range 32).find? p).getD 32 := by
  have := (firstBelow_spec p 32).1
  exact Nat.mod_eq_of_lt (by omega)

/-- Leading zeros place a word between two powers of two (R132). -/
theorem lz_spec (a : W32) : (lz a).toNat ≤ 32 ∧ a.toNat < 2 ^ (32 - (lz a).toNat) ∧ ((lz a).toNat < 32 → 2 ^ (31 - (lz a).toNat) ≤ a.toNat) := by
  obtain ⟨hle, hzero, hone⟩ := firstBelow_spec (fun k => a.getLsbD (31 - k)) 32
  rw [lz, firstBelow_toNat]
  refine ⟨hle, Nat.lt_pow_two_of_testBit _ fun i hi => ?_, fun hlt => Nat.ge_two_pow_of_testBit (hone hlt)⟩
  by_cases h32 : i < 32
  · have := hzero (31 - i) (by omega)
    rwa [show 31 - (31 - i) = i by omega] at this
  · exact BitVec.getLsbD_of_ge a i (by omega)

/-- Trailing zeros are the greatest power of two that divides a word (R132). -/
theorem tz_spec (a : W32) : (tz a).toNat ≤ 32 ∧ 2 ^ (tz a).toNat ∣ a.toNat ∧ ((tz a).toNat < 32 → a.getLsbD (tz a).toNat = true) := by
  obtain ⟨hle, hzero, hone⟩ := firstBelow_spec a.getLsbD 32
  rw [tz, firstBelow_toNat]
  refine ⟨hle, Nat.dvd_of_mod_eq_zero (Nat.eq_of_testBit_eq fun i => ?_), hone⟩
  rw [Nat.testBit_mod_two_pow, Nat.zero_testBit]
  by_cases hi : i < ((List.range 32).find? a.getLsbD).getD 32
  · rw [show a.toNat.testBit i = false from hzero i hi, Bool.and_false]
  · rw [decide_eq_false hi, Bool.false_and]

theorem popCount_toNat (a : W32) : (popCount a).toNat = ((List.range 32).filter fun k => a.getLsbD k).length := by
  have hle : (List.range 32).countP (fun k => a.getLsbD k) ≤ 32 := by simpa using List.countP_le_length (l := List.range 32)
  rw [popCount, BitVec.toNat_ofNat, Nat.mod_eq_of_lt (by omega), List.countP_eq_length_filter]

/-! ## Bits moved one by one -/

/-- A word whose bits below `n` are set one by one from a function of the bit number. -/
theorem getLsbD_setBits (f : Nat → Bool) (n k : Nat) :
    ((List.range n).foldl (fun m l => if f l then m ||| (1#32 <<< l) else m) 0#32).getLsbD k =
      (decide (k < n) && decide (k < 32) && f k) := by
  induction n with
  | zero => simp
  | succ n ih =>
    rw [List.range_succ, List.foldl_append, List.foldl_cons, List.foldl_nil]
    by_cases hk : k = n
    · subst hk
      cases hf : f k <;> simp [ih, hf]
    · have hlt : k < n + 1 ↔ k < n := by omega
      have hbit : (1#32 <<< n).getLsbD k = false := by
        simp
        omega
      split <;> simp [ih, hlt, hbit]

/-- Bit `k` of a word made from a function of the bit number. -/
theorem getLsbD_bitsFn (f : Nat → Bool) {k : Nat} (hk : k < 32) : (bitsFn f).getLsbD k = f k := by
  refine (getLsbD_setBits f 32 k).trans ?_
  simp [hk]

theorem bitGather_bit (a : W32) (sp : Nat) {k : Nat} (hk : k < 32) :
    (bitGather a sp).getLsbD k = (decide (k * (sp + 1) ≤ 31) && a.getLsbD (k * (sp + 1))) := by
  rw [bitGather, getLsbD_bitsFn _ hk]
  simp only [Nat.le_div_iff_mul_le (Nat.succ_pos sp)]

/-! ## Bytes and fields -/

theorem bytepByte_lt (a d b : W32) (i : Nat) : bytepByte a d b i < 256 := by
  unfold bytepByte
  dsimp only
  split
  · split <;> decide
  · exact Nat.mod_lt _ (by decide)

/-- Byte `i` of BYTEP's result is the one that selector `i` names (R134). -/
theorem bytePerm_byte (a b d : W32) {i : Nat} (hi : i < 4) : (bytePerm a b d).toNat / 256 ^ i % 256 = bytepByte a d b i := by
  have h0 := bytepByte_lt a d b 0
  have h1 := bytepByte_lt a d b 1
  have h2 := bytepByte_lt a d b 2
  have h3 := bytepByte_lt a d b 3
  rw [bytePerm, BitVec.toNat_ofNat]
  interval_cases i <;> omega

theorem bytepByte_eq (a d b : W32) (i : Nat) : bytepByte a d b i =
    let sel := b.toNat / 16 ^ i % 16
    let x := (a.toNat + d.toNat * 2 ^ 32) / 256 ^ (sel % 8) % 256
    if sel < 8 then x else if x < 128 then 0 else 255 := by
  simp only [bytepByte, Nat.pow_mul, ← Nat.not_lt, ite_not]

/-- A signed field of up to 32 bits is a signed 32-bit value (R7). -/
theorem sx_bounds (x : Nat) {n : Nat} (h0 : n ≠ 0) (h : n ≤ 32) : -2 ^ 31 ≤ sx x n ∧ sx x n < 2 ^ 31 := by
  obtain ⟨m, rfl⟩ := Nat.exists_eq_add_one_of_ne_zero h0
  have hlt : x % 2 ^ (m + 1) < 2 ^ (m + 1) := Nat.mod_lt _ (Nat.two_pow_pos _)
  have hpow : 2 ^ m ≤ 2 ^ 31 := Nat.pow_le_pow_right (by decide) (by omega)
  have hdouble : (2 : Int) ^ (m + 1) = (2 ^ m : Nat) * 2 := by push_cast; ring
  have hdouble' : 2 ^ (m + 1) = 2 ^ m * 2 := pow_succ ..
  rw [sx, Nat.add_sub_cancel, hdouble]
  split <;> omega

theorem bfExtS_toInt (a b : W32) :
    (bfExtS a b).toInt = if fieldWidth b = 0 then 0 else sx (a.toNat / 2 ^ fieldPos b) (fieldWidth b) := by
  rw [bfExtS]
  split
  · rfl
  · next h0 =>
    have hle : fieldWidth b ≤ 32 := by
      unfold fieldWidth
      omega
    obtain ⟨hlow, hhigh⟩ := sx_bounds (a.toNat / 2 ^ fieldPos b) h0 hle
    exact BitVec.toInt_ofInt_eq_self (by decide) hlow hhigh

theorem bfExtU_toNat (a b : W32) : (bfExtU a b).toNat = a.toNat / 2 ^ fieldPos b % 2 ^ fieldWidth b :=
  Nat.mod_eq_of_lt (((Nat.mod_le ..).trans (Nat.div_le_self ..)).trans_lt a.isLt)

/-! ## Words -/

/-- The fields of a word of format RRI with a shift's immediate read back (R131). -/
theorem shi_fields (d a : BitVec 6) (k : BitVec 5) {f z : Nat} (hf : f < 4) (hz : z < 4) :
    let w := (BitVec.ofNat 32 (0x0C * 2 ^ 21 + d.toNat * 2 ^ 15 + a.toNat * 2 ^ 9 + f * 2 ^ 7 + z * 2 ^ 5 + k.toNat)).toNat
    bits w 21 6 = 0x0C ∧ bits w 5 4 = 4 * f + z := by
  simp only [bits, BitVec.toNat_ofNat]
  omega

theorem notb_noRow {b : BitVec 6} (hb : b ≠ 0) (w x : Nat) (hf : bits w 0 3 = 6) (hbw : bits w 3 6 = b.toNat) :
    (opcodeRows w x).getD 3 none = none := by
  have hb' : b.toNat ≠ 0 := fun e => hb (BitVec.eq_of_toNat_eq e)
  change decodeMajor03 w = none
  simp [decodeMajor03, hf, hbw, hb']

/-- A count or a reversal whose field B is not 0 has no row (R132). -/
theorem count_noRow {b : BitVec 6} (hb : b ≠ 0) {f : Nat} (hf4 : f < 4) (w x : Nat) (hf : bits w 0 3 = f) (hbw : bits w 3 6 = b.toNat) :
    (opcodeRows w x).getD 5 none = none := by
  have hb' : b.toNat ≠ 0 := fun e => hb (BitVec.eq_of_toNat_eq e)
  change decodeMajor05 w = none
  rw [decodeMajor05, hf, hbw]
  repeat rw [if_neg (by omega)]

theorem field_noRow {f : Nat} (hf3 : 3 ≤ f) (w x : Nat) (hf : bits w 0 3 = f) : (opcodeRows w x).getD 6 none = none := by
  change decodeMajor06 w = none
  rw [decodeMajor06, hf]
  repeat rw [if_neg (by omega)]

/-- A count or a reversal is read where its field B is 0 and has no row elsewhere (R132). -/
theorem count_words {f y : Nat} {i : Instr} {d a b : BitVec 6} (hf : f < 4) (h : encode noCtl i = some [word noCtl y] := by rfl)
    (hy : 5 * 2 ^ 21 + d.toNat * 2 ^ 15 + a.toNat * 2 ^ 9 + f = y := by omega) (hr : rowOf i = some i := by rfl) :
    let w := BitVec.ofNat 32 (5 * 2 ^ 21 + d.toNat * 2 ^ 15 + a.toNat * 2 ^ 9 + b.toNat * 2 ^ 3 + f)
    (b = 0 → Reads w i) ∧ (b ≠ 0 → ∀ x, decodeWords w x = .error .noRow) := by
  refine ⟨fun hb => ?_, fun hb => rrr_noRow (by decide) (by omega) (count_noRow hb hf)⟩
  have hb0 : b.toNat = 0 := congrArg BitVec.toNat hb
  exact reads_sum h (by omega) hr

theorem shi_noRow {f z : Nat} (hz : z < 4) (h0 : z ≠ 0) (w x : Nat) (hw : bits w 5 4 = 4 * f + z) :
    (opcodeRows w x).getD 0x0C none = none := by
  change decodeMajor0C w = none
  rw [decodeMajor0C, hw, if_neg (by omega), if_neg (by omega), if_neg (by omega), if_neg (by omega)]

/-- A spacing of 0 or of 4 to 63 is not well-formed (R132). -/
theorem spacing_out_of_range {sp : BitVec 6} (h : sp = 0 ∨ 4 ≤ sp.toNat) (r : Nat) (d a : BitVec 6) :
    (Instr.bitil d a sp).wf r = false ∧ (Instr.bitdl d a sp).wf r = false := by
  have hfields : (vOk r d && vOk r a && decide (1 ≤ sp.toNat) && decide (sp.toNat ≤ 3)) = false := by
    have hsp : (decide (1 ≤ sp.toNat) && decide (sp.toNat ≤ 3)) = false := by
      rcases h with rfl | h
      · rfl
      · rw [decide_eq_false (show ¬ sp.toNat ≤ 3 by omega), Bool.and_false]
    rw [Bool.and_assoc, hsp, Bool.and_false]
  exact ⟨hfields, hfields⟩

/-- Settles O3: the rows of LOGIC, SHIFT and SHI by their values, those of BITS and BFLD bit by bit, and the words of each major. -/
theorem logicShiftResults : Obligations.LogicShiftResults := by
  refine ⟨fun s c g d a b k h => ⟨?rows, ?logic, ?notb, ?notbB, ?logic7, ?shift, ?shift7, ?shi, ?shiZ⟩, ?bits⟩
  case rows =>
    simp only [List.forall_mem_cons]
    exact ⟨formVVV_results h fun l => rfl, formVVV_results h fun l => rfl, formVVV_results h fun l => rfl, formVVV_results h fun l => rfl,
      formVVV_results h fun l => rfl, formVVV_results h fun l => rfl, formVV_results h fun l => rfl,
      formVVV_results h fun l => shiftLeft_eq .., formVVV_results h fun l => ushiftRight_eq .., formVVV_results h fun l => shA_eq ..,
      formVVV_results h fun l => rfl, formVVV_results h fun l => rfl, formVVV_results h fun l => funnelL_eq .., formVVV_results h fun l => rfl,
      formVV_results h fun l => shiftLeft_eq .., formVV_results h fun l => ushiftRight_eq .., formVV_results h fun l => shA_eq ..,
      formVV_results h fun l => rotL_of_lt _ k.isLt, List.forall_mem_nil _⟩
  case logic =>
    simp only [List.zipIdx_cons, List.zipIdx_nil, List.forall_mem_cons]
    exact ⟨reads_sum, reads_sum, reads_sum, reads_sum, reads_sum, reads_sum, List.forall_mem_nil _⟩
  case notb =>
    intro hb
    have hb0 : b.toNat = 0 := congrArg BitVec.toNat hb
    exact reads_sum
  case notbB => exact fun hb => rrr_noRow (by decide) (by decide) (notb_noRow hb)
  case logic7 => exact rrr_noRow (by decide) (by decide) fun w x hf _ => by simp [opcodeRows, decodeMajor03, hf]
  case shift =>
    simp only [List.zipIdx_cons, List.zipIdx_nil, List.forall_mem_cons]
    exact ⟨reads_sum, reads_sum, reads_sum, reads_sum, reads_sum, reads_sum, reads_sum, List.forall_mem_nil _⟩
  case shift7 => exact rrr_noRow (by decide) (by decide) fun w x hf _ => by simp [opcodeRows, decodeMajor04, hf]
  case shi =>
    simp only [List.zipIdx_cons, List.zipIdx_nil, List.forall_mem_cons]
    exact ⟨reads_sum, reads_sum, reads_sum, reads_sum, List.forall_mem_nil _⟩
  case shiZ =>
    intro f hf z hz h0
    obtain ⟨hmajor, hop⟩ := shi_fields d a k hf hz
    exact decodeWords_noRow hmajor fun x => shi_noRow hz h0 _ x hop
  case bits =>
    intro s c g d a b sp h rrr reads bad A B D holds pos wid byteOf
    -- `holds` names `GivesWith` in the statement.
    have hholds : holds = GivesWith s c g 4 d := rfl
    clear_value holds
    subst hholds
    refine ⟨formVV_with h lz fun l => lz_spec _, formVV_with h tz fun l => tz_spec _, formVV_with h popCount fun l => popCount_toNat _,
      formVV_with h bitRev fun l k hk => getLsbD_bitsFn _ hk, formVV_with h (bitSpread · sp.toNat) fun l j hj => getLsbD_bitsFn _ hj,
      formVV_with h (bitGather · sp.toNat) fun l k hk => bitGather_bit _ _ hk,
      formVVV_with h bytePerm fun l i hi => (bytePerm_byte _ _ _ hi).trans (bytepByte_eq ..),
      formVVV_with h (fun x y _ => bfExtS x y) fun l => bfExtS_toInt .., formVVV_with h (fun x y _ => bfExtU x y) fun l => bfExtU_toNat ..,
      formVVV_with h bfIns fun l k hk => getLsbD_bitsFn _ hk,
      ?counts, reads_sum, reads_sum, reads_sum, ?bits7, fun r hsp => spacing_out_of_range hsp r d a, reads_sum, reads_sum, reads_sum, ?fields⟩
    case counts =>
      simp only [List.zipIdx_cons, List.zipIdx_nil, List.forall_mem_cons]
      exact ⟨count_words (by decide), count_words (by decide), count_words (by decide), count_words (by decide), List.forall_mem_nil _⟩
    case bits7 => exact rrr_noRow (by decide) (by decide) fun w x hf _ => by simp [opcodeRows, decodeMajor05, hf]
    case fields =>
      intro f h3 h8
      exact rrr_noRow (by decide) h8 fun w x hf _ => field_noRow h3 w x hf

end Sys2Proof
end

section
/-!
PROOFS. Words that the spec writes out (O58).
-/
namespace Sys2Proof
open Machine

/-- Settles O58: the decoder, run over the list of words, answers the instructions beside them. -/
theorem decodeKnownWords : Obligations.DecodeKnownWords :=
  ⟨List.map_inj_left.mp rfl, rfl, rfl⟩

end Sys2Proof
end

section
/-!
PROOFS. Rounding to an integer by a mode, exact results, and results beyond FP32's range (R93, R95, R97, R155).
-/
namespace Sys2Proof
open Machine

/-! ## Rounding to an integer -/

/-- What the mode with a code makes of a value is this integer: for 0 and 4 a nearest one, at a tie the even one or the one further from zero;
for 1 to 3 the next one toward zero, upward or downward (R95, R155). -/
def RoundsBy (m : Nat) (x : ℚ) (v : Int) : Prop :=
  match m with
  | 0 => |v - x| ≤ 1 / 2 ∧ (|v - x| = 1 / 2 → v % 2 = 0)
  | 1 => |(v : ℚ)| ≤ |x| ∧ |x| < |(v : ℚ)| + 1 ∧ 0 ≤ v * x
  | 2 => x ≤ v ∧ v < x + 1
  | 3 => v ≤ x ∧ x < v + 1
  | _ => |v - x| ≤ 1 / 2 ∧ (|v - x| = 1 / 2 → |x| ≤ |(v : ℚ)|)

/-- The integer (-1)^s n. -/
def signedInt (s : Bool) (n : Nat) : Int := if s then -(n : Int) else n

theorem cast_signedInt (s : Bool) (n : Nat) : (signedInt s n : ℚ) = withSign s n := by
  cases s
  · exact Int.cast_natCast n
  · exact (Int.cast_neg _).trans (congrArg _ (Int.cast_natCast n))

theorem signedInt_even (s : Bool) {n : Nat} (h : n % 2 = 0) : signedInt s n % 2 = 0 := by
  unfold signedInt
  split <;> omega

/-- Whether the mode with a code takes a magnitude with integer part `lo` and fraction `t` away from zero (R95). -/
def AwayBy (m : Nat) (s : Bool) (lo : Nat) (t : ℚ) : Prop :=
  match m with
  | 0 => 1 / 2 < t ∨ 1 / 2 = t ∧ lo % 2 = 1
  | 1 => False
  | 2 => 0 < t ∧ s = false
  | 3 => 0 < t ∧ s = true
  | _ => 1 / 2 ≤ t

theorem up_iff_awayBy {m : Nat} (hm : m ≤ 4) (u : Nat) (s : Bool) (lo : Nat) {r b : Nat} (h : r < b) :
    (RMode.ofCode m).up u s lo r b = true ↔ AwayBy m s lo (r / b) := by
  have hb : (0 : ℚ) < b := by exact_mod_cast (by omega : 0 < b)
  have hhalf : (1 : ℚ) / 2 < r / b ↔ b < 2 * r := by
    rw [div_lt_div_iff₀ two_pos hb, one_mul, mul_comm]
    exact_mod_cast Iff.rfl
  have htie : (1 : ℚ) / 2 = r / b ↔ 2 * r = b := by
    rw [div_eq_div_iff two_ne_zero hb.ne', one_mul, mul_comm, eq_comm]
    exact_mod_cast Iff.rfl
  have hpos : (0 : ℚ) < r / b ↔ 0 < r := by
    rw [div_pos_iff_of_pos_right hb, Nat.cast_pos]
  match m with
  | 0 => simp only [RMode.ofCode, RMode.up, AwayBy, hhalf, htie, Bool.or_eq_true, Bool.and_eq_true, decide_eq_true_eq, beq_iff_eq]
  | 1 => simp [RMode.ofCode, RMode.up, AwayBy]
  | 2 | 3 => simp [RMode.ofCode, RMode.up, AwayBy, hpos]
  | 4 =>
    simp only [RMode.ofCode, RMode.up, AwayBy, decide_eq_true_eq, le_iff_lt_or_eq, hhalf, htie]
    omega

/-- The distance of a rounding from its value. -/
theorem abs_away_sub (lo : Nat) {t : ℚ} (h0 : 0 ≤ t) (h1 : t < 1) (up : Bool) :
    |((lo + if up then 1 else 0 : Nat) : ℚ) - (lo + t)| = if up then 1 - t else t := by
  cases up
  · simpa using h0
  · simpa [add_sub_add_left_eq_sub] using h1.le

/-- An integer part that goes away from zero at every fraction is the next integer not below the value. -/
theorem away_ceil (lo : Nat) {t : ℚ} (h0 : 0 ≤ t) (h1 : t < 1) {up : Bool} (hup : up = true ↔ 0 < t) :
    lo + t ≤ ((lo + if up then 1 else 0 : Nat) : ℚ) ∧ ((lo + if up then 1 else 0 : Nat) : ℚ) < lo + t + 1 := by
  cases up
  · obtain rfl : t = 0 := le_antisymm (by simpa using hup) h0
    simp
  · have : 0 < t := by simpa using hup
    simp only [if_true, Nat.cast_add, Nat.cast_one]
    constructor <;> linarith

/-- An integer part that goes away from zero as a mode says is the mode's rounding, under either sign. -/
theorem roundsBy_of_awayBy {m : Nat} (hm : m ≤ 4) {s : Bool} {lo : Nat} {t : ℚ} {up : Bool} (hup : up = true ↔ AwayBy m s lo t) (h0 : 0 ≤ t)
    (h1 : t < 1) : RoundsBy m (withSign s (lo + t)) (signedInt s (lo + if up then 1 else 0)) := by
  have hlo : (0 : ℚ) ≤ lo := Nat.cast_nonneg lo
  have hdist := (abs_withSign_sub s ((lo + if up then 1 else 0 : Nat) : ℚ) (lo + t)).trans (abs_away_sub lo h0 h1 up)
  have hx := abs_withSign s (add_nonneg hlo h0)
  have hv := abs_withSign s (Nat.cast_nonneg (α := ℚ) (lo + if up then 1 else 0))
  match m with
  | 0 =>
    simp only [RoundsBy, AwayBy, cast_signedInt, hdist] at hup ⊢
    cases up
    · simp only [Bool.false_eq_true, false_iff, not_or, not_lt, not_and, if_false] at hup ⊢
      exact ⟨hup.1, fun ht => signedInt_even s (by have := hup.2 ht.symm; omega)⟩
    · simp only [true_iff, if_true] at hup ⊢
      refine ⟨?_, fun ht => signedInt_even s ?_⟩
      · rcases hup with h | ⟨h, -⟩ <;> linarith
      · rcases hup with h | ⟨-, h⟩
        · linarith
        · omega
  | 1 =>
    obtain rfl : up = false := by simpa [AwayBy] using hup
    simp only [RoundsBy, cast_signedInt, hx, hv]
    refine ⟨?_, ?_, ?_⟩
    · simpa using h0
    · simpa using h1
    · cases s
      · simp only [withSign, Bool.false_eq_true, if_false]
        positivity
      · simp only [withSign, if_true, neg_mul_neg]
        positivity
  | 2 =>
    simp only [RoundsBy, cast_signedInt]
    cases s
    · exact away_ceil lo h0 h1 (by simpa [AwayBy] using hup)
    · obtain rfl : up = false := by simpa [AwayBy] using hup
      simp only [withSign, Bool.false_eq_true, if_true, if_false, Nat.add_zero]
      constructor <;> linarith
  | 3 =>
    simp only [RoundsBy, cast_signedInt]
    cases s
    · obtain rfl : up = false := by simpa [AwayBy] using hup
      simp only [withSign, Bool.false_eq_true, if_false, Nat.add_zero]
      constructor <;> linarith
    · obtain ⟨hge, hlt⟩ := away_ceil lo h0 h1 (up := up) (by simpa [AwayBy] using hup)
      exact ⟨neg_le_neg hge, by simp only [withSign, if_true]; linarith⟩
  | 4 =>
    simp only [RoundsBy, AwayBy, cast_signedInt, hdist, hx, hv] at hup ⊢
    cases up
    · have ht : t < 1 / 2 := by simpa using hup
      simp only [Bool.false_eq_true, if_false]
      exact ⟨ht.le, fun h => absurd h ht.ne⟩
    · have ht : 1 / 2 ≤ t := by simpa using hup
      simp only [if_true, Nat.cast_add, Nat.cast_one]
      exact ⟨by linarith, fun _ => by linarith⟩

/-- The model's rounding to an integer is that of the mode (R97, R155). -/
theorem toIntegral_roundsBy {m : Nat} (hm : m ≤ 4) (s : Bool) (n : Nat) (e : Int) :
    RoundsBy m (ratOf s n e) (signedInt s (toIntegral (RMode.ofCode m) s n e).1) := by
  obtain ⟨lo, r, b, hr, hval, hx⟩ := roundAt_parts (RMode.ofCode m) 0 s n one_ne_zero e 0
  rw [inUnits, natCast_div_one, sub_zero] at hval
  rw [ratOf_eq, hval, toIntegral, hx]
  exact roundsBy_of_awayBy hm (up_iff_awayBy hm 0 s lo hr) (by positivity) (remainder_lt_one hr)

/-- A rounding to an integer is exact where the value is that integer. -/
theorem toIntegral_exact_iff (m : RMode) (s : Bool) (n : Nat) (e : Int) :
    (toIntegral m s n e).2 = true ↔ ratOf s n e = (signedInt s (toIntegral m s n e).1 : ℚ) := by
  have h := roundAt_exact_iff m 0 s n one_ne_zero e 0 (x := (toIntegral m s n e).1)
  rw [inUnits, natCast_div_one, sub_zero] at h
  have hsign : Function.Injective (withSign s) := by
    cases s
    · exact Function.injective_id
    · exact neg_injective
  rw [cast_signedInt, ratOf_eq, hsign.eq_iff, ← h]
  exact ⟨fun hx => Prod.ext rfl hx, fun hx => congrArg Prod.snd hx⟩

/-- A magnitude that is an integer rounds to itself. -/
theorem toIntegral_natCast {m : RMode} {s : Bool} {n : Nat} {e : Int} {x : Nat} (h : (n : ℚ) * 2 ^ e = x) : toIntegral m s n e = (x, true) :=
  (roundAt_exact_iff m 0 s n one_ne_zero e 0).mpr (by rwa [inUnits, natCast_div_one, sub_zero])

/-- A significand with bits below the point rounds to less than a significand has room for. -/
theorem toIntegral_le {m : RMode} {s : Bool} {n : Nat} {e : Int} (hn : n < 2 ^ 24) (he : e < 0) : (toIntegral m s n e).1 ≤ 2 ^ 23 := by
  refine roundAt_le m 0 s n one_ne_zero e 0 ?_
  rw [inUnits, natCast_div_one, sub_zero]
  calc (n : ℚ) * 2 ^ e ≤ (2 ^ 24 : Nat) * 2 ^ (-1 : Int) := by
        gcongr
        · exact one_le_two
        · omega
    _ = (2 ^ 23 : Nat) := by norm_num

/-! ## Exact results -/

theorem signed32_lt (s : Bool) {k : Nat} (hk : k ≤ fp32.maxCode) : fp32.signed s k < 2 ^ 32 := by
  change k ≤ 0x7F7FFFFF at hk
  change (if s then 2 ^ 31 + k else k) < 2 ^ 32
  split <;> omega

/-- A value in FP32's range whose significand has 24 bits is delivered as it is (R93). -/
theorem ofFV32_exact (m : RMode) (u : Nat) (s : Bool) {n : Nat} {e : Int} (hn : n < 2 ^ 24) (he : -149 ≤ e) (hx : (n : ℚ) * 2 ^ e ≤ 2 ^ (127 : Int)) :
    (fp32.ofFV m u (.fin s n e)).1 < 2 ^ 32 ∧
      ∃ k q, fp32.decode (fp32.ofFV m u (.fin s n e)).1 = .fin s k q ∧ ratOf s k q = ratOf s n e := by
  by_cases h0 : n = 0
  · subst h0
    exact ⟨signed32_lt s (Nat.zero_le _), _, _, decode_signed (by decide) s (Nat.zero_le _), by rw [ratOf_magSig, ratOf_eq, magVal_zero]; simp⟩
  · have hq : quantum fp32 n 1 e ≤ e :=
      max_le (show leadExp n 1 + e - (23 : Nat) ≤ e by have := leadExp_lt h0 hn; omega) (leastExp_fp32.trans_le he)
    obtain ⟨j, hj⟩ := Int.le.dest hq
    have hunits : (n : ℚ) / (1 : Nat) * 2 ^ e = (n * 2 ^ j : Nat) * 2 ^ quantum fp32 n 1 e := by
      rw [natCast_div_one, Nat.cast_mul, mul_assoc, ← binade_units, hj]
    have hc := round32_finite (m := m) (u := u) (s := s) h0 one_ne_zero ((natCast_div_one n).symm ▸ hx)
    have hr : (fp32.ofFV m u (.fin s n e)).1 = fp32.signed s (roundCode fp32 m u s n 1 e) :=
      (congrArg Prod.fst (if_neg h0)).trans (round_fst fp32 m u s e hc)
    rw [hr]
    refine ⟨signed32_lt s hc, _, _, decode_signed (by decide) s hc, ?_⟩
    rw [ratOf_magSig, (round_units fp32 m u s e h0 one_ne_zero hunits).2, natCast_div_one, ratOf_eq]

/-! ## Results beyond the range of FP32 -/

theorem magVal_infCode : magVal fp32 fp32.infCode = 2 ^ (128 : Int) := by
  have h := magVal_units fp32 (i := 254) (x := 2 ^ 23) (by decide) (Or.inr le_rfl)
  rw [leastExp_fp32] at h
  exact h.trans (by norm_num)

theorem round_of_overflow (f : Fmt) (m : RMode) (u : Nat) (s : Bool) {n d : Nat} (e : Int) (h : f.maxCode < roundCode f m u s n d e) :
    f.round m u s n d e = (f.signed s (if f.hasInf && !(m.saturates s) then f.infCode else f.maxCode), flagOF ||| flagNX) := if_pos h

/-- What lies clearly below the normal values is tiny (R93, R98). -/
theorem round_flags_of_tiny (f : Fmt) (m : RMode) (u : Nat) (s : Bool) {n d : Nat} (e : Int) (h : roundCode f m u s n d e ≤ f.maxCode) :
    ∃ tiny : Bool, (f.round m u s n d e).2 = (if (roundAt m u s n d e (quantum f n d e)).2 then 0 else flagIf tiny flagUF ||| flagNX) ∧
      (leadExp n d + e + 1 < f.emin → tiny = true) :=
  ⟨_, congrArg Prod.snd (if_neg (Nat.not_lt.mpr h)), fun h => by simp; omega⟩

theorem maxCode_lt_infCode : fp32.maxCode < fp32.infCode := by decide

section Beyond
variable (u : Nat) (s : Bool) {n : Nat} (hn : n ≠ 0) {e : Int}
include hn

/-- RNE takes what is too large to an infinity, with OF and NX (R95, R98). -/
theorem round32_rne_large (h : (2 : ℚ) ^ (128 : Int) ≤ n * 2 ^ e) :
    fp32.round .rne u s n 1 e = (fp32.signed s fp32.infCode, flagOF ||| flagNX) := by
  rw [← magVal_infCode, ← natCast_div_one n] at h
  have hle := (magVal_strictMono fp32).le_iff_le.mp (magVal_le_roundCode fp32 .rne u s e hn one_ne_zero h)
  have hr := round_of_overflow fp32 .rne u s e (maxCode_lt_infCode.trans_le hle)
  have hi : (if fp32.hasInf && !(RMode.rne.saturates s) then fp32.infCode else fp32.maxCode) = fp32.infCode := if_pos rfl
  rw [hr, hi]

/-- RNE takes what lies below half the least magnitude to zero, with UF and NX (R95, R98). -/
theorem round32_rne_small (h : (n : ℚ) * 2 ^ e < 2 ^ (-150 : Int)) :
    fp32.round .rne u s n 1 e = (fp32.signed s 0, flagUF ||| flagNX) := by
  have hlead : leadExp n 1 + e < -150 := by
    have hlo := (leadExp_spec hn one_ne_zero).1
    rw [natCast_div_one] at hlo
    rw [← zpow_lt_zpow_iff_right₀ (one_lt_two (α := ℚ)), two_zpow_add]
    exact (mul_le_mul_of_nonneg_right hlo (two_zpow_pos e).le).trans_lt h
  have hq : quantum fp32 n 1 e = -149 :=
    (max_eq_right (show leadExp n 1 + e - (23 : Nat) ≤ leastExp fp32 by rw [leastExp_fp32]; omega)).trans leastExp_fp32
  have hunits : inUnits n 1 e (-149) < 1 / 2 := by
    rw [inUnits, natCast_div_one, sub_eq_add_neg, two_zpow_add, ← mul_assoc]
    calc (n : ℚ) * 2 ^ e * 2 ^ (- -149 : Int) < 2 ^ (-150 : Int) * 2 ^ (- -149 : Int) := by gcongr
      _ = 1 / 2 := by norm_num
  have hpos : 0 < inUnits n 1 e (-149) := by
    rw [inUnits, natCast_div_one]
    exact mul_pos (by exact_mod_cast Nat.pos_of_ne_zero hn) (two_zpow_pos _)
  have hzero : (roundAt .rne u s n 1 e (-149)).1 = 0 := by
    have hnear := (abs_le.mp (roundAt_rne u s n one_ne_zero e (-149))).2
    exact Nat.lt_one_iff.mp (by exact_mod_cast (by linarith : ((roundAt .rne u s n 1 e (-149)).1 : ℚ) < 1))
  have hinexact : (roundAt .rne u s n 1 e (-149)).2 = false := by
    by_contra hx
    have hval := (roundAt_exact_iff .rne u s n one_ne_zero e (-149)).mp (Prod.ext hzero (by simpa using hx) : _ = (0, true))
    rw [hval, Nat.cast_zero] at hpos
    exact lt_irrefl _ hpos
  have hcode : roundCode fp32 .rne u s n 1 e = 0 := by
    rw [roundCode, hq, hzero, leastExp_fp32]
    rfl
  have hfst := round_fst fp32 .rne u s e (hcode.trans_le (Nat.zero_le _))
  obtain ⟨tiny, hsnd, htiny⟩ := round_flags_of_tiny fp32 .rne u s e (hcode.trans_le (Nat.zero_le _))
  rw [hcode] at hfst
  rw [hq, hinexact, htiny (show leadExp n 1 + e + 1 < -126 by omega)] at hsnd
  exact Prod.ext hfst hsnd

end Beyond

end Sys2Proof
end

section
/-!
PROOFS. The values of the conversions and of FMISC (R97, R153 to R159).
-/
namespace Sys2Proof
open Machine

/-! ## FP32 patterns -/

theorem decode32_nan {x : Nat} (h : x / 2 ^ 23 % 256 = 255 ∧ x % 2 ^ 23 ≠ 0) : fp32.decode x = .nan (x / 2 ^ 22 % 2 == 0) := by
  rw [decode_fp32, if_pos h.1, if_neg h.2]

theorem decode32_inf {x : Nat} (h : x % 2 ^ 31 = 0x7F800000) : fp32.decode x = .inf (x / 2 ^ 31 % 2 == 1) := by
  rw [decode_fp32, if_pos (by omega), if_pos (by omega)]

theorem decode32_zero {x : Nat} (h : x % 2 ^ 31 = 0) : fp32.decode x = .fin (x / 2 ^ 31 % 2 == 1) 0 (-149) := by
  rw [decode_fp32, if_neg (by omega), if_pos (by omega), show x % 2 ^ 23 = 0 by omega]

/-- A pattern whose exponent is all ones is no finite value (R88). -/
theorem decode32_top {x : Nat} (h : x / 2 ^ 23 % 256 = 255) : (∃ s, fp32.decode x = .inf s) ∨ ∃ g, fp32.decode x = .nan g := by
  rw [decode_fp32, if_pos h]
  split
  · exact Or.inl ⟨_, rfl⟩
  · exact Or.inr ⟨_, rfl⟩

/-- The sign bit (R88). -/
theorem bits_sign (x : W32) : bits x.toNat 31 1 = x.msb.toNat := by
  have := x.isLt
  rw [bits, BitVec.msb_eq_decide]
  by_cases h : 2 ^ (32 - 1) ≤ x.toNat <;> simp only [h, decide_true, decide_false, Bool.toNat_true, Bool.toNat_false] <;> omega

theorem bits_sign_one (x : W32) : (bits x.toNat 31 1 == 1) = x.msb := by
  rw [bits_sign]
  cases x.msb <;> rfl

theorem bits_sign_zero (x : W32) : (bits x.toNat 31 1 == 0) = !x.msb := by
  rw [bits_sign]
  cases x.msb <;> rfl

/-- A sign put on a pattern (R158). -/
theorem signOn_eq (x : Nat) (neg : Bool) :
    signOn x neg = if x / 2 ^ 23 % 256 = 255 ∧ x % 2 ^ 23 ≠ 0 then 0x7FC00000 else x % 2 ^ 31 + (if neg then 2 ^ 31 else 0) := by
  have hnan : nan32 x = true ↔ x / 2 ^ 23 % 256 = 255 ∧ x % 2 ^ 23 ≠ 0 := by simp [nan32]
  rw [signOn, isNan_decode]
  refine if_congr hnan rfl ?_
  cases neg
  · rfl
  · exact Nat.add_comm _ _

/-- FCLASS by the exponent and fraction fields (R159). -/
theorem fclassBit_fields (y : Nat) : fclassBit y =
    if y / 2 ^ 23 % 256 = 255 ∧ y % 2 ^ 23 ≠ 0 then (if y / 2 ^ 22 % 2 = 1 then 8 else 9) else if y / 2 ^ 23 % 256 = 255 then 6 + y / 2 ^ 31 % 2
    else if y / 2 ^ 23 % 256 = 0 ∧ y % 2 ^ 23 = 0 then y / 2 ^ 31 % 2 else if y / 2 ^ 23 % 256 = 0 then 2 + y / 2 ^ 31 % 2
    else 4 + y / 2 ^ 31 % 2 := by
  simp [fclassBit, bits]

theorem fclassBit_nan {y : Nat} (he : y / 2 ^ 23 % 256 = 255) (hm : y % 2 ^ 23 ≠ 0) : fclassBit y = if y / 2 ^ 22 % 2 = 1 then 8 else 9 := by
  rw [fclassBit_fields, if_pos ⟨he, hm⟩]

theorem fclassBit_subnormal {y : Nat} (he : y / 2 ^ 23 % 256 = 0) (hm : y % 2 ^ 23 ≠ 0) : fclassBit y = 2 + y / 2 ^ 31 % 2 := by
  rw [fclassBit_fields, if_neg (by omega), if_neg (by omega), if_neg (by omega), if_pos he]

theorem fclassBit_normal {y : Nat} (h0 : y / 2 ^ 23 % 256 ≠ 0) (htop : y / 2 ^ 23 % 256 ≠ 255) : fclassBit y = 4 + y / 2 ^ 31 % 2 := by
  rw [fclassBit_fields, if_neg (by omega), if_neg htop, if_neg (by omega), if_neg h0]

/-- The class of a pattern, by its place among the patterns (R159). -/
theorem fclassBit_eq {y : Nat} (hy : y < 2 ^ 32) : fclassBit y =
    if y = 0 then 0 else if y = 2 ^ 31 then 1 else if y < 2 ^ 23 then 2 else if 2 ^ 31 < y ∧ y < 2 ^ 31 + 2 ^ 23 then 3
    else if y < 0x7F800000 then 4 else if 2 ^ 31 < y ∧ y < 0xFF800000 then 5 else if y = 0x7F800000 then 6 else if y = 0xFF800000 then 7
    else if y / 2 ^ 22 % 2 = 1 then 8 else 9 := by
  split
  case isTrue h => rw [h]; rfl
  split
  case isTrue h => rw [h]; rfl
  split
  case isTrue h => rw [fclassBit_subnormal] <;> omega
  split
  case isTrue h => rw [fclassBit_subnormal] <;> omega
  split
  case isTrue h => rw [fclassBit_normal] <;> omega
  split
  case isTrue h => rw [fclassBit_normal] <;> omega
  split
  case isTrue h => rw [h]; rfl
  split
  case isTrue h => rw [h]; rfl
  exact fclassBit_nan (by omega) (by omega)

/-! ## FRND, FCVTI and ICVTF -/

/-- FRND of a finite value is its mode's integer, under the operand's sign (R155). -/
theorem frnd32_fin {m x : Nat} {s : Bool} {n : Nat} {e : Int} (hm : m ≤ 4) (hx : x < 2 ^ 32) (h : fp32.decode x = .fin s n e) :
    (frnd32 (RMode.ofCode m) x).1 < 2 ^ 32 ∧ (frnd32 (RMode.ofCode m) x).2 = 0 ∧ ∃ k q, ∃ v : Int,
      fp32.decode (frnd32 (RMode.ofCode m) x).1 = .fin s k q ∧ ratOf s k q = v ∧ RoundsBy m (ratOf s n e) v := by
  have hround := toIntegral_roundsBy hm s n e
  have hf : frnd32 (RMode.ofCode m) x =
      if 0 ≤ e ∨ n = 0 then (x, 0) else ((fp32.ofFV .rne 0 (.fin s (toIntegral (RMode.ofCode m) s n e).1 0)).1, 0) := by
    unfold frnd32
    rw [h]
  rw [hf]
  split
  case isTrue hint =>
    have hnat : ∃ t : Nat, (n : ℚ) * 2 ^ e = t := by
      rcases hint with he | rfl
      · obtain ⟨j, rfl⟩ := Int.eq_ofNat_of_zero_le he
        exact ⟨n * 2 ^ j, by simp⟩
      · exact ⟨0, by simp⟩
    obtain ⟨t, ht⟩ := hnat
    exact ⟨hx, rfl, n, e, _, h, (toIntegral_exact_iff _ s n e).mp (congrArg Prod.snd (toIntegral_natCast ht)), hround⟩
  case isFalse hfrac =>
    have hle := toIntegral_le (m := RMode.ofCode m) (s := s) (fin_bounds h).1 (by omega : e < 0)
    have hrange : ((toIntegral (RMode.ofCode m) s n e).1 : ℚ) * 2 ^ (0 : Int) ≤ 2 ^ (127 : Int) := by
      rw [zpow_zero, mul_one]
      calc ((toIntegral (RMode.ofCode m) s n e).1 : ℚ) ≤ (2 ^ 23 : Nat) := by exact_mod_cast hle
        _ ≤ 2 ^ (127 : Int) := by norm_num
    obtain ⟨hlt, k, q, hdec, hval⟩ := ofFV32_exact .rne 0 s (by omega : (toIntegral (RMode.ofCode m) s n e).1 < 2 ^ 24) (by decide) hrange
    refine ⟨hlt, rfl, k, q, _, hdec, ?_, hround⟩
    rw [hval, ratOf_eq, zpow_zero, mul_one, cast_signedInt]

theorem frnd32_nan {m : RMode} {x : Nat} {sig : Bool} (h : fp32.decode x = .nan sig) : frnd32 m x = (0x7FC00000, if sig then flagNV else 0) := by
  unfold frnd32
  rw [h]
  rfl

theorem frnd32_inf {m : RMode} {x : Nat} {s : Bool} (h : fp32.decode x = .inf s) : frnd32 m x = (x, 0) := by
  unfold frnd32
  rw [h]

theorem fcvti32_nan {t : Nat} {m : RMode} {x : Nat} {sig : Bool} (h : fp32.decode x = .nan sig) : fcvti32 t m x = (0, flagNV) := by
  unfold fcvti32
  rw [h]

theorem fcvti32_inf {t : Nat} {m : RMode} {x : Nat} {s : Bool} (h : fp32.decode x = .inf s) :
    fcvti32 t m x = (BitVec.ofInt 32 (if s then (intRange t).1 else (intRange t).2), flagNV) := by
  unfold fcvti32
  rw [h]

theorem intRange_le (t : Nat) : (intRange t).1 ≤ (intRange t).2 := by
  match t with
  | 0 | 1 | 2 | 3 | 4 => decide
  | _ + 5 => exact (by decide : (0 : Int) ≤ 255)

/-- FCVTI of a finite value: its mode's integer, or the end of the type that lies nearer (R97). -/
theorem fcvti32_fin {m x : Nat} {s : Bool} {n : Nat} {e : Int} (t : Nat) (hm : m ≤ 4) (h : fp32.decode x = .fin s n e) : ∃ v : Int,
    RoundsBy m (ratOf s n e) v ∧
    ((intRange t).2 < v → fcvti32 t (RMode.ofCode m) x = (BitVec.ofInt 32 (intRange t).2, flagNV)) ∧
    (v < (intRange t).1 → fcvti32 t (RMode.ofCode m) x = (BitVec.ofInt 32 (intRange t).1, flagNV)) ∧
    ((intRange t).1 ≤ v → v ≤ (intRange t).2 →
      fcvti32 t (RMode.ofCode m) x = (BitVec.ofInt 32 v, if ratOf s n e = v then 0 else flagNX)) := by
  have hf : fcvti32 t (RMode.ofCode m) x =
      if (intRange t).2 < signedInt s (toIntegral (RMode.ofCode m) s n e).1 then (BitVec.ofInt 32 (intRange t).2, flagNV)
      else if signedInt s (toIntegral (RMode.ofCode m) s n e).1 < (intRange t).1 then (BitVec.ofInt 32 (intRange t).1, flagNV)
      else (BitVec.ofInt 32 (signedInt s (toIntegral (RMode.ofCode m) s n e).1), flagIf (!(toIntegral (RMode.ofCode m) s n e).2) flagNX) := by
    unfold fcvti32
    rw [h]
    rfl
  have hle := intRange_le t
  refine ⟨_, toIntegral_roundsBy hm s n e, fun hv => hf.trans (if_pos hv), fun hv => hf.trans ?_, fun hlo hhi => hf.trans ?_⟩
  · rw [if_neg (by omega), if_pos hv]
  · rw [if_neg (by omega), if_neg (by omega)]
    refine congrArg (Prod.mk _) ?_
    have hexact := toIntegral_exact_iff (RMode.ofCode m) s n e
    cases hx : (toIntegral (RMode.ofCode m) s n e).2
    · exact (if_neg (mt hexact.mpr (by simp [hx]))).symm
    · exact (if_pos (hexact.mp hx)).symm

/-- A narrow signed integer in a register (R90, R157). -/
theorem sx_eq_toInt (x : W32) {n : Nat} (hn : n ≠ 0) : sx x.toNat n = (x.setWidth n).toInt := by
  obtain ⟨k, rfl⟩ := Nat.exists_eq_add_one_of_ne_zero hn
  rw [BitVec.toInt_eq_toNat_cond, BitVec.toNat_setWidth, sx, Nat.add_sub_cancel]
  refine if_congr ?_ rfl (by push_cast; rfl)
  rw [Nat.pow_succ']
  omega

theorem icvtfOperand_eq (x : W32) {t : Nat} (ht : t ≤ 5) : icvtfOperand t x =
    [x.toInt, (x.toNat : Int), (x.setWidth 16).toInt, ((x.setWidth 16).toNat : Int), (x.setWidth 8).toInt, ((x.setWidth 8).toNat : Int)].getD t 0 := by
  match t with
  | 0 | 1 => rfl
  | 2 => exact sx_eq_toInt x (by decide)
  | 3 => simp [icvtfOperand, bits]
  | 4 => exact sx_eq_toInt x (by decide)
  | 5 => simp [icvtfOperand, bits]

/-! ## FSCALEB, FREXPE and FREXPM -/

/-- FSCALEB's bound on the scale does not change the rounding (R158). -/
theorem round32_rne_clamp (s : Bool) {n : Nat} {e : Int} (k : Int) (hn : n ≠ 0) (hlt : n < 2 ^ 24) (he : -149 ≤ e ∧ e ≤ 104) :
    fp32.round .rne 0 s n 1 (e + max (-600) (min 600 k)) = fp32.round .rne 0 s n 1 (e + k) := by
  have hlarge : ∀ j : Int, 128 ≤ j → (2 : ℚ) ^ (128 : Int) ≤ n * 2 ^ j := fun j hj =>
    (zpow_le_zpow_right₀ one_le_two hj).trans (le_mul_of_one_le_left (two_zpow_pos j).le (by exact_mod_cast Nat.pos_of_ne_zero hn))
  have hsmall : ∀ j : Int, j ≤ -174 → (n : ℚ) * 2 ^ j < 2 ^ (-150 : Int) := fun j hj => by
    calc (n : ℚ) * 2 ^ j < (2 ^ 24 : Nat) * 2 ^ j := by
          have := two_zpow_pos j
          gcongr
      _ = 2 ^ (j + (24 : Nat)) := (binade_units ..).symm
      _ ≤ 2 ^ (-150 : Int) := zpow_le_zpow_right₀ one_le_two (by omega)
  by_cases hhi : 600 < k
  · rw [round32_rne_large 0 s hn (hlarge _ (by omega)), round32_rne_large 0 s hn (hlarge _ (by omega))]
  · by_cases hlo : k < -600
    · rw [round32_rne_small 0 s hn (hsmall _ (by omega)), round32_rne_small 0 s hn (hsmall _ (by omega))]
    · rw [show max (-600) (min 600 k) = k by omega]

theorem fscaleb32_fin {x : Nat} {s : Bool} {n : Nat} {e : Int} (k : Int) (h : fp32.decode x = .fin s n e) (hn : n ≠ 0) :
    fscaleb32 x k = fp32.ofFV .rne 0 (.fin s n (e + k)) := by
  obtain ⟨hlt, hlo, hhi, -⟩ := fin_bounds h
  have hf : fscaleb32 x k = fp32.round .rne 0 s n 1 (e + max (-600) (min 600 k)) := by
    unfold fscaleb32
    rw [h]
    exact if_neg hn
  rw [hf, round32_rne_clamp s k hn hlt ⟨hlo, hhi⟩]
  exact (if_neg hn).symm

theorem fscaleb32_zero {x : Nat} {s : Bool} {e : Int} (k : Int) (h : fp32.decode x = .fin s 0 e) : fscaleb32 x k = (x, 0) := by
  unfold fscaleb32
  rw [h]
  rfl

theorem fscaleb32_nan {x : Nat} {sig : Bool} {k : Int} (h : fp32.decode x = .nan sig) : fscaleb32 x k = (0x7FC00000, 0) := by
  unfold fscaleb32
  rw [h]
  rfl

theorem fscaleb32_inf {x : Nat} {s : Bool} {k : Int} (h : fp32.decode x = .inf s) : fscaleb32 x k = (x, 0) := by
  unfold fscaleb32
  rw [h]

theorem frexpe32_zero {x : Nat} {s : Bool} {e : Int} (h : fp32.decode x = .fin s 0 e) : frexpe32 x = 0x80000000#32 := by
  unfold frexpe32
  rw [h]
  rfl

theorem frexpe32_top {x : Nat} (h : (∃ s, fp32.decode x = .inf s) ∨ ∃ g, fp32.decode x = .nan g) : frexpe32 x = 0x7FFFFFFF#32 := by
  unfold frexpe32
  obtain ⟨_, h⟩ | ⟨_, h⟩ := h <;> rw [h]

theorem frexpm32_nan {x : Nat} {sig : Bool} (h : fp32.decode x = .nan sig) : frexpm32 x = 0x7FC00000 := by
  unfold frexpm32
  rw [h]
  rfl

theorem frexpm32_zero {x : Nat} {s : Bool} {e : Int} (h : fp32.decode x = .fin s 0 e) : frexpm32 x = x := by
  unfold frexpm32
  rw [h]
  rfl

theorem frexpm32_inf {x : Nat} {s : Bool} (h : fp32.decode x = .inf s) : frexpm32 x = x := by
  unfold frexpm32
  rw [h]

theorem abs_ratOf (s : Bool) (n : Nat) (e : Int) : |ratOf s n e| = n * 2 ^ e := by
  rw [ratOf_eq, abs_withSign s (by positivity)]

/-- The binade of a number over a power of two. -/
theorem log2_binade {n : Nat} (hn : n ≠ 0) (e : Int) : (2 : ℚ) ^ (n.log2 + e) ≤ n * 2 ^ e ∧ (n : ℚ) * 2 ^ e < 2 ^ (n.log2 + e + 1) := by
  have hlo : (2 : ℚ) ^ (n.log2 : Int) ≤ n := by exact_mod_cast Nat.log2_self_le hn
  have hhi : (n : ℚ) < 2 ^ ((n.log2 : Int) + 1) := by exact_mod_cast Nat.lt_log2_self (n := n)
  rw [add_right_comm, two_zpow_add, two_zpow_add (_ + 1)]
  have := two_zpow_pos e
  constructor <;> gcongr

/-- FREXPE of a finite value names its binade (R158). -/
theorem frexpe32_fin {x : Nat} {s : Bool} {n : Nat} {e : Int} (h : fp32.decode x = .fin s n e) (hn : n ≠ 0) : ∃ k : Int,
    frexpe32 x = BitVec.ofInt 32 k ∧ (2 : ℚ) ^ k ≤ |ratOf s n e| ∧ |ratOf s n e| < 2 ^ (k + 1) := by
  refine ⟨n.log2 + e, ?_, ?_⟩
  · unfold frexpe32
    rw [h]
    exact if_neg hn
  · rw [abs_ratOf]
    exact log2_binade hn e

/-- FREXPM of a finite value is that value scaled to the binade of 1 (R158). -/
theorem frexpm32_fin {x : Nat} {s : Bool} {n : Nat} {e : Int} (h : fp32.decode x = .fin s n e) (hn : n ≠ 0) :
    frexpm32 x < 2 ^ 32 ∧ ∃ p q, ∃ k : Int, fp32.decode (frexpm32 x) = .fin s p q ∧ 1 ≤ |ratOf s p q| ∧ |ratOf s p q| < 2 ∧
      ratOf s n e = ratOf s p q * 2 ^ k := by
  have hlt := (fin_bounds h).1
  have hf : frexpm32 x = (fp32.ofFV .rne 0 (.fin s n (-(n.log2 : Int)))).1 := by
    unfold frexpm32
    rw [h]
    exact if_neg hn
  have hlog : n.log2 < 24 := (Nat.log2_lt hn).mpr hlt
  obtain ⟨h1, h2⟩ := log2_binade hn (-(n.log2 : Int))
  rw [add_neg_cancel, zpow_zero] at h1
  rw [add_neg_cancel, zero_add, zpow_one] at h2
  obtain ⟨hr, p, q, hdec, hval⟩ := ofFV32_exact .rne 0 s hlt (by omega : -149 ≤ -(n.log2 : Int)) (h2.le.trans (by norm_num))
  rw [hf]
  refine ⟨hr, p, q, n.log2 + e, hdec, ?_⟩
  rw [hval, abs_ratOf]
  refine ⟨h1, h2, ?_⟩
  rw [ratOf, ratOf, mul_assoc, ← two_zpow_add, neg_add_cancel_left]

end Sys2Proof
end

section
/-!
PROOFS. The conversions and FMISC complete with their values and flags (O10; R97, R153 to R159).
-/
namespace Sys2Proof
open Machine

/-- The instruction, where R71 allows its fields, gives V[D] and the flags of each lane of Active(g) with property `P`, 5 cycles after the issue. -/
def GivesRounded (s : State) (c : Issue) (g : Group) (d : BitVec 6) (i : Instr) (P : Nat → W32 → BitVec 5 → Prop) : Prop :=
  i.wf (s.regsOf g) = true → ∃ f h, Gives i s c 5 (vWrites c d f) (laneFlags c h) ∧ ∀ l, P l (f l) (h l)

section Forms
variable {s : State} {c : Issue} {g : Group} {i : Instr} {d a b : BitVec 6} {P : Nat → W32 → BitVec 5 → Prop} (h : Issues s c g)
include h

theorem formF1_rounded (f : W32 → Nat × BitVec 5)
    (hp : i.wf (s.regsOf g) = true → ∀ l, P l (BitVec.ofNat 32 (f ((g.lane l).rv a.toNat)).1) (f ((g.lane l).rv a.toNat)).2)
    (he : exec i s = formF1 i 5 d a f s := by dsimp only [exec]; rfl) : GivesRounded s c g d i P :=
  fun hw => ⟨_, _, formF1_flagged h he hw, hp hw⟩

theorem formF_rounded (f : Nat → Nat → Nat → Nat × BitVec 5) (r : W32 → W32 → Nat × BitVec 5) (hr : ∀ (x y : W32) (z : Nat), f x.toNat y.toNat z = r x y)
    (hp : ∀ l, P l (BitVec.ofNat 32 (r ((g.lane l).rv a.toNat) ((g.lane l).rv b.toNat)).1) (r ((g.lane l).rv a.toNat) ((g.lane l).rv b.toNat)).2)
    (he : exec i s = formF i 5 d a b f s := by dsimp only [exec]; rfl) : GivesRounded s c g d i P :=
  fun hw => ⟨_, _, formF_flagged h (fun _ => hr ..) he hw, hp⟩

/-- FCVT of each lane, with the u that the lane draws for SR at the issue (R96, R153). -/
def fcvtLane (s : State) (g : Group) (a : BitVec 6) (sp t m : BitVec 3) (l : Nat) : Nat × BitVec 5 :=
  fcvt sp.toNat t.toNat (RMode.ofCode m.toNat) (srDraw (s.cycleOf g) g.gslot l) ((g.lane l).rv a.toNat)

theorem fcvt_rounded (sp t m : BitVec 3) (hp : ∀ l, P l (BitVec.ofNat 32 (fcvtLane s g a sp t m l).1) (fcvtLane s g a sp t m l).2) :
    GivesRounded s c g d (.fcvt d a sp t m) P := by
  intro hw
  have hx : Gives (.fcvt d a sp t m) s c 5 (lanesDo c.mask fun l => [.v l d.toNat (BitVec.ofNat 32 (fcvtLane s g a sp t m l).1)])
      (laneFlags c fun l => (fcvtLane s g a sp t m l).2) := postFlags_gives h.2 (issue_ready ⟨h, hw⟩ _)
  rw [lanesDo_v] at hx
  exact ⟨_, _, hx, hp⟩

end Forms

/-! ## The modes and types that R71 allows -/

theorem frnd_mode {r : Nat} {d a : BitVec 6} {m : BitVec 3} (h : (Instr.frnd d a m).wf r = true) : m.toNat ≤ 4 :=
  of_decide_eq_true (Bool.and_eq_true_iff.mp h).2

theorem fcvti_fields {r : Nat} {d a : BitVec 6} {t m : BitVec 3} (h : (Instr.fcvti d a t m).wf r = true) : t.toNat ≤ 5 ∧ m.toNat ≤ 4 := by
  obtain ⟨h, hm⟩ := Bool.and_eq_true_iff.mp h
  exact ⟨of_decide_eq_true (Bool.and_eq_true_iff.mp h).2, of_decide_eq_true hm⟩

theorem icvtf_fields {r : Nat} {d a : BitVec 6} {t m : BitVec 3} (h : (Instr.icvtf d a t m).wf r = true) : t.toNat ≤ 5 ∧ m.toNat ≤ 4 :=
  fcvti_fields (d := d) (a := a) (r := r) h

/-- The integer types (R79, R90). -/
theorem intRange_eq {t : Nat} (ht : t ≤ 5) : intRange t =
    [((-2147483648, 2147483647) : Int × Int), (0, 4294967295), (-32768, 32767), (0, 65535), (-128, 127), (0, 255)].getD t (0, 0) := by
  match t with
  | 0 | 1 | 2 | 3 | 4 | 5 => rfl

/-- Settles O10: each instruction is its form, whose value meets the statement by the lemma of its operand's class. -/
theorem conversionResults : Obligations.ConversionResults := by
  intro s c g d a b sp t m h A B nan quiet sign val ofMode holds draw type int
  -- `holds`, `ofMode` and `val` name `GivesRounded`, `RoundsBy` and `ratOf` in the statement.
  have hholds : holds = GivesRounded s c g d := rfl
  have hmode : ofMode = RoundsBy := rfl
  have hval : val = ratOf := rfl
  clear_value holds ofMode val
  subst hholds hmode hval
  refine ⟨fcvt_rounded h sp t m fun l => ⟨rfl, rfl⟩,
    formF1_rounded h (fun x => frnd32 (RMode.ofCode m.toNat) x.toNat) fun hw l => ?frnd,
    formF1_rounded h _ fun hw l => ?fcvti,
    formF1_rounded h (icvtf32 t.toNat (RMode.ofCode m.toNat)) fun hw l => ?icvtf,
    formF_rounded h _ (fun x y => fscaleb32 x.toNat y.toInt) (fun x y z => ?scale) fun l => ?fscaleb,
    formF1_rounded h (fun x => ((frexpe32 x.toNat).toNat, 0)) fun _ l => ?frexpe,
    formF1_rounded h (fun x => (frexpm32 x.toNat, 0)) fun _ l => ?frexpm,
    formF1_rounded h (fun x => (2 ^ fclassBit x.toNat, 0)) fun _ l => ?fclass,
    formF_rounded h _ (fun x y => (signOn x.toNat y.msb, 0)) (fun x y z => ?sgnj) fun l => ⟨congrArg _ (signOn_eq ..), rfl⟩,
    formF_rounded h _ (fun x y => (signOn x.toNat (!y.msb), 0)) (fun x y z => ?sgnjn) fun l => ⟨congrArg _ (signOn_eq ..), rfl⟩,
    formF1_rounded h (fun x => (signOn x.toNat false, 0)) fun _ l => ⟨congrArg _ (signOn_eq ..), rfl⟩,
    formF1_rounded h _ fun _ l => ?fneg⟩
  case frnd =>
    refine ⟨fun sig hx => ?_, fun sg hx => ?_, fun sg n e hx => ?_⟩
    · rw [frnd32_nan hx]
      exact ⟨rfl, rfl⟩
    · rw [frnd32_inf hx]
      exact ⟨BitVec.ofNat_toNat .., rfl⟩
    · obtain ⟨hlt, hfl, k, q, v, hdec, hv, hround⟩ := frnd32_fin (frnd_mode hw) (A l).isLt hx
      refine ⟨k, q, v, ?_, hv, hround, hfl⟩
      rwa [BitVec.toNat_ofNat, Nat.mod_eq_of_lt hlt]
  case fcvti =>
    obtain ⟨ht, hm⟩ := fcvti_fields hw
    rw [BitVec.ofNat_toNat, BitVec.setWidth_eq]
    have htype : type = intRange t.toNat := (intRange_eq ht).symm
    clear_value type
    subst htype
    refine ⟨fun sig hx => ?_, fun sg hx => ?_, fun sg n e hx => ?_⟩
    · rw [fcvti32_nan hx]
      exact ⟨rfl, rfl⟩
    · rw [fcvti32_inf hx]
      exact ⟨rfl, rfl⟩
    · obtain ⟨v, hround, hhi, hlo, hin⟩ := fcvti32_fin t.toNat hm hx
      exact ⟨v, hround, fun h => Prod.mk.inj (hhi h), fun h => Prod.mk.inj (hlo h), fun h1 h2 => Prod.mk.inj (hin h1 h2)⟩
  case icvtf =>
    have hint : int (A l) = icvtfOperand t.toNat (A l) := (icvtfOperand_eq (A l) (icvtf_fields hw).1).symm
    dsimp only
    rw [hint]
    exact ⟨rfl, rfl⟩
  case scale => rw [BitVec.ofNat_toNat, BitVec.setWidth_eq]
  case fscaleb =>
    refine ⟨fun hx => ?_, fun sg hx => ?_, fun sg n e hx => ⟨fun h0 => ?_, fun hn => ?_⟩⟩
    · rw [fscaleb32_nan (decode32_nan hx)]
      exact ⟨rfl, rfl⟩
    · rw [fscaleb32_inf hx]
      exact ⟨BitVec.ofNat_toNat .., rfl⟩
    · subst h0
      rw [fscaleb32_zero _ hx]
      exact ⟨BitVec.ofNat_toNat .., rfl⟩
    · rw [fscaleb32_fin _ hx hn]
      exact ⟨rfl, rfl⟩
  case frexpe =>
    rw [BitVec.ofNat_toNat, BitVec.setWidth_eq]
    exact ⟨rfl, fun hx => frexpe32_zero (decode32_zero hx), fun hx => frexpe32_top (decode32_top hx), fun sg n e => frexpe32_fin⟩
  case frexpm =>
    refine ⟨rfl, fun hx => ?_, fun hx => ?_, fun sg n e hx hn => ?_⟩
    · rw [frexpm32_nan (decode32_nan hx)]
    · rw [hx.elim (fun h => frexpm32_zero (decode32_zero h)) fun h => frexpm32_inf (decode32_inf h)]
      exact BitVec.ofNat_toNat ..
    · obtain ⟨hlt, p, q, k, hdec, hnorm⟩ := frexpm32_fin hx hn
      refine ⟨p, q, k, ?_, hnorm⟩
      rwa [BitVec.toNat_ofNat, Nat.mod_eq_of_lt hlt]
  case fclass =>
    rw [fclassBit_eq (A l).isLt]
    exact ⟨rfl, rfl⟩
  case sgnj => rw [bits_sign_one]
  case sgnjn => rw [bits_sign_zero]
  case fneg =>
    rw [bits_sign_zero]
    exact ⟨congrArg _ (signOn_eq ..), rfl⟩

end Sys2Proof
end

section
/-!
PROOFS. Branches, calls and returns (O17; R169 to R172): when a transfer is aligned, and what it leaves of its group.
-/
namespace Sys2Proof
open Machine

/-- The lowest lane stands first among the lanes of a mask. -/
theorem lowLane_eq_headD (m : BitVec 32) : lowLane m = (lanesOf m).headD 0 := by
  rw [lowLane, lanesOf, List.headD_eq_head?_getD, List.head?_filter]

/-! ## Alignment (R40, R170) -/

theorem transfer_aligned {taken : Bool} {p : W32} (ha : taken = true → p.toNat % 4 ≠ 3) : (taken && badPc p) = false := by
  cases taken with
  | false => rfl
  | true => exact beq_false_of_ne (ha rfl)

/-- A branch that no lane takes, or whose target is aligned, raises no PC_ALIGN. -/
theorem taken_aligned {c : Issue} {g : Group} {k : BitVec 4} {t : W32}
    (ha : (∃ l < 32, c.mask.getLsbD l = true ∧ (g.lane l).cond k = true) → t.toNat % 4 ≠ 3) :
    (!(taken c g k).isEmpty && badPc t) = false := by
  refine transfer_aligned fun hne => ha ?_
  obtain ⟨l, hl⟩ := List.exists_mem_of_ne_nil (taken c g k) (by simpa using hne)
  obtain ⟨hmem, hcond⟩ := List.mem_filter.mp hl
  obtain ⟨hlt, hmask⟩ := mem_lanesOf.mp hmem
  exact ⟨l, hlt, hmask, hcond⟩

/-- Nor does a transfer whose target is aligned in each lane of Active(g). -/
theorem lanes_aligned {m : BitVec 32} {pc : Nat → W32} (ha : ∀ l < 32, m.getLsbD l = true → (pc l).toNat % 4 ≠ 3) :
    ((lanesOf m).any fun l => badPc (pc l)) = false := by
  refine any_lanesOf_eq_false ?_
  rintro ⟨l, hlt, hmask, hbad⟩
  exact ha l hlt hmask (beq_iff_eq.mp hbad)

/-! ## The group after a transfer (R170 to R172) -/

/-- A group whose lanes of the mask have gone to the PCs that `f` gives. -/
def transferred (c : Issue) (f : Nat → W32) (g : Group) : Group :=
  (lanesOf c.mask).foldl (fun g l => g.modLane l fun x => { x with pc := f l }) g

theorem transfer_group? {s : State} {c : Issue} {g : Group} (hg : s.group? c.gid = some g) (f : Nat → W32) :
    (s.transfer c f).group? c.gid = some (transferred c f g) := by
  have h := group?_modGroup_same s c.gid (transferred c f) (foldl_modLane_gid (fun l x => { x with pc := f l }) (lanesOf c.mask))
  rwa [hg] at h

theorem transferred_lane (c : Issue) (f : Nat → W32) {g : Group} {l : Nat} (hl : l < 32) (hg : g.lanes.length = 32) :
    (transferred c f g).lane l = if c.mask.getLsbD l then { g.lane l with pc := f l } else g.lane l := by
  refine (lane_foldl_modLane (fun l x => { x with pc := f l }) l (lanesOf c.mask) g (nodup_lanesOf _) (hg.symm ▸ hl)).trans ?_
  simp only [mem_lanesOf, hl, true_and]

theorem transferred_eq (c : Issue) (f : Nat → W32) (g : Group) : transferred c f g = { g with lanes := (transferred c f g).lanes } :=
  foldl_modLane_eq (fun l x => { x with pc := f l }) (lanesOf c.mask) g

/-- Settles O17: each instruction by the alignment of its target, and the group after a transfer lane by lane. -/
theorem branchesTransfer : Obligations.BranchesTransfer := by
  refine ⟨fun s c g k o a h => ?instructions, fun s c g f hg hl => ?frame⟩
  case instructions =>
    intro takes low goal some_
    refine ⟨fun hw ha => ?br, fun hw _ ha => ?bru, fun hw ha => ⟨_, rfl, ?call⟩, fun hw ha => ?jmpx, fun hw ha => ?ret⟩
    case br => exact issueAlign_ready ⟨h, hw⟩ _ (taken_aligned ha) _
    case bru =>
      have hlow : low = lowLane c.mask := (lowLane_eq_headD _).symm
      clear_value low
      subst hlow
      exact issueAlign_ready ⟨h, hw⟩ _ (transfer_aligned ha) _
    case call => exact issueAlign_ready ⟨h, hw⟩ _ (taken_aligned ha) _
    case jmpx => exact issueAlign_ready ⟨h, hw⟩ _ (Bool.and_eq_false_iff.mpr (.inr (lanes_aligned ha))) _
    case ret => exact issueAlign_ready ⟨h, hw⟩ _ (lanes_aligned ha) _
  case frame =>
    have heq := transferred_eq c f g
    refine ⟨transferred c f g, transfer_group? hg f, fun l hl32 => transferred_lane c f hl32 hl, ?_, ?_, ?_, ?_, ?_, transfer_memory s c f⟩ <;>
      rw [heq]

end Sys2Proof
end

section
/-!
PROOFS. Lane exchange, votes, reductions and moves (O6; R164 to R168).
-/
namespace Sys2Proof
open Machine

/-- The instruction, where R71 allows its fields, gives V[D] of each lane of Active(g) a value with property `P`, 6 cycles after the issue. -/
def GivesActive (s : State) (c : Issue) (g : Group) (d : BitVec 6) (i : Instr) (P : Nat → W32 → Prop) : Prop :=
  GivesWith s c g 6 d i fun l r => l < 32 ∧ c.mask.getLsbD l = true → P l r

theorem formV_active {s : State} {c : Issue} {g : Group} {i : Instr} {d : BitVec 6} (h : Issues s c g) (f : Issue → Group → Nat → W32)
    {P : Nat → W32 → Prop} (hp : ∀ l, l < 32 ∧ c.mask.getLsbD l = true → P l (f c g l))
    (he : exec i s = formV i 6 d f s := by dsimp only [exec]; rfl) : GivesActive s c g d i P :=
  fun hw => ⟨_, formV_gives ⟨h, hw⟩ he, hp⟩

/-! ## Exchange, votes and matches (R164 to R166) -/

/-- `r` is V[a] of the source lane `src l` where that lane is in Active(g), and of lane `l` otherwise (R164). -/
def IsFromSource (c : Issue) (g : Group) (a : Nat) (src : Nat → Int) (l : Nat) (r : W32) : Prop :=
  (∀ m : Nat, m < 32 ∧ c.mask.getLsbD m = true → src l = m → r = (g.lane m).rv a) ∧
  ((∀ m : Nat, m < 32 ∧ c.mask.getLsbD m = true → src l ≠ m) → r = (g.lane l).rv a)

theorem shflValue_isFromSource (c : Issue) (g : Group) (a : Nat) (src : Nat → Int) (l : Nat) :
    IsFromSource c g a src l (g.shflValue c.mask a l (src l)) := by
  refine ⟨fun m hm hs => ?_, fun hs => if_neg ?_⟩
  · rw [hs]
    exact if_pos ⟨Int.natCast_nonneg m, by omega, hm.2⟩
  · rintro ⟨h0, h32, hmask⟩
    exact hs (src l).toNat ⟨by omega, hmask⟩ (Int.toNat_of_nonneg h0).symm

/-- A mode of SHFL, by its source lane as a function of the lane and its selector (R165). -/
theorem formShfl_active {s : State} {c : Issue} {g : Group} {i : Instr} {d a b : BitVec 6} (h : Issues s c g) (src : Nat → Nat → Int)
    (he : exec i s = formShfl i d a b src s := by dsimp only [exec]; rfl) :
    GivesActive s c g d i (IsFromSource c g a.toNat fun l => src l ((g.lane l).rv b.toNat).toNat) :=
  formV_active h _ (fun l _ => shflValue_isFromSource c g a.toNat (fun l => src l ((g.lane l).rv b.toNat).toNat) l) he

theorem getLsbD_ballot (mask : BitVec 32) (f : Nat → Bool) {k : Nat} (hk : k < 32) :
    (ballot mask f).getLsbD k = (mask.getLsbD k && f k) :=
  getLsbD_bitsFn (fun m => mask.getLsbD m && f m) hk

/-- VOTE.BAL: bit `k` tells whether P[A] of lane `k` of Active(g) is true (R166). -/
theorem voteBal_active {s : State} {c : Issue} {g : Group} {d a : BitVec 6} (h : Issues s c g) :
    GivesActive s c g d (.voteBal d a) fun _ r => ∀ k < 32, r.getLsbD k = (c.mask.getLsbD k && (g.lane k).rp a.toNat) :=
  formV_active h (fun c g _ => ballot c.mask fun m => (g.lane m).rp a.toNat) fun _ _ _ hk => getLsbD_ballot _ _ hk

/-- MATCH: bit `k` tells whether lane `k` of Active(g) holds the value of the lane (R166). -/
theorem matchLanes_active {s : State} {c : Issue} {g : Group} {d a : BitVec 6} (h : Issues s c g) :
    GivesActive s c g d (.matchLanes d a)
      fun l r => ∀ k < 32, r.getLsbD k = (c.mask.getLsbD k && decide ((g.lane k).rv a.toNat = (g.lane l).rv a.toNat)) :=
  formV_active h (fun c g l => ballot c.mask fun m => (g.lane m).rv a.toNat == (g.lane l).rv a.toNat) fun l _ k hk => by
    rw [getLsbD_ballot _ _ hk, beq_eq_decide]

/-! ## Reductions and scans (R167) -/

/-- A sum of words is exact modulo 2^32. -/
theorem foldl_add_eq_ofNat : ∀ (xs : List W32) (x : W32), xs.foldl (· + ·) x = BitVec.ofNat 32 (x.toNat + (xs.map BitVec.toNat).sum)
  | [], x => by simp
  | y :: ys, x => by
    rw [List.foldl_cons, foldl_add_eq_ofNat ys]
    apply BitVec.eq_of_toNat_eq
    simp [Nat.add_assoc]

theorem laneFold_add (xs : List W32) : laneFold (· + ·) xs = BitVec.ofNat 32 (xs.map BitVec.toNat).sum := by
  cases xs with
  | nil => rfl
  | cons x xs => exact foldl_add_eq_ofNat xs x

/-- The sum over the lanes of the mask that satisfy a condition. -/
theorem laneFold_valuesOf (g : Group) (mask : BitVec 32) (a : Nat) (p : Nat → Bool) :
    laneFold (· + ·) (g.valuesOf mask a p) = BitVec.ofNat 32 (((lanesOf mask).filter p).map fun m => ((g.lane m).rv a).toNat).sum := by
  rw [laneFold_add, Group.valuesOf, List.map_map]
  rfl

/-- `f` selects that of two words whose key is the less. -/
def SelectsLeast (f : W32 → W32 → W32) (key : W32 → Int) : Prop :=
  ∀ x y, (f x y = x ∧ key x ≤ key y) ∨ (f x y = y ∧ key y ≤ key x)

theorem lesser_selects : SelectsLeast lesser BitVec.toInt := by
  intro x y
  unfold lesser
  by_cases h : x.toInt ≤ y.toInt
  · exact .inl ⟨if_pos (BitVec.sle_iff_toInt_le.mpr h), h⟩
  · exact .inr ⟨if_neg (mt BitVec.sle_iff_toInt_le.mp h), le_of_not_ge h⟩

theorem greater_selects : SelectsLeast greater fun x => -x.toInt := by
  intro x y
  unfold greater
  by_cases h : x.toInt ≤ y.toInt
  · exact .inr ⟨if_pos (BitVec.sle_iff_toInt_le.mpr h), neg_le_neg h⟩
  · exact .inl ⟨if_neg (mt BitVec.sle_iff_toInt_le.mp h), neg_le_neg (le_of_not_ge h)⟩

/-- A fold of such a selection gives a word of the list, and none has a lesser key. -/
theorem foldl_selects {f : W32 → W32 → W32} {key : W32 → Int} (hf : SelectsLeast f key) : ∀ (xs : List W32) (x : W32),
    xs.foldl f x ∈ x :: xs ∧ ∀ y ∈ x :: xs, key (xs.foldl f x) ≤ key y
  | [], x => by simp
  | z :: zs, x => by
    obtain ⟨hmem, hle⟩ := foldl_selects hf zs (f x z)
    obtain ⟨hx, hrest⟩ := List.forall_mem_cons.mp hle
    rw [List.foldl_cons, List.forall_mem_cons, List.forall_mem_cons]
    obtain ⟨hs, hxz⟩ | ⟨hs, hzx⟩ := hf x z
    · rw [hs] at hmem hx hrest ⊢
      exact ⟨List.cons_subset_cons x (List.subset_cons_self z zs) hmem, hx, hx.trans hxz, hrest⟩
    · rw [hs] at hmem hx hrest ⊢
      exact ⟨List.mem_cons_of_mem x hmem, hx.trans hzx, hx, hrest⟩

/-- A selection over Active(g) with a lane in it gives V[a] of one of its lanes, and none has a lesser key. -/
theorem laneFold_selects {f : W32 → W32 → W32} {key : W32 → Int} (hf : SelectsLeast f key) (g : Group) {mask : BitVec 32} (a : Nat) {l : Nat}
    (hl : l < 32 ∧ mask.getLsbD l = true) :
    (∃ m, (m < 32 ∧ mask.getLsbD m = true) ∧ laneFold f (g.valuesOf mask a fun _ => true) = (g.lane m).rv a) ∧
    ∀ m, m < 32 ∧ mask.getLsbD m = true → key (laneFold f (g.valuesOf mask a fun _ => true)) ≤ key ((g.lane m).rv a) := by
  have hmem : ∀ w, w ∈ g.valuesOf mask a (fun _ => true) ↔ ∃ m, (m < 32 ∧ mask.getLsbD m = true) ∧ (g.lane m).rv a = w := by
    simp [Group.valuesOf, mem_lanesOf]
  cases hv : g.valuesOf mask a fun _ => true with
  | nil => exact absurd ((hmem _).mpr ⟨l, hl, rfl⟩) (hv ▸ List.not_mem_nil)
  | cons x xs =>
    obtain ⟨hin, hle⟩ := foldl_selects hf xs x
    rw [← hv] at hin hle
    obtain ⟨m, hm, he⟩ := (hmem _).mp hin
    exact ⟨⟨m, hm, he.symm⟩, fun m hm => hle _ ((hmem _).mpr ⟨m, hm, rfl⟩)⟩

/-! ## Moves (R168) -/

/-- The half of an S register that MOVS names. -/
theorem half_eq (x : W64) (h : BitVec 1) :
    (if h = 1 then (x >>> 32).setWidth 32 else x.setWidth 32) = BitVec.ofNat 32 (x.toNat / 2 ^ (32 * h.toNat)) := by
  apply BitVec.eq_of_toNat_eq
  obtain rfl | rfl := BitVec.eq_zero_or_eq_one h
  · simp
  · simp [Nat.shiftRight_eq_div_pow]

theorem lowLane_eq {m : BitVec 32} {l : Nat} (hl : l < 32) (hm : m.getLsbD l = true) (hlow : ∀ k < l, m.getLsbD k = false) : lowLane m = l := by
  have h : laneNos.find? (fun l => m.getLsbD l) = some l := by
    simpa [laneNos, List.find?_range_eq_some, hl, hm] using hlow
  rw [lowLane, h]
  rfl

/-- Writes made in the lanes that satisfy a condition alone. -/
theorem lanesDo_if (mask : BitVec 32) (p : Nat → Bool) (w : Nat → RegWrite) :
    (lanesDo mask fun l => if p l then [w l] else []) = ((lanesOf mask).filter p).map w := by
  rw [lanesDo]
  induction lanesOf mask with
  | nil => rfl
  | cons l ls ih => cases hp : p l <;> simp [hp, ih]

/-- SEL gives V[D] in the lanes whose predicate holds, and in no other. -/
theorem sel_gives {s : State} {c : Issue} {g : Group} {d a : BitVec 6} {n : BitVec 1} {k : BitVec 3} (h : Ready (.sel d a n k) s c g) :
    Gives (.sel d a n k) s c 4
      (((lanesOf c.mask).filter fun l => (g.lane l).rp k.toNat != (n == 1)).map fun l => .v l d.toNat ((g.lane l).rv a.toNat)) [] := by
  rw [← lanesDo_if]
  exact postFixed_gives h.1.2 (issue_ready h _)

/-- Settles O6: each row is its form, whose value in each lane is described by the lemma of its operation. -/
theorem laneExchangeResults : Obligations.LaneExchangeResults := by
  refine ⟨fun s c g d a b h => ?lanes, fun s c g d a half n k h => ?moves⟩
  case lanes =>
    intro A sel active holds from_
    have hholds : holds = GivesActive s c g d := rfl
    have hfrom : from_ = IsFromSource c g a.toNat := rfl
    clear_value holds from_
    subst hholds hfrom
    refine ⟨formShfl_active h fun _ x => ((x % 32 : Nat) : Int), formShfl_active h fun l x => (l : Int) - ((x % 64 : Nat) : Int),
      formShfl_active h fun l x => (l : Int) + ((x % 64 : Nat) : Int), formShfl_active h fun l x => ((Nat.xor l (x % 32) : Nat) : Int),
      voteBal_active h, matchLanes_active h, formV_active h _ fun l _ => ?sum,
      formV_active h _ fun l => laneFold_selects lesser_selects g a.toNat, formV_active h _ fun l hl => ?greatest,
      formV_active h _ fun l _ => laneFold_valuesOf ..,
      fun hw => ⟨(lanesOf c.mask).all fun m => (g.lane m).rp a.toNat, formP_results h (fun _ l => rfl) (hw := hw), ?every⟩,
      fun hw => ⟨(lanesOf c.mask).any fun m => (g.lane m).rp a.toNat, formP_results h (fun _ l => rfl) (hw := hw), ?some⟩⟩
    case sum => rw [laneFold_valuesOf, List.filter_true]
    case greatest =>
      obtain ⟨hmem, hle⟩ := laneFold_selects greater_selects g a.toNat hl
      exact ⟨hmem, fun m hm => neg_le_neg_iff.mp (hle m hm)⟩
    case every => simp only [List.all_eq_true, mem_lanesOf]; rfl
    case some => simp only [List.any_eq_true, mem_lanesOf]; rfl
  case moves =>
    intro A
    refine ⟨?vectors, fun hw l hl hm hlow => formS_results h ?lowest (hw := hw), formS_results h rfl, formP_results h fun _ l => ?nonzero,
      fun hw => sel_gives ⟨h, hw⟩⟩
    case vectors =>
      simp only [List.forall_mem_cons]
      exact ⟨formVV_results h fun l => rfl, formV_results h fun l => half_eq .., formV_results h fun l => rfl, List.forall_mem_nil _⟩
    case nonzero => rw [bne, beq_eq_decide, decide_not]
    case lowest =>
      rw [lowLane_eq hl hm hlow]
      exact (BitVec.ofNat_toNat ..).symm

end Sys2Proof
end
